-- ==== Sys2Proof/Word.lean ====
section
/-! DEFINITION. The word types of the TH4 and the sparse table type.

R2 (00): bit 0 is the least significant bit of a field, register or word. -/

namespace Sys2Proof

/-- An octet: the unit of memory and of message layouts (00 R3). -/
abbrev Byte := BitVec 8

/-- A 16-bit word: BF16 values, pip counts, indices of the object dictionary. -/
abbrev W16 := BitVec 16

/-- A 32-bit word: instruction words, binary32 values, 32-bit registers. -/
abbrev W32 := BitVec 32

/-- A 64-bit word: general registers and 64-bit control registers (03 R54). -/
abbrev W64 := BitVec 64

/-- A device physical address (01 R22). -/
abbrev Addr := BitVec 48

/-- A module identifier (14 R334). -/
abbrev ModId := BitVec 18

/-- A sparse table: keys strictly rising, and no entry that equals the table's default.
Equal tables are therefore equal lists. The operations are in Machine/Tab.lean. -/
abbrev Tab (α : Type) := List (Nat × α)

end Sys2Proof
end

