-- ==== Sys2Proof/Syntax.lean ====
section
/-! DEFINITION. The commands of the TH4-M512: one constructor of `Instr` for each row of spec/opcode_table.json,
in the table's order, and the types of their operands. -/

namespace Sys2Proof

/-- Module cell number (00 R9). -/
abbrev CellId := Fin 512
/-- Module block number (00 R9). -/
abbrev BlockId := Fin 64
/-- Region number (00 R9). -/
abbrev RegionId := Fin 4
/-- Module controller number, and with it the Setter and the adder unit there (00 R9). -/
abbrev CtlId := Fin 24
/-- Job context of a Setter or an adder unit (12 R267, 13 R297). -/
abbrev CtxId := Fin 8
/-- Fabric port +X, −X, +Y, −Y, +Z, −Z (14 R360). -/
abbrev PortId := Fin 6
/-- Partition number (16 R372). -/
abbrev PartId := Fin 16
/-- Command slot number (17 R414). -/
abbrev SlotIx := Fin 16
/-- Session entry number (17 R422). -/
abbrev SessIx := Fin 16
/-- A 5-bit register field: a G, F or V register (09 R206). -/
abbrev Reg := Fin 32
/-- P0–P15 (04 R86). -/
abbrev PReg := Fin 16
/-- T0–T63 (06 R129). -/
abbrev TReg := Fin 64

/-- Element and access sizes .B .H .W .D (04 R84). -/
inductive Size where
  | b | h | w | d
  deriving DecidableEq, Repr

/-- What the check bits of the memory words an access reads show (10 R234, R239): the silicon's event, given with the command. -/
inductive Ecc where
  | clean | single | double
  deriving DecidableEq, Repr

/-- What the check bits show on the word that byte `byte` of an access falls in; `out`: on a dirty line that the access makes a cache
give up, and that is read for its write-back, an uncorrectable word (03 R67). -/
structure Check where
  ecc : Ecc
  byte : Nat
  out : Bool
  deriving DecidableEq, Repr

/-- Check bits that show nothing. -/
def Check.clean : Check := ⟨.clean, 0, false⟩

/-- The conditions of BR (09, "Integer, jump and branch families"); 0b111 is reserved. -/
inductive BrCond where
  | eq | ne | lt | ge | lo | hs | reserved
  deriving DecidableEq, Repr

/-- The governing predicate of a predicated vector instruction (04 R87, 09 R207): P0–P7, keep (false) or zero (true),
and the bits of the field that the function does not use and that are not 0. -/
structure Gov where
  pg : Fin 8
  zero : Bool
  rsv : Bool
  deriving DecidableEq, Repr

/-- A cache of CCTL or BCCTL (03 R77). -/
inductive CacheSel where
  | l1i | l1d | l2
  deriving DecidableEq, Repr

/-- VADD … VSRA, and the reserved codes of VA (09). -/
inductive VIntOp where
  | add | sub | mul | and | orr | xor | bic | sll | srl | sra | reserved (fn : BitVec 6)
  deriving DecidableEq, Repr

/-- VFADD … VFNMS (09, VA 0x10–0x1C). -/
inductive VFpOp where
  | add | sub | mul | div | sqrt | min | max | abs | neg | fma | fms | fnma | fnms
  deriving DecidableEq, Repr

/-- VCVT.FI, .FU, .IF, .UF (09, VA 0x1D–0x20). -/
inductive VCvtOp where
  | fi | fu | toI | toU
  deriving DecidableEq, Repr

/-- The VPACKS variants (09 R218); 0b11 is reserved. -/
inductive PackVar where
  | ss | su | uu | reserved
  deriving DecidableEq, Repr

/-- The comparisons of VCMP (09, VX 0x00–0x10). -/
inductive VCmpOp where
  | eq | ne | lt | le | gt | ge | lo | ls | hi | hs | feq | fne | flt | fle | fgt | fge | fuo
  deriving DecidableEq, Repr

/-- The operations of VRED (09, VX 0x11–0x1B). -/
inductive VRedOp where
  | add | maxS | maxU | minS | minU | and | or | xor | fadd | fmax | fmin
  deriving DecidableEq, Repr

/-- The operations of VSCAN (09 R219). -/
inductive ScanOp where
  | add | maxS | maxU | minS | minU | fadd | fmax | fmin
  deriving DecidableEq, Repr

/-- PMAND, PMOR, PMXOR, PMANDN, PMINV (04 R89). -/
inductive PLogic where
  | and | or | xor | andn | inv
  deriving DecidableEq, Repr

/-- VWEAVELO, VWEAVEHI, VSIFTEV, VSIFTOD (04 R98). -/
inductive WeaveOp where
  | lo | hi | ev | od
  deriving DecidableEq, Repr

/-- Who makes a tile-window access (01 R24): a copy engine, or debug access by a Tenant session of a partition. -/
inductive Agent where
  | engine (b : BlockId) (e : Fin 2)
  | debug (p : PartId)
  deriving DecidableEq, Repr

/-- A tile-window access: bytes to write, or the number of bytes to read. -/
inductive WinOp where
  | rd (len : Nat)
  | wr (data : List Byte)
  deriving DecidableEq, Repr

/-- A contribution to a statistic slot (08 R197). `fmt` is absent for the contributions that carry no format (R199). -/
structure Contribution where
  hall : Byte
  fmt : Option (BitVec 4)
  conv : Nat
  satc : Nat
  vanc : Nat
  invc : Nat
  degc : Nat
  nfc : Nat
  bumpc : Nat
  amax : W32
  bump : BitVec 4
  deriving DecidableEq, Repr

/-- An arbiter, by level and index (15 R368). -/
inductive ArbId where
  | block (b : BlockId) (a : Fin 4)
  | region (r : RegionId) (a : Fin 278)
  | module (a : Fin 14)
  deriving DecidableEq, Repr

/-- What stops a copy after data has begun to move (10 R227): of a watchdog bite, the arbiter that bites and what its row ARB_BITE has. -/
inductive CopyStop where
  | hallmark | uncorrectable (detail : Byte) | bite (a : ArbId) (beats later : Nat) | remoteRefused | remoteLost
  deriving DecidableEq, Repr

/-- What stops or poisons a Setter pass (12 R289, R290). -/
inductive SetterStop where
  | hallmark | strand | uncorrectable (addr : Addr) | abort
  deriving DecidableEq, Repr

/-- A flit (14 R337, R338): the header word, the 248 payload bytes, the CRC-32, and what the FEC found: every codeword correctable,
and the symbols corrected. -/
structure Flit where
  hdr : W32
  payload : List Byte
  crc : W32
  fecOk : Bool
  fecFix : Nat
  deriving DecidableEq, Repr

/-- Traffic classes (15 R362). -/
inductive Cls where
  | urgent | reduce | bulk
  deriving DecidableEq, Repr

/-- The activity of one block in a 10 ms period (16 R393). -/
structure BlockActivity where
  cellSteps : Nat
  beats : Nat
  lpUnits : Nat
  sramUnits : Nat
  msRun : Nat
  msNap : Nat
  msDoze : Nat
  deriving DecidableEq, Repr

/-- The interface a request arrives on (17 R396). -/
inductive Iface where
  | host | field
  deriving DecidableEq, Repr

/-- An address and a UDP port (17 R396): 16 bytes of IPv6 or 4 of IPv4, in network order. -/
structure Udp where
  v6 : Bool
  addr : List Byte
  port : W16
  deriving DecidableEq, Repr

/-- A WDP message without its TAG (17 R399); VERSION is 0x01. -/
structure WdpMsg where
  op : Byte
  status : Byte
  flags : Byte
  sess : W32
  seq : W32
  idx : W16
  sub : Byte
  off : W16
  len : W16
  total : W16
  pay : List Byte
  deriving DecidableEq, Repr

/-- What a WDP request after establishment carries beside its opcode, entry and payload (17 R396, R399): where it comes from and goes to,
SESSION, SEQ and TAG. -/
structure Req where
  iface : Iface
  src : Udp
  dst : Udp
  sess : W32
  seq : W32
  tag : List Byte
  deriving DecidableEq, Repr

/-- What a transfer at an arbiter carries (15 R361, R362, R370): of an access of a cell its 64-bit address, of a message its place
among those on their way, of a packet its class; `inbound`: the `k`-th packet delivered to this module; `outbound`: the `k`-th packet in a
port's queue; `snoop`: a snoop, snoop response or write-back that another transfer has caused; `roce`: an operation of a queue pair,
with the ring and index of the entry it serves. -/
inductive Transfer where
  | fetch (c : CellId) (va : BitVec 64)
  | load (c : CellId) (va : BitVec 64)
  | atomic (c : CellId) (va : BitVec 64)
  | store (c : CellId) (va : BitVec 64)
  | cpq (c : CellId) (d a : Reg) (chk : Check)
  | copy (b : BlockId) (e : Fin 2)
  | setter (m : CtlId) (j : CtxId)
  | adder (m : CtlId) (j : CtxId) (bucket : W16)
  | drain (c : CellId)
  | scrub
  | signal (k : Nat)
  | barrier (k : Nat)
  | ready (k : Nat)
  | verdict (k : Nat)
  | packet (cls : Cls)
  | inbound (k : Nat) (cls : Cls)
  | outbound (p : PortId) (k : Nat) (cls : Cls)
  | snoop (cause : Transfer)
  | wdp (q : Req) (m : WdpMsg)
  | roce (b : BlockId) (k : BitVec 6) (recv : Bool) (idx : W16)
  deriving DecidableEq, Repr

/-- A request standing at an arbiter when it decides (15 R361, R363): its requester port, what it would transfer, and the beats that
takes. -/
structure ArbReq where
  port : Byte
  what : Transfer
  beats : Nat
  deriving DecidableEq, Repr

/-- What a READ names: a dictionary entry, or device memory (01 R23, 16 R377). -/
inductive ReadTarget where
  | entry (idx : W16) (sub : Byte)
  | mem (addr : Addr) (len : BitVec 11) (chk : Check)
  deriving DecidableEq, Repr

/-- What a WRITE names: a dictionary entry, or device memory (01 R23, 16 R377). -/
inductive WriteTarget where
  | entry (idx : W16) (sub : Byte)
  | mem (addr : Addr) (chk : Check)
  deriving DecidableEq, Repr

/-- A HELLO request (17 R403, step 1). -/
structure HelloMsg where
  iface : Iface
  src : Udp
  dst : Udp
  sess : W32
  seq : W32
  role : Byte
  part : Byte
  key : List Byte
  nonce : List Byte
  deriving DecidableEq, Repr

/-- A KEYX request (17 R403, steps 3 and 5): RA, or SA. -/
inductive KeyxBody where
  | ra (key : List Byte)
  | sa (conf : List Byte)
  deriving DecidableEq, Repr

/-- A KEYX request with its header (17 R406). -/
structure KeyxMsg where
  iface : Iface
  src : Udp
  dst : Udp
  sess : W32
  seq : W32
  body : KeyxBody
  deriving DecidableEq, Repr

/-- The wake events of 20 R456 and R457. -/
inductive WakeEvent where
  | waitSatisfied | waitTimeout | interrupt | tileWindow | tolerance | partitionCommand | cellRelease
  deriving DecidableEq, Repr

/-- What a RoCEv2 peer answers (19 R448). -/
inductive RoceAck where
  | ack | nakAccess | rnr | readData (data : List Byte)
  deriving DecidableEq, Repr

/-- What the header of a RoCEv2 packet shows (19 R441, R448): where the packet goes, and the congestion mark. -/
structure RoceHdr where
  dst : Udp
  ce : Bool
  deriving DecidableEq, Repr

/-- What a RoCEv2 packet to a queue pair is (19 R447, R448, R450). -/
inductive RoceMsg where
  | write (rkey : BitVec 32) (rva : BitVec 64) (data : List Byte) (chk : Check)
  | readRequest (rkey : BitVec 32) (rva : BitVec 64) (len : BitVec 32)
  | send (data : List Byte) (chk : Check)
  | answer (ans : RoceAck) (chk : Check)
  | cnp
  deriving DecidableEq, Repr

/-- What an Ethernet frame holds, by what the port does with it (19 R441): the addresses are those configured, or another; `asker` is the
address that an answer goes back to. -/
inductive Frame where
  | arp (iface : Iface) (ipv4 : W32) (asker : List Byte)
  | neighbour (iface : Iface) (ipv6 : List Byte) (asker : List Byte)
  | echo (iface : Iface) (v6 : Bool) (addr asker : List Byte) (body : List Byte)
  | udp (iface : Iface) (src dst : Udp) (body : List Byte)
  | roce (iface : Iface) (h : RoceHdr) (b : BlockId) (k : BitVec 6) (m : RoceMsg)
  | pause8023x (iface : Iface)
  | other (iface : Iface)
  | badFcs (iface : Iface)
  deriving DecidableEq, Repr

/-- An Ethernet frame (19 R439): its bytes, the PCP and VLAN ID of its 802.1Q tag where it has one, what it holds, and the FEC codewords that
were corrected and could not be (18 R433). -/
structure EthFrame where
  len : Nat
  tag : Option (BitVec 3 × BitVec 12)
  body : Frame
  fecFix : Nat
  fecBad : Nat
  deriving DecidableEq, Repr

/-- What a start-up stage found (21 R464): success, or the FAULTED cause, the units that failed their tests, and the
digests the stage extends into MEAS registers (16 R388). -/
structure BootResult where
  ok : Bool
  cause : Byte
  badControllers : BitVec 24
  badBlocks : BitVec 64
  badGroups : BitVec 64
  badBanks : List Nat
  digests : List (List Byte)
  deriving DecidableEq, Repr

/-- The commands of the TH4-M512: the rows of spec/opcode_table.json, in order. -/
inductive Instr where
  /-- INTEGER_REG_OP (R208). An IR-family instruction (ADD, SUB, shifts, compares, MUL, DIV, MOD, MIN, MAX) reads Ga and Gb and writes Gd, wrapping on 64 bits with no flag. -/
  | integerRegOp (c : CellId) (fn : BitVec 7) (d a b : Reg) (rsv : BitVec 6)
  /-- INTEGER_IMM_OP (R209). An II-family instruction combines Ga with the sign-extended immediate and writes Gd. -/
  | integerImmOp (c : CellId) (fn : BitVec 4) (d a : Reg) (imm : BitVec 14)
  /-- MOVHI (R209). MOVHI writes its 21-bit immediate shifted left by 13 into Gd. -/
  | movhi (c : CellId) (d : Reg) (imm : BitVec 21)
  /-- PCREL (R209). PCREL writes PC plus the immediate shifted left by 13 into Gd. -/
  | pcrel (c : CellId) (d : Reg) (imm : BitVec 21)
  /-- CALL (R209). CALL saves PC+4 in Gd and jumps PC-relative by 4 times the immediate. -/
  | call (c : CellId) (d : Reg) (imm : BitVec 21)
  /-- JUMPR (R208). JUMPR saves PC+4 in Gd and jumps to Ga plus 4 times the immediate, with Ga read before Gd is written. -/
  | jumpr (c : CellId) (d a : Reg) (imm : BitVec 16)
  /-- BR_COND (R209). A conditional branch compares Ga and Gb, signed or unsigned, and branches by 4 times OFF when the condition holds. -/
  | brCond (c : CellId) (cond : BrCond) (a b : Reg) (off : BitVec 15)
  /-- BRSOME_BRNONE (R89). BRSOME or BRNONE branches when some or no element of the named predicate is active. -/
  | brsomeBrnone (c : CellId) (none : Bool) (pa : PReg) (sz : Size) (off : BitVec 15)
  /-- LD (R215). A scalar load (LD or LDS) reads memory at Ga plus IMM into Gd, checked against windows and hallmarks. -/
  | ld (c : CellId) (sgn : Bool) (d a : Reg) (sz : Size) (imm : BitVec 13) (chk : Check)
  /-- ST (R215). A scalar store writes Gs to memory at Ga plus IMM as a posted access. -/
  | st (c : CellId) (d a : Reg) (sz : Size) (imm : BitVec 13) (chk : Check)
  /-- FLD (R85). FLD loads binary32 or binary64 into Fd and zeroes the rest of the overlaid vector register. -/
  | fld (c : CellId) (d a : Reg) (dbl : Bool) (imm : BitVec 13) (chk : Check)
  /-- FST (R215). FST stores Fs, or its low 32 bits, to memory. -/
  | fst (c : CellId) (d a : Reg) (dbl : Bool) (imm : BitVec 13) (chk : Check)
  /-- LD_AQ (R70). LD.AQ performs an aligned load that no later access of the cell may precede. -/
  | ldAq (c : CellId) (d a : Reg) (dbl : Bool) (imm : BitVec 13) (chk : Check)
  /-- ST_RL (R70). ST.RL performs an aligned store after every earlier access of the cell. -/
  | stRl (c : CellId) (d a : Reg) (dbl : Bool) (imm : BitVec 13) (chk : Check)
  /-- ATMADD (R215). ATMADD atomically adds Gb to an aligned location and returns the old value. -/
  | atmadd (c : CellId) (d a b : Reg) (dbl aq rl : Bool) (chk : Check)
  /-- ATMSWAP (R215). ATMSWAP atomically replaces an aligned location with Gb and returns the old value. -/
  | atmswap (c : CellId) (d a b : Reg) (dbl aq rl : Bool) (chk : Check)
  /-- ATMCAS (R215). ATMCAS atomically stores Gb when the location equals Gd and returns the old value. -/
  | atmcas (c : CellId) (d a b : Reg) (dbl aq rl : Bool) (chk : Check)
  /-- SCALAR_FP_OP (R216). An SF-family instruction performs IEEE 754 arithmetic, conversion, move or comparison and sets FSTAT sticky flags. -/
  | scalarFpOp (c : CellId) (fn : BitVec 6) (fmt : BitVec 2) (d a b x : Reg)
  /-- FENCE (R70). FENCE orders every earlier access before every later access. -/
  | fence (c : CellId)
  /-- FETCHSYNC (R73). FETCHSYNC makes earlier stores of the cell visible to its later instruction fetches. -/
  | fetchsync (c : CellId)
  /-- SRD (R56). SRD reads a system register into Gd under the per-level access table. -/
  | srd (c : CellId) (d : Reg) (sr : BitVec 12)
  /-- SWR (R56). SWR writes Ga to a system register that has no behaviour of its own, under the per-level access table. -/
  | swr (c : CellId) (sr : BitVec 12) (a : Reg) (again : BitVec 5)
  /-- TRAP (R65). TRAP raises class 0x0A with its immediate as detail and returns past itself. -/
  | trap (c : CellId) (imm : BitVec 12)
  /-- BRK (R62). BRK raises the BRK exception. -/
  | brk (c : CellId)
  /-- TRET (R65). TRET restores PC, privilege and IEN from KRPC and KSTATE and clears NEST. -/
  | tret (c : CellId)
  /-- INTERRUPT_TAKE (R64). A qualifying interrupt is taken between instructions, abandoning uncommitted tile instructions and waiting pip instructions. -/
  | interruptTake (c : CellId)
  /-- TIMER_COMPARE (R66). CTIME reaching CTCMP makes KIPEND.TIMER pending. -/
  | timerCompare (c : CellId)
  /-- CTCMP_WRITE (R66). A write to CTCMP takes effect in one handshake and re-evaluates the timer comparison. -/
  | ctcmpWrite (c : CellId) (a : Reg)
  /-- DOORBELL (R62). A doorbell from the module controller makes KIPEND.DOORBELL pending at a cell. -/
  | doorbell (c : CellId) (n : BitVec 8)
  /-- HALLMARK_REFUSAL_RETURN (R82). A refusal of a posted store or PIPSIG returns to the issuing cell and makes the hallmark-refusal interrupt pending. -/
  | hallmarkRefusalReturn (k : Nat)
  /-- CACHE_DISABLE (R77). Clearing L1IEN or L1DEN waits for in-flight accesses, cleans dirty lines, stops lookup and sets the STALE bit. -/
  | cacheDisable (c : CellId) (l1i l1d : Bool) (bad : List Nat)
  /-- L2_DISABLE (R78). Clearing BCCTL.L2EN disables the L2 and every L1 of the block's cells in one event. -/
  | l2Disable (hall : Byte) (b : BlockId) (bad : List Nat)
  /-- CACHE_REENABLE (R79). Setting an EN bit while STALE is 1 re-enables the cache on old contents and logs a stale re-enable record. -/
  | cacheReenable (c : CellId) (which : CacheSel)
  /-- VECTOR_INT_OP (R91). A vector integer add, subtract, multiply, shift or logical operation acts on the active elements, wrapping. -/
  | vectorIntOp (c : CellId) (op : VIntOp) (sz : Size) (d a b : Reg) (g : Gov)
  /-- VECTOR_FP_OP (R90). A vector binary32 or binary64 operation acts on the active elements under IEEE 754 and sets FSTAT flags. -/
  | vectorFpOp (c : CellId) (op : VFpOp) (bc : Bool) (sz : Size) (d a b : Reg) (g : Gov)
  /-- VFXMUL (R92). VFXMULHR or VFXMULH computes a saturating fixed-point high product and may set VSTAT.SAT. -/
  | vfxmul (c : CellId) (rnd : Bool) (sz : Size) (d a b : Reg) (g : Gov)
  /-- VSATADD_VSATSUB (R92). A saturating vector add or subtract clamps each element and may set VSTAT.SAT. -/
  | vsataddVsatsub (c : CellId) (sub uns : Bool) (sz : Size) (d a b : Reg) (g : Gov)
  /-- VCVT (R217). A same-size vector conversion between integer and floating elements saturates and gives 0 for a NaN. -/
  | vcvt (c : CellId) (op : VCvtOp) (sz : Size) (d a : Reg) (g : Gov)
  /-- VFWIDEN (R217). VFWIDENLO or VFWIDENHI converts narrow elements of one half of Va to wide elements. -/
  | vfwiden (c : CellId) (hi : Bool) (sz : Size) (d a : Reg) (g : Gov)
  /-- VFNARROW (R217). VFNARROW converts Va and Vb into the low and high halves of Vd, rounding under FSTAT.RM. -/
  | vfnarrow (c : CellId) (sz : Size) (d a b : Reg) (g : Gov)
  /-- VPACKS (R92). VPACKS narrows two source registers with shift, rounding and saturation. -/
  | vpacks (c : CellId) (var : PackVar) (szsh : BitVec 7) (rnd : Bool) (d a b : Reg) (g : Gov)
  /-- VCMP (R89). VCMP writes a predicate from an element-wise comparison. -/
  | vcmp (c : CellId) (op : VCmpOp) (sz : Size) (pd : PReg) (a b : Reg) (g : Gov)
  /-- VRED (R96). VRED reduces all elements by a butterfly, with identities for inactive elements. -/
  | vred (c : CellId) (op : VRedOp) (sz : Size) (d a : Reg) (g : Gov)
  /-- VREDO (R97). VREDO.ADD sums the active elements in ascending order from Fc. -/
  | vredo (c : CellId) (sz : Size) (d a fc : Reg) (g : Gov)
  /-- VLAST (R94). VLAST returns the last active element, or 0 when none is active. -/
  | vlast (c : CellId) (toF : Bool) (sz : Size) (d a : Reg) (g : Gov)
  /-- VSCAN (R93). VSCAN or VSCANX computes an inclusive or exclusive segmented scan with a carry-in. -/
  | vscan (c : CellId) (excl : Bool) (op : ScanOp) (sz : Size) (d a cr : Reg) (g : Gov) (ps : PReg)
  /-- PPOP (R89). PPOP writes the number of active elements of a predicate to Gd. -/
  | ppop (c : CellId) (sz : Size) (d : Reg) (g : Gov)
  /-- VELEMS (R89). VELEMS writes the element count for the size to Gd. -/
  | velems (c : CellId) (sz : Size) (d : Reg)
  /-- PSET (R89). PSET makes every element of a predicate active. -/
  | pset (c : CellId) (pd : PReg) (sz : Size)
  /-- PCLR (R89). PCLR sets all 256 predicate bits to zero. -/
  | pclr (c : CellId) (pd : PReg)
  /-- PTAIL (R89). PTAIL activates the elements below the signed count in Gr. -/
  | ptail (c : CellId) (pd : PReg) (r : Reg) (sz : Size)
  /-- PREDICATE_LOGIC (R89). PMAND, PMOR, PMXOR, PMANDN or PMINV combine predicates bitwise. -/
  | predicateLogic (c : CellId) (op : PLogic) (pd pa pb : PReg)
  /-- VSHUF (R98). VSHUF or VSHUF2 permutes elements by an index vector, giving 0 beyond range. -/
  | vshuf (c : CellId) (two : Bool) (sz : Size) (d a b i : Reg)
  /-- VWEAVE_VSIFT (R98). VWEAVELO, VWEAVEHI, VSIFTEV or VSIFTOD interleaves or de-interleaves elements. -/
  | vweaveVsift (c : CellId) (op : WeaveOp) (sz : Size) (d a b : Reg)
  /-- VREVERSE (R98). VREVERSE reverses the element order. -/
  | vreverse (c : CellId) (sz : Size) (d a : Reg)
  /-- VWINDOW (R98). VWINDOW extracts N elements from the concatenation Va:Vb starting at Gk. -/
  | vwindow (c : CellId) (sz : Size) (d a b k : Reg)
  /-- VBCAST (R98). VBCAST copies a scalar into every element. -/
  | vbcast (c : CellId) (fromF : Bool) (sz : Size) (d a : Reg)
  /-- VLD (R99). VLD loads the active elements all-or-nothing from consecutive memory. -/
  | vld (c : CellId) (d a : Reg) (sz : Size) (g : Gov) (chk : Check)
  /-- VST (R99). VST stores the active elements all-or-nothing to consecutive memory. -/
  | vst (c : CellId) (d a : Reg) (sz : Size) (g : Gov) (chk : Check)
  /-- VGATHER (R101). VGATHER loads indexed elements from VRESUME.IDX upward and records the lowest faulting element in VRESUME. -/
  | vgather (c : CellId) (d a i : Reg) (sz : Size) (g : Gov) (ext sc : Bool) (chk : Check)
  /-- VSCATTER (R101). VSCATTER stores indexed elements from VRESUME.IDX upward, with higher elements winning on overlap. -/
  | vscatter (c : CellId) (d a i : Reg) (sz : Size) (g : Gov) (ext sc : Bool) (chk : Check)
  /-- VGATHERFF (R105). VGATHERFF gathers until the first fault beyond the first active element and reports the loaded elements in Pd. -/
  | vgatherff (c : CellId) (d a i : Reg) (pd : PReg) (sz : Size) (g : Gov) (ext sc : Bool) (chk : Check)
  /-- PLD_PST (R89). PLD or PST moves a 32-byte predicate between a register and memory. -/
  | pldPst (c : CellId) (store : Bool) (p : PReg) (a : Reg) (chk : Check)
  /-- SLD (R120). SLD reads and validates a strand image, then copies it into a strand slot. -/
  | sld (c : CellId) (n : Fin 4) (a : Reg) (chk : Check)
  /-- VMAP (R123). VMAP runs the strand of a slot on every active element and writes its outputs whole. -/
  | vmap (c : CellId) (d a : Reg) (n : Fin 4) (g : Gov)
  /-- STRSTAT_EMPTY (R122). Writing 1 to a STRSTAT.VALID bit empties that strand slot. -/
  | strstatEmpty (c : CellId) (a : Reg)
  /-- VRESUME_WRITE (R104). S writes VRESUME.IDX, which sets the starting element of the next gather or scatter. -/
  | vresumeWrite (c : CellId) (a : Reg)
  /-- VECTOR_GATE (R108). After VPWR.IDLE × 256 steps without a vector instruction, the vector datapaths are gated. -/
  | vectorGate (c : CellId)
  /-- VECTOR_WAKE_END (R109). The 240-step wake of the vector datapaths ends, deferred zeroing is applied, and the waiting vector instruction proceeds. -/
  | vectorWakeEnd (c : CellId)
  /-- TMMA (R142). TMMA checks the shape and starts a matrix multiply-accumulate into an FP32 quad. -/
  | tmma (c : CellId) (cq : Fin 16) (a b s : TReg) (o : BitVec 4) (gsel : BitVec 2) (par : List TReg)
  /-- TLD (R152). TLD loads 1 KiB into a tile register, written at commit. -/
  | tld (c : CellId) (td : TReg) (ga : Reg) (chk : Check) (acc : Bool)
  /-- TST (R152). TST stores a tile register to memory after forcing any write-back. -/
  | tst (c : CellId) (ts : TReg) (ga : Reg) (par : List TReg) (chk : Check)
  /-- TZERO (R147). TZERO sets a tile register to zero bytes. -/
  | tzero (c : CellId) (td : TReg) (acc : Bool)
  /-- TZERO_Q (R146). TZERO.Q zeroes a quad and makes it resident without reading it. -/
  | tzeroQ (c : CellId) (tc : TReg) (acc : Bool)
  /-- TSCALE (R184). TSCALE multiplies each element of a quad by Fs with one rounding. -/
  | tscale (c : CellId) (tc : TReg) (fs : Reg) (par : List TReg)
  /-- TCVT_NARROW (R185). A narrowing TCVT converts a scaled FP32 quad to FP8 or BF16 and counts outcome classes into a statistic slot. -/
  | tcvtNarrow (c : CellId) (td tc : TReg) (fs gk : Reg) (par : List TReg)
  /-- TCVT_WIDEN (R186). A widening TCVT converts FP8 or BF16 times Fs to an FP32 quad and makes it resident. -/
  | tcvtWiden (c : CellId) (tc ts : TReg) (fs gk : Reg) (par : List TReg)
  /-- TDRAIN (R151). TDRAIN scales and converts a quad into the drain buffer as a tile of a reduction bucket. -/
  | tdrain (c : CellId) (tc : TReg) (fs gj : Reg) (par : List TReg)
  /-- TILE_COMMIT (R139). A tile instruction commits in program order, updating registers, residency, TSTAT, TSEED and statistic slots together. -/
  | tileCommit (c : CellId)
  /-- TCFG_WRITE (R132). An SWR to TCFGn waits for earlier tile commits, writes back the resident accumulator and sets the format tags. -/
  | tcfgWrite (c : CellId) (n : Fin 4) (a : Reg) (acc : Bool)
  /-- TSEED_WRITE (R133). An SWR to TSEED waits for earlier tile commits and stores the state, replacing 0 by 1. -/
  | tseedWrite (c : CellId) (a : Reg)
  /-- TILE_ARRAY_GATE (R159). After TPWR.IDLE × 256 idle steps, the accumulator is written back and the tile array is gated. -/
  | tileArrayGate (c : CellId) (acc : Bool)
  /-- TILE_ARRAY_WAKE_END (R160). The 400-step wake of the tile array ends and the waiting tile instruction may enter its beats. -/
  | tileArrayWakeEnd (c : CellId)
  /-- DRAIN_PACKET_SEND (R306). Committed drain-buffer packets leave for the home adder once a local tile buffer is free. -/
  | drainPacketSend (c : CellId)
  /-- TILE_WINDOW_ACCESS (R25). A copy-engine or debug access to a tile window waits for conflicting commits and reads or writes tile bytes. -/
  | tileWindowAccess (ag : Agent) (c : CellId) (off : BitVec 16) (op : WinOp) (acc : Bool)
  /-- SLOT_CONTRIBUTION (R197). A contribution reaches a statistic slot and adds counts, amax and bump, or is refused for a wrong format or hallmark. -/
  | slotContribution (r : RegionId) (s : Byte) (x : Contribution)
  /-- SLOT_CLOSE (R200). Writing SCTL.CLOSE pushes the history entry, computes SNEXT and RNEXT, evaluates events and zeroes the step counters. -/
  | slotClose (hall : Byte) (r : RegionId) (s : Byte)
  /-- SLOT_CLEAR (R196). Writing SCTL.CLEAR zeroes the slot's counters and history and copies SCUR to SNEXT. -/
  | slotClear (hall : Byte) (r : RegionId) (s : Byte)
  /-- SCFG_WRITE (R196). A write that changes SCFG.FMT, POLICY or WIN clears the slot after the write. -/
  | scfgWrite (hall : Byte) (r : RegionId) (s : Byte) (v : BitVec 64)
  /-- CPQ (R214). CPQ offers a copy descriptor to a block copy engine, which copies it into its queue or reports the queue full. -/
  | cpq (c : CellId) (d a : Reg) (e : Fin 2) (chk : Check)
  /-- DESCRIPTOR_START (R225). A copy engine starts its next queued descriptor and checks fields, overlap, addresses, windows, slot and tile window before moving data. -/
  | descriptorStart (b : BlockId) (e : Fin 2)
  /-- COPY_COMPLETE (R226). A descriptor whose writes are visible and whose slot contribution is made completes, increments CEDONE and signals its completion pip. -/
  | copyComplete (b : BlockId) (e : Fin 2) (src chk : Check)
  /-- COPY_ERROR (R227). A copy that meets a refusal, bite or remote failure after data moved ends with an error, records CEERR and signals the error pip. -/
  | copyError (b : BlockId) (e : Fin 2) (err : CopyStop) (addr : BitVec 48)
  /-- COPY_ABORT (R230). Writing CECTL.ABORT ends the running descriptor with code 0x6 and discards the queue. -/
  | copyAbort (hall : Byte) (b : BlockId) (e : Fin 2)
  /-- REMOTE_WRITE_RECEIVE (R375). A remote WRITE data packet is accepted into an enabled receive window for its job, or refused. -/
  | remoteWriteReceive (k : Nat) (chk : Check)
  /-- REMOTE_WRITE_FINISH (R345). A WRITE finish packet makes the destination answer with WACK and signal the completion pip once the writes are visible. -/
  | remoteWriteFinish (k : Nat)
  /-- WACK_RECEIVE (R345). A WACK ends the remote descriptor as complete or refused. -/
  | wackReceive (k : Nat)
  /-- SRAM_SCRUB (R235). The region patrol scrubber reads, corrects and writes back SRAM words once per scrub period and poisons uncorrectable lines. -/
  | sramScrub (r : RegionId) (w : BitVec 27) (ecc : Ecc)
  /-- LPDDR_SCRUB (R239). The controller's patrol scrubber visits every LPDDR5X line once per scrub period. -/
  | lpddrScrub (m : CtlId) (line : BitVec 28) (ecc : Ecc)
  /-- PIPSIG (R247). PIPSIG posts a signal of Gb[15:0] to the named pip, on this module or another. -/
  | pipsig (c : CellId) (a b : Reg)
  /-- PIP_SIGNAL_ARRIVE (R249). A signal is counted at its target pip, clamped at 65,535, and may release a waiting PIPWAIT or PIPWATCH. -/
  | pipSignalArrive (k : Nat)
  /-- REMOTE_SIGNAL_ARRIVE (R252). A SIGNAL packet from another module is counted when the pip accepts remote signals for its job, or refused. -/
  | remoteSignalArrive (k : Nat)
  /-- PIPWAIT (R253). PIPWAIT waits until the pip count is at least 1 and then consumes 1. -/
  | pipwait (c : CellId) (pip : BitVec 6) (t : Reg)
  /-- PIPWATCH (R253). PIPWATCH waits until the pip count reaches the threshold without consuming. -/
  | pipwatch (c : CellId) (pip : BitVec 6) (b t : Reg)
  /-- PIPBAR (R258). PIPBAR sends the barrier arrival once per generation and waits for the required generation to complete. -/
  | pipbar (c : CellId) (pip : BitVec 6) (t : Reg)
  /-- PIP_WAIT_TIMEOUT (R255). A pip wait's timeout expires and raises class 0x09, after a withdrawal for a PIPBAR that has arrived. -/
  | pipWaitTimeout (c : CellId)
  /-- PCFG_WRITE (R246). A write to PCFG returns the pip to a fresh state and ends a wait on it with a timeout. -/
  | pcfgWrite (hall : Byte) (c : CellId) (pip : Fin 48) (v : BitVec 64)
  /-- BARRIER_ARRIVAL (R259). A barrier arrival is counted at a home in A0 or A1 and may complete or forward the generation. -/
  | barrierArrival (k : Nat)
  /-- BARRIER_RELEASE (R259). A release reaches a member or child home and sets CMPL, possibly ending a PIPBAR wait. -/
  | barrierRelease (k : Nat)
  /-- BARRIER_WITHDRAWAL (R261). A withdrawal reaches a home, which accepts it, passes it to its parent, or refuses it as complete. -/
  | barrierWithdrawal (k : Nat)
  /-- WITHDRAWAL_ANSWER (R261). A withdrawal answer reaches the member, which clears ARR and raises the timeout or interrupt, or waits for the release. -/
  | withdrawalAnswer (k : Nat)
  /-- WITHDRAWAL_RIDE_EXPIRE (R263). An unanswered withdrawal passed up a link is treated as accepted after the ride-through and logged as peer loss. -/
  | withdrawalRideExpire (c : CellId) (pip : Fin 48)
  /-- SETTER_ENABLE (R269). Setting SJCTL.ENABLE checks the context configuration and loads the strand image, entering WAIT or staying OFF with an error. -/
  | setterEnable (hall : Byte) (m : CtlId) (j : CtxId)
  /-- SETTER_DISABLE (R291). Clearing SJCTL.ENABLE aborts a running pass or returns the context to OFF and clears PEND and ARMED. -/
  | setterDisable (hall : Byte) (m : CtlId) (j : CtxId)
  /-- SETTER_ARM (R280). Writing SJCTL.ARM arms the next step. -/
  | setterArm (hall : Byte) (m : CtlId) (j : CtxId)
  /-- SETTER_LOCAL_VERDICT (R279). A write to SJLVERD delivers a local verdict to a context with VSRC = 1. -/
  | setterLocalVerdict (hall : Byte) (m : CtlId) (j : CtxId) (taint sat : Bool)
  /-- SETTER_STEP_START (R281). A context in WAIT with a verdict and an arm consumes the verdict and skips the step or enters CHECK. -/
  | setterStepStart (m : CtlId)
  /-- SETTER_CHECK_END (R282). CHECK finishes reading and validating descriptors and schedules and enters RUN, or ends with code 0x3. -/
  | setterCheckEnd (m : CtlId)
  /-- SETTER_PASS_COMPLETE (R284). A pass whose writes are visible makes its slot contribution, increments STEP and SJAPPL and signals the completion pip. -/
  | setterPassComplete (m : CtlId) (chk : Check)
  /-- SETTER_PASS_ERROR (R290). A hallmark refusal, strand error or uncorrectable input stops or poisons the pass and puts the context in FAULT. -/
  | setterPassError (m : CtlId) (err : SetterStop)
  /-- SETTER_PASS_TIMEOUT (R285). The pass timeout expires on the region timer and ends the pass with code 0x6. -/
  | setterPassTimeout (m : CtlId)
  /-- ADDER_ENABLE (R298). Setting AJCTL.ENABLE checks the adder context and enters ACTIVE with SEQ 0. -/
  | adderEnable (hall : Byte) (m : CtlId) (j : CtxId)
  /-- ADDER_DISABLE (R332). Clearing AJCTL.ENABLE ends every open bucket with code 0x7 and discards queued publishes. -/
  | adderDisable (hall : Byte) (m : CtlId) (j : CtxId)
  /-- AJPUB (R305). Writing AJPUB publishes a layer-mode bucket for its next round, or raises a publish overrun. -/
  | ajpub (hall : Byte) (m : CtlId) (j : CtxId) (bucket : BitVec 16)
  /-- LAYER_TILE_READ (R305). The adder reads a published bucket's tile image from SRC when a slot needs it. -/
  | layerTileRead (m : CtlId) (j : CtxId)
  /-- LOCAL_TILE_ARRIVE (R306). A drained tile reaches its home adder, is checked for hallmark and descriptor, and takes a slot and buffer. -/
  | localTileArrive (k : Nat)
  /-- DATA_ARRIVE (R317). A DATA packet from PREV is checked for round and descriptor and summed once the local tile is present. -/
  | dataArrive (k : Nat)
  /-- DATA_SEND (R316). A DATA or RESULT packet is sent to NEXT once a credit is held. -/
  | dataSend (m : CtlId) (j : CtxId)
  /-- CREDIT_ARRIVE (R316). A CREDIT packet returns tile buffers to the sender's credit count. -/
  | creditArrive (k : Nat)
  /-- REFUSE_ARRIVE (R316). A REFUSE packet ends the sender's bucket with code 0x6, detail 0x00 or 0x02. -/
  | refuseArrive (k : Nat)
  /-- BUCKET_DONE (R317). At OWNER, every tile write is visible; the slot enters DONE, sends RESULT tiles, releases and originates the SUMMARY. -/
  | bucketDone (m : CtlId) (n : Fin 64) (chk : Check)
  /-- RESULT_ARRIVE (R319). A RESULT tile is written to DST in RFMT and forwarded until the position before OWNER. -/
  | resultArrive (k : Nat)
  /-- SUMMARY_ARRIVE (R320). A SUMMARY releases the bucket and is forwarded unless NEXT is the originator. -/
  | summaryArrive (k : Nat) (chk : Check)
  /-- BUCKET_TIMEOUT (R331). The bucket timeout expires on the region timer and ends the bucket with code 0x5, detail 0x00. -/
  | bucketTimeout (m : CtlId) (j : CtxId) (bucket : BitVec 16)
  /-- READY_WORD_ARRIVE (R324). A ready word reaches the region, which sends its verdict contribution once every enabled context of the job has reported. -/
  | readyWordArrive (k : Nat)
  /-- VERDICT_CONTRIBUTION_ARRIVE (R325). A region contribution reaches the verdict home, which combines and forwards once all inputs are in. -/
  | verdictContributionArrive (k : Nat)
  /-- VUP_ARRIVE (R325). A VUP from a child port reaches a verdict home and is combined. -/
  | vupArrive (k : Nat)
  /-- VDOWN_ARRIVE (R327). A VDOWN reaches a verdict home, which delivers the word on its module and forwards it to its children. -/
  | vdownArrive (k : Nat)
  /-- VERDICT_TIMEOUT (R331). The verdict timeout at a verdict home expires and puts the context in FAULT. -/
  | verdictTimeout (m : CtlId) (j : CtxId)
  /-- FLIT_RECEIVE (R340). A flit is checked for CRC, FEC and sequence, acknowledged or NAKed, and its ACK and NAK are processed. -/
  | flitReceive (p : PortId) (f : Flit)
  /-- REPLAY_TIMEOUT (R340). No ACK advance for 2,000 port clocks makes the transmitter resend from ACK + 1. -/
  | replayTimeout (p : PortId)
  /-- PACKET_RECEIVE (R349). A whole packet held at a module is delivered locally, forwarded by dimension order, or dropped with a NOTICE. -/
  | packetReceive (p : PortId)
  /-- NOTICE_RECEIVE (R346). A NOTICE reaches the issuing unit, which ends its copy, bucket, signal or withdrawal accordingly. -/
  | noticeReceive (k : Nat)
  /-- PORT_SIGNAL_LOSS (R341). A port loses signal or alignment, enters RIDE, retrains and arms the ride-through. -/
  | portSignalLoss (p : PortId)
  /-- PORT_TRAINED (R342). A port completes training and exchanges IDENT, returning to UP, applying a partner change, or entering MISMATCH. -/
  | portTrained (p : PortId) (ident : BitVec 128)
  /-- RIDE_THROUGH_EXPIRE (R341). The ride-through expires; the port enters DOWN and drops its replay buffer and queues. -/
  | rideThroughExpire (p : PortId)
  /-- LEAVE_RECEIVE (R357). A LEAVE from the partner makes the port enter RIDE without arming the ride-through. -/
  | leaveReceive (p : PortId)
  /-- CLASP_CHECK (R353). 10 ms after a clasp command, the sensors are read and a disagreement raises a clasp fault. -/
  | claspCheck (pair : Fin 3) (openA openB : Bool)
  /-- JOIN (R355). JOIN holds the named clasp pairs open, trains their ports and checks partners. -/
  | join (n : SlotIx)
  /-- JOIN_TIMEOUT (R355). The join timeout expires and JOIN ends FAILED with ERROR 0x02. -/
  | joinTimeout (n : SlotIx)
  /-- WITHDRAW (R357). WITHDRAW sends LEAVE on every UP port and drains the module's queues. -/
  | withdraw (n : SlotIx)
  /-- WITHDRAW_RELEASE (R357). When the queues drain or 20 ms pass, every clasp hold is removed and the module enters WITHDRAWN. -/
  | withdrawRelease (n : SlotIx)
  /-- ARB_GRANT (R363). An arbiter decides the next owner by class and round-robin and counts the grant toward the window and quota. -/
  | arbGrant (a : ArbId) (reqs : List ArbReq)
  /-- ARB_PREEMPT (R365). An unmasked Urgent request ends a Bulk transfer, whose beats are discarded and which restarts later. -/
  | arbPreempt (a : ArbId) (req : ArbReq) (beats : Nat)
  /-- ARB_BITE (R369). The level watchdog expires on a stalled owner; the data phase ends, the port is reset and a bite is logged. -/
  | arbBite (a : ArbId) (beats later : Nat)
  /-- ARB_FREEZE (R367). Writing ARBCTL.FREEZE stops or resumes new grants. -/
  | arbFreeze (hall : Byte) (a : ArbId) (on : Bool)
  /-- PART_CREATE (R380). PART_CREATE checks the configuration, assigns the hallmark and keys, writes owner fields, zeroes SRAM and enters LOADING. -/
  | partCreate (n : SlotIx)
  /-- PART_START (R382). PART_START measures the image into PMEAS and releases the cells at ENTRY, entering ACTIVE. -/
  | partStart (n : SlotIx)
  /-- PART_RESET (R383). PART_RESET stops the partition's cells and units, zeroes PMEAS and returns it to LOADING. -/
  | partReset (n : SlotIx)
  /-- PART_CLOSE (R385). PART_CLOSE resets the partition, enters CLOSING and waits for outstanding accesses. -/
  | partClose (n : SlotIx)
  /-- PART_CLOSE_DRAIN_END (R385). When no access carries the hallmark or 100 ms pass, the close record is emitted, keys destroyed, blocks made Dormant and the partition freed. -/
  | partCloseDrainEnd (n : SlotIx)
  /-- ATTEST (R391). ATTEST builds and signs a 768-byte attestation report in its command slot. -/
  | attest (n : SlotIx)
  /-- EXTEND (R388). EXTEND extends measurement register MEAS12–MEAS15 with a 32-byte value. -/
  | extend (n : SlotIx)
  /-- ACCT_NOW (R395). ACCT_NOW emits a signed accounting record with REASON 0x02. -/
  | acctNow (n : SlotIx)
  /-- ACCT_INTERVAL (R395). The accounting interval expires on the module timer and a record with REASON 0x00 is emitted and notified. -/
  | acctInterval (p : PartId)
  /-- ENERGY_CHARGE (R393). Every 10 ms each region charges metered energy to partitions by activity proxy, with carries. -/
  | energyCharge (meters : List Nat) (moduleMeter : Nat) (act : List BlockActivity)
  /-- READ (R408). A WDP READ returns the whole value of one entry after the checks of R406. -/
  | read (q : Req) (t : ReadTarget)
  /-- WRITE (R409). A WDP WRITE sets the value of an entry with no behaviour of its own, in one handshake at its unit. -/
  | write (q : Req) (t : WriteTarget) (v : List Byte)
  /-- READ_SEG (R410). READ_SEG snapshots a value at OFFSET 0 and returns segments of the snapshot. -/
  | readSeg (q : Req) (idx : BitVec 16) (sub : Byte) (off len : BitVec 16)
  /-- WRITE_SEG (R410). WRITE_SEG stages bytes of a value for its entry. -/
  | writeSeg (q : Req) (idx : BitVec 16) (sub : Byte) (off : BitVec 16) (v : List Byte)
  /-- COMMIT (R410). COMMIT applies the staged bytes as one WRITE and discards the staging. -/
  | commit (q : Req) (idx : BitVec 16) (sub : Byte)
  /-- HELLO (R403). HELLO opens a session for a role after checking the enrolled key, or claims ownership on the field link. -/
  | hello (m : HelloMsg)
  /-- KEYX (R403). KEYX performs the SM2 key exchange and confirmation that establish the session. -/
  | keyx (m : KeyxMsg)
  /-- BYE (R405). BYE ends the session and discards its segmented-transfer state. -/
  | bye (q : Req)
  /-- SESSION_IDLE_TIMEOUT (R405). A session without a valid request for the idle timeout ends. -/
  | sessionIdleTimeout (i : SessIx)
  /-- SESSION_SETUP_TIMEOUT (R403). A session not established within 10 s of the HELLO response is discarded. -/
  | sessionSetupTimeout (i : SessIx)
  /-- COMMAND_START (R417). A queued command reaches its start, rechecks its state condition and runs or fails with 0x0C. -/
  | commandStart (n : SlotIx)
  /-- COMMAND_ABORT (R420). ABORT ends a queued command, stops a running abortable command at its next abort point, or fails. -/
  | commandAbort (q : Req) (n : SlotIx) (meets : Bool)
  /-- COMMAND_RELEASE (R415). RELEASE returns an ended slot to IDLE and clears its result. -/
  | commandRelease (q : Req) (n : SlotIx)
  /-- SLOT_HOLD_EXPIRE (R415). The hold time of an ended slot expires and the slot returns to IDLE. -/
  | slotHoldExpire (n : SlotIx)
  /-- COMMAND_TIME_LIMIT (R419). A command's time limit expires on the module timer and it ends FAILED with ERROR 0x02. -/
  | commandTimeLimit (n : SlotIx)
  /-- RESET (R437). The RESET command answers and arms a 100 ms delay before a module reset. -/
  | reset (n : SlotIx)
  /-- RESET_DELAY_EXPIRE (R437). 100 ms after RESET, the module performs a module reset with cause 0x02. -/
  | resetDelayExpire
  /-- LOG_CLEAR (R435). A write of 0x01 to 0x7000.05 empties the error log and keeps the numbering. -/
  | logClear (q : Req)
  /-- OP_REQUEST (R37). A write to 0x2000.01 requests a new operating point and starts a supply slew. -/
  | opRequest (q : Req) (v : Byte)
  /-- OP_SLEW_SETTLED (R37). The core supply settles at the new point and 0x2000.03 reads 0x00. -/
  | opSlewSettled
  /-- THERMAL_CAP_FALL (R38). A region's hottest sensor at or above 100 °C lowers the thermal cap by one point, once a second. -/
  | thermalCapFall
  /-- THERMAL_CAP_RISE (R38). Each second with every region below 95 °C raises the thermal cap by one point, up to no cap. -/
  | thermalCapRise
  /-- SENSOR_UPDATE (R39). Every 10 ms the module updates each region's hottest Tj and measured step rate. -/
  | sensorUpdate (tj rate : List (BitVec 32)) (mv : BitVec 16)
  /-- CALIBRATION_ROUND (R47). Every second the module controller measures all oscillators, publishes the factors and increments the sequence number. -/
  | calibrationRound (kModule : BitVec 32) (kRegion kBlock kCell : List (BitVec 32))
  /-- WATCHDOG_RESTART (R430). The firmware restarts the module watchdog, applying any new timeout. -/
  | watchdogRestart
  /-- MODULE_WATCHDOG_BITE (R430). The module watchdog expires, closing the clasps and starting a module reset with cause 0x03. -/
  | moduleWatchdogBite
  /-- TOLERANCE_WRITE (R429). A write to 0x2104 sets a partition's latency tolerance and may wake its blocks. -/
  | toleranceWrite (q : Req) (p : PartId) (v : BitVec 32)
  /-- BLOCK_DESCEND (R455). An idle block whose dwell has passed enters the next deeper state its tolerance allows. -/
  | blockDescend (b : BlockId) (acc : BitVec 8) (bad : List Nat)
  /-- BLOCK_WAKE (R456). A wake event starts a block's exit from Poise, Nap, Doze or Dormant toward Run. -/
  | blockWake (b : BlockId) (ev : WakeEvent)
  /-- BLOCK_EXIT_COMPLETE (R452). A block's exit latency ends and it enters Run, after a reset of its units when leaving Dormant. -/
  | blockExitComplete (b : BlockId)
  /-- SRAM_GROUP_RETENTION (R458). A dozing block's SRAM banks return to retention after 64 steps without access. -/
  | sramGroupRetention (b : BlockId)
  /-- SRAM_GROUP_ZERO_END (R458). A Dormant block's SRAM group finishes powering up and zeroing, and the waiting access proceeds. -/
  | sramGroupZeroEnd (b : BlockId)
  /-- SELF_REFRESH_ENTER (R459). A controller with a sleeping region and no request for 100 µs enters LPDDR5X self-refresh. -/
  | selfRefreshEnter (m : CtlId)
  /-- QP_ENABLE (R445). Setting QPCFG.ENABLE checks the rings and enters RTS, or ERROR with code 0x01. -/
  | qpEnable (hall : Byte) (b : BlockId) (k : BitVec 6)
  /-- QP_DISABLE (R445). Clearing QPCFG.ENABLE returns the queue pair to RESET and abandons posted entries. -/
  | qpDisable (hall : Byte) (b : BlockId) (k : BitVec 6)
  /-- QP_POST (R446). Advancing SQPI or RQPI posts send or receive ring entries. -/
  | qpPost (hall : Byte) (b : BlockId) (k : BitVec 6) (sqpi rqpi : BitVec 16)
  /-- SEND_ENTRY_START (R447). The RoCEv2 engine starts the next send entry in ring order. -/
  | sendEntryStart (b : BlockId) (k : BitVec 6)
  /-- QP_COMPLETION (R447). A send or receive entry completes, writing STATUS, advancing the completion index and signalling the pip. -/
  | qpCompletion (b : BlockId) (k : BitVec 6) (chk : Check)
  /-- RDMA_WRITE_RECEIVE (R450). An incoming RDMA WRITE packet is checked against the memory window and written, or NAKed. -/
  | rdmaWriteReceive (b : BlockId) (k : BitVec 6) (rkey : BitVec 32) (rva : BitVec 64) (data : List Byte) (h : RoceHdr) (chk : Check)
  /-- RDMA_READ_REQUEST (R450). An incoming RDMA READ request is checked against the memory window and answered, or NAKed. -/
  | rdmaReadRequest (b : BlockId) (k : BitVec 6) (rkey : BitVec 32) (rva : BitVec 64) (len : BitVec 32) (h : RoceHdr)
  /-- SEND_RECEIVE (R447). An incoming SEND consumes the oldest posted receive entry, or is answered with an RNR NAK. -/
  | sendReceive (b : BlockId) (k : BitVec 6) (data : List Byte) (h : RoceHdr) (chk : Check)
  /-- ROCE_ACK_RECEIVE (R448). An acknowledgement, NAK or READ response from the peer advances or ends the queue pair's entries. -/
  | roceAckReceive (b : BlockId) (k : BitVec 6) (ans : RoceAck) (h : RoceHdr) (chk : Check)
  /-- RETRANSMIT_TIMEOUT (R448). 134 ms without acknowledgement causes a retransmission, or retry-exceeded after 7. -/
  | retransmitTimeout (b : BlockId) (k : BitVec 6)
  /-- CNP_RECEIVE (R448). A received CNP halves the queue pair's send rate. -/
  | cnpReceive (b : BlockId) (k : BitVec 6) (h : RoceHdr)
  /-- RATE_INCREASE (R448). A period without CNP raises the queue pair's rate by 1/16 of line rate. -/
  | rateIncrease (b : BlockId) (k : BitVec 6)
  /-- MW_VALID_SET (R449). Setting MWCFG.VALID opens the window when its extent lies in the partition's windows, or sets BAD. -/
  | mwValidSet (hall : Byte) (b : BlockId) (w : Fin 16) (v : BitVec 32)
  /-- FRAME_RECEIVE (R441). An Ethernet frame is answered as ARP, neighbour discovery or ICMP echo, passed to WDP or RoCEv2, or discarded. -/
  | frameReceive (f : EthFrame)
  /-- PFC_PAUSE (R440). A priority flow control frame pauses or resumes the host port's transmission on its priority. -/
  | pfcPause (prio : Fin 8) (quanta : BitVec 16)
  /-- SUPPLY_GOOD_RISE (R487). The 54 V input above 47.0 V for 10 ms raises supply good and starts power-up in BOOT. -/
  | supplyGoodRise
  /-- SUPPLY_GOOD_FALL (R487). The 54 V input below 45.0 V for 50 µs drops supply good, the module enters OFF and all state is lost. -/
  | supplyGoodFall
  /-- BOOT_STAGE_END (R464). A power-up stage succeeds and the next stage begins, or the module enters STANDBY. -/
  | bootStageEnd (r : BootResult)
  /-- BOOT_STAGE_TIMEOUT (R465). A power-up stage runs past its limit and is treated as failed. -/
  | bootStageTimeout (r : BootResult)
  /-- RESET_PIN_ASSERT (R486). MRESET_N held low for 125 samples starts a module reset with cause 0x01 and holds the sequence. -/
  | resetPinAssert
  /-- RESET_PIN_RELEASE (R486). The first high sample of MRESET_N after an assertion begins stage 1 of power-up. -/
  | resetPinRelease
  /-- FATAL_MODULE_ERROR (R471). A hub-die uncorrectable error or a core rail failure puts the module in FAULTED and powers down the dies. -/
  | fatalModuleError (cause : Byte)
  /-- BLOCK_COLLECTOR_REPORT (R474). A report reaches the block error collector, which counts it and may signal the error pip. -/
  | blockCollectorReport (k : Nat)
  /-- LOG_REPORT (R479). A report reaches the module error log and opens a new record or merges into one, discarding a record when full. -/
  | logReport (k : Nat)
  /-- REGISTER_WRITE (R4). A write to a register or WC field that has no row of its own sets or clears its fields. -/
  | registerWrite (hall : Byte) (addr : BitVec 48) (len : Fin 9) (v : BitVec 64)
  /-- LINK_STATE_CHANGE (R433). The host port or field link goes up or down, and its link state entry 0x5100.01 or 0x5101.01 changes between 0x00 down and 0x01 up. -/
  | linkStateChange (iface : Iface) (up : Bool)
  deriving DecidableEq, Repr

end Sys2Proof
end

