-- ==== Sys2Proof/Decode.lean ====
section
/-! DEFINITION. The words of the opcode table. Every row of this block's table has no bits, so no word spells a command
(log entry 1). The 32-bit words of chapter 09 are decoded in Machine/Encoding.lean. -/

namespace Sys2Proof

/-- The command a word spells by the table's bits: the table gives no row any, so none. -/
def decodeTableWord (_nbits _w : Nat) : Option Instr := none

end Sys2Proof
end

