-- ==== Sys2Proof/Config.lean ====
section
/-! DEFINITION. What one TH4-M512 fixes at manufacture, and the free values: constants without a body, so that a
claim that mentions one holds whatever its value is. Log entries 3, 4 and 6 to 8 say where each is used. -/

namespace Sys2Proof.Config

/-- An LPDDR5X byte that the partition has not written since its creation, by key epoch and device address (10 R242). -/
opaque freeByte : Nat → Nat → Byte

/-- The bytes that a signal, a barrier message or a verdict word puts on the inter-region bridge: the manual states none (16 R392). -/
opaque messageBytes : Nat

/-- The two keys of the pair that the security engine generates for a partition, by key epoch and place in the pair (10 R241). -/
opaque partKey : Nat → Nat → BitVec 128

/-- The way a full cache set gives up, by draw number (03 R74 gives no replacement policy). -/
opaque victimWay : Nat → Nat

/-- A byte written whose value the manual leaves undefined, by draw number and device address (12 R271). -/
opaque sharedByte : Nat → Nat → Byte

/-- Whether a stopped copy or pass has written a given item, by draw number and item (10 R227, 12 R290). -/
opaque freeBit : Nat → Nat → Bool

/-- 0x1000.03, the module serial number (18 R427). -/
opaque serial : W64
/-- 0x1000.04, the hardware level (18 R427). -/
opaque hwLevel : W16
/-- 0x1000.05, the module controller firmware version (18 R427). -/
opaque fwVersion : W32
/-- 0x1000.06, the region microcode version (18 R427). -/
opaque ucVersion : W32
/-- 0x1000.07, the boot ROM version (18 R427). -/
opaque romVersion : W32
/-- 0x9002.01 and .02, the security versions of firmware and microcode (16 R390). -/
opaque secVersionFw : W32
opaque secVersionUc : W32
/-- 0x9000.01–.03, the certificates and the root digest (16 R390). -/
opaque signetCert : List Byte
opaque productCert : List Byte
/-- A byte of the root digest, by index. -/
opaque rootByte : Nat → Byte
def rootDigest : List Byte := (List.range 32).map rootByte
/-- 0x5100.02 and 0x5101.02, the MAC addresses in bits [47:0] (18 R433). -/
opaque hostMac : BitVec 48
opaque fieldMac : BitVec 48
/-- The random numbers of a signet signature (16 R389), by signing number and attempt, before they are brought into range; and its bytes
where no attempt stands. -/
opaque signatureNonce : Nat → Nat → Nat
opaque signatureByte : Nat → Nat → Byte
/-- The module nonce of a HELLO response (17 R403): 32 bytes, named by session and index. -/
opaque nonceByte : Nat → Nat → Byte
/-- The private key of the signet (16 R389), before it is brought into range. -/
opaque signetKey : Nat
/-- The ephemeral private key of a session of that number (17 R403), before it is brought into range. -/
opaque ephemeralKey : Nat → Nat
/-- The payload that names device memory in a WDP request, by direction, address and length: the manual gives it no form, and the model
leaves its bytes and their number, at most 16, open (log entry 67). -/
opaque memExtentLen : Bool → Nat → Nat → Fin 17
opaque memExtentByte : Bool → Nat → Nat → Nat → Byte
def memExtent (wr : Bool) (a n : Nat) : List Byte := (List.range (memExtentLen wr a n).val).map (memExtentByte wr a n)
/-- 0x2100.01–.03, the averaged input readings, by draw number and entry (18 R428). -/
opaque inputReading : Nat → Nat → W32
/-- A value the manual leaves unstated, by draw number (see the log entries that name it). -/
opaque freeWord : Nat → W64

/-- The mesh stop of a region at which a unit stands that the manual places at an edge stop: controllers 0–23 with their Setters and adder
units, 24–27 a region's statistic slots, 28–31 its bridge port (01, "The region stack"; log entry 129). -/
opaque unitStop : Nat → Fin 16

/-- Whether a result that is tiny before rounding but not after it underflows (03 R55: IEEE 754 leaves it to the implementation). -/
opaque tininessBefore : Bool
/-- Whether a fused multiply-add of an infinity, a zero and a quiet NaN is invalid (03 R55: IEEE 754 leaves it to the implementation). -/
opaque fmaInvalid : Bool

end Sys2Proof.Config
end

