-- ==== Sys2Proof/Machine/Tab.lean ====
section
/-! DEFINITION. Operations on sparse tables, ordered sets of numbers, byte lists and bit fields. -/

namespace Sys2Proof.Machine

/-- The entry at a key, or the table's default. -/
def Tab.get {α : Type} (d : α) : Tab α → Nat → α
  | [], _ => d
  | (k, v) :: rest, x => if k = x then v else Tab.get d rest x

/-- The table without an entry at a key. -/
def Tab.erase {α : Type} : Tab α → Nat → Tab α
  | [], _ => []
  | (k, v) :: rest, x => if k = x then Tab.erase rest x else (k, v) :: Tab.erase rest x

/-- The table with an entry put at a key, in order. -/
def Tab.put {α : Type} : Tab α → Nat → α → Tab α
  | [], x, w => [(x, w)]
  | (k, v) :: rest, x, w =>
    if x < k then (x, w) :: (k, v) :: rest
    else if k = x then (x, w) :: rest
    else (k, v) :: Tab.put rest x w

/-- The table with a value at a key: an entry, or none where the value is the default. -/
def Tab.set {α : Type} [DecidableEq α] (d : α) (m : Tab α) (x : Nat) (w : α) : Tab α :=
  if w = d then Tab.erase m x else Tab.put (Tab.erase m x) x w

/-- The table with one value changed by a function. -/
def Tab.upd {α : Type} [DecidableEq α] (d : α) (m : Tab α) (x : Nat) (f : α → α) : Tab α :=
  Tab.set d m x (f (Tab.get d m x))

/-- Whether a key has an entry. -/
def Tab.has {α : Type} : Tab α → Nat → Bool
  | [], _ => false
  | (k, _) :: rest, x => (k == x) || Tab.has rest x

/-- Whether keys rise strictly from a bound on. -/
def Tab.risingFrom {α : Type} : Nat → Tab α → Bool
  | _, [] => true
  | lo, (k, _) :: rest => decide (lo ≤ k) && Tab.risingFrom (k + 1) rest

/-- The canonical form: keys strictly rising, no entry equal to the default. -/
def Tab.wf {α : Type} [DecidableEq α] (d : α) (m : Tab α) : Bool :=
  Tab.risingFrom 0 m && m.all (fun e => decide (e.2 ≠ d))

/-- A number put into a strictly rising list. -/
def insertNat (x : Nat) : List Nat → List Nat
  | [] => [x]
  | y :: ys => if x < y then x :: y :: ys else if x = y then y :: ys else y :: insertNat x ys

/-- The element of a list at an index, changed. -/
def modifyNth {α : Type} (f : α → α) : Nat → List α → List α
  | _, [] => []
  | 0, x :: xs => f x :: xs
  | n + 1, x :: xs => x :: modifyNth f n xs

/-- `takeMsg same k l`: the first message of `l` that is the `k`-th one or comes before it with the same order key,
and the list without it: messages of one sender to one receiver arrive in the order they were sent (11 R250, R259). -/
def takeMsg {α : Type} (same : α → α → Bool) (k : Nat) (l : List α) : Option (α × List α) :=
  match l[k]? with
  | none => none
  | some x => (l.find? (same x)).map fun y => (y, l.eraseIdx (l.findIdx (same x)))

/-- The low `n` bytes of a number, least significant first (00 R3). -/
def leBytes : Nat → Nat → List Byte
  | 0, _ => []
  | n + 1, v => BitVec.ofNat 8 v :: leBytes n (v / 256)

/-- The number that bytes spell, least significant first (00 R3). -/
def leNat : List Byte → Nat
  | [] => 0
  | b :: bs => b.toNat + 256 * leNat bs

/-- The low `n` bytes of a number, most significant first. -/
def beBytes (n v : Nat) : List Byte := (leBytes n v).reverse

/-- Bits [lo + w − 1 : lo] of a number. -/
def fieldN (v lo w : Nat) : Nat := (v >>> lo) % 2 ^ w

/-- Bit `i` of a number. -/
def bitN (v i : Nat) : Bool := v.testBit i

/-- A Bool as the number 0 or 1. -/
def b2n (b : Bool) : Nat := if b then 1 else 0

/-- A 64-bit word with bits [lo + w − 1 : lo] replaced by the same bits of another. -/
def mergeField (old new : W64) (lo w : Nat) : W64 :=
  let m := (BitVec.ofNat 64 (2 ^ w - 1)) <<< lo
  (old &&& ~~~m) ||| (new &&& m)

/-- A 64-bit word with bits [lo + w − 1 : lo] set to a value. -/
def setField (old : W64) (lo w v : Nat) : W64 :=
  mergeField old (BitVec.ofNat 64 (v <<< lo)) lo w

/-- An increment that saturates at a maximum. -/
def satAdd (max a n : Nat) : Nat := min max (a + n)

/-- 2^64 − 1. -/
def max64 : Nat := 18446744073709551615
/-- 2^32 − 1. -/
def max32 : Nat := 4294967295

/-- Whether [a, a + n) lies inside [b, b + m). -/
def insideRange (a n b m : Nat) : Bool := decide (b ≤ a) && decide (a + n ≤ b + m)

/-- Whether [a, a + n) and [b, b + m) share a number. -/
def rangesMeet (a n b m : Nat) : Bool := decide (a < b + m) && decide (b < a + n) && decide (0 < n) && decide (0 < m)

end Sys2Proof.Machine
end

