-- ==== Sys2Proof/Machine/StateCell.lean ====
section
/-! DEFINITION. The state of a Psiva cell (03 to 06, 11): plain data. -/

namespace Sys2Proof.Machine

/-- A bead of a strand (05 R113, R114). -/
structure Bead where
  op : BitVec 6
  dst : BitVec 5
  a : BitVec 5
  b : BitVec 5
  c : BitVec 5
  deriving DecidableEq, Repr

/-- A valid strand image (05 R113): the header fields, K0–K7 and the beads. -/
structure Strand where
  rm : BitVec 2
  trapnv : Bool
  k : List W32
  beads : List Bead
  deriving DecidableEq, Repr

/-- A pip (11 R245): COUNT, the fields of PSTAT, PCFG, PBMASK and PHOME. WAIT is computed from the cell's wait.
`wd`: at a home, the withdrawals passed to the parent and not answered, oldest first: the generation and the asker,
a member cell or 512 + a port (11 R261); `wdDue`: the module-timer count at which they count as accepted (R263). -/
structure Pip where
  cfg : W64
  count : W16
  ovf : Bool
  misuse : Bool
  arr : Bool
  gen : W16
  cmpl : W16
  bmask : W64
  cmask : Byte
  a0 : BitVec 10
  a1 : BitVec 10
  wd : List (W16 × Nat)
  wdDue : Nat
  deriving DecidableEq, Repr

/-- A pip after reset (11 R245). -/
def Pip.reset : Pip := ⟨0, 0, false, false, false, 0, 0, 0, 0, 0, 0, [], 0⟩

/-- What a cell waits for (11 R253, R258). -/
inductive WaitKind where
  | wait | watch (threshold : W16) | bar
  deriving DecidableEq, Repr

/-- The withdrawal of a waiting PIPBAR (11 R261): none, sent and not answered, or refused. -/
inductive WdSt where
  | none | sent | refused
  deriving DecidableEq, Repr

/-- The cell's one wait (11 R254): the pip, the kind, the CTIME at which it expires, and a PIPBAR's withdrawal. -/
structure Wait where
  pip : Nat
  kind : WaitKind
  expiry : Option Nat
  wd : WdSt
  deriving DecidableEq, Repr

/-- An uncommitted tile instruction (06 R139), with what it read at issue: F register values, Gk, and the bytes of a TLD. -/
inductive TileOp where
  | mma (cq : Fin 16) (a b s : TReg) (o : BitVec 4) (gsel : BitVec 2)
  | load (td : TReg) (data : BitVec 8192)
  | store (ts : TReg) (addr : Nat) (chk : Check)
  | zero (td : TReg)
  | zeroQ (cq : Nat)
  | scale (cq : Nat) (fs : W32)
  | narrow (td : TReg) (cq : Nat) (fs : W32) (gk : W64)
  | widen (cq : Nat) (ts : TReg) (fs : W32)
  | drain (cq : Nat) (fs : W32) (gj : W64)
  deriving DecidableEq, Repr

/-- An uncommitted tile instruction and its address. -/
structure TileIns where
  pc : W64
  op : TileOp
  deriving DecidableEq, Repr

/-- A tile of a reduction bucket on its way (06 R151, 13 R301, R306). -/
structure Tile where
  job : BitVec 12
  bucket : W16
  tile : W16
  wire : BitVec 2
  taint : Bool
  sat : Bool
  payload : List Byte
  deriving DecidableEq, Repr

/-- A cache (03 R74): enabled, disabled at least once, and its lines by line number. A line's value is none where its
bytes are those of the next level, or its own bytes where they may differ (a stale line after 03 R79, or an L1 or L2
line whose own bytes have been written); `dirty` lines are written back. -/
structure CLine where
  data : Option (List Byte)
  dirty : Bool
  poison : Bool
  deriving DecidableEq, Repr

/-- A cache. -/
structure Cache where
  en : Bool
  stale : Bool
  lines : List (Nat × CLine)
  deriving DecidableEq, Repr

/-- A cache after reset: enabled, not stale, empty (03 R80). -/
def Cache.reset : Cache := ⟨true, false, []⟩

/-- A cell (03 R54). `held`: held in reset (03 R57). `faulted`: stopped by a cell fault (03 R61). `intAt`: the address
(DEFERR, HMREF) or number (DOORBELL) and detail of each pending interrupt, CLASS 2, 3, 4 (03 R62, R66). `vwait`: a vector instruction
waits for the wake of the datapaths (04 R109, R111). -/
structure Cell where
  held : Bool
  faulted : Bool
  pc : W64
  sup : Bool
  g : Vector W64 32
  kstate : W32
  kentry : W64
  krpc : W64
  kcause : W32
  kaddr : W64
  kspare : W64
  kien : W32
  defErr : Option (Byte × W64)
  hmRef : Option (Byte × W64)
  bell : Option (Byte × W64)
  fstat : W32
  l1i : Cache
  l1d : Cache
  chall : W32
  ctcmp : W64
  ctcorr : W32
  ctcseq : W32
  v : Vector (BitVec 2048) 32
  p : Vector (BitVec 256) 16
  vresume : W32
  vstat : W32
  vfcause : W32
  vpwr : W32
  vgated : Bool
  vwaking : Bool
  vwait : Bool
  vzero : List Nat
  ss : Vector (Option Strand) 4
  t : Vector (BitVec 8192) 64
  tbad : Tab (BitVec 128)
  tcfg : Vector W64 4
  tstat : W32
  tseed : W32
  tpwr : W32
  tgated : Bool
  twaking : Bool
  terrReg : BitVec 6
  terrValid : Bool
  terrCount : Byte
  res : Option (Fin 16)
  acc : BitVec 32768
  accDirty : Bool
  accBad : Bool
  tpend : List TileIns
  drain : Option Tile
  pips : Tab Pip
  wait : Option Wait
  deriving DecidableEq, Repr

/-- A cell held in reset, every register at its reset value (03 R56, R57; log entry 2 for those the manual leaves open). -/
def Cell.reset : Cell where
  held := true
  faulted := false
  pc := 0
  sup := true
  g := Vector.replicate 32 0
  kstate := 8
  kentry := 0
  krpc := 0
  kcause := 0
  kaddr := 0
  kspare := 0
  kien := 0
  defErr := none
  hmRef := none
  bell := none
  fstat := 0
  l1i := Cache.reset
  l1d := Cache.reset
  chall := 0
  ctcmp := 0xFFFFFFFFFFFFFFFF
  ctcorr := 0x40000000
  ctcseq := 0
  v := Vector.replicate 32 0
  p := Vector.replicate 16 0
  vresume := 0
  vstat := 0
  vfcause := 0
  vpwr := 0x00004001
  vgated := false
  vwaking := false
  vwait := false
  vzero := []
  ss := Vector.replicate 4 none
  t := Vector.replicate 64 0
  tbad := []
  tcfg := Vector.replicate 4 0
  tstat := 0
  tseed := 1
  tpwr := 0x00004001
  tgated := false
  twaking := false
  terrReg := 0
  terrValid := false
  terrCount := 0
  res := none
  acc := 0
  accDirty := false
  accBad := false
  tpend := []
  drain := none
  pips := []
  wait := none

end Sys2Proof.Machine
end

