-- ==== Sys2Proof/Machine/StateUnits.lean ====
section
/-! DEFINITION. The state of the units outside the cells: blocks and their copy engines, queue pairs and memory windows
(10, 19, 20), statistic slots (08), Setters (12), adders (13), fabric ports and packets (14), arbiters (15), partitions
(16), sessions and command slots (17), regions and the error log (10, 21): plain data. -/

namespace Sys2Proof.Machine

/-- The block states of 20 R452. -/
inductive PState where
  | run | poise | nap | doze | dormant
  deriving DecidableEq, Repr

/-- The SRAM group behind a block (20 R458): powered, in retention, off, or powering up and being zeroed. -/
inductive GroupSt where
  | on | retention | off | zeroing
  deriving DecidableEq, Repr

/-- A copy descriptor (10 R221): its eight words. -/
structure Desc where
  src : W64
  dst : W64
  shape : W64
  sstr : W64
  dstr : W64
  conv : W64
  scale : W64
  done : W64
  deriving DecidableEq, Repr

/-- A queued or running descriptor: the cell that queued it and its acceptance number (10 R224, R229). -/
structure Job where
  desc : Desc
  cell : Nat
  num : W64
  deriving DecidableEq, Repr

/-- A copy engine (10 R224, R229). `cectl`: the last value written to CECTL.ABORT (00 R12). `contrib`: the contribution that a
running remote copy makes when its WACK arrives (10 R226, 14 R345). `fin`: its finish packet has been sent. `stale`: the modules that
still owe the WACK of a remote copy which has ended otherwise (log entry 48). -/
structure Engine where
  cectl : Bool
  queue : List Job
  run : Option Job
  err : Bool
  acc : W64
  done : W64
  ceerr : W64
  ceaddr : W64
  contrib : Option Contribution
  fin : Bool
  stale : List Nat
  deriving DecidableEq, Repr

/-- A copy engine after reset (10 R229). -/
def Engine.reset : Engine := ⟨false, [], none, false, 0, 0, 0, 0, none, false, []⟩

/-- QPSTAT.STATE (19 R444). -/
inductive QpSt where
  | reset | rts | error
  deriving DecidableEq, Repr

/-- A ring entry that has its outcome and waits for its completion (19 R447): on the send ring or the receive ring, its index,
the status, and for a receive entry the bytes received. -/
structure Comp where
  send : Bool
  idx : W16
  status : Byte
  bytes : W64
  deriving DecidableEq, Repr

/-- A queue pair (19 R444 to R448). `started`: the index after the last send entry started. `rate` is a fraction of the line rate.
`got`: bytes of READ data received for the oldest started entry. -/
structure Qp where
  cfg : W64
  raddr0 : W64
  raddr1 : W64
  psn : W64
  sq : W64
  rq : W64
  idx : W32
  st : QpSt
  err : Byte
  sqci : W16
  rqci : W16
  started : W16
  comps : List Comp
  retries : Nat
  rnrs : Nat
  rate : Rat
  got : Nat
  due : Nat
  deriving DecidableEq, Repr

/-- A queue pair after reset (19 R444). -/
def Qp.reset : Qp := ⟨0, 0, 0, 0, 0, 0, 0, .reset, 0, 0, 0, 0, [], 0, 0, 1, 0, 0⟩

/-- A memory window (19 R449): MWBASE, MWLEN, MWCFG. -/
structure Mw where
  base : W64
  len : W64
  cfg : W32
  deriving DecidableEq, Repr

/-- A memory window after reset (19 R449). -/
def Mw.reset : Mw := ⟨0, 0, 0⟩

/-- A block (01, 20): its power state and whether its exit has begun, its SRAM group, BCCTL and the L2 (03 R77), the block
timer in µs and the timers of its eight cells in ns (02 R43), BECFG and BECNT (21 R474). `idleAt`, `idleK`: the count and the factor of
the block timer when the block became idle, from which its dwells count (20 R455). -/
structure Block where
  st : PState
  oos : Bool
  waking : Bool
  group : GroupSt
  groupOos : Bool
  l2 : Cache
  timer : Nat
  ctimes : Vector Nat 8
  becfg : W32
  becnt : W64
  idleAt : Nat
  idleK : W32
  deriving DecidableEq, Repr

/-- A block outside every partition: Dormant (20 R461), its SRAM group off (20 R458). -/
def Block.reset : Block :=
  ⟨.dormant, false, false, .off, false, Cache.reset, 0, Vector.replicate 8 0, 0x00020000, 0, 0, 0x40000000⟩

/-- A statistic slot (08 R195). `step` and `total`: CONV, SATC, VANC, INVC, DEGC, NFC, BUMPC, MIXC. `hist`: newest first.
`sctl`: the last value written to SCTL (00 R12). -/
structure Slot where
  sctl : BitVec 2
  own : W32
  cfg : W64
  scur : W32
  snext : W32
  rnext : W32
  amaxv : W32
  amaxh : W32
  sth : W32
  sstep : W32
  sbmax : BitVec 4
  sevt : BitVec 6
  sevcnt : W32
  step : Vector W64 8
  total : Vector W64 8
  hist : List W32
  deriving DecidableEq, Repr

/-- A statistic slot after reset (08 R195): FMT 0x2, WIN 0xF, ALPHA 0b001, POW2 1. -/
def Slot.reset : Slot :=
  ⟨0, 0, 0x107C2, 0x3F800000, 0x3F800000, 0x3F800000, 0, 0, 0, 0, 0, 0, 0, Vector.replicate 8 0, Vector.replicate 8 0, []⟩

/-- SJSTAT.STATE (12 R268). -/
inductive SetSt where
  | off | wait | check | run | fault
  deriving DecidableEq, Repr

/-- A parameter group as CHECK read it (12 R270, R282): the eight words at 0x00–0x38, X1–X6, and its schedule value. -/
structure PGroup where
  w : List W64
  x : List W32
  x0 : W32
  deriving DecidableEq, Repr

/-- A Setter job context (12 R268). `verdicts`: received and not consumed, oldest first. `deadline`: the region-timer
count at which the pass times out. `ctlArm`, `lverd`: the last values written to SJCTL.ARM and SJLVERD (00 R12). -/
structure SetCtx where
  ctlArm : Bool
  lverd : BitVec 2
  own : W32
  cfg : W64
  strandA : W64
  gtab : W64
  sched : W64
  pip : W64
  tmo : W32
  enable : Bool
  step : W32
  st : SetSt
  verdicts : List W16
  armed : Bool
  last : BitVec 2
  err : Bool
  sjerr : W64
  sjaddr : W64
  flg : W32
  appl : W64
  skip : W64
  prog : W64
  strand : Option Strand
  groups : List PGroup
  deadline : Option Nat
  deriving DecidableEq, Repr

/-- A Setter context after reset (12 R268). -/
def SetCtx.reset : SetCtx :=
  ⟨false, 0, 0, 0, 0, 0, 0, 0, 0, false, 0, .off, [], false, 0, false, 0, 0, 0, 0, 0, 0, none, [], none⟩

/-- AJSTAT.STATE (13 R297). -/
inductive AddSt where
  | off | active | fault
  deriving DecidableEq, Repr

/-- What a context gathers for a round (13 R321, R323): buckets released, and the flags of its ready word. -/
structure RoundAcc where
  done : BitVec 12
  taint : Bool
  sat : Bool
  err : Bool
  bmax : BitVec 4
  deriving DecidableEq, Repr

/-- Nothing gathered. -/
def RoundAcc.zero : RoundAcc := ⟨0, false, false, false, 0⟩

/-- A bucket whose tiles have all been forwarded and which waits for its SUMMARY (13 R317, R331). -/
structure Await where
  bucket : W16
  taint : Bool
  sat : Bool
  bumps : Nat
  deadline : Option Nat
  deriving DecidableEq, Repr

/-- The verdict home's combining (13 R325): regions and child ports heard, the word so far, whether it has gone up or out,
and the deadline of 13 R331. -/
structure VHome where
  regions : List Nat
  ports : List Nat
  word : Option W16
  sent : Bool
  deadline : Option Nat
  deriving DecidableEq, Repr

/-- An empty verdict home. -/
def VHome.zero : VHome := ⟨[], [], none, false, none⟩

/-- A packet (14 R344, 13 R309): KIND and CLASS from the flit header, the 16-byte header, the payload. `issuer`, the model's own: 1 + the
cell of this module whose SIGNAL it is, or whose SIGNAL a NOTICE made here answers; 0 for every other packet. -/
structure Packet where
  kind : BitVec 3
  cls : BitVec 2
  hdr : BitVec 128
  pay : List Byte
  issuer : Nat
  deriving DecidableEq, Repr

/-- A packet delivered on this module: the port it came through, 0–5, or 6 for this module's own. -/
structure Inbox where
  pkt : Packet
  via : Nat
  deriving DecidableEq, Repr

/-- A partial sum from PREV in a tile buffer (13 R317). -/
structure DataTile where
  tile : Tile
  seq : Byte
  deriving DecidableEq, Repr

/-- An adder job context (13 R297, R315 to R323). `credits`: held toward NEXT. `inbuf`: reserved buffers filled.
`outq`: packets to send to NEXT, oldest first. `inq`, `localQ`: partial sums and local tiles that wait for a slot or a round.
`pub`: the last value written to AJPUB (00 R12). `unread`: the rounds at whose end a bucket's descriptor could not be read (13 R322). -/
structure AddCtx where
  pub : W16
  own : W32
  cfg : W64
  ring : W64
  btab : W64
  rnd : W32
  pip : W64
  tmo : W32
  vcfg : W64
  enable : Bool
  st : AddSt
  err : Bool
  pubq : List W16
  seq : Byte
  ready : Bool
  ajerr : W64
  verd : W16
  nf : W64
  bump : W64
  rounds : W64
  cur : RoundAcc
  nxt : RoundAcc
  credits : Nat
  inbuf : Nat
  outq : List Packet
  inq : List DataTile
  localQ : List Tile
  await : List Await
  unread : List (W16 × Byte)
  vhome : VHome
  deriving DecidableEq, Repr

/-- An adder context after reset (13 R297). -/
def AddCtx.reset : AddCtx :=
  ⟨0, 0, 0, 0, 0, 0, 0, 0, 0, false, .off, false, [], 0, false, 0, 0, 0, 0, 0, RoundAcc.zero, RoundAcc.zero, 0, 0, [], [], [],
    [], [], VHome.zero⟩

/-- A bucket slot (13 R299, R317). `st`: 0 FREE, 1 OPEN, 2 DONE. `got`: tiles contributed locally in this round.
`tiles`: tiles forwarded or written. `locals`, `datas`: tiles in buffers. `pubNext`: the next tile of a publish to read. -/
structure ASlot where
  st : BitVec 2
  ctx : CtxId
  bucket : W16
  seq : Byte
  got : List Nat
  tiles : List Nat
  locals : List Tile
  datas : List Tile
  results : List Packet
  pubNext : Option Nat
  taint : Bool
  sat : Bool
  bmax : BitVec 4
  bumps : Nat
  deadline : Option Nat
  deriving DecidableEq, Repr

/-- A free slot. -/
def ASlot.reset : ASlot := ⟨0, 0, 0, 0, [], [], [], [], [], none, false, false, 0, 0, none⟩

/-- Fabric port states (14 R360). -/
inductive PortSt where
  | off | training | up | ride | down | mismatch
  deriving DecidableEq, Repr

/-- A packet queued at a port: its requester port, 0 for the bridge, 1–6 for a forwarded packet (15 R361), and whether it stands on
the second virtual channel of its class (14 R347). -/
structure TxPkt where
  pkt : Packet
  req : Byte
  vc2 : Bool
  deriving DecidableEq, Repr

/-- A flit in a replay buffer, with the packet it belongs to (14 R339, R342). -/
structure TxFlit where
  seq : BitVec 12
  flit : Flit
  pkt : Packet
  last : Bool
  deriving DecidableEq, Repr

/-- A fabric port (14 R337 to R343, R360). `rideAt`: the module-timer count at which the armed ride-through expires. `discard`:
discarding until the resent flit. `part`: the partial packet of each class. `sent`: the packet that holds the port, and how many of
its flits have left. -/
structure Port where
  st : PortSt
  partner : W32
  freeze : Bool
  cnt : Vector W64 8
  txSeq : BitVec 12
  replay : List TxFlit
  rxNext : BitVec 12
  nakDue : Bool
  discard : Bool
  part : Vector (Option (List Byte)) 3
  rx : List Packet
  txq : List TxPkt
  sent : Option (TxPkt × Nat)
  rideAt : Option Nat
  deriving DecidableEq, Repr

/-- A port after reset (14 R360). -/
def Port.reset : Port :=
  ⟨.off, 0xFFFFFFFF, false, Vector.replicate 8 0, 0, [], 0, false, false, Vector.replicate 3 none, [], [], none, none⟩

/-- An arbiter (15 R363 to R369). `owner`: the current owner's request. `quota` applies in this window, `quotaNew` from the next;
`last`: the port last granted in each class; `waiting`: the requests that stand. `due`: the count of the level's timer at which the
watchdog of the present grant bites, with the TICKS of that grant. -/
structure Arb where
  freeze : Bool
  quota : Nat
  quotaNew : Nat
  owner : Option ArbReq
  bitten : Bool
  bitOwner : Byte
  bites : W16
  preempt : W16
  ucnt : Nat
  wcnt : Nat
  wdt : W32
  last : Vector (Option Byte) 3
  waiting : List ArbReq
  due : Nat
  deriving DecidableEq, Repr

/-- An arbiter after reset (15 R368), with its level's ARBWDT.TICKS. -/
def Arb.reset (ticks : W32) : Arb :=
  ⟨false, 48, 48, none, false, 0xFF, 0, 0, 0, 0, ticks, Vector.replicate 3 none, [], 0⟩

/-- Partition states (16 R372). -/
inductive PartSt where
  | free | creating | loading | active | closing
  deriving DecidableEq, Repr

/-- A partition (16 R372, R392 to R395). `keys`: the SM4 key pair that all controllers hold for it, the data key and the tweak key
(10 R241). `epoch` names its LPDDR5X contents (10 R242).
`cnt`: the 17 counters in the order of 16 R394. `carry`: the energy below 1 mJ. `acctAt`: the module-timer ms at which the
accounting interval ends. `logFrom`: the last log sequence number
given before its creation (21 R480). -/
structure Part where
  st : PartSt
  hall : Byte
  blocks : W64
  entry : W64
  fjob : W16
  slots : List Byte
  dslots : W64
  setters : List Byte
  adders : List Byte
  tenant : List Byte
  image : List Byte
  pcfgd : List Byte
  pmeas : List Byte
  wins : Vector (BitVec 128) 16
  rwins : Vector (BitVec 128) 4
  keys : Option (BitVec 128 × BitVec 128)
  epoch : Nat
  cnt : Vector Nat 17
  carry : Rat
  pseq : W32
  seq : W64
  prevMs : Nat
  acctAt : Nat
  records : List (List Byte)
  tol : W32
  logFrom : W64
  deriving DecidableEq, Repr

/-- Whether the controllers hold a key pair for a partition (10 R241). -/
def Part.keyed (x : Part) : Bool := x.keys.isSome

/-- A FREE partition (16 R372). -/
def Part.reset : Part where
  st := .free
  hall := 0
  blocks := 0
  entry := 0
  fjob := 0
  slots := List.replicate 128 0
  dslots := 0
  setters := List.replicate 24 0
  adders := List.replicate 24 0
  tenant := []
  image := []
  pcfgd := List.replicate 32 0
  pmeas := List.replicate 32 0
  wins := Vector.replicate 16 0
  rwins := Vector.replicate 4 0
  keys := none
  epoch := 0
  cnt := Vector.replicate 17 0
  carry := 0
  pseq := 0
  seq := 0
  prevMs := 0
  acctAt := 0
  records := []
  tol := 0
  logFrom := 0

/-- How far a session's establishment has come (17 R403). -/
inductive SessSt where
  | none | hello | keyed | up
  deriving DecidableEq, Repr

/-- A session entry (17 R401 to R410, R422, R425): its own values of the per-session entries among them. -/
structure Sess where
  st : SessSt
  role : Byte
  part : Byte
  iface : Iface
  id : W32
  estMs : Nat
  seq : W32
  cached : Option WdpMsg
  due : Nat
  mask : Byte
  nseq : W32
  arbSel : W32
  slotSel : W16
  logStart : W64
  snap : Option (List Byte)
  staging : Option (W16 × Byte × List Byte)
  key : List Byte
  nonce : List Byte
  ra : List Byte
  keyIn : List Byte
  keyOut : List Byte
  peerIf : Iface
  peer : Udp
  deriving DecidableEq, Repr

/-- No session (17 R422). -/
def Sess.reset : Sess :=
  ⟨.none, 0, 0xFF, .host, 0, 0, 0, none, 0, 0, 0, 0, 0, 0, none, none, [], [], [], [], [], .host, ⟨true, [], 0⟩⟩

/-- Command slot states (17 R414). -/
inductive CmdSt where
  | idle | queued | running | done | failed | aborted
  deriving DecidableEq, Repr

/-- A command slot (17 R414). `holder`: 0xFF for the Owner class, 0xFE for
Observers, else the partition. `order`: its place in the order of
acceptance. `due`: the module-timer count at which its time limit ends while RUNNING, and its hold afterwards. `abort`: an
ABORT waits for the next abort point. `aux`: for a JOIN, 0 before it begins, then 64 + 8 × the present pair + the pairs after it.
`ctl`: the last value written to .05 (00 R12). -/
structure CmdSlot where
  st : CmdSt
  holder : Option Byte
  code : W16
  args : List Byte
  error : Byte
  progress : W16
  result : List Byte
  due : Nat
  sess : W32
  order : Nat
  abort : Bool
  aux : Nat
  ctl : Byte
  deriving DecidableEq, Repr

/-- An idle slot (17 R414). -/
def CmdSlot.reset : CmdSlot := ⟨.idle, none, 0, [], 0, 0, [], 0, 0, 0, false, 0, 0⟩

/-- A report on its way to the log (21 R472, R475): the block collector it travels to, or none for the levels above. -/
structure Report where
  block : Option BlockId
  origin : W32
  reporter : W32
  cls : W16
  sev : Byte
  own : Byte
  detail : W64
  count : W32
  deriving DecidableEq, Repr

/-- A record of the module error log (21 R475). -/
structure LogRec where
  seq : W64
  first : Nat
  last : Nat
  origin : W32
  cls : W16
  sev : Byte
  own : Byte
  count : W32
  reporter : W32
  detail : W64
  deriving DecidableEq, Repr

/-- A region (01, 02 R43, 10 R243): whether its dies are powered, its timer in µs, the memory objects, the failing banks and
controllers, the controllers out of service, records sent, and the SAT marks of gating slots by job (08 R204). -/
structure Region where
  timer : Nat
  scrub : W32
  bankThr : W32
  corr : W64
  unc : W64
  bankCorr : Tab Nat
  bankFail : BitVec 256
  lscrub : W32
  ctlThr : W32
  ctlCorr : Vector W64 6
  ctlUnc : Vector W64 6
  ctlFail : BitVec 6
  ctlOos : BitVec 6
  selfRef : BitVec 6
  sent : W64
  marks : List Nat
  deriving DecidableEq, Repr

/-- A region after reset (10 R243). -/
def Region.reset : Region :=
  ⟨0, 16, 256, 0, 0, [], 0, 86400, 4096, Vector.replicate 6 0, Vector.replicate 6 0, 0, 0, 0, 0, []⟩

/-- A signal on its way to a pip of this module (11 R247, R250). `src` numbers the issuer: cells 0–511, then other units.
`job`: the job tag of a PIPSIG with REMOTE = 1 that names this module (11 R252, 14 R336). -/
structure Sig where
  src : Nat
  cell : CellId
  pip : BitVec 6
  amount : W16
  hall : Byte
  job : Option (BitVec 12)
  deriving DecidableEq, Repr

/-- A PIPSIG sent to another module, kept so that a NOTICE finds its issuer (11 R252, 14 R346): the issuing cell, the
destination module, 64 × CELL + PIP of the target, and the job tag. -/
structure RSig where
  cell : CellId
  dst : BitVec 18
  ref : W16
  job : BitVec 12
  deriving DecidableEq, Repr

/-- Barrier messages (11 R258 to R262). -/
inductive BKind where
  | arrival | release | withdraw | accepted | refused
  deriving DecidableEq, Repr

/-- A barrier message on its way: `src` is the sending cell, or 512 + the port a tree message came through. -/
structure BMsg where
  kind : BKind
  src : Nat
  cell : CellId
  pip : BitVec 6
  gen : W16
  hall : Byte
  job : BitVec 12
  deriving DecidableEq, Repr

/-- A refusal on its way back to a cell (03 R82): DETAIL and the refused address. -/
structure HmRefusal where
  cell : CellId
  detail : Byte
  addr : W64
  deriving DecidableEq, Repr

/-- A drained tile on its way to its home adder (13 R306). -/
structure LocalTile where
  cell : CellId
  hall : Byte
  tile : Tile
  deriving DecidableEq, Repr

/-- A ready word on its way to its region (13 R323). -/
structure ReadyWord where
  unit : CtlId
  ctx : CtxId
  job : BitVec 12
  word : W16
  deriving DecidableEq, Repr

/-- A region's verdict contribution on its way to the verdict home (13 R324, R325). -/
structure VContrib where
  region : RegionId
  job : BitVec 12
  word : W16
  deriving DecidableEq, Repr

/-- An interface's address objects (18 R433). -/
structure EthIf where
  up : Bool
  ip6 : List Byte
  pfx6 : Byte
  ip4 : W32
  pfx4 : Byte
  gw6 : List Byte
  gw4 : W32
  deriving DecidableEq, Repr

/-- An interface after reset (18 R433). -/
def EthIf.reset : EthIf := ⟨false, List.replicate 16 0, 64, 0, 24, List.replicate 16 0, 0⟩

/-- What leaves the module (log entry 5): WDP messages with their TAG (17 R399, R400), Ethernet answers, from an own address to whoever
asked, RoCEv2 operations, flits. What is routed names the next hop it goes to (19 R441). -/
inductive Out where
  | wdp (i : Iface) (hop : List Byte) (dst : Udp) (port : W16) (m : WdpMsg) (tag : List Byte)
  | frame (i : Iface) (hop : List Byte) (kind : Nat) (addr dst : List Byte) (body : List Byte)
  | roce (hop : List Byte) (qp : Nat) (op : Nat) (va : W64) (key : W32) (data : List Byte)
  | flit (p : PortId) (f : Flit)
  deriving DecidableEq, Repr

end Sys2Proof.Machine
end

