-- ==== Sys2Proof/Machine/State.lean ====
section
/-! DEFINITION. The state of one TH4-M512: plain data. The cells are in Machine/StateCell.lean, the other units in
Machine/StateUnits.lean. A table lists only the units that differ from their reset value. -/

namespace Sys2Proof.Machine

/-- Module states (17 R411). -/
inductive ModSt where
  | off | boot | standby | active | withdrawn | faulted
  deriving DecidableEq, Repr

/-- The module controller: module state (17 R411), resets (18, 22 R486), operating points (02 R37 to R39), watchdog
(18 R430), status flags and counters (17 R413), last rejection (17 R407). `bootAt`, `bootK`: the count and the factor at which the
limits of power-up were armed (21 R464, 02 R49); `calDue`: the count of the next calibration round (02 R47). -/
structure Ctl where
  st : ModSt
  cause : Byte
  entryMs : Nat
  prev : ModSt
  stage : Nat
  bootAt : Nat
  bootK : W32
  pinHeld : Bool
  supply : Bool
  resetCause : Byte
  resetCount : W32
  resetAt : Option Nat
  timer : Nat
  kModule : W32
  kRegion : Vector W32 4
  kBlock : Tab W32
  kCell : Tab W32
  calSeq : W32
  calAt : Nat
  calDue : Nat
  opReq : Byte
  opNow : Byte
  slew : Option Byte
  mv : W16
  cap : Byte
  tj : Vector W32 4
  rate : Vector W32 4
  wdNew : W32
  wdNow : W32
  wdAt : Nat
  wdBites : W32
  flags : W32
  flagCnt : Vector W32 10
  rej : List W64
  meters : Vector W64 5
  udpNow : W16
  udpNew : W16
  idle : W32
  hold : W32
  authFail : W64
  seqFail : W64
  ownerKeys : Vector (List Byte) 4
  obsKeys : Vector (List Byte) 8
  acctMs : W32
  acctSeq : W64
  meas : Vector (List Byte) 16
  sessNext : W32
  orderNext : Nat
  epochNext : Nat
  hallOrder : List Nat
  armed : Bool
  deriving DecidableEq, Repr

/-- The module controller right after power-on (17 R412, 21 R466, R467; log entry 2 for the values the manual leaves open).
`hallOrder` lists the free hallmarks, least recently released first (16 R376). -/
def Ctl.reset : Ctl where
  st := .boot
  cause := 0
  entryMs := 0
  prev := .off
  stage := 1
  bootAt := 0
  bootK := 0x40000000
  pinHeld := false
  supply := true
  resetCause := 0
  resetCount := 0
  resetAt := none
  timer := 0
  kModule := 0x40000000
  kRegion := Vector.replicate 4 0x40000000
  kBlock := []
  kCell := []
  calSeq := 0
  calAt := 0
  calDue := 1000
  opReq := 1
  opNow := 1
  slew := none
  mv := 750
  cap := 0xFF
  tj := Vector.replicate 4 0x42820000
  rate := Vector.replicate 4 0x40000000
  wdNew := 2000
  wdNow := 2000
  wdAt := 0
  wdBites := 0
  flags := 0
  flagCnt := Vector.replicate 10 0
  rej := List.replicate 8 0
  meters := Vector.replicate 5 0
  udpNow := 47013
  udpNew := 47013
  idle := 60
  hold := 60
  authFail := 0
  seqFail := 0
  ownerKeys := Vector.replicate 4 []
  obsKeys := Vector.replicate 8 []
  acctMs := 10000
  acctSeq := 0
  meas := Vector.replicate 16 (List.replicate 32 0)
  sessNext := 1
  orderNext := 0
  epochNext := 1
  hallOrder := (List.range 254).map (· + 1)
  armed := false

/-- The fabric interface (14 R334, R353, R360). `checkAt`: for each pair, the module-timer count at which its sensors are read, 10 ms
after a command. -/
structure Fab where
  id : W32
  dx : Byte
  dy : Byte
  dz : Byte
  joinMs : W32
  opened : BitVec 6
  hold : BitVec 6
  fault : BitVec 6
  moves : W64
  checkAt : Vector (Option Nat) 3
  drain : Bool
  deriving DecidableEq, Repr

/-- The fabric interface after reset (14 R360). -/
def Fab.reset : Fab := ⟨0, 1, 1, 1, 100, 0, 0, 0, 0, Vector.replicate 3 none, false⟩

/-- The host port and the field link (18 R433, 19 R440). `pause`: the quanta of each paused priority. -/
structure Eth where
  host : EthIf
  field : EthIf
  rx : W64
  tx : W64
  bad : W64
  fecCorr : W64
  fecUnc : W64
  pause : Vector W16 8
  deriving DecidableEq, Repr

/-- The interfaces after reset (18 R433). -/
def Eth.reset : Eth := ⟨EthIf.reset, EthIf.reset, 0, 0, 0, 0, 0, Vector.replicate 8 0⟩

/-- The module error log (21 R475, R479): records oldest first, the last number given, the records discarded. -/
structure Log where
  recs : List LogRec
  last : W64
  lost : W64
  deriving DecidableEq, Repr

/-- The state of the module. The tables are keyed as their comments say; `pending` is the queue of waiting commands. -/
structure State where
  /-- Commands waiting, first in, first out. -/
  pending : List Instr
  ctl : Ctl
  /-- Module cells 0–511. -/
  cells : Tab Cell
  /-- Module blocks 0–63. -/
  blocks : Tab Block
  /-- Copy engines 2b + e. -/
  engines : Tab Engine
  /-- Queue pairs 64b + k. -/
  qps : Tab Qp
  /-- Memory windows 16b + w. -/
  mws : Tab Mw
  /-- Regions 0–3. -/
  regions : Vector Region 4
  /-- Statistic slots 256r + s. -/
  slots : Tab Slot
  /-- Setter contexts 8m + j. -/
  setters : Tab SetCtx
  /-- Adder contexts 8m + j. -/
  adders : Tab AddCtx
  /-- Adder bucket slots 64m + n. -/
  aslots : Tab ASlot
  /-- Fabric ports. -/
  ports : Vector Port 6
  fab : Fab
  /-- Arbiters, by `arbKey`. -/
  arbs : Tab Arb
  /-- Partitions 0–15. -/
  parts : Vector Part 16
  /-- Session entries 0–15. -/
  sessions : Vector Sess 16
  /-- Command slots 0–15. -/
  cmds : Vector CmdSlot 16
  eth : Eth
  log : Log
  /-- Region SRAM: an unlisted byte is 0. -/
  sram : List Host.Cell
  /-- LPDDR5X: an unlisted byte reads as `Config.freeByte`. -/
  lpddr : List Host.Cell
  /-- Poisoned 128-byte lines, by line number. -/
  poison : List Nat
  /-- Signals on their way. -/
  sigs : List Sig
  /-- Signals sent to other modules. -/
  rsigs : List RSig
  /-- Barrier messages on their way. -/
  bmsgs : List BMsg
  /-- Refusals on their way back to cells. -/
  hmrefs : List HmRefusal
  /-- Drained tiles on their way. -/
  tiles : List LocalTile
  /-- Ready words on their way. -/
  readies : List ReadyWord
  /-- Ready words that reached their region. -/
  gathered : List ReadyWord
  /-- Verdict contributions on their way. -/
  vcontribs : List VContrib
  /-- Packets delivered to this module. -/
  inbox : List Inbox
  /-- Packets of this module that wait for the bridge's port to the fabric interface, with the port that a home names (15 R367). -/
  bridgeq : List (Option Nat × Packet)
  /-- Remote copies of which a packet was refused here and whose finish packet has not come: 128 × the source module + ENGINE. -/
  wrefused : List Nat
  /-- The hallmark of the partition that took the packets of a remote copy whose finish packet has not come, by the same key (10 R231). -/
  wtaken : Tab Byte
  /-- Reports on their way to the block collectors. -/
  breps : List Report
  /-- Reports on their way to the log. -/
  lreps : List Report
  /-- What waits for the Ethernet port's arbiter or a pause (15 R367, 19 R440). -/
  ethq : List Out
  /-- What has left the module (the model's own trace). -/
  out : List Out
  /-- Free values drawn (the model's own counter). -/
  draws : Nat
  deriving DecidableEq, Repr

/-- The module right after power-on (21 R464, R466): supply good has risen and stage 1 of power-up begins. -/
def State.reset : State where
  pending := []
  ctl := Ctl.reset
  cells := []
  blocks := []
  engines := []
  qps := []
  mws := []
  regions := Vector.replicate 4 Region.reset
  slots := []
  setters := []
  adders := []
  aslots := []
  ports := Vector.replicate 6 Port.reset
  fab := Fab.reset
  arbs := []
  parts := Vector.replicate 16 Part.reset
  sessions := Vector.replicate 16 Sess.reset
  cmds := Vector.replicate 16 CmdSlot.reset
  eth := Eth.reset
  log := ⟨[], 0, 0⟩
  sram := []
  lpddr := []
  poison := []
  sigs := []
  rsigs := []
  bmsgs := []
  hmrefs := []
  tiles := []
  readies := []
  gathered := []
  vcontribs := []
  inbox := []
  bridgeq := []
  wrefused := []
  wtaken := []
  breps := []
  lreps := []
  ethq := []
  out := []
  draws := 0

/-- Reasons a step stops with a fault. -/
inductive Fault where
  /-- No meaning raises it: the manual gives every command of the table an effect, and what it leaves open is a free
  value (NOTES.md, Stops). Safe: it cannot occur. -/
  | none
  deriving DecidableEq, Repr

/-- Reasons a command is refused by the model. -/
inductive Refusal where
  /-- Raised only by an arm of `exec` whose command has no meaning yet. Safe: the model stops where the module goes on. -/
  | notModelled (mnemonic : String)
  deriving DecidableEq, Repr

end Sys2Proof.Machine
end

