-- ==== Sys2Proof/Machine/Units.lean ====
section
/-! DEFINITION. Reading and writing the units of the state, unit numbers (00 R9), owners (16 R372, R378) and reports
(21 R472 to R479). -/

namespace Sys2Proof.Machine

/-- Module cell `c`. -/
def State.cell (s : State) (c : Nat) : Cell := Tab.get Cell.reset s.cells c
/-- Module cell `c` replaced. -/
def State.setCell (s : State) (c : Nat) (x : Cell) : State := { s with cells := Tab.set Cell.reset s.cells c x }
/-- Module cell `c` changed. -/
def State.updCell (s : State) (c : Nat) (f : Cell → Cell) : State := s.setCell c (f (s.cell c))
/-- Module block `b`. -/
def State.block (s : State) (b : Nat) : Block := Tab.get Block.reset s.blocks b
/-- Module block `b` replaced. -/
def State.setBlock (s : State) (b : Nat) (x : Block) : State := { s with blocks := Tab.set Block.reset s.blocks b x }
/-- Module block `b` changed. -/
def State.updBlock (s : State) (b : Nat) (f : Block → Block) : State := s.setBlock b (f (s.block b))
/-- Copy engine `i` = 2b + e. -/
def State.engine (s : State) (i : Nat) : Engine := Tab.get Engine.reset s.engines i
/-- A copy engine replaced. -/
def State.setEngine (s : State) (i : Nat) (x : Engine) : State := { s with engines := Tab.set Engine.reset s.engines i x }
/-- Queue pair `i` = 64b + k. -/
def State.qp (s : State) (i : Nat) : Qp := Tab.get Qp.reset s.qps i
/-- A queue pair replaced. -/
def State.setQp (s : State) (i : Nat) (x : Qp) : State := { s with qps := Tab.set Qp.reset s.qps i x }
/-- Memory window `i` = 16b + w. -/
def State.mw (s : State) (i : Nat) : Mw := Tab.get Mw.reset s.mws i
/-- A memory window replaced. -/
def State.setMw (s : State) (i : Nat) (x : Mw) : State := { s with mws := Tab.set Mw.reset s.mws i x }
/-- Statistic slot `i` = 256r + s. -/
def State.slot (s : State) (i : Nat) : Slot := Tab.get Slot.reset s.slots i
/-- A statistic slot replaced. -/
def State.setSlot (s : State) (i : Nat) (x : Slot) : State := { s with slots := Tab.set Slot.reset s.slots i x }
/-- Setter context `i` = 8m + j. -/
def State.setter (s : State) (i : Nat) : SetCtx := Tab.get SetCtx.reset s.setters i
/-- A Setter context replaced. -/
def State.setSetter (s : State) (i : Nat) (x : SetCtx) : State := { s with setters := Tab.set SetCtx.reset s.setters i x }
/-- Adder context `i` = 8m + j. -/
def State.adder (s : State) (i : Nat) : AddCtx := Tab.get AddCtx.reset s.adders i
/-- An adder context replaced. -/
def State.setAdder (s : State) (i : Nat) (x : AddCtx) : State := { s with adders := Tab.set AddCtx.reset s.adders i x }
/-- Bucket slot `i` = 64m + n. -/
def State.aslot (s : State) (i : Nat) : ASlot := Tab.get ASlot.reset s.aslots i
/-- A bucket slot replaced. -/
def State.setASlot (s : State) (i : Nat) (x : ASlot) : State := { s with aslots := Tab.set ASlot.reset s.aslots i x }
/-- Region `r`. -/
def State.region (s : State) (r : Nat) : Region := (s.regions[r]?).getD Region.reset
/-- Region `r` replaced. -/
def State.setRegion (s : State) (r : Nat) (x : Region) : State := { s with regions := s.regions.setIfInBounds r x }
/-- Fabric port `p`. -/
def State.port (s : State) (p : Nat) : Port := (s.ports[p]?).getD Port.reset
/-- Fabric port `p` replaced. -/
def State.setPort (s : State) (p : Nat) (x : Port) : State := { s with ports := s.ports.setIfInBounds p x }
/-- Partition `p`. -/
def State.part (s : State) (p : Nat) : Part := (s.parts[p]?).getD Part.reset
/-- Partition `p` replaced. -/
def State.setPart (s : State) (p : Nat) (x : Part) : State := { s with parts := s.parts.setIfInBounds p x }
/-- Session entry `i`. -/
def State.sess (s : State) (i : Nat) : Sess := (s.sessions[i]?).getD Sess.reset
/-- Session entry `i` replaced. -/
def State.setSess (s : State) (i : Nat) (x : Sess) : State := { s with sessions := s.sessions.setIfInBounds i x }
/-- Command slot `n`. -/
def State.cmd (s : State) (n : Nat) : CmdSlot := (s.cmds[n]?).getD CmdSlot.reset
/-- Command slot `n` replaced. -/
def State.setCmd (s : State) (n : Nat) (x : CmdSlot) : State := { s with cmds := s.cmds.setIfInBounds n x }

/-- A register of a vector, by number. -/
def vget {α : Type} {n : Nat} [Inhabited α] (v : Vector α n) (i : Nat) : α := (v[i]?).getD default

/-- The module block of a cell (00 R9). -/
def blockOfCell (c : Nat) : Nat := c / 8
/-- The region of a cell. -/
def regionOfCell (c : Nat) : Nat := c / 128
/-- The region of a block. -/
def regionOfBlock (b : Nat) : Nat := b / 16
/-- The region of a controller, its Setter and its adder unit. -/
def regionOfCtl (m : Nat) : Nat := m / 6

/-- The key of an arbiter in `State.arbs`. -/
def arbKey : ArbId → Nat
  | .block b a => 4 * b.val + a.val
  | .region r a => 256 + 278 * r.val + a.val
  | .module a => 1368 + a.val

/-- The reset value of ARBWDT.TICKS at an arbiter (15 R368). -/
def arbTicks (k : Nat) : W32 := if k < 256 then 100 else if k < 1368 then 1000 else 50

/-- The arbiter at a key. -/
def State.arb (s : State) (k : Nat) : Arb := Tab.get (Arb.reset (arbTicks k)) s.arbs k
/-- The arbiter at a key replaced. -/
def State.setArb (s : State) (k : Nat) (x : Arb) : State :=
  { s with arbs := Tab.set (Arb.reset (arbTicks k)) s.arbs k x }

/-- The fabric port of a transmit arbiter (15 R361, R368: module arbiters 7–12). -/
def portOfArb (k : Nat) : Option (Fin 6) := if 1375 ≤ k ∧ k < 1381 then some (Fin.ofNat 6 (k - 1375)) else none

/-- The key of a fabric port's transmit arbiter. -/
def arbOfPort (p : Nat) : Nat := 1375 + p

/-- ARBCTL.FREEZE; a fabric port arbiter takes it from 0x5001–0x5006.03 (15 R367). -/
def arbFrozen (s : State) (k : Nat) : Bool :=
  match portOfArb k with
  | some p => (s.port p).freeze
  | none => (s.arb k).freeze

/-- Whether a frozen arbiter keeps a requester waiting: every one but the present owner (15 R367). -/
def arbHolds (s : State) (k port : Nat) : Bool :=
  arbFrozen s k && (match (s.arb k).owner with
    | some q => q.port.toNat != port
    | none => true)

/-- The key of the arbiter of a block's mesh stop (15 R368). -/
def stopArb (b : Nat) : Nat := 256 + 278 * (b / 16) + b % 16

/-- Whether a transfer that leaves a block by a requester port of its bond port, for a unit of a region, waits for an arbiter on its way:
the bond port, the block's mesh stop, the bridge port of another region (15 R361, R367). -/
def pathHeld (s : State) (b port region : Nat) : Bool :=
  arbHolds s (4 * b + 1) port || arbHolds s (stopArb b) 4 ||
    (decide (region ≠ b / 16) && arbHolds s (1368 + region) (b / 16))

/-- Whether what reaches a block's mesh stop from the stops beside it waits there (15 R361, R367). -/
def stopInHeld (s : State) (b : Nat) : Bool :=
  arbFrozen s (stopArb b) && (match (s.arb (stopArb b)).owner with
    | some q => decide (4 ≤ q.port.toNat)
    | none => true)

/-- Whether a transfer from a unit at an edge stop of a region (`Config.unitStop`) to a unit of a region waits for an arbiter: its mesh
stop, the bridge port of another region (15 R361, R367). -/
def unitPathHeld (s : State) (unit region dst : Nat) : Bool :=
  arbHolds s (256 + 278 * region + (Config.unitStop unit).val) 4 || (decide (dst ≠ region) && arbHolds s (1368 + dst) region)

/-- Whether what the fabric brings for a unit of a region waits at the bridge (15 R361, R367: requester port 4). -/
def inHeld (s : State) (region : Nat) : Bool := arbHolds s (1368 + region) 4

/-- Whether what the RoCEv2 engine reads or writes in a region waits at the bridge (15 R361, R367: requester port 5). -/
def hostPathHeld (s : State) (region : Nat) : Bool := arbHolds s (1368 + region) 5

/-- Whether a message on its way from an issuer to a cell waits for an arbiter (15 R361, R367); the issuers are numbered as in `Sig.src`. -/
def msgHeld (s : State) (src cell : Nat) : Bool :=
  let b := cell / 8
  let r := cell / 128
  if src < 512 then decide (src / 8 ≠ b) && (pathHeld s (src / 8) (src % 8) r || stopInHeld s b)
  else if src < 640 then decide ((src - 512) / 2 ≠ b) && (pathHeld s ((src - 512) / 2) (8 + src % 2) r || stopInHeld s b)
  else if src < 1024 then decide (src - 640 ≠ b) &&
    (arbHolds s (stopArb (src - 640)) 4 || (decide (r ≠ (src - 640) / 16) && arbHolds s (1368 + r) ((src - 640) / 16)) || stopInHeld s b)
  else if src < 2048 then unitPathHeld s (24 + (src - 1024) / 256) ((src - 1024) / 256) r || stopInHeld s b
  else if src < 2304 then unitPathHeld s ((src - 2048) / 8) ((src - 2048) / 48) r || stopInHeld s b
  else if src < 4096 then unitPathHeld s ((src - 2304) / 8) ((src - 2304) / 48) r || stopInHeld s b
  else if src < 8192 then hostPathHeld s r || stopInHeld s b
  else inHeld s r || stopInHeld s b

/-- The partition that holds a module block (16 R372): one that holds a hallmark and names the block. -/
def ownerOfBlock (s : State) (b : Nat) : Option Nat :=
  (List.range 16).find? fun p => decide ((s.part p).hall ≠ 0) && (s.part p).blocks.getLsbD b

/-- The hallmark of the partition that holds a block; 0x00 where none does (16 R376). -/
def hallOfBlock (s : State) (b : Nat) : Byte :=
  match ownerOfBlock s b with
  | some p => (s.part p).hall
  | none => 0

/-- The partition that carries a hallmark. -/
def partOfHall (s : State) (h : Byte) : Option Nat :=
  if h = 0 then none else (List.range 16).find? fun p => (s.part p).hall == h

/-- Whether a unit owned by `own` (0x00: by no partition) accepts an access that carries `h` (01 R27, 16 R378). -/
def hallOk (own h : Byte) : Bool := if own = 0 then h == 0xFF else h == own

/-- A partition number as byte 0x1F of a record (21 R475). -/
def ownByte (p : Option Nat) : Byte :=
  match p with
  | some p => BitVec.ofNat 8 (16 + p)
  | none => 0

/-- An origin word (21 R477). -/
def originWord (s : State) (kind index region : Nat) : W32 :=
  BitVec.ofNat 32 (kind * 2 ^ 28 + (index % 256) * 2 ^ 20 + (region % 4) * 2 ^ 18 + s.fab.id.toNat % 2 ^ 18)

/-- A peer's origin word (21 R478). -/
def peerOrigin (id : Nat) : W32 := BitVec.ofNat 32 (0xC * 2 ^ 28 + id % 2 ^ 18)

/-- The origin word of a cell. -/
def originCell (s : State) (c : Nat) : W32 := originWord s 0 (c % 128) (regionOfCell c)
/-- The origin word of a block. -/
def originBlock (s : State) (b : Nat) : W32 := originWord s 1 (b % 16) (regionOfBlock b)
/-- The origin word of a copy engine 2b + e. -/
def originEngine (s : State) (i : Nat) : W32 := originWord s 2 (i % 32) (i / 32)
/-- The origin word of a bank of region SRAM. -/
def originBank (s : State) (r n : Nat) : W32 := originWord s 4 n r
/-- The origin word of a controller. -/
def originCtl (s : State) (m : Nat) : W32 := originWord s 5 (m % 6) (m / 6)
/-- The origin word of a Setter context 8m + j. -/
def originSetter (s : State) (i : Nat) : W32 := originWord s 6 (i % 48) (i / 48)
/-- The origin word of an adder context 8m + j. -/
def originAdder (s : State) (i : Nat) : W32 := originWord s 7 (i % 48) (i / 48)
/-- The origin word of a statistic slot 256r + s. -/
def originSlot (s : State) (i : Nat) : W32 := originWord s 8 (i % 256) (i / 256)
/-- The origin word of a hub-die unit. -/
def originHub (s : State) (i : Nat) : W32 := originWord s 9 i 0
/-- The origin word of a fabric port. -/
def originPort (s : State) (p : Nat) : W32 := originWord s 0xA p 0
/-- The origin word of the module controller. -/
def originMc (s : State) : W32 := originWord s 0xB 0 0

/-- The severity of a record class (21 R476). -/
def sevOf (cls : W16) : Byte :=
  if cls = 2 then 1
  else if cls = 3 ∨ cls = 4 ∨ cls = 5 ∨ cls = 6 ∨ cls = 7 ∨ cls = 0xD ∨ cls = 0xE ∨ cls = 0xF then 0
  else if cls = 0x16 then 3 else 2

/-- Whether two reports share their coalescing key (21 R479). -/
def Report.sameKey (x y : Report) : Bool := x.origin == y.origin && x.cls == y.cls && x.own == y.own

/-- The collector a report waits at (21 R472, R473): its block's, its region's, or the module's own. -/
def Report.col (x : Report) : Nat :=
  match x.block with
  | some b => b.val
  | none => if x.reporter.toNat / 2 ^ 28 ≤ 8 then 64 + fieldN x.reporter.toNat 18 2 else 68

/-- A report added to a collector's queue: merged into a report of the same key where the queue of 32 is full (21 R473). -/
def queueReport (x : Report) (q : List Report) : List Report :=
  let hit (y : Report) : Bool := y.col == x.col && y.sameKey x
  if 32 ≤ q.countP (fun y => y.col == x.col) ∧ q.any hit then
    modifyNth (fun y => { y with count := BitVec.ofNat 32 (satAdd max32 y.count.toNat x.count.toNat) }) (q.findIdx hit) q
  else q ++ [x]

/-- A report to a block's collector (21 R472), with an origin that may differ from the reporter (21 R478). -/
def reportBlockVia (s : State) (b : Nat) (origin reporter : W32) (cls : W16) (own : Option Nat) (detail : W64) : State :=
  if h : b < 64 then
    { s with breps := queueReport ⟨some ⟨b, h⟩, origin, reporter, cls, sevOf cls, ownByte own, detail, 1⟩ s.breps }
  else s

/-- A report of a cell, block or copy engine to its block's collector (21 R472). -/
def reportBlock (s : State) (b : Nat) (origin : W32) (cls : W16) (own : Option Nat) (detail : W64) : State :=
  reportBlockVia s b origin origin cls own detail

/-- A report of a region or module unit toward the log (21 R472). -/
def reportLog (s : State) (origin reporter : W32) (cls : W16) (own : Option Nat) (detail : W64) : State :=
  { s with lreps := queueReport ⟨none, origin, reporter, cls, sevOf cls, ownByte own, detail, 1⟩ s.lreps }

/-- DETAIL of a record: code, detail, and six more bytes (21 R475). -/
def detailWord (code detail rest : Nat) : W64 := BitVec.ofNat 64 (code % 256 + (detail % 256) * 256 + (rest % 2 ^ 48) * 65536)

/-- A free value's number, and the state with the counter advanced (the free values of Config). -/
def draw (s : State) : Nat × State := (s.draws, { s with draws := s.draws + 1 })

/-- A partition's counter raised (16 R392): `k` is its number in the order of 16 R394, MEMU 8, MEMR 9, MEMB 10, BRIDGE 11. -/
def countPart (s : State) (p : Option Nat) (k n : Nat) : State :=
  match p with
  | none => s
  | some p =>
    let x := s.part p
    s.setPart p { x with cnt := x.cnt.setIfInBounds k (vget x.cnt k + n) }

/-- A message of a partition's traffic counted where it crosses the inter-region bridge (01 R19, 16 R392; log entry 110). -/
def countBridge (s : State) (p : Option Nat) (crosses : Bool) : State := if crosses then countPart s p 11 Config.messageBytes else s

/-- Whether a signal from a source crosses the bridge on its way to a cell (01 R19): the RoCEv2 engine stands on the hub die, and a
signal that a packet of the fabric brings has been counted with it. -/
def crossesFrom (src cell : Nat) : Bool :=
  let r := cell / 128
  if src < 512 then src / 128 != r
  else if src < 640 then (src - 512) / 32 != r
  else if src < 1024 then (src - 640) / 16 != r
  else if src < 2048 then (src - 1024) / 256 != r
  else if src < 2304 then (src - 2048) / 48 != r
  else if src < 4096 then (src - 2304) / 48 != r
  else decide (src < 8192)

/-- A signal sent on its way to a pip of this module (11 R247). -/
def sendSig (s : State) (src cell pip amount : Nat) (hall : Byte) : State :=
  let s := countBridge s (partOfHall s hall) (crossesFrom src cell)
  { s with sigs := s.sigs ++ [⟨src, Fin.ofNat 512 cell, BitVec.ofNat 6 pip, BitVec.ofNat 16 amount, hall, none⟩] }

/-- A refusal on its way back to a cell (03 R82). -/
def sendRefusal (s : State) (c : Nat) (detail : Byte) (addr : W64) : State :=
  { s with hmrefs := s.hmrefs ++ [⟨Fin.ofNat 512 c, detail, addr⟩] }

/-- The frames in which something leaves through the host port (18 R433, 19 R443): RoCEv2 data in packets of 4,096 bytes. -/
def hostFrames : Out → Nat
  | .wdp i _ _ _ _ _ => if i = .host then 1 else 0
  | .frame i _ _ _ _ _ => if i = .host then 1 else 0
  | .roce _ _ _ _ _ data => max 1 ((data.length + 4095) / 4096)
  | .flit _ _ => 0

/-- The 802.1Q tag of what leaves through the host port (19 R439): its PCP and VLAN ID. -/
def Out.vlanTag : Out → Option (BitVec 3 × BitVec 12)
  | .roce _ _ _ _ _ _ => some (3, 0)
  | .wdp _ _ _ _ _ _ => none
  | .frame _ _ _ _ _ _ => none
  | .flit _ _ => none

/-- The key of the Ethernet port's transmit arbiter (15 R368). -/
def arbEth : Nat := 1381

/-- Whether something that would leave through the host port waits: for its priority's pause (19 R439, R440: RoCEv2 carries PCP 3, every
other frame is untagged, so of priority 0, log entry 101), or for the port's arbiter (15 R361, R367: 0 RoCEv2, 1 WDP). -/
def ethWaits (s : State) : Out → Bool
  | .wdp i _ _ _ _ _ => i == .host && (vget s.eth.pause 0 != 0 || arbHolds s arbEth 1)
  | .frame i _ _ _ _ _ => i == .host && vget s.eth.pause 0 != 0
  | .roce _ _ _ _ _ _ => vget s.eth.pause 3 != 0 || arbHolds s arbEth 0
  | .flit _ _ => false

/-- Something leaves the module now: an entry of the model's trace, and 0x5102.02 where it leaves through the host port. -/
def leaves (s : State) (o : Out) : State :=
  { s with
    out := s.out ++ [o]
    eth := { s.eth with tx := BitVec.ofNat 64 (satAdd max64 s.eth.tx.toNat (hostFrames o)) } }

/-- Something leaves the module, or waits at the Ethernet port. -/
def emit (s : State) (o : Out) : State := if ethWaits s o then { s with ethq := s.ethq ++ [o] } else leaves s o

/-- What waited at the Ethernet port and waits no more leaves, in order. -/
def flushEth (s : State) : State := (s.ethq.filter fun o => !ethWaits s o).foldl leaves { s with ethq := s.ethq.filter (ethWaits s) }

/-- The modified EUI-64 link-local address of the field link (18 R433). -/
def linkLocal : List Byte :=
  let m := beBytes 6 Config.fieldMac.toNat
  [0xFE, 0x80, 0, 0, 0, 0, 0, 0, m.getD 0 0 ^^^ 2, m.getD 1 0, m.getD 2 0, 0xFF, 0xFE, m.getD 3 0, m.getD 4 0, m.getD 5 0]

/-- The addresses of an interface. -/
def ethOf (s : State) (i : Iface) : EthIf := if i = .host then s.eth.host else s.eth.field

/-- Whether an IPv4 address is an interface's own; 0 disables IPv4 (18 R433). -/
def ip4Mine (s : State) (i : Iface) (a : Nat) : Bool := decide (a ≠ 0) && (ethOf s i).ip4.toNat == a
/-- Whether an IPv6 address is an interface's own; zeros disable IPv6 (18 R433). -/
def ip6Mine (s : State) (i : Iface) (a : List Byte) : Bool :=
  (leNat a != 0 && (ethOf s i).ip6 == a) || (i == .field && a == linkLocal)

/-- Whether a destination address of either family is an interface's own. -/
def addrMine (s : State) (i : Iface) (v6 : Bool) (a : List Byte) : Bool := if v6 then ip6Mine s i a else ip4Mine s i (leNat a.reverse)

/-- Whether two addresses of `bits` bits share a prefix. -/
def samePrefix (bits len a b : Nat) : Bool := a / 2 ^ (bits - len) == b / 2 ^ (bits - len)

/-- The next hop toward an address (18 R433, 19 R441): itself where it is on the link, else the gateway; none where there is none. A
link-local address is on the link. -/
def nextHop (s : State) (i : Iface) (v6 : Bool) (a : List Byte) : Option (List Byte) :=
  let e := ethOf s i
  if v6 then
    if samePrefix 128 10 (leNat a.reverse) (0xFE80 * 2 ^ 112) ||
        (leNat e.ip6 != 0 && samePrefix 128 e.pfx6.toNat (leNat a.reverse) (leNat e.ip6.reverse)) then some a
    else if leNat e.gw6 = 0 then none else some e.gw6
  else if e.ip4 ≠ 0 ∧ samePrefix 32 e.pfx4.toNat (leNat a.reverse) e.ip4.toNat = true then some a
  else if e.gw4 = 0 then none else some (beBytes 4 e.gw4.toNat)

end Sys2Proof.Machine
end

