-- ==== Sys2Proof/Machine/Packets.lean ====
section
/-! DEFINITION. Packets of the fabric (14 R334 to R350, 13 R309): headers, routing, sending, dropping, and taking a delivered
packet out of the inbox. -/

namespace Sys2Proof.Machine

/-- The packet kinds of 14 R344. -/
def kReduce : BitVec 3 := 1
def kWrite : BitVec 3 := 2
def kWack : BitVec 3 := 3
def kSignal : BitVec 3 := 4
def kTree : BitVec 3 := 5
def kNotice : BitVec 3 := 6
def kLink : BitVec 3 := 7

/-- A field of a packet's header. -/
def Packet.fld (p : Packet) (lo w : Nat) : Nat := fieldN p.hdr.toNat lo w
/-- SUB, or TYPE of a reduction packet. -/
def Packet.sub (p : Packet) : Nat := p.fld 0 4
/-- JOB. -/
def Packet.job (p : Packet) : BitVec 12 := BitVec.ofNat 12 (p.fld 4 12)
/-- SRCMOD. -/
def Packet.src (p : Packet) : Nat := p.fld 87 18
/-- DSTMOD. -/
def Packet.dst (p : Packet) : Nat := p.fld 105 18
/-- Bytes of a packet, header included (16 R392). -/
def Packet.size (p : Packet) : Nat := 16 + p.pay.length

/-- A header (14 R344): `fields` stands at bits [86:16]. -/
def mkHdr (sub job fields src dst : Nat) : BitVec 128 :=
  BitVec.ofNat 128 (sub % 16 + (job % 4096) * 2 ^ 4 + (fields % 2 ^ 71) * 2 ^ 16 + (src % 2 ^ 18) * 2 ^ 87 + (dst % 2 ^ 18) * 2 ^ 105)

/-- The class of a reduction packet type (13 R310). -/
def reduceCls (t : Nat) : BitVec 2 := if t = 1 ∨ t = 2 ∨ t = 3 then 1 else 0

/-- This module's identifier. -/
def State.modId (s : State) : Nat := s.fab.id.toNat % 2 ^ 18

/-- The coordinates and pod of an identifier (14 R334): X, Y, Z, POD. -/
def idX (i : Nat) : Nat := fieldN i 0 5
def idY (i : Nat) : Nat := fieldN i 5 5
def idZ (i : Nat) : Nat := fieldN i 10 4
def idPod (i : Nat) : Nat := fieldN i 14 4

/-- Whether a unit may send to a module (14 R336). -/
def fabReachable (s : State) (dst : Nat) : Bool :=
  idPod dst == idPod s.modId && decide (idX dst < s.fab.dx.toNat) && decide (idY dst < s.fab.dy.toNat) &&
    decide (idZ dst < s.fab.dz.toNat)

/-- (t − a) mod D. -/
def ringDist (d a t : Nat) : Nat := (t + d - a % d) % d

/-- The port out of one dimension (14 R349): `base` is its + port. -/
def dimPort (base d a t : Nat) : Nat := if ringDist d a t ≤ d - ringDist d a t then base else base + 1

/-- A dimension of the torus: its + port, its size, and the coordinates of two identifiers. -/
def dimOf (s : State) (k : Nat) (i : Nat) : Nat × Nat :=
  if k = 0 then (s.fab.dx.toNat, idX i) else if k = 1 then (s.fab.dy.toNat, idY i) else (s.fab.dz.toNat, idZ i)

/-- The first dimension in which two identifiers differ (14 R349). -/
def routeDim (s : State) (dst : Nat) : Option Nat :=
  [0, 1, 2].find? fun k => decide ((dimOf s k s.modId).2 ≠ (dimOf s k dst).2)

/-- Whether the target of a dimension was bypassed: it lies strictly between this module and the port's partner (14 R350). -/
def bypassed (s : State) (k port dst : Nat) : Bool :=
  let (d, a) := dimOf s k s.modId
  let t := (dimOf s k dst).2
  let p := (dimOf s k ((s.port port).partner.toNat % 2 ^ 18)).2
  if port % 2 = 0 then decide (ringDist d a t < ringDist d a p) || decide (ringDist d a p = 0)
  else decide (ringDist d t a < ringDist d p a) || decide (ringDist d p a = 0)

/-- Where a packet goes next. -/
inductive Route where
  | here
  | port (p : Nat)
  | drop (sub : Nat)
  deriving DecidableEq, Repr

/-- Dimension-order routing (14 R349, R350). -/
def routeOf (s : State) (dst : Nat) : Route :=
  if dst = s.modId then .here
  else match routeDim s dst with
    | none => .drop 0
    | some k =>
      let (d, a) := dimOf s k s.modId
      let p := dimPort (2 * k) d a (dimOf s k dst).2
      match (s.port p).st with
      | .up => if bypassed s k p dst then .drop 0 else .port p
      | .ride => if bypassed s k p dst then .drop 0 else .port p
      | _ => .drop 1

/-- Whether a packet that leaves by a port stands on the second virtual channel: in the port's dimension it has crossed, or crosses
on this link, the wrap between coordinate D − 1 and coordinate 0 (14 R347). -/
def secondChannel (s : State) (p : Nat) (pkt : Packet) : Bool :=
  let start := (dimOf s (p / 2) pkt.src).2
  let far := (dimOf s (p / 2) ((s.port p).partner.toNat % 2 ^ 18)).2
  if p % 2 = 0 then decide (far < start) else decide (start < far)

/-- A packet put into a port's queue by one of its requesters (15 R361). -/
def queueAt (s : State) (p : Nat) (req : Byte) (pkt : Packet) : State :=
  let x := s.port p
  s.setPort p { x with txq := x.txq ++ [⟨pkt, req, secondChannel s p pkt⟩] }

/-- A packet delivered on this module, through a port or (6) from this module itself. -/
def deliver (s : State) (pkt : Packet) (via : Nat) : State := { s with inbox := s.inbox ++ [⟨pkt, via⟩] }

/-- REF of a NOTICE (14 R345). -/
def noticeRef (pkt : Packet) : Nat :=
  if pkt.kind = kReduce then pkt.fld 16 16
  else if pkt.kind = kWrite then pkt.fld 76 7
  else if pkt.kind = kSignal ∨ pkt.kind = kTree then 64 * pkt.fld 22 9 + pkt.fld 16 6
  else 0

/-- The NOTICE of a dropped packet (14 R344, R345). -/
def noticeOf (s : State) (pkt : Packet) (sub : Nat) : Packet :=
  let dkind := pkt.kind.toNat
  ⟨kNotice, 0, mkHdr sub pkt.job.toNat (dkind + pkt.sub * 2 ^ 3 + noticeRef pkt * 2 ^ 7 + pkt.dst * 2 ^ 23) s.modId pkt.src, [], pkt.issuer⟩

/-- A dropped packet: a NOTICE to its SRCMOD, this module's own units included; none for a NOTICE or a LINK packet (14 R345,
R350). A NOTICE that cannot be delivered is discarded. -/
def dropPacket (s : State) (pkt : Packet) (sub : Nat) : State :=
  if pkt.kind = kNotice ∨ pkt.kind = kLink then s
  else
    let n := noticeOf s pkt sub
    match routeOf s n.dst with
    | .here => deliver s n 6
    | .port p => queueAt s p 0 n
    | .drop _ => s

/-- Packets dropped in order. -/
def dropAll (s : State) (sub : Nat) : List Packet → State
  | [] => s
  | p :: ps => dropAll (dropPacket s p sub) sub ps

/-- A packet of one requester — the bridge (0), or a port + 1 for a forwarded packet: delivered here, queued at a port, or dropped. -/
def routeVia (s : State) (req : Byte) (pkt : Packet) : State :=
  match routeOf s pkt.dst with
  | .here => deliver s pkt 6
  | .port p => queueAt s p req pkt
  | .drop sub => dropPacket s pkt sub

/-- A packet of this module past the bridge: routed, or sent through the port that a home names (11 R259). -/
def sendVia (s : State) (port : Option Nat) (pkt : Packet) : State :=
  match port with
  | none => routeVia s 0 pkt
  | some p =>
    match (s.port p).st with
    | .up => queueAt s p 0 pkt
    | .ride => queueAt s p 0 pkt
    | _ => dropPacket s pkt 1

/-- The key of the arbiter of the bridge's port to the fabric interface (15 R368). -/
def arbFabric : Nat := 1372

/-- A packet sent by this module: it waits while the bridge's port to the fabric interface is frozen (15 R367). -/
def sendOut (s : State) (port : Option Nat) (pkt : Packet) : State :=
  if arbFrozen s arbFabric then { s with bridgeq := s.bridgeq ++ [(port, pkt)] } else sendVia s port pkt

/-- A packet sent by this module by its DSTMOD. -/
def routePacket (s : State) (pkt : Packet) : State := sendOut s none pkt

/-- What waited at that port leaves, in order. -/
def flushBridge (s : State) : State := s.bridgeq.foldl (fun s e => sendVia s e.1 e.2) { s with bridgeq := [] }

/-- The header of this module's IDENT (14 R344): its identifier at [33:16], DX, DY and DZ at [47:34], 0 for 32, 32 and 16. -/
def identHdr (s : State) (dst : Nat) : BitVec 128 :=
  mkHdr 0 0 (s.modId + s.fab.dx.toNat % 32 * 2 ^ 18 + s.fab.dy.toNat % 32 * 2 ^ 23 + s.fab.dz.toNat % 16 * 2 ^ 28) s.modId dst

/-- Packet bytes that a partition's agent sends into the fabric, over the bridge (01 R19, 16 R392: FABTX, BRIDGE). -/
def countTx (s : State) (own : Option Nat) (pkt : Packet) : State :=
  countPart (countPart s own 12 pkt.size) own 11 pkt.size

/-- A packet of a partition's agent sent into the fabric. -/
def sendPacket (s : State) (own : Option Nat) (pkt : Packet) : State := routePacket (countTx s own pkt) pkt

/-- Packet bytes delivered to a partition's agent, over the bridge (01 R19, 16 R392: FABRX, BRIDGE). -/
def countRx (s : State) (own : Option Nat) (pkt : Packet) : State :=
  countPart (countPart s own 13 pkt.size) own 11 pkt.size

/-- Whether two delivered packets keep their order (14 R351): the same source and class. -/
def sameStream (x y : Inbox) : Bool := x.pkt.cls == y.pkt.cls && x.pkt.src == y.pkt.src

/-- The packet that a receiving unit takes when the `k`-th delivered packet reaches it: the oldest of its stream, where it is
one the unit takes. -/
def takePacket (s : State) (k : Nat) (want : Packet → Bool) : Option (Inbox × State) :=
  match takeMsg sameStream k s.inbox with
  | none => none
  | some (x, rest) => if want x.pkt then some (x, { s with inbox := rest }) else none

/-- A record of a discarded packet (13 R310, 14 R346, 21 R500). -/
def packetDiscarded (s : State) (origin : W32) (own : Option Nat) (pkt : Packet) : State :=
  reportLog s origin origin 0xE own (detailWord 0 0 pkt.src)

end Sys2Proof.Machine
end

