-- ==== Sys2Proof/Machine/Timers.lean ====
section
/-! DEFINITION. The timers (02 R43 to R53): their counts, the conversion of a duration to ticks, and a timer moved on to the count at
which something happens (log entry 10). -/

namespace Sys2Proof.Machine

/-- A 48-bit count after more ticks (02 R43). -/
def count48 (t n : Nat) : Nat := (t + n) % 2 ^ 48

/-- The ticks of a duration given in nominal ticks, at a factor K of 30 fraction bits: the nearest integer, a tie upward (02 R48). -/
def ticks (k : W32) (t : Nat) : Nat := (2 ^ 31 * t + k.toNat) / (2 * k.toNat)

/-- A 48-bit count moved on to another: a count that lies behind it stays (02 R43, R44). -/
def timeTo (now t : Nat) : Nat := if (t + 2 ^ 48 - now) % 2 ^ 48 < 2 ^ 47 then t % 2 ^ 48 else now

/-- The count at which a duration in ms armed now ends on the module timer, at the factor of this moment (02 R48, R49). -/
def moduleDue (s : State) (ms : Nat) : Nat := count48 s.ctl.timer (ticks s.ctl.kModule ms)

/-- The count at which a number of ticks armed now ends on a region's timer (12 R285, 13 R331: software has converted them). -/
def regionDue (s : State) (r n : Nat) : Nat := count48 (s.region r).timer n

/-- The module timer moved on to a count. -/
def moduleTimeTo (s : State) (t : Nat) : State := { s with ctl := { s.ctl with timer := timeTo s.ctl.timer t } }

/-- A region timer moved on to a count. -/
def regionTimeTo (s : State) (r t : Nat) : State :=
  s.setRegion r { s.region r with timer := timeTo (s.region r).timer t }

/-- A block timer moved on to a count: it stops in Dormant (02 R45). -/
def blockTimeTo (s : State) (b t : Nat) : State :=
  if (s.block b).st = .dormant then s else s.updBlock b fun x => { x with timer := timeTo x.timer t }

/-- CTIME (02 R43, R51). -/
def ctime (s : State) (c : Nat) : Nat := vget (s.block (blockOfCell c)).ctimes (c % 8)

/-- A cell's own timer moved on to a count: only while the cell timers of its block count (02 R45). -/
def cellTimeTo (s : State) (c t : Nat) : State :=
  if (s.block (blockOfCell c)).st = .dormant then s
  else
    let now := ctime s c
    let v := if now ≤ t ∨ (t + 2 ^ 64 - now) % 2 ^ 64 < 2 ^ 63 then t % 2 ^ 64 else now
    s.updBlock (blockOfCell c) fun x => { x with ctimes := x.ctimes.setIfInBounds (c % 8) v }

end Sys2Proof.Machine
end

