-- ==== Sys2Proof/Machine/Mem.lean ====
section
/-! DEFINITION. Memory: the address map (01 R22 to R26), partition windows and translation (16 R373, R374), the bytes of
region SRAM and LPDDR5X with their poison (10 R233 to R242), and the hallmark check (01 R27). -/

namespace Sys2Proof.Machine

/-- What an address of device physical space names (01 R22, R26). -/
inductive Place where
  | lpddr (m : Nat)
  | sram (group : Nat)
  | tile (c : Nat) (off : Nat)
  | moduleCtl (off : Nat)
  | regionCtl (r : Nat) (off : Nat)
  | blockCtl (b : Nat) (off : Nat)
  | cellCtl (c : Nat) (off : Nat)
  | reserved
  deriving DecidableEq, Repr

/-- The place of an address (01 R17, R22, R26). -/
def placeOf (a : Nat) : Place :=
  if a < 0x10000000000 then
    let r := a / 0x4000000000
    let off := a % 0x4000000000
    if off < 0x3000000000 then .lpddr (6 * r + off / 0x800000000) else .reserved
  else if a < 0x20000000000 then
    if a < 0x10100000000 then .sram ((a - 0x10000000000) / 0x4000000) else .reserved
  else if a < 0x30000000000 then
    if a < 0x20002000000 then .tile ((a - 0x20000000000) / 0x10000) (a % 0x10000) else .reserved
  else if a < 0x40000000000 then
    let o := a - 0x30000000000
    if o < 0x1000000 then .moduleCtl o
    else if o < 0x5000000 then .regionCtl ((o - 0x1000000) / 0x1000000) (o % 0x1000000)
    else if 0x10000000 ≤ o ∧ o < 0x14000000 then .blockCtl ((o - 0x10000000) / 0x100000) (o % 0x100000)
    else if 0x20000000 ≤ o ∧ o < 0x22000000 then .cellCtl ((o - 0x20000000) / 0x10000) (o % 0x10000)
    else .reserved
  else .reserved

/-- The region of a memory address. -/
def regionOfPlace : Place → Nat
  | .lpddr m => m / 6
  | .sram g => g / 16
  | .tile c _ => c / 128
  | .regionCtl r _ => r
  | .blockCtl b _ => b / 16
  | .cellCtl c _ => c / 128
  | .moduleCtl _ => 0
  | .reserved => 0

/-- Whether a memory or tile address is out of service: its SRAM group with the block above (16 R384), its controller
(10 R240). Such an address is reserved (01 R23). -/
def outOfService (s : State) : Place → Bool
  | .sram g => (s.block g).groupOos
  | .lpddr m => (s.region (m / 6)).ctlOos.getLsbD (m % 6)
  | _ => false

/-- The fields of a memory window (16 R373). -/
def winBase (w : BitVec 128) : Nat := fieldN w.toNat 0 48
/-- KIND. -/
def winKind (w : BitVec 128) : Nat := fieldN w.toNat 56 2
/-- The unit of a window's size. -/
def winUnit (w : BitVec 128) : Nat := if winKind w = 1 then 0x40000000 else 0x4000000
/-- The window's length in bytes; 0 for an unused window. -/
def winLen (w : BitVec 128) : Nat :=
  if winKind w = 1 ∨ winKind w = 2 then fieldN w.toNat 48 8 * winUnit w else 0
/-- PBASE. -/
def winPBase (w : BitVec 128) : Nat := fieldN w.toNat 64 48

/-- Whether a device address lies in a window. -/
def winHas (w : BitVec 128) (a : Nat) : Bool := insideRange a 1 (winBase w) (winLen w)

/-- Whether [a, a + n) is covered by windows; `fuel` bounds the windows passed. -/
def covered (wins : List (BitVec 128)) : Nat → Nat → Nat → Bool
  | 0, _, n => n == 0
  | fuel + 1, a, n =>
    if n = 0 then true
    else match wins.find? (fun w => winHas w a) with
      | none => false
      | some w =>
        let k := min n (winBase w + winLen w - a)
        covered wins fuel (a + k) (n - k)

/-- Whether an extent of memory lies inside a partition's memory windows. -/
def inMemWindows (s : State) (p a n : Nat) : Bool := covered (s.part p).wins.toList 17 a n

/-- The partition whose memory window holds a device address (01 R27). -/
def ownerOfMem (s : State) (a : Nat) : Option Nat :=
  (List.range 16).find? fun p =>
    decide ((s.part p).hall ≠ 0) && (s.part p).wins.toList.any (fun w => winHas w a)

/-- The hallmark an address of memory accepts; 0x00 where no partition holds it. -/
def hallOfMem (s : State) (a : Nat) : Byte :=
  match ownerOfMem s a with
  | some p => (s.part p).hall
  | none => 0

/-- A byte of memory. Region SRAM not listed is 0 (log entry 2); LPDDR5X not listed is a free value (10 R242). -/
def memByte (s : State) (a : Nat) : Byte :=
  match placeOf a with
  | .sram _ => Tab.get 0 s.sram a
  | .lpddr _ =>
    if Tab.has s.lpddr a then Tab.get 0 s.lpddr a
    else Config.freeByte (match ownerOfMem s a with | some p => (s.part p).epoch | none => 0) a
  | _ => 0

/-- The canonical form of memory: addresses strictly rising, and no SRAM entry equal to the 0 that an unlisted byte reads as; an
unlisted LPDDR5X byte is a free value, which no entry can equal. -/
def Memory.wf (s : State) : Bool := Tab.wf (0 : Byte) s.sram && Tab.risingFrom 0 s.lpddr

/-- Bytes of memory, ascending. -/
def memBytes (s : State) (a : Nat) : Nat → List Byte
  | 0 => []
  | n + 1 => memByte s a :: memBytes s (a + 1) n

/-- A byte of memory written. Other places hold no memory. -/
def setMemByte (s : State) (a : Nat) (v : Byte) : State :=
  match placeOf a with
  | .sram _ => { s with sram := Tab.set 0 s.sram a v }
  | .lpddr _ => { s with lpddr := Tab.put s.lpddr a v }
  | _ => s

/-- Bytes of memory written, ascending, without regard to poison. -/
def putMem (s : State) (a : Nat) : List Byte → State
  | [] => s
  | v :: vs => putMem (setMemByte s a v) (a + 1) vs

/-- Poison cleared in the lines that [a, a + n) covers whole (03 R67). -/
def clearPoison (s : State) (a n : Nat) : State :=
  { s with poison := s.poison.filter (fun l => !insideRange (128 * l) 128 a n) }

/-- One write of consecutive bytes (03 R67, 10 R234, R242). -/
def memWrite (s : State) (a : Nat) (vs : List Byte) : State := putMem (clearPoison s a vs.length) a vs

/-- The line of an address poisoned (03 R67). -/
def poisonLine (s : State) (a : Nat) : State := { s with poison := insertNat (a / 128) s.poison }

/-- The detail of uncorrectable data by place (03 R62, 10 R228, 12 R287). -/
def memDetail (a : Nat) : Byte := match placeOf a with | .sram _ => 1 | _ => 2

/-- Bytes of Bulk traffic at memory (16 R392). -/
def countBulk (s : State) (p : Option Nat) (n : Nat) : State := countPart s p 10 n

/-- An uncorrectable error found in memory, with its record and counters (10 R234 to R240, R243). `poisoned`: the line
was poisoned already, so that the counters and the failing marks leave it out. -/
def noteUncorrectable (s : State) (a : Nat) (poisoned : Bool) : State :=
  let d := detailWord 0 (memDetail a).toNat (a % 2 ^ 48)
  match placeOf a with
  | .sram g =>
    let r := g / 16
    let n := 16 * (g % 16) + (a / 128) % 16
    let s := reportLog s (originBank s r n) (originBank s r n) 0xA (ownerOfMem s a) d
    if poisoned then s
    else
      let x := s.region r
      s.setRegion r { x with
        unc := BitVec.ofNat 64 (satAdd max64 x.unc.toNat 1), bankFail := x.bankFail ||| (1#256 <<< n) }
  | .lpddr m =>
    let r := m / 6
    let s := reportLog s (originCtl s m) (originCtl s m) 0xA (ownerOfMem s a) d
    if poisoned then s
    else
      let x := s.region r
      s.setRegion r { x with
        ctlUnc := x.ctlUnc.setIfInBounds (m % 6) (BitVec.ofNat 64 (satAdd max64 (vget x.ctlUnc (m % 6)).toNat 1))
        ctlFail := x.ctlFail ||| (1#6 <<< (m % 6)) }
  | _ => s

/-- A corrected error in memory (10 R234, R236, R239, R240, R243). -/
def noteCorrected (s : State) (a : Nat) : State :=
  match placeOf a with
  | .sram g =>
    let r := g / 16
    let n := 16 * (g % 16) + (a / 128) % 16
    let x := s.region r
    let k := Tab.get 0 x.bankCorr n + 1
    s.setRegion r { x with
      corr := BitVec.ofNat 64 (satAdd max64 x.corr.toNat 1), bankCorr := Tab.set 0 x.bankCorr n k
      bankFail := if x.bankThr.toNat ≤ k then x.bankFail ||| (1#256 <<< n) else x.bankFail }
  | .lpddr m =>
    let r := m / 6
    let i := m % 6
    let x := s.region r
    let k := satAdd max64 (vget x.ctlCorr i).toNat 1
    s.setRegion r { x with
      ctlCorr := x.ctlCorr.setIfInBounds i (BitVec.ofNat 64 k)
      ctlFail := if x.ctlThr.toNat ≤ k then x.ctlFail ||| (1#6 <<< i) else x.ctlFail }
  | _ => s

/-- A hallmark refusal recorded by the bank or the controller that refused (03 R82, 04 R102, R105; log entry 71). -/
def memRefusal (s : State) (a : Nat) : State :=
  let d := detailWord 0 0 (a % 2 ^ 48)
  match placeOf a with
  | .sram g =>
    let o := originBank s (g / 16) (16 * (g % 16) + (a / 128) % 16)
    reportLog s o o 4 (ownerOfMem s a) d
  | .lpddr m => reportLog s (originCtl s m) (originCtl s m) 4 (ownerOfMem s a) d
  | _ => s

/-- Whether an agent with a hallmark may reach [a, a + n) of memory at the units that own it (01 R27, 10 R241). -/
def memAccepts (s : State) (h : Byte) (a n : Nat) : Bool :=
  match partOfHall s h with
  | none => false
  | some p => inMemWindows s p a n && (s.part p).keyed

/-- An SRAM group that is in retention or off is powered for an access (20 R458). A group powering up is zero. -/
def wakeGroup (s : State) (a : Nat) : State :=
  match placeOf a with
  | .sram g =>
    let x := s.block g
    match x.group with
    | .retention => s.setBlock g { x with group := .on }
    | .off => s.setBlock g { x with group := .zeroing }
    | _ => s
  | .lpddr m =>
    let x := s.region (m / 6)
    s.setRegion (m / 6) { x with selfRef := x.selfRef &&& ~~~(1#6 <<< (m % 6)) }
  | _ => s

/-- Whether an access to a byte of memory waits for the arbiter of its bank (15 R361: the mesh stop 0, the scrubber 1) or of its
controller's queue (0 the mesh, 1 the Setter, 2 the adder unit, 3 the scrubber). -/
def unitHeld (s : State) (a port : Nat) : Bool :=
  match placeOf a with
  | .sram g => arbHolds s (256 + 278 * (g / 16) + 16 + 16 * (g % 16) + (a / 128) % 16) (if port = 3 then 1 else 0)
  | .lpddr m => arbHolds s (256 + 278 * (m / 6) + 272 + m % 6) port
  | _ => false

/-- Whether an access to an address can proceed: its SRAM group is powered (20 R458). -/
def groupReady (s : State) (a : Nat) : Bool :=
  match placeOf a with
  | .sram g => decide ((s.block g).group = .on) || decide ((s.block g).group = .retention)
  | _ => true

end Sys2Proof.Machine
end

