-- ==== Sys2Proof/Machine/Retire.lean ====
section
/-! DEFINITION. Units that have failed (10 R234 to R240, 16 R384): scrub findings, the deferred error, and taking units out of service
once no partition holds them. -/

namespace Sys2Proof.Machine

/-- The first address of a controller's range (01 R17). -/
def ctlRangeBase (m : Nat) : Nat := 0x4000000000 * (m / 6) + 0x800000000 * (m % 6)

/-- Whether some partition holds a part of a controller's range (10 R240). -/
def ctlHeld (s : State) (m : Nat) : Bool :=
  (List.range 16).any fun p =>
    decide ((s.part p).hall ≠ 0) && (s.part p).wins.toList.any fun w => rangesMeet (winBase w) (winLen w) (ctlRangeBase m) 0x800000000

/-- A block's cells set. -/
def setCellsOf (s : State) (b : Nat) (f : Cell → Cell) : State :=
  (List.range 8).foldl (fun s k => s.updCell (8 * b + k) f) s

/-- A block placed in Dormant: cell state, caches and its SRAM group are lost (20 R452, R458). -/
def blockDormant (s : State) (b : Nat) : State :=
  let x := s.block b
  let s := s.setBlock b { Block.reset with oos := x.oos, groupOos := x.groupOos, becfg := x.becfg, becnt := x.becnt }
  let s := setCellsOf s b fun k => { Cell.reset with chall := k.chall }
  let lo := 0x10000000000 + 0x4000000 * b
  { s with
    sram := s.sram.filter (fun e => !insideRange e.1 1 lo 0x4000000)
    poison := s.poison.filter (fun l => !insideRange (128 * l) 128 lo 0x4000000) }

/-- A block and its SRAM group out of service, the block unpowered; the record's origin is the lowest failing bank (10 R236,
16 R384). `own`: the partition that holds the block. -/
def blockOut (s : State) (g : Nat) (own : Option Nat) : State :=
  if (s.block g).oos && (s.block g).groupOos then s
  else
    let n := ((List.range 16).find? fun k => (s.region (g / 16)).bankFail.getLsbD (16 * (g % 16) + k)).getD 0
    let o := originBank s (g / 16) (16 * (g % 16) + n)
    let s := blockDormant s g
    reportLog (s.setBlock g { s.block g with oos := true, groupOos := true }) o o 0x15 own 0

/-- Whether a controller, its Setter and its adder unit are out of service (10 R240). -/
def ctlRetired (s : State) (m : Nat) : Bool := (s.region (m / 6)).ctlOos.getLsbD (m % 6)

/-- The Setter and the adder unit of a controller stopped: a unit out of service does no work (01 R13). -/
def unitOff (s : State) (m : Nat) : State :=
  let s := (List.range 8).foldl (fun s j =>
    let i := 8 * m + j
    (s.setSetter i { SetCtx.reset with own := (s.setter i).own }).setAdder i { AddCtx.reset with own := (s.adder i).own }) s
  (List.range 64).foldl (fun s n => s.setASlot (64 * m + n) ASlot.reset) s

/-- A controller's range, its Setter and its adder unit out of service, with the record (10 R240, 21 R476). -/
def ctlOut (s : State) (m : Nat) : State :=
  let x := s.region (m / 6)
  if x.ctlOos.getLsbD (m % 6) then s
  else
    let s := unitOff s m
    reportLog (s.setRegion (m / 6) { x with ctlOos := x.ctlOos ||| (1#6 <<< (m % 6)) }) (originCtl s m) (originCtl s m) 0x15 none 0

/-- Whether a bank of a group is failing. -/
def groupFails (s : State) (g : Nat) : Bool := decide (fieldN (s.region (g / 16)).bankFail.toNat (16 * (g % 16)) 16 ≠ 0)

/-- The block and the SRAM group of a failing bank taken out of service where no partition holds the block (10 R236). -/
def retireGroup (s : State) (g : Nat) : State :=
  if groupFails s g && (ownerOfBlock s g).isNone then blockOut s g none else s

/-- A failing controller taken out of service where no partition holds its range (10 R240). -/
def retireCtl (s : State) (m : Nat) : State :=
  let x := s.region (m / 6)
  if x.ctlFail.getLsbD (m % 6) && !ctlHeld s m then ctlOut s m else s

/-- Every failing unit that no partition holds taken out of service. -/
def retireAll (s : State) : State := (List.range 24).foldl retireCtl ((List.range 64).foldl retireGroup s)

/-- The lowest-numbered in-service block of a partition. -/
def firstBlock (s : State) (p : Nat) : Option Nat :=
  (List.range 64).find? fun b => (s.part p).blocks.getLsbD b && !(s.block b).oos

/-- A deferred error pending at a cell: the first one's address is the one reported (03 R66). DESIGN CHOICE: 03 R62 does not say which
address of the line KADDR shows; it is the line's device address (log entry 115). -/
def deferAt (s : State) (c : Nat) (detail : Byte) (a : Nat) : State :=
  s.updCell c fun k => { k with defErr := some (k.defErr.getD (detail, BitVec.ofNat 64 (a / 128 * 128))) }

/-- The deferred error of a line at cell 0 of the lowest in-service block of the partition that holds it (03 R67, 10 R235). -/
def deferError (s : State) (detail : Byte) (a : Nat) : State :=
  match (ownerOfMem s a).bind (firstBlock s) with
  | some b => deferAt s (8 * b) detail a
  | none => s

/-- The failing unit behind an address taken out of service where no partition holds it: at once (10 R236, R240). -/
def retireAt (s : State) (a : Nat) : State :=
  match placeOf a with
  | .sram g => retireGroup s g
  | .lpddr m => retireCtl s m
  | _ => s

/-- Uncorrectable data found in memory: the line poisoned, the record, the counters, and the unit's retirement (10 R234 to R240). -/
def foundBad (s : State) (a : Nat) : State :=
  retireAt (noteUncorrectable (poisonLine s a) a (s.poison.contains (a / 128))) a

/-- A corrected error found in memory. -/
def foundCorrected (s : State) (a : Nat) : State := retireAt (noteCorrected s a) a

/-- What a patrol scrubber does at an address (10 R235, R239): a poisoned word reads as uncorrectable (10 R234). -/
def scrubAt (s : State) (a : Nat) (ecc : Ecc) : State :=
  if outOfService s (placeOf a) then s
  else
    if s.poison.contains (a / 128) || decide (ecc = .double) then deferError (foundBad s a) (memDetail a) a
    else if ecc = .single then foundCorrected s a
    else s

end Sys2Proof.Machine
end

