-- ==== Sys2Proof/Machine/Caches.lean ====
section
/-! DEFINITION. The L1 data caches, the L2s and the snoop filter (03 R74 to R80). A line whose value is none holds what the
next level holds; only a line kept over a disable, or written after it, has bytes of its own (03 R79). A line of an L2 whose own
check bits failed is marked poisoned there (03 R67). Instruction fetch is
no command, so the L1 instruction caches hold no lines here (log entry 12). The set of a line is its number modulo the sets. -/

namespace Sys2Proof.Machine

/-- The line of a cache, if present. -/
def Cache.find (k : Cache) (l : Nat) : Option CLine :=
  match k.lines.find? (fun e => e.1 == l) with
  | some e => some e.2
  | none => none

/-- A line put into a cache. -/
def Cache.putLine (k : Cache) (l : Nat) (x : CLine) : Cache := { k with lines := Tab.put k.lines l x }
/-- A line taken out of a cache. -/
def Cache.dropLine (k : Cache) (l : Nat) : Cache := { k with lines := Tab.erase k.lines l }

/-- A bad line read for a write-back or an eviction (03 R67): the record of its block, and the deferred error. -/
def noteBadLine (s : State) (b a : Nat) : State :=
  deferError (reportBlock s b (originBlock s b) 0xA (ownerOfBlock s b) (detailWord 0 0 (a % 2 ^ 48))) 0 a

/-- Such a line written back to memory. -/
def badWriteBack (s : State) (b a : Nat) : State := noteBadLine (poisonLine s a) b a

/-- A dirty line of block `b` written back to memory, which it powers (20 R458), in one write of 128 bytes (03 R67, R74): its own bytes,
where it has any, overwrite those of memory (03 R79), and its poison takes the place of memory's. -/
def writeBackLine (s : State) (b l : Nat) (x : CLine) : State :=
  if !x.dirty then s
  else
    let s := countBulk (wakeGroup s (128 * l)) (ownerOfBlock s b) 128
    let s := match x.data with
      | some bs => memWrite s (128 * l) bs
      | none => clearPoison s (128 * l) 128
    if x.poison then badWriteBack s b (128 * l) else s

/-- A dirty L1 line moved to the L2 of its block, or to memory where the L2 does not hold it. A line with bytes of its own replaces
what the L2 holds: the L2's own bytes, or those of memory that the L2's line follows. -/
def writeBackL1 (s : State) (b l : Nat) (x : CLine) : State :=
  let k := (s.block b).l2
  if !x.dirty then s
  else match (if k.en then k.find l else none) with
    | none => writeBackLine s b l x
    | some y =>
      let put (s : State) (y : CLine) : State :=
        let s := s.setBlock b { s.block b with l2 := (s.block b).l2.putLine l y }
        if x.poison then noteBadLine s b (128 * l) else s
      match x.data, y.data with
      | none, _ => put s { y with dirty := true, poison := x.poison }
      | some bs, some _ => put s ⟨some bs, true, x.poison⟩
      | some bs, none => put (putMem s (128 * l) bs) ⟨none, true, x.poison⟩

/-- A line invalidated in the L1 data cache of a cell, its own dirty bytes written back. -/
def dropL1 (s : State) (c l : Nat) : State :=
  let k := (s.cell c).l1d
  if !k.en then s
  else match k.find l with
    | none => s
    | some x => (writeBackL1 s (blockOfCell c) l x).updCell c (fun y => { y with l1d := y.l1d.dropLine l })

/-- A line invalidated in the L1 data caches of a block's cells from cell `c` on; `n` cells left. -/
def dropL1s (s : State) (l : Nat) : Nat → Nat → State
  | _, 0 => s
  | c, n + 1 => dropL1s (dropL1 s c l) l (c + 1) n

/-- A line evicted from or invalidated in an L2, and in the L1s it includes (03 R74). A dirty line moves 128 bytes. -/
def dropL2 (s : State) (b l : Nat) : State :=
  if !(s.block b).l2.en then s
  else
    let s := dropL1s s l (8 * b) 8
    match (s.block b).l2.find l with
    | none => s
    | some x =>
      let s := writeBackLine s b l x
      s.setBlock b { s.block b with l2 := (s.block b).l2.dropLine l }

/-- A line invalidated in the L2s of a region from block `b` on; `n` blocks left. -/
def dropL2s (s : State) (l : Nat) : Nat → Nat → State
  | _, 0 => s
  | b, n + 1 => dropL2s (dropL2 s b l) l (b + 1) n

/-- The lines of a cache in the set of a line, or none where the set has a free way. -/
def Cache.fullSet (k : Cache) (sets ways l : Nat) : Option (List Nat) :=
  let in_ := (k.lines.map (·.1)).filter (fun x => x % sets == l % sets)
  if ways ≤ in_.length then some in_ else none

/-- The victim a full set gives up: the manual gives no policy (Config.victimWay). -/
def victimOf (s : State) (ls : List Nat) : Nat × State :=
  let (n, s) := draw s
  (ls.getD (Config.victimWay n % ls.length) 0, s)

/-- The lines the snoop filter of a region tracks in the set of a line: those of its enabled L2s (03 R74). -/
def filterSet (s : State) (r l : Nat) : List Nat :=
  ((List.range 16).flatMap fun g =>
    let k := (s.block (16 * r + g)).l2
    if k.en then (k.lines.map (·.1)).filter (fun x => x % 65536 == l % 65536) else []).eraseDups

/-- The block of a region whose L2 answers for a line to a reader that is not of its block (03 R75, R76): one that holds it dirty, else the
lowest one that holds it. A line with bytes of its own is not tracked (03 R77). DEDUCED (log entry 114): the rule says only that no
access bypasses the caches. -/
def regionHolder (s : State) (r l : Nat) : Option Nat :=
  let has (p : CLine → Bool) (g : Nat) : Bool :=
    (s.block g).l2.en && (((s.block g).l2.find l).any fun x => x.data.isNone && p x)
  let gs := (List.range 16).map (16 * r + ·)
  (gs.find? (has (·.dirty))).or (gs.find? (has fun _ => true))

/-- The block of its region whose L2 answers for the line of an address. -/
def l2Of (s : State) (a : Nat) : Option Nat := regionHolder s (regionOfPlace (placeOf a)) (a / 128)

/-- Whether the L2 of a block holds a line as poisoned. -/
def badIn (s : State) (g l : Nat) : Bool := ((s.block g).l2.find l).any (·.poison)

/-- The uncorrectable source of a byte of memory as an agent reads it: the copy of the L2 that answers, else memory's (03 R67, R75,
10 R227, R228). -/
def memBad (s : State) (a : Nat) : Option (Nat × Byte) :=
  match l2Of s a with
  | some g => if badIn s g (a / 128) then some (a, 0) else none
  | none => if s.poison.contains (a / 128) then some (a, memDetail a) else none

/-- The lines of [a, a + n) that some copy holds as poisoned. -/
def badLinesIn (s : State) (a n : Nat) : List Nat :=
  let meets (l : Nat) : Bool := rangesMeet (128 * l) 128 a n
  let held (g : Nat) : List Nat := ((s.block (16 * regionOfPlace (placeOf a) + g)).l2.lines.filter (·.2.poison)).map (·.1)
  (s.poison ++ (List.range 16).flatMap held).filter meets

/-- The first byte of [a, a + n) that an agent reads from a poisoned line. -/
def firstPoison (s : State) (a n : Nat) : Option Nat :=
  (((badLinesIn s a n).map fun l => max a (128 * l)).filter fun x => (memBad s x).isSome).min?

/-- Whether an agent's read of [a, a + n) meets a poisoned line. -/
def anyPoison (s : State) (a n : Nat) : Bool := (firstPoison s a n).isSome

/-- Whether the L1 data cache of a cell holds a line. -/
def inL1 (s : State) (c l : Nat) : Bool := (s.cell c).l1d.en && ((s.cell c).l1d.find l).isSome

/-- The block whose L2 answers a cell's read of a line that its L1 lacks: its own, else one of its region. -/
def l2Holder (s : State) (c l : Nat) : Option Nat :=
  let b := blockOfCell c
  if (s.block b).l2.en && ((s.block b).l2.find l).isSome then some b else regionHolder s (regionOfBlock b) l

/-- Whether a byte comes from a poisoned line, and with which detail of class 0x05 (03 R62): each copy of a line has poison of its own
(03 R67), and the one that answers decides. -/
def viaPoison (s : State) (c a : Nat) : Option Byte :=
  let k := (s.cell c).l1d
  match (if k.en then k.find (a / 128) else none) with
  | some x => if x.poison then some 0 else none
  | none =>
    match l2Holder s c (a / 128) with
    | some g => if badIn s g (a / 128) then some 0 else none
    | none => if s.poison.contains (a / 128) then some (memDetail a) else none

/-- A line brought into an enabled L2 (03 R74, R75): the snoop filter and the L2 make room first. `bad`: it comes poisoned (03 R67). -/
def fillL2 (s : State) (b l : Nat) (wr bad : Bool) : State :=
  let k := (s.block b).l2
  if !k.en then countBulk s (ownerOfBlock s b) 128
  else match k.find l with
    | some x => if wr then s.setBlock b { s.block b with l2 := k.putLine l { x with dirty := true } } else s
    | none =>
      let f := filterSet s (regionOfBlock b) l
      let s := if 16 ≤ f.length ∧ !f.contains l then
          let (v, s) := victimOf s f
          dropL2s s v (16 * regionOfBlock b) 16
        else s
      let s := match (s.block b).l2.fullSet 2048 16 l with
        | some ls => let (v, s) := victimOf s ls; dropL2 s b v
        | none => s
      let s := countBulk s (ownerOfBlock s b) 128
      s.setBlock b { s.block b with l2 := (s.block b).l2.putLine l ⟨none, wr, bad⟩ }

/-- A line brought into the caches of a cell for an access, with the poison it has where it comes from (03 R67). -/
def touchLine (s : State) (c l : Nat) (wr : Bool) : State :=
  let k := (s.cell c).l1d
  let b := blockOfCell c
  let bad := (viaPoison s c (128 * l)).isSome
  if !k.en then fillL2 s b l wr bad
  else match k.find l with
    | some x => if wr then s.updCell c (fun y => { y with l1d := y.l1d.putLine l { x with dirty := true } }) else s
    | none =>
      let s := fillL2 s b l false bad
      let s := match (s.cell c).l1d.fullSet 64 8 l with
        | some ls =>
          let (v, s) := victimOf s ls
          dropL1 s c v
        | none => s
      s.updCell c (fun y => { y with l1d := y.l1d.putLine l ⟨none, wr, bad⟩ })

/-- The lines of [a, a + n), `fuel` of them, brought into the caches of a cell. -/
def touchLines (s : State) (c l : Nat) (wr : Bool) : Nat → State
  | 0 => s
  | n + 1 => touchLines (touchLine s c l wr) c (l + 1) wr n

/-- The number of lines [a, a + n) touches. -/
def lineCount (a n : Nat) : Nat := if n = 0 then 0 else (a + n - 1) / 128 - a / 128 + 1

/-- The lines of [a, a + n) brought into the caches of a cell. -/
def touch (s : State) (c a n : Nat) (wr : Bool) : State := touchLines s c (a / 128) wr (lineCount a n)

/-- The own bytes a cell meets at a line: of its L1 data cache, else of its L2 (03 R79). The Bool: from the L1. -/
def ownLine (s : State) (c l : Nat) : Option (CLine × Bool) :=
  let k := (s.cell c).l1d
  let k2 := (s.block (blockOfCell c)).l2
  match (if k.en then k.find l else none) with
  | some ⟨some bs, d, p⟩ => some (⟨some bs, d, p⟩, true)
  | _ =>
    match (if k2.en then k2.find l else none) with
    | some ⟨some bs, d, p⟩ => some (⟨some bs, d, p⟩, false)
    | _ => none

/-- A byte as a cell sees it through its caches. -/
def viaByte (s : State) (c a : Nat) : Byte :=
  match ownLine s c (a / 128) with
  | some (⟨some bs, _, _⟩, _) => bs.getD (a % 128) 0
  | _ => memByte s a

/-- Bytes as a cell sees them. -/
def viaBytes (s : State) (c a : Nat) : Nat → List Byte
  | 0 => []
  | n + 1 => viaByte s c a :: viaBytes s c (a + 1) n

/-- The lowest byte of [a, a + n) that comes from a poisoned line. -/
def viaPoisons (s : State) (c a : Nat) : Nat → Option (Nat × Byte)
  | 0 => none
  | n + 1 =>
    match viaPoison s c a with
    | some d => some (a, d)
    | none => viaPoisons s c (a + 1) n

/-- A byte stored by a cell: into a line with bytes of its own, which becomes dirty, else to memory. -/
def viaSet (s : State) (c a : Nat) (v : Byte) : State :=
  match ownLine s c (a / 128) with
  | some (⟨some bs, _, p⟩, l1) =>
    let x : CLine := ⟨some (bs.set (a % 128) v), true, p⟩
    if l1 then s.updCell c (fun y => { y with l1d := y.l1d.putLine (a / 128) x })
    else
      let b := blockOfCell c
      s.setBlock b { s.block b with l2 := (s.block b).l2.putLine (a / 128) x }
  | _ => setMemByte s a v

/-- Bytes stored by a cell, ascending. -/
def viaPut (s : State) (c a : Nat) : List Byte → State
  | [] => s
  | v :: vs => viaPut (viaSet s c a v) c (a + 1) vs

/-- The poison of the copy of a line that a cell's store went to (03 R67): cleared by a store of the whole line, else kept. An L1 line that
follows the L2 leaves it the poison of the newest bytes. -/
def storePoison (s : State) (c l : Nat) (whole : Bool) : State :=
  let b := blockOfCell c
  let k := (s.cell c).l1d
  let k2 := (s.block b).l2
  let keep (x : CLine) : CLine := { x with poison := x.poison && !whole }
  match (if k.en then k.find l else none), (if k2.en then k2.find l else none) with
  | some x, some y =>
    let s := s.updCell c fun z => { z with l1d := z.l1d.putLine l (keep x) }
    if x.data.isNone then s.setBlock b { s.block b with l2 := k2.putLine l { y with poison := (keep x).poison } } else s
  | some x, none => s.updCell c fun z => { z with l1d := z.l1d.putLine l (keep x) }
  | none, some y => s.setBlock b { s.block b with l2 := k2.putLine l (keep y) }
  | none, none => if whole then clearPoison s (128 * l) 128 else s

/-- The same for the lines from `l` on that a store of [a, a + n) touches; `k` lines left. -/
def storePoisons (s : State) (c a n : Nat) : Nat → Nat → State
  | _, 0 => s
  | l, k + 1 => storePoisons (storePoison s c l (insideRange (128 * l) 128 a n)) c a n (l + 1) k

/-- A store of consecutive bytes by a cell. -/
def viaWrite (s : State) (c a : Nat) (vs : List Byte) : State :=
  storePoisons (viaPut s c a vs) c a vs.length (a / 128) (lineCount a vs.length)

/-- A line that follows the next level invalidated in a cell's enabled L1 data cache: a line with bytes of its own is not
tracked, so no invalidation reaches it (03 R77, R79). -/
def snoopL1 (s : State) (c l : Nat) : State :=
  let k := (s.cell c).l1d
  match (if k.en then k.find l else none) with
  | some ⟨none, _, _⟩ => s.updCell c (fun y => { y with l1d := y.l1d.dropLine l })
  | _ => s

/-- The same in the cells of a block from `c` on, but for one; `n` cells left. -/
def snoopL1s (s : State) (l : Nat) (keep : Option Nat) : Nat → Nat → State
  | _, 0 => s
  | c, n + 1 => snoopL1s (if keep = some c then s else snoopL1 s c l) l keep (c + 1) n

/-- The same in a block: its L1 data caches and its L2. -/
def snoopBlock (s : State) (b l : Nat) : State :=
  let k := (s.block b).l2
  match (if k.en then k.find l else none) with
  | some ⟨none, _, _⟩ =>
    let s := snoopL1s s l none (8 * b) 8
    s.setBlock b { s.block b with l2 := (s.block b).l2.dropLine l }
  | _ => s

/-- The same in the blocks of a region from `b` on, but for one; `n` blocks left. -/
def snoopBlocks (s : State) (l : Nat) (keep : Option Nat) : Nat → Nat → State
  | _, 0 => s
  | b, n + 1 => snoopBlocks (if keep = some b then s else snoopBlock s b l) l keep (b + 1) n

/-- Lines from `l` on invalidated in a region after a write (03 R75); `n` lines left. `cell`: the writing cell, which keeps its own
copies. -/
def snoopLines (s : State) (r : Nat) (cell : Option Nat) : Nat → Nat → State
  | _, 0 => s
  | l, n + 1 =>
    let s := match cell with
      | some c => snoopL1s s l (some c) (8 * blockOfCell c) 8
      | none => s
    snoopLines (snoopBlocks s l (cell.map blockOfCell) (16 * r) 16) r cell (l + 1) n

/-- Lines from `l` on of which a write of [a, a + n) at memory covers a part: the copy that a region's L2s hold is first written back where
it is dirty, and invalidated (03 R75); `k` lines left. -/
def settleLines (s : State) (a n : Nat) : Nat → Nat → State
  | _, 0 => s
  | l, k + 1 =>
    let s := match (if insideRange (128 * l) 128 a n then none else l2Of s (128 * l)) with
      | some g => dropL2 s g l
      | none => s
    settleLines s a n (l + 1) k

/-- A cache in which the check bits of some lines fail (03 R67): a dirty one goes on as poisoned. -/
def Cache.spoilDirty (k : Cache) (bad : List Nat) : Cache :=
  { k with lines := k.lines.map fun e => (e.1, { e.2 with poison := e.2.poison || (e.2.dirty && bad.contains e.1) }) }

/-- The same in the L1 data cache of a cell. -/
def spoilL1 (s : State) (bad : List Nat) (c : Nat) : State := s.updCell c fun k => { k with l1d := k.l1d.spoilDirty bad }

/-- The same in the caches of a block. -/
def spoilBlock (s : State) (bad : List Nat) (b : Nat) : State :=
  ((List.range 8).map (8 * b + ·)).foldl (fun s c => spoilL1 s bad c)
    (s.updBlock b fun x => { x with l2 := x.l2.spoilDirty bad })

/-- A cache's lines kept as clean, valid lines with the bytes of this moment (03 R77). -/
def freeze (k : Cache) (byte : Nat → Byte) : Cache :=
  { en := false, stale := true
    lines := k.lines.map fun e =>
      (e.1, ⟨some (match e.2.data with
        | some bs => bs
        | none => (List.range 128).map fun i => byte (128 * e.1 + i)), false, e.2.poison⟩) }

/-- Every dirty line of a list of an L2's lines written back (03 R77). -/
def writeBackAll (s : State) (b : Nat) : List (Nat × CLine) → State
  | [] => s
  | e :: es => writeBackAll (writeBackLine s b e.1 e.2) b es

/-- Every dirty line of a list of an L1's lines written back, into the L2 where it holds the line (03 R77, R78). -/
def writeBackL1s (s : State) (b : Nat) : List (Nat × CLine) → State
  | [] => s
  | e :: es => writeBackL1s (writeBackL1 s b e.1 e.2) b es

/-- The L1 data cache of a cell disabled (03 R77). -/
def disableL1d (s : State) (c : Nat) : State :=
  let k := (s.cell c).l1d
  if !k.en then s
  else
    let s := writeBackL1s s (blockOfCell c) k.lines
    let k2 := freeze k (viaByte s c)
    s.updCell c (fun y => { y with l1d := k2 })

/-- The L1 instruction cache of a cell disabled (03 R77). -/
def disableL1i (s : State) (c : Nat) : State :=
  s.updCell c (fun y => if y.l1i.en then { y with l1i := { y.l1i with en := false, stale := true } } else y)

/-- The L1 caches of cells from `c` on disabled; `n` cells left. -/
def disableL1s (s : State) : Nat → Nat → State
  | _, 0 => s
  | c, n + 1 => disableL1s (disableL1i (disableL1d s c) c) (c + 1) n

/-- The L2 of a block disabled, with every L1 of its cells in the same event (03 R77, R78). -/
def disableL2 (s : State) (b : Nat) : State :=
  if !(s.block b).l2.en then s
  else
    let s := disableL1s s (8 * b) 8
    let s := writeBackAll s b (s.block b).l2.lines
    let k2 := freeze (s.block b).l2 (memByte s)
    s.setBlock b { s.block b with l2 := k2 }

/-- Dirty lines of a cache written back and kept clean. -/
def cleanCache (k : Cache) : Cache := { k with lines := k.lines.map fun e => (e.1, { e.2 with dirty := false }) }

/-- The dirty lines of a cell's L1 data cache written back (03 R80, 20 R453). -/
def cleanL1 (s : State) (c : Nat) : State :=
  let k := (s.cell c).l1d
  if k.en then (writeBackL1s s (blockOfCell c) k.lines).updCell c (fun y => { y with l1d := cleanCache y.l1d }) else s

/-- The L1 data caches of cells from `c` on cleaned; `n` cells left. -/
def cleanL1s (s : State) : Nat → Nat → State
  | _, 0 => s
  | c, n + 1 => cleanL1s (cleanL1 s c) (c + 1) n

/-- Every dirty line of a block's enabled caches written back (03 R80, 20 R453). -/
def cleanBlock (s : State) (b : Nat) : State :=
  let s := cleanL1s s (8 * b) 8
  let k := (s.block b).l2
  if k.en then
    let s := writeBackAll s b k.lines
    s.setBlock b { s.block b with l2 := cleanCache k }
  else s

end Sys2Proof.Machine
end

