-- ==== Sys2Proof/Machine/CellMem.lean ====
section
/-! DEFINITION. A cell's accesses to memory: translation (16 R374, 03 R62), the hallmark check (01 R27, 03 R82), poison and
check bits (03 R67), and the bytes moved. Every function names a cell by its module cell number. -/

namespace Sys2Proof.Machine

/-- An exception: its class, detail and KADDR (03 R62). -/
structure Exc where
  cls : Byte
  detail : Byte
  addr : W64
  deriving DecidableEq, Repr

/-- The first address of control space (01 R22). -/
def ctlBase : Nat := 0x30000000000

/-- The hallmark a cell carries (03 R81). -/
def Cell.hall (k : Cell) : Byte := k.chall.truncate 8

/-- The windows of the partition that holds a cell's block. -/
def cellWins (s : State) (c : Nat) : List (BitVec 128) :=
  match ownerOfBlock s (blockOfCell c) with
  | some p => (s.part p).wins.toList
  | none => []

/-- What a partition-relative address below control space names: a device address of the cell's own region, or the detail of
its access fault (16 R374, 03 R62, R68). DEDUCED (log entry 96): a reserved address at or above control space has the detail of a
reserved address. -/
def xlate (s : State) (c va : Nat) : Except Byte Nat :=
  if 0x20000000000 ≤ va ∧ va < 0x30000000000 then .error 3
  else if 0x30000000000 ≤ va then
    (match placeOf va with | .reserved => .error 0 | _ => .error 4)
  else match (cellWins s c).find? (fun w => insideRange va 1 (winPBase w) (winLen w)) with
    | none => .error 1
    | some w =>
      let a := winBase w + (va - winPBase w)
      if outOfService s (placeOf a) then .error 0
      else if regionOfPlace (placeOf a) ≠ regionOfCell c then .error 2
      else .ok a

/-- The device addresses of `n` bytes from a 64-bit address on, or the access fault of the lowest byte that has one. -/
def xlates (s : State) (c : Nat) (va : W64) : Nat → Except Exc (List Nat)
  | 0 => .ok []
  | n + 1 =>
    match xlate s c va.toNat with
    | .error d => .error ⟨3, d, va⟩
    | .ok a =>
      match xlates s c (va + 1) n with
      | .error e => .error e
      | .ok as => .ok (a :: as)

/-- Consecutive runs of a list of addresses: first address and length. -/
def runs : List Nat → List (Nat × Nat)
  | [] => []
  | a :: as =>
    match runs as with
    | (b, n) :: rs => if b = a + 1 then (a, n + 1) :: rs else (a, 1) :: (b, n) :: rs
    | [] => [(a, 1)]

/-- The first device address of a list that refuses the cell's hallmark, by place in the list. -/
def firstRefused (s : State) (h : Byte) (as : List Nat) : Option (Nat × Nat) :=
  (as.zipIdx.find? (fun e => !memAccepts s h e.1 1)).map fun e => (e.2, e.1)

/-- The first poisoned byte of a list as the cell sees it: its place in the list and the detail of class 0x05. -/
def firstPoisoned (s : State) (c : Nat) : Nat → List Nat → Option (Nat × Byte)
  | _, [] => none
  | i, a :: as =>
    match viaPoison s c a with
    | some d => some (i, d)
    | none => firstPoisoned s c (i + 1) as

/-- The memory behind some addresses powered for an access (20 R458, R459). -/
def wakeAll (s : State) : List (Nat × Nat) → State
  | [] => s
  | r :: rs => wakeAll (wakeGroup (wakeGroup s r.1) (r.1 + r.2 - 1)) rs

/-- The lines of some runs brought into the caches of a cell (03 R74). -/
def touchRuns (s : State) (c : Nat) (wr : Bool) : List (Nat × Nat) → State
  | [] => s
  | r :: rs => touchRuns (touch s c r.1 r.2 wr) c wr rs

/-- Whether a cell's access to a byte of memory waits for an arbiter (15 R361, R367): its port of the L2's crossbar unless its own L1
answers, and what lies behind the L2 unless that answers. -/
def cellHeld (s : State) (c a : Nat) : Bool :=
  let b := blockOfCell c
  if inL1 s c (a / 128) then false
  else arbHolds s (4 * b) (c % 8) ||
    (!((s.block b).l2.en && ((s.block b).l2.find (a / 128)).isSome) &&
      (pathHeld s b (if (s.block b).l2.en then 10 else c % 8) (regionOfCell c) || unitHeld s a 0))

/-- What an access meets: it proceeds on its device addresses, raises an exception, or waits for an SRAM group. -/
inductive Meets where
  | go (as : List Nat) (s : State)
  | raise (e : Exc) (s : State)
  | hold (s : State)

/-- An uncorrectable error found in a line that an L2 holds (03 R62, R67): that copy poisoned, and the block's record. -/
def badL2 (s : State) (g l : Nat) : State :=
  let k := (s.block g).l2
  match k.find l with
  | none => s
  | some x =>
    let s := s.setBlock g { s.block g with l2 := k.putLine l { x with poison := true } }
    reportBlock s g (originBlock s g) 0xA (ownerOfBlock s g) (detailWord 0 0 (128 * l % 2 ^ 48))

/-- The copy of a line that a cell's store would reach past its L1 poisoned (03 R67): its L2's, else memory's. -/
def spoilCopy (s : State) (c l : Nat) : State :=
  let k := (s.block (blockOfCell c)).l2
  match (if k.en then k.find l else none) with
  | some x => s.updBlock (blockOfCell c) fun y => { y with l2 := k.putLine l { x with poison := true } }
  | none => poisonLine s (128 * l)

/-- What the check bits of one word of an access show where the word is read: nothing in an L1, which is not read from below; in the
L2 that answers; else in region SRAM or LPDDR5X (03 R62, 10 R234, R239). A corrected error is counted by its memory, an
uncorrectable one poisons the line and is recorded; its detail is given. -/
def checkWord (s : State) (c a : Nat) (ecc : Ecc) : State × Option Byte :=
  if inL1 s c (a / 128) then (s, none)
  else match l2Holder s c (a / 128), ecc with
    | _, .clean => (s, none)
    | some _, .single => (s, none)
    | none, .single => (foundCorrected s a, none)
    | some g, .double => (badL2 s g (a / 128), some 0)
    | none, .double => (foundBad s a, some (memDetail a))

/-- What the check bits of the words of a read show: the byte of the access that an uncorrectable error falls on, and its detail. -/
def checkRead (s : State) (c : Nat) (as : List Nat) (chk : Check) : State × Option (Nat × Byte) :=
  let i := chk.byte % max 1 as.length
  match as[i]? with
  | none => (s, none)
  | some a =>
    let r := checkWord s c a chk.ecc
    (r.1, r.2.map fun d => (i, d))

/-- What the check bits show when a store of less than a line merges with the bytes beneath it (10 R242): nothing is raised. -/
def checkStore (s : State) (c : Nat) (as : List Nat) (chk : Check) : State :=
  match chk.ecc, as[chk.byte % max 1 as.length]? with
  | .clean, _ => s
  | _, none => s
  | e, some a =>
    if (List.range 128).all fun k => as.contains (a / 128 * 128 + k) then s else (checkWord s c a e).1

/-- The dirty lines that the caches above `c` give up between two states: of its L1, which go to the L2, and of the L2s of its region,
which go to memory. -/
def givenUpL1 (s t : State) (c : Nat) : List Nat :=
  ((s.cell c).l1d.lines.filter fun e => e.2.dirty && !inL1 t c e.1 && ((t.block (blockOfCell c)).l2.find e.1).isSome).map (·.1)
def givenUpL2 (s t : State) (g : Nat) : List Nat :=
  ((s.block g).l2.lines.filter fun e =>
    (e.2.dirty || (List.range 8).any fun k => ((s.cell (8 * g + k)).l1d.find e.1).any (·.dirty)) &&
      ((t.block g).l2.find e.1).isNone).map (·.1)

/-- The state after an access that made caches give up dirty lines whose check bits fail (03 R67): from `s` to `t`. -/
def evictBad (s t : State) (c : Nat) : State :=
  let b := blockOfCell c
  let t := (givenUpL1 s t c).foldl (fun t l =>
    noteBadLine (t.updBlock b fun x => { x with l2 := { x.l2 with lines := x.l2.lines.map fun e =>
      if e.1 = l then (e.1, { e.2 with poison := true }) else e } }) b (128 * l)) t
  ((List.range 16).map (16 * regionOfBlock b + ·)).foldl (fun t g =>
    (givenUpL2 s t g).foldl (fun t l => badWriteBack t g (128 * l)) t) t

/-- The lines of some runs brought into the caches of a cell for an access with these check bits. -/
def touchChecked (s : State) (c : Nat) (wr : Bool) (rs : List (Nat × Nat)) (chk : Check) : State :=
  let t := touchRuns s c wr rs
  if chk.out then evictBad s t c else t

/-- A cell's read of `n` bytes: access fault, hallmark fault and uncorrectable data in the order of 03 R63. `chk`: what the check bits
of the words it reads show. -/
def cellRead (s : State) (c : Nat) (va : W64) (n : Nat) (chk : Check) : Meets :=
  match xlates s c va n with
  | .error e => .raise e s
  | .ok as =>
    match firstRefused s (s.cell c).hall as with
    | some (i, a) => .raise ⟨4, 0, va + BitVec.ofNat 64 i⟩ (memRefusal s a)
    | none =>
      if as.any (cellHeld s c) then .hold s else
      let s := wakeAll s (runs as)
      if as.any (fun a => !groupReady s a) then .hold s
      else
        match firstPoisoned s c 0 as with
        | some (i, d) => .raise ⟨5, d, va + BitVec.ofNat 64 i⟩ s
        | none =>
          match checkRead s c as chk with
          | (s, some (i, d)) => .raise ⟨5, d, va + BitVec.ofNat 64 i⟩ s
          | (s, none) => .go as (touchChecked s c false (runs as) chk)

/-- The bytes at device addresses as the cell sees them. -/
def cellBytes (s : State) (c : Nat) (as : List Nat) : List Byte := as.map (viaByte s c)

/-- A cell's write of some bytes, checked: only the access fault is precise (03 R82). -/
def cellWriteCheck (s : State) (c : Nat) (va : W64) (n : Nat) : Meets :=
  match xlates s c va n with
  | .error e => .raise e s
  | .ok as =>
    if as.any (cellHeld s c) then .hold s else
    let s := wakeAll s (runs as)
    if as.any (fun a => !groupReady s a) then .hold s else .go as s

/-- Runs of bytes stored through the caches, or at memory where the L2 is disabled (03 R77, R78). -/
def storeRuns (s : State) (c : Nat) : List (Nat × Nat) → List Byte → State
  | [], _ => s
  | r :: rs, bs =>
    let s := if (s.block (blockOfCell c)).l2.en then s else settleLines s r.1 r.2 (r.1 / 128) (lineCount r.1 r.2)
    storeRuns (snoopLines (viaWrite s c r.1 (bs.take r.2)) (regionOfCell c) (some c) (r.1 / 128) (lineCount r.1 r.2)) c rs
      (bs.drop r.2)

/-- Bytes stored at device addresses: the bytes whose target refuses the hallmark are left out, and one refusal returns for
the first of them (03 R82). `chk`: what the check bits of the lines it merges with show. -/
def cellStore (s : State) (c : Nat) (va : W64) (as : List Nat) (bs : List Byte) (chk : Check) : State :=
  let h := (s.cell c).hall
  let ok := (as.zip bs).filter (fun e => memAccepts s h e.1 1)
  let refused := firstRefused s h as
  let rs := runs (ok.map (·.1))
  let s := checkStore s c (ok.map (·.1)) chk
  let s := storeRuns (touchChecked s c true rs chk) c rs (ok.map (·.2))
  match refused with
  | none => s
  | some (i, a) => sendRefusal (memRefusal s a) c 0 (va + BitVec.ofNat 64 i)

end Sys2Proof.Machine
end

