-- ==== Sys2Proof/Machine/Regs.lean ====
section
/-! DEFINITION. Registers seen through addresses: an access of some bytes of a page meets the registers it overlaps
(log entry 13). A write is a value with a mask of the bits written: a field that the bytes do not touch keeps its value,
and a command or clear bit that they do not touch is not written. -/

namespace Sys2Proof.Machine

/-- A register of a page: its offset and its width in bytes. -/
abbrev RegAt := Nat × Nat

/-- A byte of a page; 0 where no register is defined (01 R499). -/
def pageByte (regs : List RegAt) (rd : Nat → W64) (off : Nat) : Byte :=
  match regs.find? (fun r => insideRange off 1 r.1 r.2) with
  | some r => BitVec.ofNat 8 ((rd r.1).toNat >>> (8 * (off - r.1)))
  | none => 0

/-- Bytes of a page, ascending. -/
def pageBytes (regs : List RegAt) (rd : Nat → W64) (off : Nat) : Nat → List Byte
  | 0 => []
  | n + 1 => pageByte regs rd off :: pageBytes regs rd (off + 1) n

/-- The bytes of a write that fall in a register at `off` of width `w`, at their places, and their mask. -/
def overlay (off w a : Nat) (bs : List Byte) : W64 × W64 :=
  let p := (List.range w).map fun i =>
    if insideRange (off + i) 1 a bs.length then ((bs.getD (off + i - a) 0).toNat, 255) else (0, 0)
  (BitVec.ofNat 64 (p.foldr (fun x acc => acc * 256 + x.1) 0), BitVec.ofNat 64 (p.foldr (fun x acc => acc * 256 + x.2) 0))

/-- A write of bytes to a page: every register the bytes overlap takes its part, in ascending order of offset. -/
def pageWrite (wr : State → Nat → W64 → W64 → State) (a : Nat) (bs : List Byte) : List RegAt → State → State
  | [], s => s
  | r :: rs, s =>
    if rangesMeet r.1 r.2 a bs.length then
      let (v, m) := overlay r.1 r.2 a bs
      pageWrite wr a bs rs (wr s r.1 v m)
    else pageWrite wr a bs rs s

/-- A register's new value under a mask. -/
def masked {n : Nat} (old v m : BitVec n) : BitVec n := (old &&& ~~~m) ||| (v &&& m)

/-- A field [lo + w − 1 : lo] of a register written under a mask, kept where the new field value is reserved (00 R4). -/
def wrField (old new : W64) (lo w : Nat) (ok : Nat → Bool) : W64 :=
  if ok (fieldN new.toNat lo w) then mergeField old new lo w else old

/-- A pip number field: 48 to 63 are reserved. -/
def pipOk (n : Nat) : Bool := decide (n < 48)
/-- Every value is legal. -/
def anyOk (_ : Nat) : Bool := true

end Sys2Proof.Machine
end

