-- ==== Sys2Proof/Machine/Float.lean ====
section
/-! DEFINITION. Floating-point values and their rounding: the exact value, then one rounding to a format. The scalar
and vector operations of 03 R55, 04 R90 and 09 R216, and the tile arithmetic of Machine/TileArith.lean, rest on it. -/

namespace Sys2Proof.Machine

/-- Rounding: to nearest even, toward zero, toward +∞, toward −∞ (03, FSTAT.RM), and stochastic with a draw (07 R171). -/
inductive Rm where
  | rne | rtz | rup | rdn | sto (u : Nat)
  deriving DecidableEq, Repr

/-- A floating format: significand bits, exponent of the minimum normal, width, the magnitude patterns of the maximum
finite value, of infinity (if any), of the smallest NaN and of the canonical NaN (07 R162, R164). -/
structure Fmt where
  p : Nat
  emin : Int
  width : Nat
  maxFin : Nat
  inf : Option Nat
  nanFrom : Nat
  nan : Nat
  deriving DecidableEq, Repr

/-- binary32 (07 R162, FP32). -/
def fp32 : Fmt := ⟨24, -126, 32, 0x7F7FFFFF, some 0x7F800000, 0x7F800001, 0x7FC00000⟩
/-- binary64. -/
def fp64 : Fmt :=
  ⟨53, -1022, 64, 0x7FEFFFFFFFFFFFFF, some 0x7FF0000000000000, 0x7FF0000000000001, 0x7FF8000000000000⟩
/-- BF16 (07 R162). -/
def bf16 : Fmt := ⟨8, -126, 16, 0x7F7F, some 0x7F80, 0x7F81, 0x7FC0⟩
/-- FP8-E4M3 (07 R162). -/
def e4m3 : Fmt := ⟨4, -6, 8, 0x7E, none, 0x7F, 0x7F⟩
/-- FP8-E5M2 (07 R162). -/
def e5m2 : Fmt := ⟨3, -14, 8, 0x7B, some 0x7C, 0x7D, 0x7E⟩

/-- An exact value: a NaN (signalling or not), an infinity, or (−1)^s × m × 2^e. -/
inductive Fp where
  | nan (sig : Bool)
  | inf (s : Bool)
  | fin (s : Bool) (m : Nat) (e : Int)
  deriving DecidableEq, Repr

/-- The sticky flags of FSTAT (03 R56). -/
structure Fl where
  nv : Bool
  dz : Bool
  of : Bool
  uf : Bool
  nx : Bool
  deriving DecidableEq, Repr

/-- No flag. -/
def Fl.none : Fl := ⟨false, false, false, false, false⟩
/-- Only NV, when a condition holds. -/
def Fl.nvIf (b : Bool) : Fl := ⟨b, false, false, false, false⟩
/-- Both operands' flags. -/
def Fl.or (x y : Fl) : Fl := ⟨x.nv || y.nv, x.dz || y.dz, x.of || y.of, x.uf || y.uf, x.nx || y.nx⟩
/-- The flags at their places FSTAT[6:2]. -/
def Fl.bits (x : Fl) : Nat := 4 * b2n x.nv + 8 * b2n x.dz + 16 * b2n x.of + 32 * b2n x.uf + 64 * b2n x.nx

/-- The value of a bit pattern (07 R163). -/
def Fmt.decode (f : Fmt) (bits : Nat) : Fp :=
  let s := bits.testBit (f.width - 1)
  let mag := bits % 2 ^ (f.width - 1)
  if f.nanFrom ≤ mag then .nan (!mag.testBit (f.p - 2))
  else if f.inf = some mag then .inf s
  else
    let ex := mag >>> (f.p - 1)
    let fr := mag % 2 ^ (f.p - 1)
    if ex = 0 then .fin s fr (f.emin - (f.p - 1 : Nat))
    else .fin s (fr + 2 ^ (f.p - 1)) (f.emin - (f.p - 1 : Nat) + (ex - 1 : Nat))

/-- A pattern of a format with its sign bit. -/
def Fmt.signed (f : Fmt) (s : Bool) (mag : Nat) : Nat := if s then 2 ^ (f.width - 1) + mag else mag

/-- Whether truncated bits `r` of `sh` bits round a magnitude with last bit `odd` up. Stochastic: 07 R171. -/
def roundsUp (rm : Rm) (s : Bool) (odd : Bool) (r sh : Nat) : Bool :=
  match rm with
  | .rne => decide (2 * r > 2 ^ sh) || (decide (2 * r = 2 ^ sh) && odd)
  | .rtz => false
  | .rup => decide (r ≠ 0) && !s
  | .rdn => decide (r ≠ 0) && s
  | .sto u => decide (65536 ≤ ((r * 65536) >>> sh) + u)

/-- m × 2^e rounded to `p` bits with a unit no smaller than 2^qmin: the significand, the exponent of its unit, and
whether the result differs from the value. -/
def roundMag (rm : Rm) (p : Nat) (qmin : Int) (s : Bool) (m : Nat) (e : Int) : Nat × Int × Bool :=
  let q := max (e + (Nat.log2 m + 1 : Nat) - (p : Nat)) qmin
  if q ≤ e then (m <<< (e - q).toNat, q, false)
  else
    let sh := (q - e).toNat
    let t := m >>> sh
    let r := m % 2 ^ sh
    (if roundsUp rm s (t.testBit 0) r sh then t + 1 else t, q, decide (r ≠ 0))

/-- The pattern of an overflowed magnitude (07 R172; for the directed modes IEEE 754). -/
def Fmt.overflow (f : Fmt) (rm : Rm) (s : Bool) : Nat :=
  match f.inf with
  | Option.none => f.maxFin
  | some i =>
    match rm with
    | .rne => i
    | .rtz => f.maxFin
    | .rup => if s then f.maxFin else i
    | .rdn => if s then i else f.maxFin
    | .sto _ => i

/-- What one rounding point did: the pattern, whether it overflowed, whether the value was tiny before and after
rounding, and whether the result differs from it. -/
structure Rounded where
  bits : Nat
  ovf : Bool
  tinyBefore : Bool
  tinyAfter : Bool
  inexact : Bool
  deriving DecidableEq, Repr

/-- One rounding of a finite value to a format (07 R169, R170, R172). A zero keeps its sign (07 R174). -/
def Fmt.round (f : Fmt) (rm : Rm) (s : Bool) (m : Nat) (e : Int) : Rounded :=
  if m = 0 then ⟨f.signed s 0, false, false, false, false⟩
  else
    let qmin := f.emin - (f.p - 1 : Nat)
    let (t, q, ix) := roundMag rm f.p qmin s m e
    let mag := (q - qmin).toNat * 2 ^ (f.p - 1) + t
    let tiny := decide (((Nat.log2 m : Nat) : Int) + e < f.emin)
    if f.maxFin < mag then ⟨f.signed s (f.overflow rm s), true, false, false, true⟩
    else
      let (t2, q2, _) := roundMag rm f.p (qmin - 4096) s m e
      ⟨f.signed s mag, false, tiny, tiny && decide (((Nat.log2 t2 : Nat) : Int) + q2 < f.emin), ix⟩

/-- An exact value cut below its last place, with a nonzero rest when `rest` holds: the rest is a half of that place.
Callers keep more places than a format's precision and one, so that every rounding falls on the same side. -/
def cutFp (s : Bool) (m : Nat) (e : Int) (rest : Bool) : Fp :=
  if rest then .fin s (2 * m + 1) (e - 1) else .fin s m e

/-- The result of an operation before its rounding: an exact value, and the flags so far. -/
structure Exact where
  v : Fp
  fl : Fl
  deriving DecidableEq, Repr

/-- One rounding under IEEE 754, with its flags. -/
def Fmt.finish (f : Fmt) (rm : Rm) (x : Exact) : Nat × Fl :=
  match x.v with
  | .nan _ => (f.nan, x.fl)
  | .inf s => (f.signed s (f.inf.getD f.maxFin), x.fl)
  | .fin s m e =>
    let r := f.round rm s m e
    let uf := r.tinyBefore && r.inexact && (r.tinyAfter || Config.tininessBefore)
    (r.bits, x.fl.or ⟨false, false, r.ovf, uf, r.inexact⟩)

/-- Whether a value is a NaN. -/
def Fp.isNan : Fp → Bool
  | .nan _ => true
  | _ => false
/-- Whether a value is a signalling NaN. -/
def Fp.isSig : Fp → Bool
  | .nan b => b
  | _ => false
/-- Whether a value is finite. -/
def Fp.isFin : Fp → Bool
  | .fin _ _ _ => true
  | _ => false
/-- Whether a value is an infinity. -/
def Fp.isInf : Fp → Bool
  | .inf _ => true
  | _ => false
/-- Whether a value is ±0. -/
def Fp.isZero : Fp → Bool
  | .fin _ m _ => m == 0
  | _ => false
/-- The sign. -/
def Fp.sign : Fp → Bool
  | .nan _ => false
  | .inf s => s
  | .fin s _ _ => s
/-- The value with its sign inverted. -/
def Fp.neg : Fp → Fp
  | .nan b => .nan b
  | .inf s => .inf (!s)
  | .fin s m e => .fin (!s) m e
/-- The absolute value. -/
def Fp.abs : Fp → Fp
  | .nan b => .nan b
  | .inf _ => .inf false
  | .fin _ m e => .fin false m e

/-- A signed significand. -/
def sgnInt (s : Bool) (m : Nat) : Int := if s then -(m : Int) else m

/-- The exact sum of two finite values; `neg0`: the sign of a zero sum of opposite signs (07 R174, IEEE 754). -/
def finAdd (neg0 : Bool) (s1 : Bool) (m1 : Nat) (e1 : Int) (s2 : Bool) (m2 : Nat) (e2 : Int) : Fp :=
  let e := min e1 e2
  let v := sgnInt s1 (m1 <<< (e1 - e).toNat) + sgnInt s2 (m2 <<< (e2 - e).toNat)
  if v = 0 then .fin (if s1 = s2 then s1 else neg0) 0 e
  else .fin (decide (v < 0)) v.natAbs e

/-- The exact sum (07 R181). The Bool: the operation is invalid (+∞ with −∞). -/
def Fp.add (neg0 : Bool) : Fp → Fp → Fp × Bool
  | .nan _, _ => (.nan false, false)
  | _, .nan _ => (.nan false, false)
  | .inf a, .inf b => if a = b then (.inf a, false) else (.nan false, true)
  | .inf a, .fin _ _ _ => (.inf a, false)
  | .fin _ _ _, .inf b => (.inf b, false)
  | .fin s1 m1 e1, .fin s2 m2 e2 => (finAdd neg0 s1 m1 e1 s2 m2 e2, false)

/-- The exact product (07 R179). The Bool: the operation is invalid (∞ × 0). -/
def Fp.mul : Fp → Fp → Fp × Bool
  | .nan _, _ => (.nan false, false)
  | _, .nan _ => (.nan false, false)
  | .inf a, .inf b => (.inf (a != b), false)
  | .inf a, .fin s m _ => if m = 0 then (.nan false, true) else (.inf (a != s), false)
  | .fin s m _, .inf b => if m = 0 then (.nan false, true) else (.inf (s != b), false)
  | .fin s1 m1 e1, .fin s2 m2 e2 => (.fin (s1 != s2) (m1 * m2) (e1 + e2), false)

/-- Whether a mode gives −0 for a zero sum of opposite signs. -/
def Rm.negZero : Rm → Bool
  | .rdn => true
  | _ => false

/-- a + b. -/
def fpAdd (rm : Rm) (a b : Fp) : Exact :=
  let (v, iv) := Fp.add rm.negZero a b
  ⟨v, Fl.nvIf (iv || a.isSig || b.isSig)⟩

/-- a × b. -/
def fpMul (a b : Fp) : Exact :=
  let (v, iv) := Fp.mul a b
  ⟨v, Fl.nvIf (iv || a.isSig || b.isSig)⟩

/-- a × b + c with one rounding. -/
def fpFma (rm : Rm) (a b c : Fp) : Exact :=
  let sig := a.isSig || b.isSig || c.isSig
  let (pr, iv) := Fp.mul a b
  if c.isNan then ⟨.nan false, Fl.nvIf (sig || (iv && Config.fmaInvalid))⟩
  else
    let (v, iv2) := Fp.add rm.negZero pr c
    ⟨v, Fl.nvIf (sig || iv || iv2)⟩

/-- a / b, cut below more than 64 significant bits. -/
def fpDiv (a b : Fp) : Exact :=
  let nv := Fl.nvIf (a.isSig || b.isSig)
  match a, b with
  | .nan _, _ => ⟨.nan false, nv⟩
  | _, .nan _ => ⟨.nan false, nv⟩
  | .inf _, .inf _ => ⟨.nan false, Fl.nvIf true⟩
  | .inf s, .fin t _ _ => ⟨.inf (s != t), Fl.none⟩
  | .fin s _ _, .inf t => ⟨.fin (s != t) 0 0, Fl.none⟩
  | .fin s m1 e1, .fin t m2 e2 =>
    if m2 = 0 then
      if m1 = 0 then ⟨.nan false, Fl.nvIf true⟩
      else ⟨.inf (s != t), ⟨false, true, false, false, false⟩⟩
    else
      let k := 66 + Nat.log2 m2
      ⟨cutFp (s != t) ((m1 <<< k) / m2) (e1 - e2 - k) (decide ((m1 <<< k) % m2 ≠ 0)), Fl.none⟩

/-- The integer square root, from bit `n` − 1 down. -/
def isqrtFrom (v : Nat) : Nat → Nat → Nat
  | 0, r => r
  | n + 1, r => let c := r + 2 ^ n; if c * c ≤ v then isqrtFrom v n c else isqrtFrom v n r

/-- The integer square root. -/
def isqrt (v : Nat) : Nat := isqrtFrom v (Nat.log2 v / 2 + 1) 0

/-- √a. -/
def fpSqrt : Fp → Exact
  | .nan b => ⟨.nan false, Fl.nvIf b⟩
  | .inf s => if s then ⟨.nan false, Fl.nvIf true⟩ else ⟨.inf false, Fl.none⟩
  | .fin s m e =>
    if m = 0 then ⟨.fin s 0 0, Fl.none⟩
    else if s then ⟨.nan false, Fl.nvIf true⟩
    else
      let odd := (e % 2).toNat
      let v := m <<< (130 + odd)
      let r := isqrt v
      ⟨cutFp false r ((e - odd) / 2 - 65) (decide (r * r ≠ v)), Fl.none⟩

/-- Whether a < b for values that are no NaN. -/
def Fp.lt : Fp → Fp → Bool
  | .inf a, .inf b => a && !b
  | .inf a, _ => a
  | _, .inf b => !b
  | .fin s1 m1 e1, .fin s2 m2 e2 =>
    let e := min e1 e2
    decide (sgnInt s1 (m1 <<< (e1 - e).toNat) < sgnInt s2 (m2 <<< (e2 - e).toNat))
  | _, _ => false

/-- Whether a = b for values that are no NaN (−0 = +0). -/
def Fp.eq (a b : Fp) : Bool := !a.isNan && !b.isNan && !Fp.lt a b && !Fp.lt b a

/-- The maximum: the canonical NaN when an operand is a NaN, and −0 below +0 (04 R90, 07 R182). -/
def Fp.max (a b : Fp) : Fp :=
  if a.isNan || b.isNan then .nan false
  else if Fp.lt a b then b else if Fp.lt b a then a
  else if a.sign then b else a

/-- The minimum: the canonical NaN when an operand is a NaN, and −0 below +0 (04 R90, 07 R182). -/
def Fp.min (a b : Fp) : Fp :=
  if a.isNan || b.isNan then .nan false
  else if Fp.lt a b then a else if Fp.lt b a then b
  else if a.sign then a else b

/-- A value rounded to an integer: the integer, and whether it differs. -/
def roundToInt (rm : Rm) (s : Bool) (m : Nat) (e : Int) : Int × Bool :=
  if 0 ≤ e then (sgnInt s (m <<< e.toNat), false)
  else
    let sh := (-e).toNat
    let t := m >>> sh
    let r := m % 2 ^ sh
    (sgnInt s (if roundsUp rm s (t.testBit 0) r sh then t + 1 else t), decide (r ≠ 0))

/-- A floating value to an integer in [lo, hi] (09 R216): rounded, saturated, 0 for a NaN; NV for both cases, NX for an
in-range operand that is no integer. -/
def fpToInt (rm : Rm) (lo hi : Int) : Fp → Int × Fl
  | .nan _ => (0, Fl.nvIf true)
  | .inf s => (if s then lo else hi, Fl.nvIf true)
  | .fin s m e =>
    let (i, ix) := roundToInt rm s m e
    if i < lo then (lo, Fl.nvIf true)
    else if hi < i then (hi, Fl.nvIf true)
    else (i, ⟨false, false, false, false, ix⟩)

/-- An integer as an exact value. -/
def fpOfInt (i : Int) : Fp := .fin (decide (i < 0)) i.natAbs 0

/-- A value rounded to an integral value of its format (05 R118, FRND: no NX). -/
def fpRound (rm : Rm) : Fp → Fp
  | .fin s m e =>
    if 0 ≤ e then .fin s m e
    else .fin s (roundToInt rm s m e).1.natAbs 0
  | v => v

/-- FSTAT.RM, in its two low bits (03 R56). -/
def Rm.ofBits : Nat → Rm
  | 0 => .rne
  | 1 => .rtz
  | 2 => .rup
  | _ => .rdn

/-- binary32 for .S, binary64 for .D. -/
def fmtOf (dbl : Bool) : Fmt := if dbl then fp64 else fp32

end Sys2Proof.Machine
end

