-- ==== Sys2Proof/Machine/TileArith.lean ====
section
/-! DEFINITION. Tensor number formats and arithmetic (07), weight codes and group scales (08 R190 to R193), and the BS8
format (13 R308, R312, R313). Every function here is a function of its operands alone (07 R183). -/

namespace Sys2Proof.Machine

/-- The flags of TSTAT[4:0] (06 R132, 07 R173). -/
structure TFl where
  iv : Bool
  of : Bool
  uf : Bool
  nx : Bool
  sat : Bool
  deriving DecidableEq, Repr

/-- No flag. -/
def TFl.none : TFl := ⟨false, false, false, false, false⟩
/-- Both operands' flags. -/
def TFl.or (x y : TFl) : TFl := ⟨x.iv || y.iv, x.of || y.of, x.uf || y.uf, x.nx || y.nx, x.sat || y.sat⟩
/-- The flags at their places TSTAT[4:0]. -/
def TFl.bits (x : TFl) : Nat := b2n x.iv + 2 * b2n x.of + 4 * b2n x.uf + 8 * b2n x.nx + 16 * b2n x.sat

/-- TSTAT.RM: to nearest even, toward zero, stochastic (07 R169). -/
inductive TRm where
  | rne | rtz | sto
  deriving DecidableEq, Repr

/-- TSTAT.RM from its two bits; 0b11 never takes effect (07 R169). -/
def TRm.ofBits (n : Nat) : TRm := if n = 1 then .rtz else if n = 2 then .sto else .rne

/-- One advance of the generator (07 R175): the bit and the next state. -/
def lfsrAdvance (s : Nat) : Nat × Nat :=
  (s % 2, if s % 2 = 1 then (s / 2) ^^^ 0x80200003 else s / 2)

/-- `n` advances, their bits shifted into `u` (07 R176). -/
def lfsrDraw : Nat → Nat → Nat → Nat × Nat
  | 0, u, s => (u, s)
  | n + 1, u, s => let (b, s1) := lfsrAdvance s; lfsrDraw n (2 * u + b) s1

/-- The generator and the flags an instruction carries through its rounding points (07 R173, R177). -/
structure Rng where
  seed : Nat
  fl : TFl
  deriving DecidableEq, Repr

/-- The mode of one rounding point, with its draw in stochastic mode (07 R171, R177). -/
def Rng.mode (t : TRm) (g : Rng) : Rm × Rng :=
  match t with
  | .rne => (.rne, g)
  | .rtz => (.rtz, g)
  | .sto => let (u, s) := lfsrDraw 16 0 g.seed; (.sto u, { g with seed := s })

/-- What one rounding point delivers: the pattern, the flags, and the outcome classes of 07 R185. -/
structure TOut where
  bits : Nat
  fl : TFl
  satc : Bool
  vanc : Bool
  nfc : Bool
  deriving DecidableEq, Repr

/-- One rounding point in a mode already drawn (07 R169 to R173, R185). `narrow`: a narrowing conversion. -/
def tileOut (f : Fmt) (narrow : Bool) (rm : Rm) : Fp → TOut
  | .nan _ => ⟨f.nan, { TFl.none with iv := true }, false, false, true⟩
  | .inf s => (match f.inf with
    | some i => ⟨f.signed s i, TFl.none, false, false, true⟩
    | Option.none => ⟨f.signed s f.maxFin, { TFl.none with nx := true, sat := narrow }, true, false, true⟩)
  | .fin s m e =>
    let r := f.round rm s m e
    let zero := decide (r.bits % 2 ^ (f.width - 1) = 0)
    let sat := r.ovf && narrow && decide (r.bits % 2 ^ (f.width - 1) = f.maxFin)
    ⟨r.bits, ⟨false, r.ovf, r.tinyBefore && r.inexact, r.inexact, sat⟩, r.ovf, zero && decide (m ≠ 0), false⟩

/-- One rounding point of an instruction. -/
def rnd (f : Fmt) (narrow : Bool) (t : TRm) (v : Fp) (g : Rng) : TOut × Rng :=
  let (rm, g1) := g.mode t
  let o := tileOut f narrow rm v
  (o, { g1 with fl := g1.fl.or o.fl })

/-- One rounding point to FP32, as a value (07 R180, rnd32). -/
def rnd32 (t : TRm) (v : Fp) (g : Rng) : Fp × Rng :=
  let (o, g1) := rnd fp32 false t v g
  (fp32.decode o.bits, g1)

/-- rnd32(a × b) (07 R178, R179). -/
def mul32 (t : TRm) (a b : Fp) (g : Rng) : Fp × Rng := rnd32 t (Fp.mul a b).1 g
/-- rnd32(a + b) (07 R174, R181). -/
def add32 (t : TRm) (a b : Fp) (g : Rng) : Fp × Rng := rnd32 t (Fp.add false a b).1 g

/-- The format of a tag that holds floating values (06 R131, 07 R162). -/
def tagFmt (tag : Nat) : Fmt := if tag = 0 then fp32 else if tag = 2 then e4m3 else if tag = 3 then e5m2 else bf16

/-- The value of a weight code (07 R165). -/
def codeValue (tag code : Nat) : Fp :=
  if tag = 4 then
    if code = 1 then .fin false 1 0 else if code = 3 then .fin true 1 0 else .fin false 0 0
  else if tag = 5 then
    if code = 0 then .fin true 3 (-1) else if code = 1 then .fin true 1 (-1)
    else if code = 2 then .fin false 1 (-1) else .fin false 3 (-1)
  else if code = 0 then .fin true 1 0 else .fin false 1 0

/-- Products of a list of operand pairs, in order. -/
def products (t : TRm) : List (Fp × Fp) → Rng → List Fp × Rng
  | [], g => ([], g)
  | (a, b) :: rest, g =>
    let (p, g1) := mul32 t a b g
    let (ps, g2) := products t rest g1
    (p :: ps, g2)

/-- Sums of neighbours: one level of the tree of 07 R180. -/
def pairSums (t : TRm) : List Fp → Rng → List Fp × Rng
  | a :: b :: rest, g =>
    let (q, g1) := add32 t a b g
    let (qs, g2) := pairSums t rest g1
    (q :: qs, g2)
  | l, g => (l, g)

/-- The sum o of one octet (07 R180). -/
def octet (t : TRm) (ab : List (Fp × Fp)) (g : Rng) : Fp × Rng :=
  let (p, g1) := products t ab g
  let (q, g2) := pairSums t p g1
  let (w, g3) := pairSums t q g2
  let (o, g4) := pairSums t w g3
  (o.headD (.fin false 0 0), g4)

/-- The sum P over `n` octets (07 R180); `first`: no octet has been summed yet. -/
def octets (t : TRm) : Nat → Bool → Fp → List (Fp × Fp) → Rng → Fp × Rng
  | 0, _, acc, _, g => (acc, g)
  | n + 1, first, acc, ab, g =>
    let (o, g1) := octet t (ab.take 8) g
    if first then octets t n false o (ab.drop 8) g1
    else
      let (s, g2) := add32 t acc o g1
      octets t n false s (ab.drop 8) g2

/-- dot of 07 R180 over the groups left: one group of `gl` products for each entry of `scs`; an entry is the group's
scale, or none where the shape has no weights. -/
def dot (t : TRm) (gl : Nat) : List (Option Fp) → Fp → List (Fp × Fp) → Rng → Fp × Rng
  | [], c, _, g => (c, g)
  | sc :: scs, c, ab, g =>
    let (p, g1) := octets t (gl / 8) true (.fin false 0 0) (ab.take gl) g
    let (p2, g2) := match sc with
      | some v => mul32 t p v g1
      | Option.none => (p, g1)
    let (c2, g3) := add32 t c p2 g2
    dot t gl scs c2 (ab.drop gl) g3

/-- Values packed into a number, `w` bits each, the first lowest. -/
def packN (w : Nat) (l : List Nat) : Nat := l.foldr (fun x acc => acc * 2 ^ w + x % 2 ^ w) 0

/-- `n` values of `w` bits each from a number, the lowest first. -/
def unpackN (w : Nat) : Nat → Nat → List Nat
  | 0, _ => []
  | n + 1, v => v % 2 ^ w :: unpackN w n (v >>> w)

/-- A shape of 06 R134: K, the registers of A and B, and whether B holds weights. -/
structure Shape where
  k : Nat
  na : Nat
  nb : Nat
  weights : Bool
  deriving DecidableEq, Repr

/-- Whether a tag is FP8. -/
def isFp8 (t : Nat) : Bool := t == 2 || t == 3

/-- SHAPE[tag(a)][tag(b)] (06 R134). -/
def shapeOf (ta tb : Nat) : Option Shape :=
  if isFp8 ta && isFp8 tb then some ⟨32, 1, 1, false⟩
  else if ta = 1 ∧ tb = 1 then some ⟨32, 2, 2, false⟩
  else if ta = 0 ∧ tb = 0 then some ⟨16, 2, 2, false⟩
  else if isFp8 ta && (tb == 4 || tb == 5) then some ⟨128, 4, 1, true⟩
  else if isFp8 ta && tb == 6 then some ⟨256, 8, 1, true⟩
  else if ta == 1 && (tb == 4 || tb == 5) then some ⟨128, 8, 1, true⟩
  else if ta == 1 && tb == 6 then some ⟨256, 16, 1, true⟩
  else none

/-- Bytes of an element of a floating tag. -/
def tagBytes (t : Nat) : Nat := if t = 0 then 4 else if isFp8 t then 1 else 2

/-- A(i, k) for all k (06 R135). -/
def aRow (tag k : Nat) (a : Nat) (i : Nat) : List Fp :=
  let e := tagBytes tag
  (unpackN (8 * e) k (a >>> (8 * e * k * i))).map (tagFmt tag).decode

/-- The codes or patterns of B(k, j) for all k (06 R135). -/
def bCodes (tag k : Nat) (b : Nat) (j : Nat) : List Nat :=
  let w := if tag = 4 ∨ tag = 5 then 2 else if tag = 6 then 1 else 8 * tagBytes tag
  unpackN w k (b >>> (w * k * j))

/-- B(k, j) for all k. -/
def bCol (tag k : Nat) (b : Nat) (j : Nat) : List Fp :=
  (bCodes tag k b j).map (if tag = 4 ∨ tag = 5 ∨ tag = 6 then codeValue tag else (tagFmt tag).decode)

/-- The scales of column j: K / G values, or one absent scale for a shape without weights (06 R135, 07 R180). -/
def scalesOf (sh : Shape) (ts o gsel j : Nat) : List (Option Fp) :=
  if sh.weights then
    (List.range (sh.k / (32 <<< gsel))).map fun g => some (bf16.decode (fieldN ts (8 * (64 * o + 2 * (32 * g + j))) 16))
  else [Option.none]

/-- What a TMMA computes (06 R142): the new quad, the generator and flags after it, and the number of W2T codes 10 read
(07 R166). `c` is the quad as 1,024 FP32 patterns; `a`, `b`, `ts` are the operand groups as numbers. -/
structure MmaOut where
  quad : List Nat
  rng : Rng
  invc : Nat
  deriving DecidableEq, Repr

/-- One row of outputs of a TMMA after another, columns inner (07 R177). -/
def mmaLoop (t : TRm) (gl : Nat) (cols : List (List Fp × List (Option Fp))) :
    List (List Fp) → List Nat → Rng → List Nat × Rng
  | [], _, g => ([], g)
  | row :: rows, c, g =>
    let (out, g1) := (cols.zip c).foldl (fun (acc : List Nat × Rng) x =>
      let (v, g2) := dot t gl x.1.2 (fp32.decode x.2) (row.zip x.1.1) acc.2
      let o := tileOut fp32 false .rne v
      (o.bits :: acc.1, g2)) ([], g)
    let (rest, g3) := mmaLoop t gl cols rows (c.drop 32) g1
    (out.reverse ++ rest, g3)

/-- TMMA's arithmetic (06 R142). -/
def mma (sh : Shape) (ta tb : Nat) (t : TRm) (seed : Nat) (c : List Nat) (a b ts o gsel : Nat) : MmaOut :=
  let gl := if sh.weights then 32 <<< gsel else sh.k
  let cols := (List.range 32).map fun j => (bCol tb sh.k b j, scalesOf sh ts o gsel j)
  let rows := (List.range 32).map fun i => aRow ta sh.k a i
  let (q, g) := mmaLoop t gl cols rows c ⟨seed, TFl.none⟩
  let invc := if tb = 4 then
    ((List.range 32).map fun j => (bCodes 4 sh.k b j).countP (· == 2)).sum else 0
  ⟨q, g, invc⟩

/-- The counts and the amax of one contribution of a conversion (08 R197). -/
structure ConvOut where
  out : List Nat
  rng : Rng
  satc : Nat
  vanc : Nat
  nfc : Nat
  amax : Fp
  deriving DecidableEq, Repr

/-- Elements multiplied by a scale exactly and each rounded once (07 R184 to R186, 10 R223). -/
def scaleConv (f : Fmt) (narrow : Bool) (t : TRm) (fs : Fp) (xs : List Fp) (g : Rng) : ConvOut :=
  let r := xs.foldl (fun (acc : ConvOut) x =>
    let v := (Fp.mul x fs).1
    let (o, g1) := rnd f narrow t v acc.rng
    { acc with
      out := o.bits :: acc.out, rng := g1, satc := acc.satc + b2n o.satc, vanc := acc.vanc + b2n o.vanc
      nfc := acc.nfc + b2n o.nfc, amax := Fp.max acc.amax v.abs }) ⟨[], g, 0, 0, 0, .fin false 0 0⟩
  { r with out := r.out.reverse }

/-- An amax rounded to FP32 toward +∞ (08 R197); a NaN stays a NaN. -/
def amaxBits (v : Fp) : Nat := (tileOut fp32 false .rup v).bits

/-- qmax of a format tag (08 R188). -/
def qmax (tag : Nat) : Fp :=
  if tag = 1 then bf16.decode 0x7F7F else if tag = 2 then .fin false 448 0 else if tag = 3 then .fin false 57344 0
  else if tag = 5 then .fin false 3 (-1) else if tag = 8 then .fin false 127 0 else .fin false 1 0

/-- The codes of +qmax and −qmax (08 R192). -/
def qmaxCode (tag : Nat) (neg : Bool) : Nat :=
  if tag = 4 then (if neg then 3 else 1) else if tag = 5 then (if neg then 0 else 3) else (if neg then 0 else 1)

/-- Twice a value. -/
def Fp.dbl : Fp → Fp
  | .fin s m e => .fin s (2 * m) e
  | v => v

/-- The code of one element for a positive scale (08 R191): the exact quotient is compared, as products. -/
def codeOf (tag : Nat) (x s : Fp) : Nat :=
  if tag = 4 then
    if !Fp.lt s.neg x.dbl then 3
    else if !Fp.lt x.dbl s then 1 else 0
  else if tag = 5 then
    if Fp.lt x s.neg then 0 else if Fp.lt x (.fin false 0 0) then 1 else if Fp.lt x s then 2 else 3
  else if Fp.lt x (.fin false 0 0) then 0 else 1

/-- What the emission of one group of weights gives (08 R190 to R193). -/
structure GroupOut where
  scale : Nat
  codes : List Nat
  satc : Nat
  vanc : Nat
  nfc : Nat
  degc : Nat
  deriving DecidableEq, Repr

/-- A scale within the replacements of 08 R190 and R192. -/
def clampScale (bits : Nat) : Nat := if 0x7F7F < bits then 0x7F7F else if bits = 0 then 1 else bits

/-- Scale and codes of one group of FP32 values (08 R190 to R193); `mean`: the MEANABS rule. -/
def emitGroup (tag : Nat) (mean : Bool) (xs : List Fp) : GroupOut :=
  let n := xs.length
  let nf := xs.countP (fun x => !x.isFin)
  if nf ≠ 0 then ⟨0x7FC0, List.replicate n 0, 0, 0, nf, 0⟩
  else
    let x0 := xs.headD (.fin false 0 0)
    if xs.all (Fp.eq x0) then
      if x0.isZero then
        ⟨if tag = 4 then 0x3F80 else 0, List.replicate n (if tag = 4 then 0 else if tag = 5 then 2 else 1), 0, 0, 0, 1⟩
      else
        ⟨clampScale (bf16.finish .rne (fpDiv x0.abs (qmax tag))).1, List.replicate n (qmaxCode tag x0.sign), 0, 0, 0, 1⟩
    else
      let amax := xs.foldl (fun a x => Fp.max a x.abs) (.fin false 0 0)
      let sum := xs.foldl (fun a x => (Fp.add false a x.abs).1) (.fin false 0 0)
      let sb := if mean then clampScale (bf16.finish .rne (fpDiv sum (fpOfInt n))).1
        else clampScale (bf16.finish .rup (fpDiv amax (qmax tag))).1
      let s := bf16.decode sb
      let lim := (Fp.mul (qmax tag) s).1
      let codes := xs.map (codeOf tag · s)
      let satc := xs.countP (fun x => Fp.lt lim x.abs)
      let vanc := if tag = 4 then (xs.zip codes).countP (fun p => !p.1.isZero && p.2 == 0) else 0
      ⟨sb, codes, satc, vanc, 0, 0⟩

/-- A value in units of 2^b, rounded to an integer; none where the value is not finite (13 R308). -/
def bs8Rnd (rm : Rm) (b : Nat) : Fp → Option Int
  | .fin s m e => some (roundToInt rm s m (e - b)).1
  | _ => none

/-- Whether a bump fits every finite element of a block. -/
def bs8Fits (b : Nat) (vs : List (Fp × Rm)) : Bool :=
  vs.all fun x => match bs8Rnd x.2 b x.1 with
    | some i => decide (i.natAbs ≤ 127)
    | none => true

/-- The smallest bump of at least `b`, `n` candidates left, that fits; 15 where none does (13 R308, R313). -/
def leastBump (fits : Nat → Bool) : Nat → Nat → Nat
  | 0, _ => 15
  | n + 1, b => if fits b then b else leastBump fits n (b + 1)

/-- What one block or tile of BS8 gives: codes, bumps, TAINT, SAT and the flags. -/
structure Bs8Out where
  codes : List Int
  bumps : List Nat
  taint : Bool
  sat : Bool
  fl : TFl
  deriving DecidableEq, Repr

/-- One element of a block under its bump (13 R308, the table). -/
def bs8Element (b : Nat) (x : Fp × Rm) : Int × Bool × Bool × TFl :=
  match x.1 with
  | .nan _ => (0, true, false, { TFl.none with iv := true })
  | .inf _ => (0, true, false, { TFl.none with of := true })
  | .fin s m e =>
    let (i, ix) := roundToInt x.2 s m (e - b)
    if 127 < i.natAbs then (if s then -127 else 127, false, true, { TFl.none with sat := true, nx := true })
    else if i = 0 ∧ m ≠ 0 then (0, false, false, { TFl.none with uf := true, nx := true })
    else (i, false, false, { TFl.none with nx := ix })

/-- The blocks of a tile drained in BS8 (13 R308), `n` blocks left; each element carries its own mode and draw. -/
def bs8Blocks : Nat → List (Fp × Rm) → Bs8Out
  | 0, _ => ⟨[], [], false, false, TFl.none⟩
  | n + 1, vs =>
    let blk := vs.take 32
    let b := leastBump (fun b => bs8Fits b blk) 16 0
    let es := blk.map (bs8Element b)
    let r := bs8Blocks n (vs.drop 32)
    ⟨es.map (·.1) ++ r.codes, b :: r.bumps, es.any (·.2.1) || r.taint, es.any (·.2.2.1) || r.sat,
      es.foldl (fun f e => f.or e.2.2.2) r.fl⟩

/-- One block of a BS8 sum (13 R313): the incoming and the local codes with their bumps. -/
def bs8SumBlock (rm : Rm) (qi : List Int) (bi : Nat) (ql : List Int) (bl : Nat) : List Int × Nat × Bool :=
  let xs := (qi.zip ql).map fun p => p.1 * 2 ^ bi + p.2 * 2 ^ bl
  let q (b : Nat) (x : Int) : Int := (roundToInt rm (decide (x < 0)) x.natAbs (-(b : Int))).1
  let lo := max bi bl
  let b := leastBump (fun b => xs.all fun x => decide ((q b x).natAbs ≤ 127)) (16 - lo) lo
  let out := xs.map (q b)
  (out.map (fun i => if 127 < i then 127 else if i < -127 then -127 else i), b, out.any (fun i => decide (127 < i.natAbs)))

/-- An element of a sum in F32 or B16 (13 R312). -/
def wireSum (f : Fmt) (t : TRm) (a b : Nat) : TOut :=
  tileOut f false (match t with | .rtz => .rtz | _ => .rne) (Fp.add false (f.decode a) (f.decode b)).1

end Sys2Proof.Machine
end

