-- ==== Sys2Proof/Machine/SlotUnit.lean ====
section
/-! DEFINITION. Statistic slots (08 R194 to R204): contributions, closing, clearing, and their registers. A slot is
numbered 256r + s. -/

namespace Sys2Proof.Machine

/-- SOWN.HALL. -/
def Slot.hall (x : Slot) : Byte := x.own.truncate 8
/-- SOWN.ASSIGNED. -/
def Slot.assigned (x : Slot) : Bool := x.own.getLsbD 8
/-- SOWN.DEFAULT. -/
def Slot.isDefault (x : Slot) : Bool := x.own.getLsbD 9
/-- SCFG.FMT. -/
def Slot.fmt (x : Slot) : Nat := fieldN x.cfg.toNat 0 4

/-- Whether a slot refuses a contributor (08 R199): not assigned, or another hallmark. -/
def Slot.refuses (x : Slot) (h : Byte) : Bool := !x.assigned || x.hall != h

/-- A step counter and its total raised, saturating (08 R195, R197). -/
def Slot.add (x : Slot) (i n : Nat) : Slot :=
  let up (v : W64) : W64 := BitVec.ofNat 64 (satAdd max64 v.toNat n)
  { x with
    step := x.step.setIfInBounds i (up (vget x.step i))
    total := x.total.setIfInBounds i (up (vget x.total i)) }

/-- The event pip's signal (08 R203). -/
def slotSignal (s : State) (i : Nat) : State :=
  let x := s.slot i
  if x.cfg.getLsbD 23 then sendSig s (1024 + i) (fieldN x.cfg.toNat 48 9) (fieldN x.cfg.toNat 57 6) 1 x.hall else s

/-- An event raised: its SEVT bit, SEVCNT, and the pip (08 R203). -/
def slotEvent (s : State) (i bit : Nat) : State :=
  let x := s.slot i
  slotSignal (s.setSlot i { x with
    sevt := x.sevt ||| (1#6 <<< bit), sevcnt := BitVec.ofNat 32 (satAdd max32 x.sevcnt.toNat 1) }) i

/-- AMAXV = max(AMAXV, a) under 07 R182. -/
def amaxJoin (v a : W32) : W32 :=
  let m := Fp.max (fp32.decode v.toNat) (fp32.decode a.toNat)
  BitVec.ofNat 32 (tileOut fp32 false .rne m).bits

/-- An accepted contribution (08 R197, R199). -/
def contribute (s : State) (i : Nat) (x : Contribution) : State :=
  let sl := s.slot i
  match x.fmt with
  | some f =>
    if f.toNat ≠ sl.fmt then slotEvent (s.setSlot i (sl.add 7 1)) i 5
    else
      let y := (((((sl.add 0 x.conv).add 1 x.satc).add 2 x.vanc).add 3 x.invc).add 4 x.degc).add 5 x.nfc
      let y := y.add 6 x.bumpc
      s.setSlot i { y with amaxv := amaxJoin y.amaxv x.amax, sbmax := if y.sbmax < x.bump then x.bump else y.sbmax }
  | none =>
    let y := (sl.add 3 x.invc).add 6 x.bumpc
    s.setSlot i { y with sbmax := if y.sbmax < x.bump then x.bump else y.sbmax }

/-- A contribution arrives: accepted, or refused (08 R199). The manual is silent on a record of the refusal: the slot makes one of class
0x0004, as every unit that refuses does (DEDUCED, log entry 71). -/
def slotContribute (s : State) (i : Nat) (x : Contribution) : State :=
  if (s.slot i).refuses x.hall then
    reportLog s (originSlot s i) (originSlot s i) 4 (partOfHall s (s.slot i).hall) 0
  else contribute s i x

/-- A contribution of a conversion. -/
def convContribution (hall : Byte) (fmt conv satc vanc nfc : Nat) (amax : W32) : Contribution :=
  ⟨hall, some (BitVec.ofNat 4 fmt), conv, satc, vanc, 0, 0, nfc, 0, amax, 0⟩

/-- FP32 bits of a value that needs no rounding, or rounded in a mode. -/
def f32 (rm : Rm) (v : Fp) : W32 := BitVec.ofNat 32 (fp32.finish rm ⟨v, Fl.none⟩).1

/-- The value of FP32 bits. -/
def v32 (b : W32) : Fp := fp32.decode b.toNat

/-- The smallest power of two that is not below a positive finite value (08 R200). -/
def nextPow2 : Fp → Fp
  | .fin false m e => if m = 0 then .fin false 1 (-126) else
      let l := Nat.log2 m
      if m = 2 ^ l then .fin false 1 (e + l) else .fin false 1 (e + l + 1)
  | v => v

/-- clamp(s, 2^−126, 2^127) (08 R200). -/
def clampScale32 (v : Fp) : Fp :=
  if Fp.lt v (.fin false 1 (-126)) then .fin false 1 (-126)
  else if Fp.lt (.fin false 1 127) v then .fin false 1 127
  else if v.isNan then .fin false 1 (-126) else v

/-- A scale that the manual leaves open within the clamp (08 R200): SCUR is zero or negative. -/
def openScale (n : Nat) : W32 := BitVec.ofNat 32 (0x00800000 + (Config.freeWord n).toNat % 0x7E800001)

/-- H under EMA: from the oldest entry of the window through each newer one (08 R201). -/
def emaFold (w : Fp) : W32 → List W32 → W32
  | h, [] => h
  | h, e :: es =>
    let d := f32 .rne (Fp.add false (v32 e) (v32 h).neg).1
    let g := f32 .rne (Fp.mul w (v32 d)).1
    emaFold w (f32 .rne (Fp.add false (v32 h) (v32 g)).1) es

/-- The history value (08 R201) over the newest entries. -/
def slotPolicy (x : Slot) (hist : List W32) : W32 :=
  let win := hist.take (fieldN x.cfg.toNat 6 4 + 1)
  if fieldN x.cfg.toNat 4 2 = 1 then
    match win.reverse with
    | [] => 0
    | h :: es => emaFold (.fin false 1 (-(fieldN x.cfg.toNat 10 3 + 1 : Nat))) h es
  else
    match win with
    | [] => 0
    | h :: es => es.foldl (fun m e => amaxJoin m e) h

/-- SNEXT from the history value (08 R200). -/
def slotScale (x : Slot) (h : W32) : W32 :=
  let hv := v32 h
  let s := if hv.isZero then Fp.fin false 1 0
    else
      let num := (Fp.mul hv (.fin false 1 (fieldN x.cfg.toNat 13 3 : Nat))).1
      v32 (BitVec.ofNat 32 (fp32.finish .rup (fpDiv num (qmax x.fmt))).1)
  let s := if x.cfg.getLsbD 16 || x.fmt == 8 then nextPow2 s else s
  let s := if x.fmt = 8 ∧ x.sbmax ≠ 0 then Fp.max s (Fp.mul (v32 x.scur) (.fin false 1 x.sbmax.toNat)).1 else s
  f32 .rne (clampScale32 s)

/-- The entry e of a close (08 R200). -/
def slotEntry (x : Slot) : W32 := f32 .rup (Fp.mul (v32 x.amaxv) (v32 x.scur)).1

/-- Whether a step holds no conversion and no bump (08 R200). -/
def Slot.empty (x : Slot) : Bool := vget x.step 0 == 0 && vget x.step 6 == 0

/-- Whether a close pushes an entry (08 R200, R202). -/
def Slot.pushes (x : Slot) : Bool := !x.empty && (v32 x.amaxv).isFin && (v32 (slotEntry x)).isFin

/-- Whether SATC or VANC passes its share threshold (08 R203). -/
def sharePassed (th c conv : Nat) : Bool := decide (th ≠ 0) && decide (th * conv < c * 65536)

/-- The events of a close in order of their SEVT bits (08 R203), whether or not they are enabled. -/
def closeEvents (x : Slot) : List (Nat × Bool) :=
  let c (i : Nat) : Nat := (vget x.step i).toNat
  [(0, sharePassed (fieldN x.sth.toNat 0 16) (c 1) (c 0)), (1, sharePassed (fieldN x.sth.toNat 16 16) (c 2) (c 0)),
   (2, decide (0 < c 3)), (3, decide (0 < c 4)),
   (4, decide (0 < c 5) || !(v32 x.amaxv).isFin || (!x.empty && !(v32 (slotEntry x)).isFin))]

/-- The events of a list raised where they are enabled by SCFG[21:17]. -/
def raiseEvents (i : Nat) : List (Nat × Bool) → State → State
  | [], s => s
  | (bit, on) :: es, s =>
    raiseEvents i es (if on && (s.slot i).cfg.getLsbD (17 + bit) then slotEvent s i bit else s)

/-- The slot after the scale part of a close (08 R200). -/
def closeScale (s : State) (i : Nat) : State :=
  let x := s.slot i
  if x.pushes then
    let hist := (slotEntry x :: x.hist).take 16
    let h := slotPolicy x hist
    let neg := (v32 x.scur).sign || (v32 x.scur).isZero
    let (n, s) := if neg then draw s else (0, s)
    let sn := if neg then openScale n else slotScale x h
    s.setSlot i { x with
      hist := hist, sstep := BitVec.ofNat 32 (satAdd max32 x.sstep.toNat 1), amaxh := h, snext := sn
      rnext := BitVec.ofNat 32 (fp32.finish .rne (fpDiv (.fin false 1 0) (v32 sn))).1 }
  else s

/-- Whether a region holds an enabled context of a job: without one the marks of its slots for the job have no effect (13 R324). -/
def jobInRegion (s : State) (r job : Nat) : Bool :=
  (List.range 48).any fun k =>
    let x := s.adder (48 * r + k)
    x.enable && fieldN x.cfg.toNat 0 12 == job

/-- SCTL.CLOSE (08 R200, R203, R204). -/
def slotCloseOp (s : State) (i : Nat) : State :=
  let x := s.slot i
  let evs := closeEvents x
  let s := closeScale s i
  let s := raiseEvents i evs s
  let sat := evs.any (fun e => e.1 == 0 && e.2)
  let r := i / 256
  let s := if sat && x.cfg.getLsbD 22 && jobInRegion s r (fieldN x.cfg.toNat 24 12) then
      s.setRegion r { s.region r with marks := insertNat (fieldN x.cfg.toNat 24 12) (s.region r).marks }
    else s
  s.setSlot i { s.slot i with step := Vector.replicate 8 0, amaxv := 0, sbmax := 0 }

/-- What CLEAR leaves of a slot (08 R196). -/
def Slot.clear (x : Slot) : Slot :=
  { x with
    step := Vector.replicate 8 0, total := Vector.replicate 8 0, hist := [], amaxv := 0, amaxh := 0, sbmax := 0
    sstep := 0, sevt := 0, sevcnt := 0, snext := x.scur
    rnext := BitVec.ofNat 32 (fp32.finish .rne (fpDiv (.fin false 1 0) (v32 x.scur))).1 }

/-- SCTL.CLEAR (08 R196). Of an SCUR that is a zero, an infinity or a NaN the manual states no reciprocal: RNEXT is then a free value
(DESIGN CHOICE, log entry 6). -/
def slotClearOp (s : State) (i : Nat) : State :=
  let x := (s.slot i).clear
  let v := v32 x.scur
  if v.isFin && !v.isZero then s.setSlot i x
  else
    let (n, s) := draw s
    s.setSlot i { x with rnext := (Config.freeWord n).truncate 32 }

/-- Legal values of SCFG.FMT (08 R195). -/
def slotFmtOk (n : Nat) : Bool := (decide (1 ≤ n) && decide (n ≤ 6)) || n == 8

/-- A write to SCFG (08 R195, R196): reserved field values leave their field (00 R4); a change of FMT, POLICY or WIN clears. -/
def scfgWriteOp (s : State) (i : Nat) (v m : W64) : State :=
  let x := s.slot i
  let new := masked x.cfg v m
  let c := wrField x.cfg new 0 4 slotFmtOk
  let c := wrField c new 4 2 (fun n => decide (n < 2))
  let c := mergeField c new 6 30
  let c := mergeField c new 48 9
  let c := wrField c new 57 6 pipOk
  let s := s.setSlot i { x with cfg := c }
  if fieldN c.toNat 0 10 ≠ fieldN x.cfg.toNat 0 10 then slotClearOp s i else s

/-- The registers of a slot's page (08 R195). -/
def slotRegs : List RegAt :=
  [(0x000, 4), (0x008, 8), (0x010, 4), (0x014, 4), (0x018, 4), (0x01C, 4), (0x020, 4), (0x024, 4), (0x028, 4), (0x02C, 4),
   (0x030, 4), (0x034, 4), (0x038, 4)] ++ (List.range 16).map (fun n => (0x040 + 8 * n, 8)) ++
  (List.range 16).map (fun n => (0x100 + 4 * n, 4)) ++ [(0x140, 4)]

/-- A register of a slot read (08 R195). -/
def slotRead (x : Slot) (off : Nat) : W64 :=
  if off = 0x000 then x.own.zeroExtend 64
  else if off = 0x008 then x.cfg
  else if off = 0x010 then x.scur.zeroExtend 64
  else if off = 0x014 then x.snext.zeroExtend 64
  else if off = 0x018 then x.rnext.zeroExtend 64
  else if off = 0x01C then x.amaxv.zeroExtend 64
  else if off = 0x020 then x.amaxh.zeroExtend 64
  else if off = 0x024 then x.sth.zeroExtend 64
  else if off = 0x028 then x.sstep.zeroExtend 64
  else if off = 0x02C then x.sbmax.zeroExtend 64
  else if off = 0x030 then x.sevt.zeroExtend 64
  else if off = 0x034 then x.sevcnt.zeroExtend 64
  else if off = 0x038 then x.sctl.zeroExtend 64
  else if off = 0x140 then BitVec.ofNat 64 x.hist.length
  else if 0x040 ≤ off ∧ off < 0x080 then vget x.step ((off - 0x040) / 8)
  else if 0x080 ≤ off ∧ off < 0x0C0 then vget x.total ((off - 0x080) / 8)
  else if 0x100 ≤ off ∧ off < 0x140 then (x.hist.getD ((off - 0x100) / 4) 0).zeroExtend 64
  else 0

/-- A write to SCTL (08 R195, R196): CLOSE, then CLEAR. -/
def sctlWrite (s : State) (i : Nat) (v : W64) : State :=
  let s := if v.getLsbD 0 then slotCloseOp s i else s
  if v.getLsbD 1 then slotClearOp s i else s

/-- A register of a slot written (08 R195); those that software may not write ignore it. -/
def slotWrite (i : Nat) (s : State) (off : Nat) (v m : W64) : State :=
  let x := s.slot i
  if off = 0x008 then scfgWriteOp s i v m
  else if off = 0x010 then s.setSlot i { x with scur := masked x.scur (v.truncate 32) (m.truncate 32) }
  else if off = 0x024 then s.setSlot i { x with sth := masked x.sth (v.truncate 32) (m.truncate 32) }
  else if off = 0x030 then s.setSlot i { x with sevt := x.sevt &&& ~~~(v.truncate 6) }
  else if off = 0x038 then sctlWrite (s.setSlot i { x with sctl := masked x.sctl (v.truncate 2) (m.truncate 2) }) i v
  else s

end Sys2Proof.Machine
end

