-- ==== Sys2Proof/Machine/TileUnit.lean ====
section
/-! DEFINITION. The tile unit of a cell (06): tags, groups, residency, the checks at issue and what each tile instruction
does at its commit. -/

namespace Sys2Proof.Machine

/-- The tag of a tile register (06 R131). -/
def Cell.tag (k : Cell) (t : Nat) : Nat := fieldN (vget k.tcfg (t / 16)).toNat (4 * (t % 16)) 4

/-- Whether registers t … t + n − 1 exist and carry a tag. -/
def Cell.allTag (k : Cell) (t n tag : Nat) : Bool :=
  decide (t + n ≤ 64) && (List.range n).all (fun i => k.tag (t + i) == tag)

/-- Registers t … t + n − 1 of the file as one number, the first lowest. -/
def Cell.group (k : Cell) (t n : Nat) : Nat := packN 8192 ((List.range n).map fun i => (vget k.t (t + i)).toNat)

/-- The committed value of quad `q` (06 R143). -/
def Cell.quad (k : Cell) (q : Fin 16) : Nat := if k.res = some q then k.acc.toNat else k.group (4 * q.val) 4

/-- Registers from t on written with the values of a list; a rewrite clears their parity errors (06 R157). -/
def Cell.writeRegs (k : Cell) (t : Nat) : List Nat → Cell
  | [] => k
  | v :: vs => Cell.writeRegs { k with t := k.t.setIfInBounds t (BitVec.ofNat 8192 v), tbad := Tab.erase k.tbad t } (t + 1) vs

/-- Whether registers t … t + n − 1 meet the resident quad. -/
def Cell.meetsRes (k : Cell) (t n : Nat) : Bool :=
  match k.res with
  | some q => rangesMeet t n (4 * q.val) 4
  | none => false

/-- The resident quad written back to the file; it stays resident (06 R144). -/
def Cell.writeBack (k : Cell) : Cell :=
  match k.res with
  | some q => if k.accDirty then { k.writeRegs (4 * q.val) (unpackN 8192 4 k.acc.toNat) with accDirty := false } else k
  | none => k

/-- Residency ended after a write-back (06 R144, R145). -/
def Cell.endRes (k : Cell) : Cell := { k.writeBack with res := none, accDirty := false, accBad := false }

/-- The write-back that a read of registers of the file forces (06 R144). -/
def Cell.forRead (k : Cell) (t n : Nat) : Cell := if k.meetsRes t n then k.writeBack else k

/-- What a write of registers of the file does to residency (06 R145). -/
def Cell.forWrite (k : Cell) (t n : Nat) : Cell := if k.meetsRes t n then k.endRes else k

/-- A quad made resident with a value, another resident quad written back first (06 R142, R144, R146). -/
def Cell.makeRes (k : Cell) (q : Fin 16) (v : Nat) : Cell :=
  let k := if k.res = some q then k else k.writeBack
  { k with res := some q, acc := BitVec.ofNat 32768 v, accDirty := true, accBad := false }

/-- The generator's state and the sticky flags after a tile instruction (06 R142, 07 R177). -/
def Cell.tileFlags (k : Cell) (g : Rng) : Cell :=
  { k with tseed := BitVec.ofNat 32 g.seed, tstat := k.tstat ||| BitVec.ofNat 32 g.fl.bits }

/-- TSTAT.RM (06 R132). -/
def Cell.trm (k : Cell) : TRm := TRm.ofBits (fieldN k.tstat.toNat 8 2)

/-- The shape of a TMMA under the tags (06 R134). -/
def Cell.shape (k : Cell) (a b : TReg) : Option Shape := shapeOf (k.tag a.val) (k.tag b.val)

/-- Whether a TMMA passes R137. -/
def Cell.mmaLegal (k : Cell) (cq : Fin 16) (a b s : TReg) (o : BitVec 4) (gsel : BitVec 2) : Bool :=
  match k.shape a b with
  | none => false
  | some sh =>
    k.allTag (4 * cq.val) 4 0 &&
    decide (a.val % sh.na = 0) && decide (b.val % sh.nb = 0) &&
    k.allTag a.val sh.na (k.tag a.val) && k.allTag b.val sh.nb (k.tag b.val) &&
    (!sh.weights || (k.tag s.val == 7 && gsel != 3 && decide (o.toNat + sh.k / (32 <<< gsel.toNat) ≤ 16) &&
      !rangesMeet (4 * cq.val) 4 s.val 1)) &&
    !rangesMeet (4 * cq.val) 4 a.val sh.na && !rangesMeet (4 * cq.val) 4 b.val sh.nb

/-- Whether a named quad is aligned and tagged FP32 (06 R147). -/
def Cell.quadLegal (k : Cell) (t : TReg) : Bool := decide (t.val % 4 = 0) && k.allTag t.val 4 0

/-- Registers of a narrow group by its tag (06 R147). -/
def narrowRegs (tag : Nat) : Nat := if isFp8 tag then 1 else 2

/-- Whether a narrow group is aligned and tagged FP8 or BF16 throughout (06 R147). -/
def Cell.narrowLegal (k : Cell) (t : TReg) : Bool :=
  let tag := k.tag t.val
  (isFp8 tag || tag == 1) && decide (t.val % narrowRegs tag = 0) &&
    (if isFp8 tag then true else decide (t.val + 2 ≤ 64) && k.tag (t.val + 1) == 1)

/-- Whether a narrowing TCVT is legal (06 R147). -/
def Cell.cvtNarrowLegal (k : Cell) (td tc : TReg) : Bool :=
  k.quadLegal tc && k.narrowLegal td && !rangesMeet td.val (narrowRegs (k.tag td.val)) tc.val 4

/-- Whether a widening TCVT is legal (06 R147). -/
def Cell.cvtWidenLegal (k : Cell) (tc ts : TReg) : Bool :=
  k.quadLegal tc && k.narrowLegal ts && !rangesMeet ts.val (narrowRegs (k.tag ts.val)) tc.val 4

/-- The quad of an aligned register. -/
def quadOf (t : TReg) : Fin 16 := Fin.ofNat 16 (t.val / 4)

/-- Whether a tile instruction needs the array (06 R160). -/
def TileOp.array : TileOp → Bool
  | .load _ _ => false
  | .store _ _ _ => false
  | .zero _ => false
  | _ => true

/-- The slices an instruction reads from the file: register, first slice, slices (06 R157). -/
def Cell.fileReads (k : Cell) : TileOp → List (Nat × Nat × Nat)
  | .mma cq a b s o gsel =>
    (match k.shape a b with
    | none => []
    | some sh =>
      (List.range sh.na).map (fun i => (a.val + i, 0, 16)) ++
      (if sh.weights then [(s.val, o.toNat, sh.k / (32 <<< gsel.toNat))] else []) ++
      (List.range sh.nb).map (fun i => (b.val + i, 0, 16)) ++
      (if k.res = some cq then [] else (List.range 4).map (fun i => (4 * cq.val + i, 0, 16))))
  | .load _ _ => []
  | .store ts _ _ => [(ts.val, 0, 16)]
  | .zero _ => []
  | .zeroQ _ => []
  | .scale q _ => if k.res = some (Fin.ofNat 16 q) then [] else (List.range 4).map (fun i => (4 * q + i, 0, 16))
  | .narrow _ q _ _ => if k.res = some (Fin.ofNat 16 q) then [] else (List.range 4).map (fun i => (4 * q + i, 0, 16))
  | .widen _ ts _ => (List.range (narrowRegs (k.tag ts.val))).map (fun i => (ts.val + i, 0, 16))
  | .drain q _ _ => if k.res = some (Fin.ofNat 16 q) then [] else (List.range 4).map (fun i => (4 * q + i, 0, 16))

/-- Whether a slice range of a register holds a word with wrong parity (06 R157). -/
def Cell.sliceBad (k : Cell) (t lo n : Nat) : Bool :=
  decide (((Tab.get 0 k.tbad t).toNat >>> (8 * lo)) % 2 ^ (8 * n) ≠ 0)

/-- The first register whose slices read carry a parity error. -/
def Cell.firstBad (k : Cell) (i : TileOp) : Option Nat :=
  ((k.fileReads i).find? (fun r => k.sliceBad r.1 r.2.1 r.2.2)).map (·.1)

/-- Whether an instruction reads the resident accumulator from the array: as its operand, or to write it back (06 R144). -/
def Cell.readsAcc (k : Cell) (i : TileOp) : Bool :=
  match k.res with
  | none => false
  | some r =>
    let wb (q : Nat) := k.accDirty && r.val != q
    match i with
    | .mma cq _ _ _ _ _ => r == cq || k.accDirty
    | .load t _ => k.accDirty && k.meetsRes t.val 1
    | .store t _ _ => k.accDirty && k.meetsRes t.val 1
    | .zero t => k.accDirty && k.meetsRes t.val 1
    | .zeroQ q => wb q
    | .scale q _ => r.val == q || k.accDirty
    | .narrow _ q _ _ => r.val == q
    | .widen q ts _ => wb q || (k.accDirty && k.meetsRes ts.val 2)
    | .drain q _ gj => r.val == q || (gj.getLsbD 46 && wb q)

/-- The cell after the write-back of the resident quad that the operand reads of an instruction force (06 R144). -/
def Cell.beforeReads (k : Cell) (i : TileOp) : Cell :=
  match i with
  | .mma _ a b _ _ _ =>
    (match k.shape a b with
    | none => k
    | some sh => (k.forRead a.val sh.na).forRead b.val sh.nb)
  | .store t _ _ => k.forRead t.val 1
  | .widen _ ts _ => k.forRead ts.val (narrowRegs (k.tag ts.val))
  | _ => k

/-- The register of the first stored parity error that an instruction meets (06 R157). DESIGN CHOICE (log entry 100): of several, the
first in the order A, scale, B, C-in. -/
def Cell.meetsBad (k : Cell) (i : TileOp) : Option Nat := (k.beforeReads i).firstBad i

/-- A cell fault: the cell stops, and the block's collector receives a record (03 R61). Uncommitted tile instructions are
abandoned, and PC names the oldest. -/
def cellFault (s : State) (c : Nat) : State :=
  let s := s.updCell c fun k =>
    { k with faulted := true, pc := (match k.tpend with | i :: _ => i.pc | [] => k.pc), tpend := [] }
  reportBlock s (blockOfCell c) (originCell s c) 1 (ownerOfBlock s (blockOfCell c)) 0

/-- A cell fault for an error in the accumulator's own parity (06 R158). -/
def accFault (s : State) (c : Nat) : State := cellFault (s.updCell c fun k => { k with accBad := true }) c

/-- An automatic restart after a parity error (06 R157). -/
def parityRestart (s : State) (c reg : Nat) : State :=
  let s := s.updCell c fun k =>
    { k with terrReg := BitVec.ofNat 6 reg, terrValid := true, terrCount := BitVec.ofNat 8 (satAdd 255 k.terrCount.toNat 1) }
  reportBlock s (blockOfCell c) (originCell s c) 2 (ownerOfBlock s (blockOfCell c)) 0

/-- The MAC counter of a shape (16 R392). -/
def macIndex (ta tb : Nat) : Nat :=
  if tb = 4 ∨ tb = 5 then (if ta = 1 then 5 else 4)
  else if tb = 6 then (if ta = 1 then 7 else 6)
  else if ta = 0 then 3 else if ta = 1 then 2 else 1

/-- The default slot of a hallmark in a region (08 R198). -/
def defaultSlot (s : State) (r : Nat) (h : Byte) : Option Nat :=
  (s.slots.find? (fun e => decide (e.1 / 256 = r) && e.2.assigned && e.2.isDefault && e.2.hall == h)).map (·.1)

/-- The 1,024 values of a quad. -/
def quadValues (v : Nat) : List Fp := (unpackN 32 1024 v).map fp32.decode

/-- What a TDRAIN puts into the drain buffer (06 R151, 07 R187, 13 R307, R308), with the generator and flags after it. -/
def drainTile (t : TRm) (fs : Fp) (gj : W64) (xs : List Fp) (g : Rng) : Tile × Rng :=
  let wire := fieldN gj.toNat 44 2
  let mk (taint sat : Bool) (pay : List Byte) : Tile :=
    ⟨BitVec.ofNat 12 gj.toNat, BitVec.ofNat 16 (fieldN gj.toNat 12 16), BitVec.ofNat 16 (fieldN gj.toNat 28 16),
      BitVec.ofNat 2 wire, taint, sat, pay⟩
  if wire = 2 then
    let step := xs.foldl (fun (acc : List (Fp × Rm) × Rng) x =>
      let (m, g1) := acc.2.mode t
      (((Fp.mul x fs).1, m) :: acc.1, g1)) ([], g)
    let r := bs8Blocks 32 step.1.reverse
    let bumps := (List.range 16).map fun i => BitVec.ofNat 8 (r.bumps.getD (2 * i) 0 + 16 * r.bumps.getD (2 * i + 1) 0)
    (mk r.taint r.sat (r.codes.map (fun q => BitVec.ofInt 8 q) ++ bumps), { step.2 with fl := step.2.fl.or r.fl })
  else
    let f := if wire = 0 then fp32 else bf16
    let o := scaleConv f (wire != 0) t fs xs g
    let taint := o.out.any (fun b => !(f.decode b).isFin)
    (mk taint false ((o.out.map (leBytes (f.width / 8))).flatten), o.rng)

/-- The effect of a tile instruction at its commit, on the cell and on what it reaches (06 R142 to R152). -/
def tileEffect (s : State) (c : Nat) : TileOp → State
  | .mma cq a b ts o gsel =>
    let k := s.cell c
    (match k.shape a b with
    | none => s
    | some sh =>
      let k := (k.forRead a.val sh.na).forRead b.val sh.nb
      let r := mma sh (k.tag a.val) (k.tag b.val) k.trm k.tseed.toNat (unpackN 32 1024 (k.quad cq)) (k.group a.val sh.na)
        (k.group b.val sh.nb) (k.group ts.val 1) o.toNat gsel.toNat
      let s := s.setCell c ((k.makeRes cq (packN 32 r.quad)).tileFlags r.rng)
      let s := countPart s (ownerOfBlock s (blockOfCell c)) (macIndex (k.tag a.val) (k.tag b.val)) (1024 * sh.k)
      if r.invc = 0 then s
      else match defaultSlot s (regionOfCell c) k.hall with
        | some i => slotContribute s i ⟨k.hall, none, 0, 0, 0, r.invc, 0, 0, 0, 0, 0⟩
        | none => s)
  | .load td data => s.updCell c fun k => (k.forWrite td.val 1).writeRegs td.val [data.toNat]
  | .store ts va chk =>
    let s := s.updCell c fun k => k.forRead ts.val 1
    (match xlates s c (BitVec.ofNat 64 va) 1024 with
    | .ok as => cellStore s c (BitVec.ofNat 64 va) as (leBytes 1024 ((s.cell c).group ts.val 1)) chk
    | .error _ => s)
  | .zero td => s.updCell c fun k => (k.forWrite td.val 1).writeRegs td.val [0]
  | .zeroQ q => s.updCell c fun k => k.makeRes (Fin.ofNat 16 q) 0
  | .scale q fs =>
    s.updCell c fun k =>
      let o := scaleConv fp32 false k.trm (v32 fs) (quadValues (k.quad (Fin.ofNat 16 q))) ⟨k.tseed.toNat, TFl.none⟩
      (k.makeRes (Fin.ofNat 16 q) (packN 32 o.out)).tileFlags o.rng
  | .narrow td q fs gk =>
    let k := s.cell c
    let tag := k.tag td.val
    let f := tagFmt tag
    let o := scaleConv f true k.trm (v32 fs) (quadValues (k.quad (Fin.ofNat 16 q))) ⟨k.tseed.toNat, TFl.none⟩
    let n := narrowRegs tag
    let k' := ((k.forWrite td.val n).writeRegs td.val (unpackN 8192 n (packN f.width o.out))).tileFlags o.rng
    let s := s.setCell c k'
    if gk.getLsbD 8 then
      slotContribute s (256 * regionOfCell c + fieldN gk.toNat 0 8)
        (convContribution k.hall tag 1024 o.satc o.vanc o.nfc (BitVec.ofNat 32 (amaxBits o.amax)))
    else s
  | .widen q ts fs =>
    s.updCell c fun k =>
      let tag := k.tag ts.val
      let f := tagFmt tag
      let k := k.forRead ts.val (narrowRegs tag)
      let xs := (unpackN f.width 1024 (k.group ts.val (narrowRegs tag))).map f.decode
      let o := scaleConv fp32 false k.trm (v32 fs) xs ⟨k.tseed.toNat, TFl.none⟩
      (k.makeRes (Fin.ofNat 16 q) (packN 32 o.out)).tileFlags o.rng
  | .drain q fs gj =>
    s.updCell c fun k =>
      let (tile, g) := drainTile k.trm (v32 fs) gj (quadValues (k.quad (Fin.ofNat 16 q))) ⟨k.tseed.toNat, TFl.none⟩
      let k := { k.tileFlags g with drain := some tile }
      if gj.getLsbD 46 then k.makeRes (Fin.ofNat 16 q) 0 else k

/-- Whether the oldest uncommitted tile instruction must wait: the array is gated or wakes, or the drain buffer is filled
(06 R151, R160). -/
def Cell.commitHeld (k : Cell) (i : TileOp) : Bool :=
  (i.array && k.tgated) || (match i with | .drain _ _ _ => k.drain.isSome | _ => false)

/-- Whether the store of a TST waits for an arbiter (15 R361, R367). -/
def storeHeld (s : State) (c : Nat) : TileOp → Bool
  | .store _ va _ =>
    (match xlates s c (BitVec.ofNat 64 va) 1024 with
    | .ok as => (List.range 16).any fun i => cellHeld s c (as.getD (64 * i) 0)
    | .error _ => false)
  | _ => false

/-- The oldest uncommitted tile instruction of a cell commits (06 R139), or ends in a cell fault: a stored parity error fails
every read and both restarts (06 R157), an error in the accumulator at once (06 R158). -/
def commitHead (s : State) (c : Nat) : State :=
  let k := s.cell c
  match k.tpend with
  | [] => s
  | i :: rest =>
    if k.commitHeld i.op || storeHeld s c i.op then s
    else if k.accBad && k.readsAcc i.op then cellFault s c
    else match k.meetsBad i.op with
      | some r => cellFault (parityRestart (parityRestart s c r) c r) c
      | none => tileEffect (s.setCell c { k with tpend := rest }) c i.op

/-- Up to `n` of the oldest uncommitted tile instructions commit. -/
def commitN (s : State) (c : Nat) : Nat → State
  | 0 => s
  | n + 1 => commitN (commitHead s c) c n

/-- Every uncommitted tile instruction commits, as far as none must wait. -/
def commitAll (s : State) (c : Nat) : State := commitN s c (s.cell c).tpend.length

/-- A checked tile instruction accepted (06 R139): a fifth waits until the oldest has committed. The Bool: accepted. A gated
array begins to wake for an instruction that needs it (06 R160). -/
def tileAccept (s : State) (c : Nat) (i : TileOp) : State × Bool :=
  let s := if (s.cell c).tpend.length < 4 then s else commitHead s c
  let k := s.cell c
  if k.faulted || decide (4 ≤ k.tpend.length) then (s, false)
  else (s.setCell c { k with tpend := k.tpend ++ [⟨k.pc, i⟩], twaking := k.twaking || (i.array && k.tgated) }, true)

end Sys2Proof.Machine
end

