-- ==== Sys2Proof/Machine/Agents.lean ====
section
/-! DEFINITION. Memory and tile windows as copy engines, Setters, adders, hosts and debug access meet them (01 R23 to R27,
10 R224, R227, 16 R374): extents checked page by page, reads with poison, writes that invalidate cached copies. -/

namespace Sys2Proof.Machine

/-- The addresses at which the 4 KiB pages of [a, a + n) are checked: the first byte of the extent in each page. -/
def pageStarts (a n : Nat) : List Nat :=
  if n = 0 then [] else (List.range ((a + n - 1) / 4096 - a / 4096 + 1)).map fun i => max a (4096 * (a / 4096 + i))

/-- The first page start of an extent that fails a check: every boundary of the address map is a multiple of 4 KiB. -/
def firstBadPage (ok : Nat → Bool) (a n : Nat) : Option Nat := (pageStarts a n).find? (fun x => !ok x)

/-- Whether a device address is not reserved (01 R22, R23): populated, in service, inside the 48 bits. -/
def populated (s : State) (a : Nat) : Bool :=
  match placeOf a with
  | .reserved => false
  | p => !outOfService s p

/-- The owner's hallmark of a region page (01 R499): statistic slots, Setter and adder contexts; 0x00 where no partition holds it. -/
def regionPageHall (s : State) (r off : Nat) : Byte :=
  if 0x800000 ≤ off ∧ off < 0x900000 then
    let x := s.slot (256 * r + (off - 0x800000) / 0x1000)
    if x.assigned then x.hall else 0
  else if 0x400000 ≤ off ∧ off < 0x460000 ∧ off % 0x10000 < 0x8000 then
    (s.setter (8 * (6 * r + (off - 0x400000) / 0x10000) + off % 0x10000 / 0x1000)).own.truncate 8
  else if 0x600000 ≤ off ∧ off < 0x660000 ∧ off % 0x10000 < 0x8000 then
    (s.adder (8 * (6 * r + (off - 0x600000) / 0x10000) + off % 0x10000 / 0x1000)).own.truncate 8
  else 0

/-- The adder unit whose ASLOT page an offset of a region's range lies in (13 R299). -/
def aslotUnit (r off : Nat) : Option Nat :=
  if 0x680000 ≤ off ∧ off < 0x6E0000 ∧ off % 0x10000 < 0x1000 then some (6 * r + (off - 0x680000) / 0x10000) else none

/-- Whether a hallmark holds a context of an adder unit (13 R299). -/
def holdsAdder (s : State) (m : Nat) (h : Byte) : Bool :=
  decide (h ≠ 0) && (List.range 8).any (fun j => (s.adder (8 * m + j)).own.truncate 8 == h)

/-- The owner's hallmark of an address outside memory (01 R27, R499): 0x00 for the units of no partition. -/
def ctlHall (s : State) : Place → Byte
  | .tile c _ => hallOfBlock s (blockOfCell c)
  | .cellCtl c _ => hallOfBlock s (blockOfCell c)
  | .blockCtl b _ => hallOfBlock s b
  | .regionCtl r off => regionPageHall s r off
  | _ => 0

/-- Whether a unit of control space or a tile window accepts a hallmark (01 R27, 16 R378); the ASLOT page accepts those of every
partition that holds a context of its unit, and ignores their writes (13 R299). -/
def ctlAccepts (s : State) (p : Place) (h : Byte) : Bool :=
  match p with
  | .regionCtl r off =>
    (match aslotUnit r off with
    | some m => h == 0xFF || holdsAdder s m h
    | none => hallOk (regionPageHall s r off) h)
  | p => hallOk (ctlHall s p) h

/-- Whether an address lies inside a partition's windows for an agent: its memory windows, its cells' tile windows and its
control pages (16 R374). -/
def agentHas (s : State) (p a : Nat) : Bool :=
  match placeOf a with
  | .lpddr _ => inMemWindows s p a 1
  | .sram _ => inMemWindows s p a 1
  | .reserved => false
  | .moduleCtl _ => false
  | pl => ctlAccepts s pl (s.part p).hall

/-- Whether an address is memory. -/
def isMem (a : Nat) : Bool :=
  match placeOf a with
  | .lpddr _ => true
  | .sram _ => true
  | _ => false

/-- The first address of an extent that is not populated. -/
def firstReserved (s : State) (a n : Nat) : Option Nat := firstBadPage (populated s) a n
/-- The first address of an extent outside a partition's windows. -/
def firstOutside (s : State) (p a n : Nat) : Option Nat := firstBadPage (agentHas s p) a n

/-- Whether an extent of memory lies in a partition's windows, populated and with its key in place (01 R27, 10 R241). -/
def memExtentOk (s : State) (p a n : Nat) : Bool :=
  (firstReserved s a n).isNone && decide (0 < n) && inMemWindows s p a n && (s.part p).keyed

/-- Whether every SRAM group of an extent is powered; those that are not begin to power up (20 R458). -/
def extentReady (s : State) (a n : Nat) : Bool := (pageStarts a n).all (groupReady s)

/-- The groups and controllers of an extent woken. -/
def wakeExtent (s : State) (a n : Nat) : State := (pageStarts a n).foldl wakeGroup s

/-- Whether an access by a requester port to some line of an extent waits for the arbiter of its bank or of its controller's queue
(15 R361, R367): the banks of a group take the lines in turn. -/
def unitsHeld (s : State) (a n port : Nat) : Bool :=
  (pageStarts a n).any fun p => (List.range 16).any fun k =>
    decide (128 * (p / 128 + k) < a + n) && unitHeld s (128 * (p / 128 + k)) port

/-- What the check bits show where an agent reads a byte of memory (03 R62, R67, R75, 10 R234, R239): in the L2 that answers, which corrects
a single-bit error and poisons its copy of a worse line, or in memory. -/
def foundAt (s : State) (a : Nat) (e : Ecc) : State :=
  match e, l2Of s a with
  | .clean, _ => s
  | .single, some _ => s
  | .single, none => foundCorrected s a
  | .double, some g => badL2 s g (a / 128)
  | .double, none => foundBad s a

/-- A poisoned line met by an agent's read, with the record of what held it: the block whose L2 answers, or memory's unit (03 R67, 10
R234, 21 R476). -/
def poisonMet (s : State) (a : Nat) : State :=
  match l2Of s a with
  | some g => reportBlock s g (originBlock s g) 0xA (ownerOfBlock s g) (detailWord 0 0 (a / 128 * 128 % 2 ^ 48))
  | none => noteUncorrectable s a true

/-- What the check bits show where an extent is read. -/
def readCheck (s : State) (a n : Nat) (chk : Check) : State := foundAt s (a + chk.byte % max 1 n) chk.ecc

/-- What the check bits show when writes of less than a line merge with the bytes beneath them (10 R234, R242): `as` are the
addresses written; nothing is raised. A dirty copy of such a line is written back before (03 R67). -/
def mergeCheck (s : State) (as : List Nat) (chk : Check) : State :=
  let s := if chk.out then (as.filterMap fun a => (l2Of s a).map fun g => (g, a / 128)).foldl (fun s e => spoilBlock s [e.2] e.1) s
    else s
  match chk.ecc, as[chk.byte % max 1 as.length]? with
  | .clean, _ => s
  | _, none => s
  | e, some a =>
    if (List.range 128).all fun k => as.contains (a / 128 * 128 + k) then s
    else match e with
      | .single => foundCorrected s a
      | _ => foundBad s a

/-- One write of consecutive bytes of memory by an agent other than a cell: cached copies are invalidated, a dirty one of a line written
in part after its write-back (03 R75). -/
def agentStore (s : State) (a : Nat) (bs : List Byte) : State :=
  let s := settleLines s a bs.length (a / 128) (lineCount a bs.length)
  snoopLines (memWrite s a bs) (regionOfPlace (placeOf a)) none (a / 128) (lineCount a bs.length)

/-- Pieces of memory written, each at its address. -/
def agentStores (s : State) : List (Nat × List Byte) → State
  | [] => s
  | e :: es => agentStores (agentStore s e.1 e.2) es

/-- Bytes of a tile window (01 R24): the resident quad is first written back (01 R25). -/
def tileBytes (k : Cell) (off n : Nat) : List Byte :=
  (List.range n).map fun i => BitVec.ofNat 8 ((vget k.t ((off + i) / 1024)).toNat >>> (8 * ((off + i) % 1024)))

/-- Whether the 8-byte word at a tile-window offset has wrong parity (06 R157). -/
def tileWordBad (k : Cell) (off : Nat) : Bool := (Tab.get 0 k.tbad (off / 1024)).getLsbD (off % 1024 / 8)

/-- Whether a read of tile-window bytes meets a parity error: a slice of 64 bytes it reads holds a bad word (06 R157, R158). -/
def tileReadBad (k : Cell) (off n : Nat) : Option Nat :=
  (List.range n).find? fun i => k.sliceBad ((off + i) / 1024) ((off + i) % 1024 / 64) 1

/-- The registers that a tile-window extent names. -/
def tileRegsOf (off n : Nat) : List Nat := (List.range 64).filter fun t => rangesMeet (1024 * t) 1024 off n

/-- The cell before a window read: a write-back where a named register is of the resident quad (01 R25, 06 R144). -/
def Cell.windowRead (k : Cell) (off n : Nat) : Cell := (tileRegsOf off n).foldl (fun k t => k.forRead t 1) k

/-- One byte of a tile register written. -/
def Cell.setTileByte (k : Cell) (off : Nat) (v : Byte) : Cell :=
  let t := off / 1024
  let x := (vget k.t t).toNat
  let sh := 8 * (off % 1024)
  { k with t := k.t.setIfInBounds t (BitVec.ofNat 8192 (x - fieldN x sh 8 * 2 ^ sh + v.toNat * 2 ^ sh)) }

/-- Bytes of a tile window written, ascending. -/
def Cell.setTileBytes (k : Cell) (off : Nat) : List Byte → Cell
  | [] => k
  | v :: vs => (k.setTileByte off v).setTileBytes (off + 1) vs

/-- The parity of the words of [off, off + n): words that are rewritten whole are good again (06 R157). -/
def Cell.clearWords (k : Cell) (off n : Nat) : Cell :=
  (List.range (n / 8 + 1)).foldl (fun k i =>
    let w := off / 8 + i
    if insideRange (8 * w) 8 off n then
      { k with tbad := Tab.set 0 k.tbad (w / 128) (Tab.get 0 k.tbad (w / 128) &&& ~~~(1#128 <<< (w % 128))) }
    else k) k

/-- Every word of the slices that [off, off + n) touches written with bad parity (10 R227). -/
def Cell.spoilSlices (k : Cell) (off n : Nat) : Cell :=
  (List.range ((off + n - 1) / 64 - off / 64 + 1)).foldl (fun k i =>
    let sl := off / 64 + i
    { k with tbad := Tab.set 0 k.tbad (sl / 16) (Tab.get 0 k.tbad (sl / 16) ||| (255#128 <<< (8 * (sl % 16)))) }) k

/-- A tile-window write (01 R24, R25, 06 R145). -/
def Cell.windowWrite (k : Cell) (off : Nat) (bs : List Byte) : Cell :=
  let k := (tileRegsOf off bs.length).foldl (fun k t => k.forWrite t 1) k
  (k.setTileBytes off bs).clearWords off bs.length

/-- The registers an uncommitted tile instruction reads or writes (01 R25). -/
def Cell.tileUses (k : Cell) (i : TileOp) : List Nat :=
  (k.fileReads i).map (·.1) ++
  (match i with
  | .mma cq _ _ _ _ _ => (List.range 4).map (4 * cq.val + ·)
  | .load td _ => [td.val]
  | .store _ _ _ => []
  | .zero td => [td.val]
  | .zeroQ q => (List.range 4).map (4 * q + ·)
  | .scale q _ => (List.range 4).map (4 * q + ·)
  | .narrow td q _ _ => (List.range (narrowRegs (k.tag td.val))).map (td.val + ·) ++ (List.range 4).map (4 * q + ·)
  | .widen q _ _ => (List.range 4).map (4 * q + ·)
  | .drain q _ _ => (List.range 4).map (4 * q + ·))

/-- Whether a window access must wait for an uncommitted tile instruction (01 R25). -/
def Cell.windowHeld (k : Cell) (off n : Nat) : Bool :=
  k.tpend.any fun i => (k.tileUses i.op).any fun t => rangesMeet (1024 * t) 1024 off n

end Sys2Proof.Machine
end

