-- ==== Sys2Proof/Machine/Operands.lean ====
section
/-! DEFINITION. Register operands of the cell: G, F, V and P registers (03 R54, 04 R84 to R87), element sizes and elements. -/

namespace Sys2Proof.Machine

/-- The number that a register field names (09 R208). -/
abbrev RegIx := Fin 32

/-- A general register read: G0 reads as zero (03 R54). -/
def Cell.rdG (k : Cell) (r : RegIx) : W64 := if r.val = 0 then 0 else k.g[r]
/-- A general register written: a write to G0 is discarded (03 R54). -/
def Cell.wrG (k : Cell) (r : RegIx) (v : W64) : Cell := if r.val = 0 then k else { k with g := k.g.set r v }

/-- Fn: the low 64 bits of Vn (04 R85). -/
def Cell.rdF (k : Cell) (r : RegIx) : W64 := k.v[r].truncate 64

/-- Fn written by a scalar instruction: the rest of Vn becomes zero, at the wake where the datapaths are gated (04 R85, R110). -/
def Cell.wrF (k : Cell) (r : RegIx) (v : W64) : Cell :=
  if k.vgated then
    { k with v := k.v.set r ((k.v[r] >>> 64 <<< 64) ||| v.zeroExtend 2048), vzero := insertNat r.val k.vzero }
  else { k with v := k.v.set r (v.zeroExtend 2048) }

/-- Vn written whole (04 R85). -/
def Cell.wrV (k : Cell) (r : RegIx) (v : BitVec 2048) : Cell := { k with v := k.v.set r v }

/-- Pn written whole. -/
def Cell.wrP (k : Cell) (r : Fin 16) (v : BitVec 256) : Cell := { k with p := k.p.set r v }

/-- Bytes of an element or access size (04 R84). -/
def szBytes : Size → Nat
  | .b => 1
  | .h => 2
  | .w => 4
  | .d => 8

/-- Bits of an element size. -/
def szBits (z : Size) : Nat := 8 * szBytes z
/-- Elements of a size in a vector register: N = VLEN / size (04 R84). -/
def szElems (z : Size) : Nat := 2048 / szBits z

/-- Whether a size has a floating type, .S or .D (04 R84). -/
def szFp : Size → Bool
  | .w => true
  | .d => true
  | _ => false

/-- Element `i` of a vector value (04 R84). -/
def elemAt (z : Size) (v : BitVec 2048) (i : Nat) : Nat := fieldN v.toNat (szBits z * i) (szBits z)

/-- The elements of a vector value, element 0 first. -/
def elems (z : Size) (v : BitVec 2048) : List Nat := (List.range (szElems z)).map (elemAt z v)

/-- A vector value from its elements, element 0 first. -/
def ofElems (z : Size) (l : List Nat) : BitVec 2048 :=
  BitVec.ofNat 2048 (l.foldr (fun x acc => acc * 2 ^ szBits z + x % 2 ^ szBits z) 0)

/-- Whether element `i` is active in a predicate value: the bit of its lowest byte lane (04 R86). -/
def active (z : Size) (p : BitVec 256) (i : Nat) : Bool := p.getLsbD (i * szBytes z)

/-- A predicate value from element states: each fills all the byte lanes of its element (04 R86). -/
def ofActive (z : Size) (l : List Bool) : BitVec 256 :=
  BitVec.ofNat 256 (l.foldr (fun b acc => acc * 2 ^ szBytes z + (if b then 2 ^ szBytes z - 1 else 0)) 0)

/-- The governing predicate's value (04 R87). -/
def Cell.gov (k : Cell) (g : Gov) : BitVec 256 := vget k.p g.pg.val

/-- The result of a predicated instruction: active elements are new; inactive ones keep the old value or become zero (04 R87). -/
def mergeElems (z : Size) (g : Gov) (p : BitVec 256) (old : BitVec 2048) (new : Nat → Nat) : BitVec 2048 :=
  ofElems z ((List.range (szElems z)).map fun i =>
    if active z p i then new i else if g.zero then 0 else elemAt z old i)

/-- The signed value of an element. -/
def sgnElem (z : Size) (x : Nat) : Int := (BitVec.ofNat (szBits z) x).toInt

/-- A value of `w` bits sign-extended to 64 bits. -/
def sext64 (w : Nat) (x : Nat) : W64 := (BitVec.ofNat w x).signExtend 64

end Sys2Proof.Machine
end

