-- ==== Sys2Proof/Machine/Flags.lean ====
section
/-! DEFINITION. The sticky flags: FSTAT (03 R55, R56), VSTAT (04 R88, R92), and the floating operations that set them. -/

namespace Sys2Proof.Machine

/-- FSTAT.RM (03 R56). -/
def Cell.frm (k : Cell) : Rm := Rm.ofBits (fieldN k.fstat.toNat 0 2)

/-- Flags added to FSTAT's sticky bits. -/
def Cell.orFl (k : Cell) (f : Fl) : Cell := { k with fstat := k.fstat ||| BitVec.ofNat 32 f.bits }

/-- VSTAT.SAT set where a clamp changed a value (04 R92). -/
def Cell.orSat (k : Cell) (b : Bool) : Cell := if b then { k with vstat := k.vstat ||| 1 } else k

/-- An exact result rounded in a format: its bits and flags (03 R55). -/
def fpDone (f : Fmt) (rm : Rm) (x : Exact) : Nat × Fl := f.finish rm x

/-- The floating comparisons (04 R89): the result, and whether NV is set. A signalling operand sets it, and so does an ordered
comparison with any NaN. -/
def fpCmp (ordered : Bool) (rel : Fp → Fp → Bool) (nanResult : Bool) (a b : Fp) : Bool × Fl :=
  if a.isNan || b.isNan then (nanResult, Fl.nvIf (ordered || a.isSig || b.isSig)) else (rel a b, Fl.none)

/-- Minimum (03 R55, 04 R90): a NaN operand gives the canonical NaN; a signalling one is invalid. -/
def fpMin (a b : Fp) : Exact := ⟨Fp.min a b, Fl.nvIf (a.isSig || b.isSig)⟩
/-- Maximum (03 R55, 04 R90). -/
def fpMax (a b : Fp) : Exact := ⟨Fp.max a b, Fl.nvIf (a.isSig || b.isSig)⟩

/-- A conversion to an integer of `w` bits (09 R216): its two's-complement bits and flags. -/
def fpToBits (rm : Rm) (sgn : Bool) (w : Nat) (a : Fp) : Nat × Fl :=
  let lo : Int := if sgn then -(2 ^ (w - 1)) else 0
  let hi : Int := if sgn then 2 ^ (w - 1) - 1 else 2 ^ w - 1
  let r := fpToInt rm lo hi a
  ((BitVec.ofInt w r.1).toNat, r.2)

/-- Clamp to [lo, hi], with whether it changed the value (04 R92). -/
def clampTo (lo hi : Int) (x : Int) : Int × Bool :=
  if x < lo then (lo, true) else if hi < x then (hi, true) else (x, false)

/-- sat_s and sat_u of 04 R92 on e bits: the element's bits, and whether the clamp changed the value. -/
def satBits (sgn : Bool) (e : Nat) (x : Int) : Nat × Bool :=
  let r := if sgn then clampTo (-(2 ^ (e - 1))) (2 ^ (e - 1) - 1) x else clampTo 0 (2 ^ e - 1) x
  ((BitVec.ofInt e r.1).toNat, r.2)

end Sys2Proof.Machine
end

