-- ==== Sys2Proof/Machine/Transc.lean ====
section
/-! DEFINITION. 2^a, log2 a, 1 / √a and cos(π f) for binary32 operands (05 R116 to R118, 12 R273). A result that is not
dyadic is computed to more than 300 binary places and cut (`cutFp`), which decides every rounding to 24 bits correctly:
no binary32 operand brings a result nearer to a rounding boundary than that. -/

namespace Sys2Proof.Machine

/-- Binary places of the fixed-point computations. -/
def fxBits : Nat := 420
/-- π × 2^420. -/
def fxPi : Nat :=
  8506444083868174897761245044461686771323923700309573190120836733458428361833437461212585903707197869053776263619362240579410812
/-- ln 2 × 2^420. -/
def fxLn2 : Nat :=
  1876824395609227333012827928779323266191743313097702438946411434594075065122341625559620327432671006135712522364620446458635100

/-- Σ x^k / k! from a term on, in fixed point; `n` is fuel. -/
def fxExp (x : Nat) : Nat → Nat → Nat → Nat → Nat
  | 0, _, _, acc => acc
  | n + 1, k, term, acc => fxExp x n (k + 1) (((term * x) >>> fxBits) / k) (acc + term)

/-- Σ (−1)^j y^j / (2j)! from a term on, in fixed point, y = x². -/
def fxCos (y : Nat) : Nat → Nat → Int → Int → Int
  | 0, _, _, acc => acc
  | n + 1, k, term, acc =>
    fxCos y n (k + 2) (-(((term * y) / 2 ^ fxBits) / ((k : Int) * ((k : Int) + 1)))) (acc + term)

/-- Binary places of log2 x for x in [1, 2), in fixed point, by squaring: the first `n` places after `acc`. -/
def fxLog2 : Nat → Nat → Nat → Nat
  | 0, _, acc => acc
  | n + 1, x, acc =>
    let y := (x * x) >>> fxBits
    if 2 ^ (fxBits + 1) ≤ y then fxLog2 n (y / 2) (2 * acc + 1) else fxLog2 n y (2 * acc)

/-- 2^a (05 R118). Exact for an integer a. -/
def fpExp2 : Fp → Exact
  | .nan b => ⟨.nan false, Fl.nvIf b⟩
  | .inf s => ⟨if s then .fin false 0 0 else .inf false, Fl.none⟩
  | .fin s m e =>
    if 16 ≤ ((Nat.log2 m : Nat) : Int) + e ∧ m ≠ 0 then
      ⟨if s then .fin false 1 (-65536) else .fin false 1 65536, Fl.none⟩
    else
      -- a × 2^400, rounded toward −∞ where a has more places; then 2^a = 2^(integer part) × exp(fraction × ln 2)
      let sh := 400 + e
      let a : Int := if 0 ≤ sh then sgnInt s (m <<< sh.toNat) else sgnInt s m / 2 ^ (-sh).toNat
      let ip := a / 2 ^ 400
      let fr := (a % 2 ^ 400).toNat
      if fr = 0 then ⟨.fin false 1 ip, Fl.none⟩
      else
        let x := (fr * fxLn2) >>> 400
        ⟨cutFp false ((fxExp x 90 1 (2 ^ fxBits) 0) >>> 20) (ip - 400) true, Fl.none⟩

/-- log2 a (05 R118). Exact for a power of two. -/
def fpLog2 : Fp → Exact
  | .nan b => ⟨.nan false, Fl.nvIf b⟩
  | .inf s => if s then ⟨.nan false, Fl.nvIf true⟩ else ⟨.inf false, Fl.none⟩
  | .fin s m e =>
    if m = 0 then ⟨.inf true, ⟨false, true, false, false, false⟩⟩
    else if s then ⟨.nan false, Fl.nvIf true⟩
    else
      let l := Nat.log2 m
      let ip : Int := e + l
      if m = 2 ^ l then ⟨fpOfInt ip, Fl.none⟩
      else
        let v : Int := ip * 2 ^ 200 + fxLog2 200 (m <<< (fxBits - l)) 0
        if v < 0 then ⟨cutFp true (v.natAbs - 1) (-200) true, Fl.none⟩
        else ⟨cutFp false v.natAbs (-200) true, Fl.none⟩

/-- 1 / √a, with one rounding (05 R118). -/
def fpRsqrt : Fp → Exact
  | .nan b => ⟨.nan false, Fl.nvIf b⟩
  | .inf s => if s then ⟨.nan false, Fl.nvIf true⟩ else ⟨.fin false 0 0, Fl.none⟩
  | .fin s m e =>
    if m = 0 then ⟨.inf s, ⟨false, true, false, false, false⟩⟩
    else if s then ⟨.nan false, Fl.nvIf true⟩
    else
      -- a = v × 2^(2h), so 1 / √a = √(2^400 / v) × 2^(−200 − h)
      let odd := (e % 2).toNat
      let v := m <<< odd
      let r := isqrt (2 ^ 400 / v)
      ⟨cutFp false r (-200 - (e - odd) / 2) (decide (r * r * v ≠ 2 ^ 400)), Fl.none⟩

/-- cos(π f) (12 R273). Exact where 2f is an integer; an infinity gives a NaN. -/
def fpCospi : Fp → Exact
  | .nan b => ⟨.nan false, Fl.nvIf b⟩
  | .inf _ => ⟨.nan false, Fl.nvIf true⟩
  | .fin _ m e =>
    let sh := 400 + e
    -- |f| mod 2 in units of 2^−400
    let g := (if 0 ≤ sh then m <<< sh.toNat else m >>> (-sh).toNat) % 2 ^ 401
    let g := if 2 ^ 400 < g then 2 ^ 401 - g else g
    let neg := decide (2 ^ 399 < g)
    let g := if neg then 2 ^ 400 - g else g
    if g = 2 ^ 399 then ⟨.fin false 0 0, Fl.none⟩
    else if g = 0 then ⟨.fin neg 1 0, Fl.none⟩
    else
      let x := (g * fxPi) >>> 400
      let y := (x * x) >>> fxBits
      let c := fxCos y 70 1 (2 ^ fxBits) 0
      ⟨cutFp neg (c.toNat >>> 20) (-400) true, Fl.none⟩

end Sys2Proof.Machine
end

