-- ==== Sys2Proof/Machine/StrandUnit.lean ====
section
/-! DEFINITION. Strands (05): images and their validity, beads, and a strand run on one element. -/

namespace Sys2Proof.Machine

/-- A bead from its word (05 R113). -/
def beadOf (w : Nat) : Bead :=
  ⟨BitVec.ofNat 6 w, BitVec.ofNat 5 (fieldN w 8 5), BitVec.ofNat 5 (fieldN w 16 5), BitVec.ofNat 5 (fieldN w 24 5),
    BitVec.ofNat 5 (fieldN w 32 5)⟩

/-- Whether a DST code is allowed (05 R114). -/
def dstOk (d : Nat) : Bool := decide (d < 8) || (decide (12 ≤ d) && decide (d ≤ 14))

/-- Whether a bead is valid (05 R114, R116). -/
def Bead.valid (b : Bead) : Bool := decide (1 ≤ b.op.toNat) && decide (b.op.toNat ≤ 0x22) && dstOk b.dst.toNat

/-- Bytes of an image by its header (05 R113). -/
def strandBytes (header : Nat) : Nat := 0x28 + 8 * fieldN header 0 6

/-- Whether a header is valid (05 R128). -/
def headerOk (header : Nat) : Bool :=
  decide (1 ≤ fieldN header 0 6) && decide (fieldN header 0 6 ≤ 32) && decide (fieldN header 6 2 ≠ 3)

/-- The strand of an image's bytes, or the detail of the strand fault (05 R113, R114, R116, R128). -/
def strandOf (bs : List Byte) : Except Byte Strand :=
  let h := leNat (bs.take 8)
  if !headerOk h then .error 0xF0
  else
    let n := fieldN h 0 6
    let beads := (List.range n).map fun j => beadOf (leNat ((bs.drop (0x28 + 8 * j)).take 8))
    match beads.findIdx? (fun b => !b.valid) with
    | some j => .error (BitVec.ofNat 8 j)
    | none => .ok ⟨BitVec.ofNat 2 (fieldN h 6 2), h.testBit 8,
        (List.range 8).map (fun i => BitVec.ofNat 32 (leNat ((bs.drop (8 + 4 * i)).take 4))), beads⟩

/-- The rounding mode of a strand whose runner's own mode is `inherit` (05 R117). -/
def Strand.mode (x : Strand) (inherit : Rm) : Rm := if x.rm = 0 then inherit else if x.rm = 1 then .rne else .rtz

/-- The first bead that names an operand code as DST. -/
def Strand.writer (x : Strand) (dst : Nat) : Option Nat := x.beads.findIdx? (fun b => b.dst.toNat == dst)

/-- Whether some bead uses a source code: sources its operation does not read are ignored (05 R114). -/
def srcCount (op : Nat) : Nat :=
  if op = 4 ∨ op = 5 ∨ op = 0x0F ∨ op = 0x14 then 3
  else if op = 7 ∨ op = 8 ∨ op = 0x0B ∨ op = 0x0C ∨ op = 0x0D ∨ op = 0x0E ∨ op = 0x10 ∨ op = 0x1F ∨ op = 0x20 ∨
    op = 0x21 ∨ op = 0x22 then 1
  else 2

/-- Whether some bead names a code as a source it reads. -/
def Strand.reads (x : Strand) (code : Nat) : Bool :=
  x.beads.any fun b =>
    let n := srcCount b.op.toNat
    b.a.toNat == code || (decide (2 ≤ n) && b.b.toNat == code) || (decide (3 ≤ n) && b.c.toNat == code)

/-- What an element holds between its beads (05 R114, R115): the temporaries, the outputs, the flags, and the first bead that
TRAPNV stops on. -/
structure Elem where
  tmp : List W32
  outs : List W32
  fl : Fl
  trap : Option Nat
  deriving DecidableEq, Repr

/-- An element before its first bead (05 R115). -/
def Elem.start : Elem := ⟨List.replicate 8 0, List.replicate 3 0, Fl.none, none⟩

/-- The value of a source code (05 R114). -/
def srcVal (k ins xs : List W32) (e : Elem) (code : Nat) : W32 :=
  if code < 8 then e.tmp.getD code 0
  else if code < 12 then ins.getD (code - 8) 0
  else if code < 15 then e.outs.getD (code - 12) 0
  else if code = 15 then 0
  else if code < 24 then k.getD (code - 16) 0
  else xs.getD (code - 24) 0

/-- The value 1.0 with a sign. -/
def fpOne (neg : Bool) : Fp := .fin neg 1 0

/-- A comparison result: all ones or zero (05 R116). -/
def allOnes (b : Bool) : W32 := if b then 0xFFFFFFFF else 0

/-- FSIGN (05 R116, R118). -/
def fpSign : Fp → Exact
  | .nan sg => ⟨.nan false, Fl.nvIf sg⟩
  | .inf s => ⟨fpOne s, Fl.none⟩
  | .fin s m e => ⟨if m = 0 then .fin s m e else fpOne s, Fl.none⟩

/-- FABS, FNEG and FRND: NV only for a signalling NaN (05 R118). -/
def fpUnary (f : Fp → Fp) (a : Fp) : Exact := if a.isNan then ⟨.nan false, Fl.nvIf a.isSig⟩ else ⟨f a, Fl.none⟩

/-- The floating beads: an exact result (05 R116). -/
def beadFp (op : Nat) (rm : Rm) (a b c : Fp) : Option Exact :=
  if op = 0x01 then some (fpAdd rm a b)
  else if op = 0x02 then some (fpAdd rm a b.neg)
  else if op = 0x03 then some (fpMul a b)
  else if op = 0x04 then some (fpFma rm a b c)
  else if op = 0x05 then some (fpFma rm a.neg b c)
  else if op = 0x06 then some (fpDiv a b)
  else if op = 0x07 then some (fpSqrt a)
  else if op = 0x08 then some (fpRsqrt a)
  else if op = 0x09 then some (fpMin a b)
  else if op = 0x0A then some (fpMax a b)
  else if op = 0x0B then some (fpUnary Fp.abs a)
  else if op = 0x0C then some (fpUnary Fp.neg a)
  else if op = 0x0D then some (fpExp2 a)
  else if op = 0x0E then some (fpLog2 a)
  else if op = 0x0F then
    some (let x := fpMax a b; ⟨Fp.min x.v c, Fl.nvIf (x.fl.nv || c.isSig)⟩)
  else if op = 0x10 then some (fpSign a)
  else if op = 0x21 then some (fpUnary (fpRound rm) a)
  else none

/-- The other beads: the pattern and the flags (05 R116, R118). -/
def beadInt (op : Nat) (rm : Rm) (a b c : W32) : W32 × Fl :=
  if op = 0x11 then
    (let r := fpCmp true Fp.lt false (fp32.decode a.toNat) (fp32.decode b.toNat); (allOnes r.1, r.2))
  else if op = 0x12 then
    (let r := fpCmp true (fun x y => Fp.lt x y || Fp.eq x y) false (fp32.decode a.toNat) (fp32.decode b.toNat); (allOnes r.1, r.2))
  else if op = 0x13 then
    (let r := fpCmp false Fp.eq false (fp32.decode a.toNat) (fp32.decode b.toNat); (allOnes r.1, r.2))
  else if op = 0x14 then (if c ≠ 0 then a else b, Fl.none)
  else if op = 0x15 then (a + b, Fl.none)
  else if op = 0x16 then (a - b, Fl.none)
  else if op = 0x17 then (a * b, Fl.none)
  else if op = 0x18 then (a &&& b, Fl.none)
  else if op = 0x19 then (a ||| b, Fl.none)
  else if op = 0x1A then (a ^^^ b, Fl.none)
  else if op = 0x1B then (a <<< (b.toNat % 32), Fl.none)
  else if op = 0x1C then (a >>> (b.toNat % 32), Fl.none)
  else if op = 0x1D then (a.sshiftRight (b.toNat % 32), Fl.none)
  else if op = 0x1E then (allOnes (BitVec.slt a b), Fl.none)
  else if op = 0x1F then
    (let r := fp32.finish rm ⟨fpOfInt a.toInt, Fl.none⟩; (BitVec.ofNat 32 r.1, r.2))
  else if op = 0x20 then
    (let r := fpToBits rm true 32 (fp32.decode a.toNat); (BitVec.ofNat 32 r.1, r.2))
  else (a, Fl.none)

/-- A result written to its DST (05 R114). -/
def Elem.put (e : Elem) (dst : Nat) (v : W32) : Elem :=
  if dst < 8 then { e with tmp := e.tmp.set dst v } else { e with outs := e.outs.set (dst - 12) v }

/-- One bead (05 R115 to R118), number `j`. -/
def beadStep (rm : Rm) (trapnv : Bool) (k ins xs : List W32) (j : Nat) (b : Bead) (e : Elem) : Elem :=
  let av := srcVal k ins xs e b.a.toNat
  let bv := srcVal k ins xs e b.b.toNat
  let cv := srcVal k ins xs e b.c.toNat
  let fa := fp32.decode av.toNat
  let fb := fp32.decode bv.toNat
  let fc := fp32.decode cv.toNat
  match beadFp b.op.toNat rm fa fb fc with
  | some x =>
    let r := fp32.finish rm x
    let n := srcCount b.op.toNat
    let nanIn := fa.isNan || (decide (2 ≤ n) && fb.isNan) || (decide (3 ≤ n) && fc.isNan)
    let hit := trapnv && (fp32.decode r.1).isNan && !nanIn
    let e := { e with fl := e.fl.or r.2, trap := if hit && e.trap.isNone then some j else e.trap }
    e.put b.dst.toNat (BitVec.ofNat 32 r.1)
  | none =>
    let r := beadInt b.op.toNat rm av bv cv
    { e with fl := e.fl.or r.2 }.put b.dst.toNat r.1

/-- The beads from number `j` on, in ascending order (05 R115). -/
def beadRun (rm : Rm) (trapnv : Bool) (k ins xs : List W32) : Nat → List Bead → Elem → Elem
  | _, [], e => e
  | j, b :: bs, e => beadRun rm trapnv k ins xs (j + 1) bs (beadStep rm trapnv k ins xs j b e)

/-- A strand run on one element (05 R115). -/
def Strand.run (x : Strand) (inherit : Rm) (ins xs : List W32) : Elem :=
  beadRun (x.mode inherit) x.trapnv x.k ins xs 0 x.beads Elem.start

end Sys2Proof.Machine
end

