-- ==== Sys2Proof/Machine/SetterOps.lean ====
section
/-! DEFINITION. The Setter (12): enable checks, group descriptors and schedules, passes, errors and registers. A context is
numbered 8m + j for module controller m. -/

namespace Sys2Proof.Machine

/-- A field of SJCFG. -/
def SetCtx.cfgF (x : SetCtx) (lo w : Nat) : Nat := fieldN x.cfg.toNat lo w
/-- SJCFG.JOB. -/
def SetCtx.job (x : SetCtx) : Nat := x.cfgF 0 12
/-- SJCFG.VSRC. -/
def SetCtx.vsrc (x : SetCtx) : Bool := x.cfg.getLsbD 12
/-- SJCFG.SATSKIP. -/
def SetCtx.satskip (x : SetCtx) : Bool := x.cfg.getLsbD 13
/-- SJCFG.AUTOARM. -/
def SetCtx.autoarm (x : SetCtx) : Bool := x.cfg.getLsbD 14
/-- SJCFG.CNT. -/
def SetCtx.cnt (x : SetCtx) : Bool := x.cfg.getLsbD 23
/-- SJOWN.HALL. -/
def SetCtx.hall (x : SetCtx) : Byte := x.own.truncate 8
/-- SJOWN.ASSIGNED. -/
def SetCtx.assigned (x : SetCtx) : Bool := x.own.getLsbD 8
/-- SJGTAB.NGRP. -/
def SetCtx.ngrp (x : SetCtx) : Nat := fieldN x.gtab.toNat 48 13

/-- The module controller of a context. -/
def ctlOfCtx (i : Nat) : Nat := i / 8
/-- The region of a context. -/
def regionOfCtx (i : Nat) : Nat := regionOfCtl (ctlOfCtx i)
/-- The statistic slot a context names (12 R268). -/
def SetCtx.slotIx (x : SetCtx) (i : Nat) : Nat := 256 * regionOfCtx i + x.cfgF 15 8
/-- The signal number of a Setter context. -/
def setterSrc (i : Nat) : Nat := 2048 + i

/-- Whether an extent lies in a controller's range (01 R17, 12 R266). -/
def inCtlRange (m a n : Nat) : Bool := insideRange a n (0x4000000000 * (m / 6) + 0x800000000 * (m % 6)) 0x800000000
/-- Whether an extent lies in the region SRAM of a region (01 R22). -/
def inRegionSram (r a n : Nat) : Bool := insideRange a n (0x10000000000 + 0x40000000 * r) 0x40000000
/-- Whether an extent lies in the LPDDR5X of a region (01 R22). -/
def inRegionLpddr (r a n : Nat) : Bool := insideRange a n (0x4000000000 * r) 0x3000000000

/-- An extent inside the windows of the context's partition, in service (12 R266). -/
def setterWin (s : State) (x : SetCtx) (a n : Nat) : Bool :=
  match partOfHall s x.hall with
  | some p => (firstReserved s a n).isNone && inMemWindows s p a n
  | none => false

/-- The places of 12 R266: 0 parameters and state; 1 gradient and bitmap; 2 codes and scales; 3 images and tables. -/
def setterPlace (s : State) (i : Nat) (x : SetCtx) (kind a n : Nat) : Bool :=
  let m := ctlOfCtx i
  let r := regionOfCtx i
  setterWin s x a n &&
  (if kind = 0 then inCtlRange m a n
   else if kind = 1 then inCtlRange m a n || inRegionSram r a n
   else if kind = 2 then inRegionSram r a n
   else inRegionSram r a n || inRegionLpddr r a n)

/-- What a Setter's read of an extent meets: a hallmark refusal (code 0x4), uncorrectable data (code 0x5), or nothing. -/
def setterReadErr (s : State) (x : SetCtx) (a n : Nat) : Option (Nat × Nat × Nat) :=
  match firstBadPage (fun y => memAccepts s x.hall y 1) a n with
  | some y => some (4, 0, y)
  | none => (firstPoison s a n).map fun y => (5, (memDetail a).toNat, y)

/-- An error of a context (12 R288). `fault`: the context enters FAULT, in which ENABLE reads 1; an enable check leaves it OFF. -/
def setterError (s : State) (i code detail group addr : Nat) (fault : Bool) : State :=
  let x := s.setter i
  let y := { x with err := true, st := if fault then .fault else .off, enable := fault, deadline := none }
  let y := if x.err then y else
    { y with
      sjerr := BitVec.ofNat 64 (code + detail * 256 + group % 4096 * 65536 + x.step.toNat * 2 ^ 28)
      sjaddr := BitVec.ofNat 64 (addr % 2 ^ 48) }
  let s := s.setSetter i y
  let s := reportLog s (originSetter s i) (originSetter s i) 0xB (partOfHall s x.hall) (detailWord code detail addr)
  let pip := x.pip.toNat
  if pip.testBit 31 then sendSig s (setterSrc i) (fieldN pip 22 9) (fieldN pip 16 6) 1 x.hall else s

/-- The strand image at SJSTRAND read and validated (12 R269, checks 5 and 6): the strand, or the error. -/
def setterStrand (s : State) (i : Nat) (x : SetCtx) : Except (Nat × Nat × Nat) Strand :=
  let a := x.strandA.toNat % 2 ^ 48
  if a % 8 ≠ 0 ∨ !setterPlace s i x 3 a 8 then .error (1, 4, 0)
  else match setterReadErr s x a 8 with
    | some e => .error e
    | none =>
      let h := leNat (memBytes s a 8)
      if !headerOk h then .error (2, 0xF0, a)
      else
        let n := strandBytes h
        if !setterPlace s i x 3 a n then .error (1, 4, 0)
        else match setterReadErr s x a n with
          | some e => .error e
          | none =>
            match strandOf (memBytes s a n) with
            | .ok st => .ok st
            | .error d => .error (2, d.toNat, a + 0x28 + 8 * d.toNat)

/-- The checks of 12 R269 before the strand image. -/
def setterCheck1 (s : State) (i : Nat) (x : SetCtx) : Option (Nat × Nat) :=
  if !x.assigned then some (1, 0)
  else if x.tmo.toNat ≠ 0 ∧ (x.tmo.toNat < 10 ∨ 60000000 < x.tmo.toNat) then some (1, 1)
  else if (List.range 8).any (fun j =>
      let k := 8 * ctlOfCtx i + j
      k != i && (s.setter k).enable && (s.setter k).job == x.job) then some (1, 2)
  else if x.cnt && (s.slot (x.slotIx i)).refuses x.hall then some (1, 3)
  else none

/-- SJCTL.ENABLE set from 0 to 1 (12 R269). -/
def setterEnableOp (s : State) (i : Nat) : State :=
  let x := s.setter i
  if x.enable || ctlRetired s (ctlOfCtx i) then s
  else match setterCheck1 s i x with
    | some (c, d) => setterError s i c d 0 0 false
    | none =>
      let s := wakeExtent s (x.strandA.toNat % 2 ^ 48) 8
      match setterStrand s i x with
      | .error (c, d, a) => setterError s i c d 0 a false
      | .ok st =>
        if x.ngrp = 0 ∨ 4096 < x.ngrp then setterError s i 1 5 0 0 false
        else s.setSetter i { s.setter i with enable := true, st := .wait, strand := some st }

/-- G of a group descriptor. -/
def PGroup.g (p : PGroup) : Nat := 32 <<< fieldN ((p.w.getD 7 0).toNat) 48 2
/-- A word of a group descriptor. -/
def PGroup.wd (p : PGroup) (k : Nat) : Nat := (p.w.getD k 0).toNat
/-- COUNT. -/
def PGroup.count (p : PGroup) : Nat := fieldN (p.wd 7) 0 32
/-- CFMT. -/
def PGroup.cfmt (p : PGroup) : Nat := fieldN (p.wd 7) 44 4
/-- GSEL. -/
def PGroup.gsel (p : PGroup) : Nat := fieldN (p.wd 7) 48 2
/-- SRULE. -/
def PGroup.srule (p : PGroup) : Bool := (p.wd 7).testBit 50
/-- SCHED. -/
def PGroup.sched (p : PGroup) : Nat := fieldN (p.wd 7) 32 12
/-- GBF16. -/
def PGroup.gbf16 (p : PGroup) : Bool := (p.wd 1).testBit 48
/-- FRZ. -/
def PGroup.frz (p : PGroup) : Bool := (p.wd 4).testBit 48
/-- The address in word `k`. -/
def PGroup.addr (p : PGroup) (k : Nat) : Nat := p.wd k % 2 ^ 48
/-- Bits of a code of CFMT. -/
def cfmtBits (f : Nat) : Nat := if f = 6 then 1 else 2

/-- The descriptor that 128 bytes spell (12 R270). -/
def pgroupOf (bs : List Byte) : PGroup :=
  ⟨(List.range 8).map (fun k => BitVec.ofNat 64 (leNat ((bs.drop (8 * k)).take 8))),
    (List.range 6).map (fun k => BitVec.ofNat 32 (leNat ((bs.drop (0x40 + 4 * k)).take 4))), 0⟩

/-- The extents a group uses under a strand: place kind, address, length, alignment (12 R266, R270, R274). -/
def PGroup.extents (p : PGroup) (st : Strand) : List (Nat × Nat × Nat × Nat) :=
  let n := p.count
  let emit := p.cfmt != 0
  (if st.reads 8 || (st.writer 12).isSome || emit then [(0, p.addr 0, 4 * n, 128)] else []) ++
  (if st.reads 9 then [(1, p.addr 1, if p.gbf16 then 2 * n else 4 * n, if p.gbf16 then 64 else 128)] else []) ++
  (if st.reads 10 || (st.writer 13).isSome then [(0, p.addr 2, 4 * n, 128)] else []) ++
  (if st.reads 11 || (st.writer 14).isSome then [(0, p.addr 3, 4 * n, 128)] else []) ++
  (if p.frz then [(1, p.addr 4, n / 8, 4)] else []) ++
  (if emit then [(2, p.addr 5, cfmtBits p.cfmt * n / 8, 8), (2, p.addr 6, 2 * (n / p.g), 2)] else [])

/-- Whether two of some extents intersect. -/
def extentsMeet : List (Nat × Nat × Nat × Nat) → Bool
  | [] => false
  | e :: es => es.any (fun f => rangesMeet e.2.1 e.2.2.1 f.2.1 f.2.2.1) || extentsMeet es

/-- A schedule's breakpoints: STEP and VALUE (12 R272). -/
def schedPoints (bs : List Byte) : List (Nat × W32) :=
  (List.range (fieldN (leNat (bs.take 8)) 0 7)).map fun k =>
    let w := leNat ((bs.drop (0x10 + 8 * k)).take 8)
    (fieldN w 0 32, BitVec.ofNat 32 (fieldN w 32 32))

/-- Whether STEPs rise strictly (12 R272). -/
def stepsRise : List (Nat × W32) → Bool
  | [] => true
  | [_] => true
  | x :: y :: r => decide (x.1 < y.1) && stepsRise (y :: r)

/-- Whether a schedule is valid (12 R272). -/
def schedOk (bs : List Byte) : Bool :=
  let n := fieldN (leNat (bs.take 8)) 0 7
  decide (1 ≤ n) && decide (n ≤ 64) && stepsRise (schedPoints bs)

/-- A result rounded to FP32 to nearest even. -/
def r32 (x : Exact) : Fp := fp32.decode (fp32.finish .rne x).1

/-- The value between two breakpoints (12 R273). -/
def schedBetween (cosine : Bool) (t : Nat) (a b : Nat × W32) : W32 :=
  let f := r32 (fpDiv (fpOfInt (t - a.1 : Nat)) (fpOfInt (b.1 - a.1 : Nat)))
  let va := v32 a.2
  let vb := v32 b.2
  let y :=
    if cosine then
      let h := r32 (fpMul (.fin false 1 (-1)) (r32 (fpAdd .rne (.fin false 1 0) (r32 (fpCospi f)))))
      fpAdd .rne vb (r32 (fpMul h (r32 (fpAdd .rne va vb.neg))))
    else fpAdd .rne va (r32 (fpMul f (r32 (fpAdd .rne vb va.neg))))
  BitVec.ofNat 32 (fp32.finish .rne y).1

/-- The segments of a schedule from segment `k` on (12 R273). -/
def schedIn (kmask t : Nat) : Nat → List (Nat × W32) → W32
  | _, [] => 0
  | _, [x] => x.2
  | k, x :: y :: r => if t < y.1 then schedBetween (kmask.testBit k) t x y else schedIn kmask t (k + 1) (y :: r)

/-- The value of a schedule at a step (12 R273). -/
def schedAt (bs : List Byte) (t : Nat) : W32 :=
  match schedPoints bs with
  | [] => 0
  | x :: r => if t ≤ x.1 then x.2 else schedIn (leNat ((bs.drop 8).take 8)) t 0 (x :: r)

/-- One descriptor read, checked and evaluated (12 R282): the group, or the error. DESIGN CHOICE (log entry 125): a descriptor that lies
out of place or misaligned is found first, with detail 0x02 or 0x03. -/
def setterGroup (s : State) (i : Nat) (x : SetCtx) (st : Strand) (n : Nat) : Except (Nat × Nat × Nat) PGroup :=
  let a := x.gtab.toNat % 2 ^ 48 + 0x80 * n
  if !setterPlace s i x 3 a 128 then .error (3, 2, a)
  else if a % 128 ≠ 0 then .error (3, 3, a)
  else match setterReadErr s x a 128 with
    | some e => .error e
    | none =>
      let p := pgroupOf (memBytes s a 128)
      let emit := p.cfmt != 0
      let sa := x.sched.toNat % 2 ^ 48 + 0x400 * p.sched
      let es := p.extents st ++ [(3, sa, 1024, 1024)]
      -- the address named: the schedule's where it alone fails
      let at_ (bad : Nat × Nat × Nat × Nat → Bool) : Nat := if (p.extents st).any bad then a else sa
      let away (e : Nat × Nat × Nat × Nat) : Bool := !setterPlace s i x e.1 e.2.1 e.2.2.1
      let askew (e : Nat × Nat × Nat × Nat) : Bool := decide (e.2.1 % e.2.2.2 ≠ 0)
      if (emit && !(p.cfmt == 4 || p.cfmt == 5 || p.cfmt == 6)) || (emit && p.gsel == 3) then .error (3, 0, a)
      else if p.count = 0 ∨ p.count % 32 ≠ 0 ∨ (emit = true ∧ p.count % p.g ≠ 0) then .error (3, 1, a)
      else if es.any away then .error (3, 2, at_ away)
      else if es.any askew then .error (3, 3, at_ askew)
      else if extentsMeet (p.extents st) then .error (3, 4, a)
      else match setterReadErr s x sa 1024 with
        | some e => .error e
        | none =>
          let bs := memBytes s sa 1024
          if schedOk bs then .ok { p with x0 := schedAt bs x.step.toNat } else .error (3, 5, sa)

/-- Every descriptor from `n` on, `k` left: the groups, or the first error with its group. -/
def setterGroups (s : State) (i : Nat) (x : SetCtx) (st : Strand) : Nat → Nat → Except (Nat × Nat × Nat × Nat) (List PGroup)
  | _, 0 => .ok []
  | n, k + 1 =>
    match setterGroup s i x st n with
    | .error (c, d, a) => .error (c, d, n, a)
    | .ok p =>
      match setterGroups s i x st (n + 1) k with
      | .error e => .error e
      | .ok ps => .ok (p :: ps)

/-- A piece a pass writes: its element (or the first element of its code group, and how many), address, bytes, and whether it is
poisoned. -/
structure PassItem where
  elem : Nat
  span : Nat
  addr : Nat
  bytes : List Byte
  bad : Bool
  deriving DecidableEq, Repr

/-- What one element gives (12 R274 to R277): frozen or not, its outputs, flags, TRAPNV bead, whether an input is uncorrectable,
and its emitted value. -/
structure ElemOut where
  frozen : Bool
  outs : List W32
  fl : Fl
  trap : Option Nat
  bad : Option Nat
  emitted : W32
  deriving DecidableEq, Repr

/-- The scalars X0–X7 of a group's pass (12 R274). -/
def passScalars (x : SetCtx) (p : PGroup) : List W32 :=
  p.x0 :: p.x ++ [f32 .rne (fpOfInt (x.step.toNat + 1 : Nat))]

/-- Element `i` of a group (12 R274 to R277). DESIGN CHOICE (log entries 124, 126): the gradient and the state of a frozen element are never
read, and an uncorrectable byte of the freeze bitmap gives its stored bits. -/
def passElem (s : State) (x : SetCtx) (st : Strand) (p : PGroup) (i : Nat) : ElemOut :=
  let word (a : Nat) : W32 := BitVec.ofNat 32 (leNat (memBytes s a 4))
  let poisoned (a n : Nat) : Option Nat := firstPoison s a n
  let fz := p.frz && (memByte s (p.addr 4 + i / 8)).getLsbD (i % 8)
  let ain := p.addr 0 + 4 * i
  -- the parameter is read for a bead that names it, and for an emission of it (12 R274, R277)
  let needP := if fz then p.cfmt != 0 else st.reads 8 || (p.cfmt != 0 && (st.writer 12).isNone)
  let gin := if p.gbf16 then p.addr 1 + 2 * i else p.addr 1 + 4 * i
  let bz := if p.frz then poisoned (p.addr 4 + i / 8) 1 else none
  let b0 := if needP then poisoned ain 4 else none
  if fz then ⟨true, [], Fl.none, none, bz.or b0, word ain⟩
  else
    let g : W32 := if p.gbf16 then BitVec.ofNat 32 (leNat (memBytes s gin 2) * 65536) else word gin
    let b1 := if st.reads 9 then poisoned gin (if p.gbf16 then 2 else 4) else none
    let b2 := if st.reads 10 then poisoned (p.addr 2 + 4 * i) 4 else none
    let b3 := if st.reads 11 then poisoned (p.addr 3 + 4 * i) 4 else none
    let e := st.run .rne [word ain, g, word (p.addr 2 + 4 * i), word (p.addr 3 + 4 * i)] (passScalars x p)
    ⟨false, e.outs, e.fl, e.trap, ((bz.or b0).or b1).or (b2.or b3),
      if (st.writer 12).isSome then e.outs.getD 0 0 else word ain⟩

/-- The output pieces of an element (12 R274, R276, R289). -/
def elemItems (st : Strand) (p : PGroup) (i : Nat) (e : ElemOut) : List PassItem :=
  if e.frozen then []
  else
    let put (dst k o : Nat) : List PassItem :=
      if (st.writer dst).isSome then [⟨i, 1, p.addr k + 4 * i, leBytes 4 ((e.outs.getD o 0).toNat), e.bad.isSome⟩] else []
    put 12 0 0 ++ put 13 2 1 ++ put 14 3 2

/-- What a group emits for code group `k` (12 R277): the pieces, and the counts. -/
def codeGroup (p : PGroup) (k : Nat) (es : List ElemOut) : List PassItem × GroupOut :=
  let w := cfmtBits p.cfmt
  let o := emitGroup p.cfmt p.srule (es.map fun e => v32 e.emitted)
  let bad := es.any (fun e => e.bad.isSome)
  ([⟨p.g * k, p.g, p.addr 5 + w * p.g * k / 8, leBytes (w * p.g / 8) (packN w o.codes), bad⟩,
    ⟨p.g * k, p.g, p.addr 6 + 2 * k, leBytes 2 o.scale, bad⟩], o)

/-- What one group's pass gives: its pieces, its code groups' counts with their amax, its elements. -/
structure GroupPass where
  items : List PassItem
  emits : List (GroupOut × Fp × Nat)
  elems : List ElemOut

/-- A group's pass; `hit`: an element whose input a command found uncorrectable. -/
def groupPass (s : State) (x : SetCtx) (st : Strand) (p : PGroup) (hit : Option Nat) : GroupPass :=
  let es := (List.range p.count).map fun i =>
    let e := passElem s x st p i
    if hit = some i then { e with bad := some (p.addr 0 + 4 * i) } else e
  let cs := if p.cfmt = 0 then [] else (List.range (p.count / p.g)).map fun k => codeGroup p k ((es.drop (p.g * k)).take p.g)
  let ams := if p.cfmt = 0 then [] else (List.range (p.count / p.g)).map fun k =>
    ((es.drop (p.g * k)).take p.g).foldl (fun a e => Fp.max a (v32 e.emitted).abs) (.fin false 0 0)
  ⟨(es.zipIdx.flatMap fun e => elemItems st p e.2 e.1) ++ cs.flatMap (·.1),
    (cs.zip ams).map (fun c => (c.1.2, c.2, p.g)), es⟩

/-- A piece written, poisoned where an input of it was (12 R289). -/
def writeItem (s : State) (t : PassItem) : State :=
  let s := agentStore s t.addr t.bytes
  if t.bad then (List.range (lineCount t.addr t.bytes.length)).foldl (fun s k => poisonLine s (t.addr + 128 * k)) s else s

/-- Pieces written in order. -/
def writeItems (s : State) (ts : List PassItem) : State := ts.foldl writeItem s

/-- The bytes a pass moves at memory, counted to its partition as Bulk traffic (16 R392): its inputs and its pieces. -/
def passBytes (st : Strand) (p : PGroup) (g : GroupPass) : Nat :=
  let live := g.elems.countP (fun e => !e.frozen)
  (if st.reads 8 || (p.cfmt != 0 && (st.writer 12).isNone) then 4 * live else 0) +
    (if p.cfmt != 0 then 4 * (p.count - live) else 0) +
    (if st.reads 9 then (if p.gbf16 then 2 else 4) * live else 0) +
  (if st.reads 10 then 4 * live else 0) + (if st.reads 11 then 4 * live else 0) + (if p.frz then p.count / 8 else 0) +
  (g.items.map (fun t => t.bytes.length)).sum

/-- The contribution of one format of a pass (12 R278). -/
def passContribution (hall : Byte) (tag : Nat) (es : List (GroupOut × Fp × Nat)) : Contribution :=
  { hall := hall, fmt := some (BitVec.ofNat 4 tag), conv := (es.map (·.2.2)).sum, satc := (es.map (·.1.satc)).sum,
    vanc := (es.map (·.1.vanc)).sum, invc := 0, degc := (es.map (·.1.degc)).sum, nfc := (es.map (·.1.nfc)).sum, bumpc := 0,
    amax := BitVec.ofNat 32 (amaxBits (es.foldl (fun a e => Fp.max a e.2.1) (.fin false 0 0))), bump := 0 }

/-- The contributions of a pass, one for each format it emits (12 R278). -/
def passContribute (s : State) (i : Nat) (x : SetCtx) (gs : List (PGroup × GroupPass)) : State :=
  [4, 5, 6].foldl (fun s tag =>
    let es := (gs.filter (fun g => g.1.cfmt == tag)).flatMap (fun g => g.2.emits)
    if es.isEmpty then s else slotContribute s (x.slotIx i) (passContribution x.hall tag es)) s

/-- SJFLG from beads' flags: NV, DZ, OF, UF, NX in bits 0–4 (12 R268). -/
def sjFlags (f : Fl) : W32 := BitVec.ofNat 32 (f.bits / 4)

/-- Whether a piece belongs to an element, or to the code group that holds it. -/
def PassItem.covers (t : PassItem) (e : Nat) : Bool := decide (t.elem ≤ e) && decide (e < t.elem + t.span)

/-- How far a pass got in a group: a subset of its pieces that the manual leaves open, without the outputs of an element whose strand
error or refused read stopped it, and without a piece whose write was refused (12 R290). -/
def openItems (n : Nat) (skip lost : Option Nat) (ts : List PassItem) : List PassItem :=
  (ts.zipIdx.filter fun e =>
    Config.freeBit n e.2 && lost != some e.2 && !(match skip with | some k => e.1.covers k | none => false)).map (·.1)

/-- The flags of elements, from a predicate on their place (12 R275). -/
def elemFlags (es : List ElemOut) (who : Nat → Bool) : Fl :=
  es.zipIdx.foldl (fun f e => if who e.2 then f.or e.1.fl else f) Fl.none

/-- The flags of groups run whole. -/
def groupFlags (gs : List (PGroup × GroupPass)) : Fl := gs.foldl (fun f g => f.or (elemFlags g.2.elems fun _ => true)) Fl.none

/-- The elements of groups. -/
def groupCount (ps : List PGroup) : Nat := (ps.map PGroup.count).sum

/-- Whether a byte lies in an extent of another group than `n` (12 R271). -/
def inOthers (x : SetCtx) (st : Strand) (n a : Nat) : Bool :=
  x.groups.zipIdx.any fun q => q.2 != n && (q.1.extents st).any fun e => decide (e.2.1 ≤ a) && decide (a < e.2.1 + e.2.2.1)

/-- The pieces of group `n` as they are written: a byte that another group shares is a free value (12 R271). -/
def sharedFree (s : State) (x : SetCtx) (st : Strand) (n : Nat) (ts : List PassItem) : State × List PassItem :=
  if ts.any (fun t => (List.range t.bytes.length).any fun j => inOthers x st n (t.addr + j)) then
    let (d, s) := draw s
    (s, ts.map fun t =>
      { t with bytes := t.bytes.zipIdx.map fun b => if inOthers x st n (t.addr + b.2) then Config.sharedByte d (t.addr + b.2) else b.1 })
  else (s, ts)

/-- Where a pass stopped: the group, what it computed, its pieces, and those written. -/
structure StopAt where
  group : Nat
  pass : GroupPass
  items : List PassItem
  wrote : List PassItem

/-- The lowest element of a group whose beads raise a strand error (12 R275, R283). -/
def GroupPass.trap (g : GroupPass) : Option Nat := g.elems.findIdx? (fun e => e.trap.isSome)

/-- The bead of an element's strand error. -/
def GroupPass.bead (g : GroupPass) (e : Nat) : Nat := (g.elems[e]?.bind (·.trap)).getD 0

/-- A group of a pass stopped (12 R290): the pieces that `openItems` leaves written. -/
def stopIn (s : State) (x : SetCtx) (st : Strand) (n : Nat) (g : GroupPass) (pick : Nat → List PassItem → List PassItem) : State × StopAt :=
  let (s, ts) := sharedFree s x st n g.items
  let (d, s) := draw s
  let ws := pick d ts
  (writeItems s ws, ⟨n, g, ts, ws⟩)

/-- The groups of a pass run in table order: until the first strand error (12 R283, R290). Returns the state, the groups run whole, and
the error: where, and the element. `hit`: an element of a group whose input is uncorrectable. -/
def runGroups (x : SetCtx) (st : Strand) (hit : Option (Nat × Nat)) :
    Nat → List PGroup → State → State × List (PGroup × GroupPass) × Option (StopAt × Nat)
  | _, [], s => (s, [], none)
  | n, p :: ps, s =>
    let g := groupPass s x st p (match hit with | some (k, e) => if k = n then some e else none | none => none)
    match g.trap with
    | some e =>
      let r := stopIn s x st n g fun d ts => openItems d (some e) none ts
      (r.1, [], some (r.2, e))
    | none =>
      let (s, ts) := sharedFree s x st n g.items
      let s := countBulk (writeItems s ts) (partOfHall s x.hall) (passBytes st p g)
      let r := runGroups x st hit (n + 1) ps s
      (r.1, (p, g) :: r.2.1, r.2.2)

/-- The first uncorrectable input of the groups run: group, address. -/
def firstBadInput (gs : List (PGroup × GroupPass)) : Option (Nat × Nat) :=
  gs.zipIdx.findSome? fun g => (g.1.2.elems.findSome? (·.bad)).map fun a => (g.2, a)

/-- The completion pip of a context (12 R281, R284). -/
def setterDone (s : State) (i : Nat) : State :=
  let x := s.setter i
  let p := x.pip.toNat
  if p.testBit 15 then sendSig s (setterSrc i) (fieldN p 6 9) (fieldN p 0 6) 1 x.hall else s

/-- Whether element `k` of the group in which a pass stopped is finished (12 R290): every output of it is written; where it has none, the
manual leaves it open. -/
def StopAt.finished (z : StopAt) (d k : Nat) : Bool :=
  match z.items.filter fun t => t.span == 1 && t.elem == k with
  | [] => Config.freeBit d k
  | ts => ts.all z.wrote.contains

/-- What a pass that stopped in a group leaves in SJFLG and SJPROG (12 R275, R290): the flags and the elements of the groups run whole;
of the group itself the flags of the elements up to `upto` and of those of which a piece is written, and of the others those that the
manual leaves open; and its finished elements, of which `skip` is none. -/
def stopMarks (s : State) (i : Nat) (done : List (PGroup × GroupPass)) (z : StopAt) (upto skip : Option Nat) : State :=
  let (d, s) := draw s
  let x := s.setter i
  let es := z.pass.elems
  let ran (k : Nat) : Bool := upto.any (k ≤ ·) || z.wrote.any (·.covers k) || Config.freeBit d k
  let fin := (List.range es.length).countP fun k => skip != some k && z.finished d k
  s.setSetter i { x with
    groups := [], flg := sjFlags ((groupFlags done).or (elemFlags es ran))
    prog := BitVec.ofNat 64 (groupCount (done.map (·.1)) + fin) }

/-- The error of a pass stopped in group `n`: the element that it names, where the code names one (12 R287, R288). -/
def stopError (s : State) (i code detail n : Nat) (p : PGroup) (elem : Option Nat) : State :=
  setterError s i code detail n (match elem with | some e => p.addr 0 + 4 * e | none => 0) true

/-- Group `n` of a context's pass. -/
def SetCtx.group (x : SetCtx) (n : Nat) : PGroup := x.groups.getD n ⟨[], [], 0⟩

/-- A pass ended by a strand error (12 R275, R287). -/
def trapStop (s : State) (i : Nat) (done : List (PGroup × GroupPass)) (z : StopAt) (e : Nat) : State :=
  stopError (stopMarks s i done z (some e) (some e)) i 2 (z.pass.bead e) z.group ((s.setter i).group z.group) (some e)

/-- A pass run to its end (12 R283, R284, R289, R290); `hit`: an element of a group whose input is uncorrectable, with its detail. -/
def passRun (s : State) (i : Nat) (hit : Option (Nat × Nat × Nat)) : State :=
  let x := s.setter i
  match x.strand with
  | none => s
  | some st =>
    let r := runGroups x st (hit.map fun h => (h.1, h.2.1)) 0 x.groups s
    match r.2.2 with
    | some (z, e) => trapStop r.1 i r.2.1 z e
    | none =>
      let s := r.1.setSetter i { r.1.setter i with
        groups := [], flg := sjFlags (groupFlags r.2.1), prog := BitVec.ofNat 64 (groupCount x.groups) }
      match firstBadInput r.2.1 with
      | some (g, a) => setterError s i 5 (match hit with | some h => h.2.2 | none => (memDetail a).toNat) g a true
      | none =>
        let s := if x.cnt then passContribute s i x r.2.1 else s
        let z := s.setter i
        let s := s.setSetter i
          { z with st := .wait, last := 1, step := z.step + 1, appl := z.appl + 1, deadline := none }
        setterDone s i

/-- Whether the beads of a pass raise a strand error (12 R275). -/
def passTraps (s : State) (i : Nat) : Bool :=
  let x := s.setter i
  match x.strand with
  | some st => (runGroups x st none 0 x.groups s).2.2.isSome
  | none => false

/-- The extents that a Setter reads and writes in RUN. -/
def runExtents (x : SetCtx) : List (Nat × Nat) :=
  match x.strand with
  | some st => (x.groups.flatMap fun p => p.extents st).map fun e => (e.2.1, e.2.2.1)
  | none => []

/-- The memory behind some extents powered, and whether it is ready (20 R458). -/
def wakeExtents (s : State) (es : List (Nat × Nat)) : State := es.foldl (fun s e => wakeExtent s e.1 e.2) s
def allReady (s : State) (es : List (Nat × Nat)) : Bool := es.all fun e => extentReady s e.1 e.2

/-- The first group of a pass in which a strand error stands (12 R275): no pass gets past it. -/
def trapGroup (s : State) (i : Nat) : Option Nat :=
  let x := s.setter i
  match x.strand with
  | some st => (runGroups x st none 0 x.groups s).2.2.map (·.1.group)
  | none => none

/-- A pass refused in group `n` (12 R283, R290): a read of an element, which leaves none of its outputs, or the write of one piece. A
strand error of a lower element comes first, and at the same element before the write. -/
def refusedIn (s : State) (i code detail n : Nat) (st : Strand) (done : List (PGroup × GroupPass)) : State :=
  let x := s.setter i
  let p := x.group n
  let g := groupPass s x st p none
  let (d, s) := draw s
  let e := (Config.freeWord d).toNat % max 1 p.count
  let wr := Config.freeBit d g.items.length
  let w := (Config.freeWord d).toNat % max 1 g.items.length
  let el := if wr then (g.items.getD w ⟨e, 1, 0, [], false⟩).elem else e
  match g.trap.filter fun t => decide (t < el) || (wr && t == el) with
  | some t =>
    let r := stopIn s x st n g fun d ts => openItems d (some t) none ts
    trapStop r.1 i done r.2 t
  | none =>
    let r := stopIn s x st n g fun d ts => openItems d (if wr then none else some el) (if wr then some w else none) ts
    stopError (stopMarks r.1 i done r.2 none (some el)) i code detail n p (some el)

/-- A pass stopped from outside (12 R290): the group that it stands in, and the pieces of it written, are left open; later groups are
unwritten. Where a group of SRAM that it needs is still being powered, it has written nothing (20 R458, log entry 131). -/
def passStop (s : State) (i code detail : Nat) (refused : Bool) : State :=
  let x := s.setter i
  match x.st, x.strand with
  | .run, some st =>
    let s := wakeExtents s (runExtents x)
    let ready := allReady s (runExtents x)
    let (d, s) := draw s
    let last := if refused then x.groups.length else min x.groups.length ((trapGroup s i).elim x.groups.length (· + 1))
    let n := if ready then (Config.freeWord d).toNat % max 1 last else 0
    let r := runGroups x st none 0 (x.groups.take n) s
    (match r.2.2 with
    | some (z, e) => trapStop r.1 i r.2.1 z e
    | none =>
      if refused && ready then refusedIn r.1 i code detail n st r.2.1
      else
        let g := groupPass r.1 x st (x.group n) none
        let q := stopIn r.1 x st n g fun d ts => if ready then openItems d g.trap none ts else []
        stopError (stopMarks q.1 i r.2.1 q.2 none g.trap) i code detail n (x.group n) none)
  | .check, _ => setterError s i code detail 0 0 true
  | _, _ => s

/-- SJCTL.ENABLE cleared (12 R291); `detail` is 1 for a partition reset. -/
def setterDisableOp (s : State) (i detail : Nat) : State :=
  let x := s.setter i
  if !x.enable then s
  else
    let s := s.setSetter i { x with enable := false }
    if x.st = .run ∨ x.st = .check then passStop s i 7 detail false
    else s.setSetter i { s.setter i with st := .off, verdicts := [], armed := false }

/-- SJCTL.ARM (12 R280). -/
def setterArmOp (s : State) (i : Nat) : State := s.setSetter i { s.setter i with armed := true }

/-- A verdict received by a context (12 R279). -/
def setterVerdict (s : State) (i : Nat) (w : W16) : State :=
  let x := s.setter i
  match x.st with
  | .off => s
  | .fault => s
  | .wait =>
    if x.verdicts.length < 2 then s.setSetter i { x with verdicts := x.verdicts ++ [w] }
    else setterError s i 8 0 0 0 true
  | _ =>
    if x.verdicts.length < 2 then s.setSetter i { x with verdicts := x.verdicts ++ [w] } else passStop s i 8 0 false

/-- The word a write to SJLVERD delivers: TAINT in bit 0, SAT in bit 1 (12 R279, 13 R326). -/
def localVerdict (taint sat : Bool) : W16 := BitVec.ofNat 16 (b2n taint + 2 * b2n sat)

/-- The registers of a Setter context (12 R268). -/
def setterRegs : List RegAt :=
  [(0x000, 4), (0x008, 8), (0x010, 8), (0x018, 8), (0x020, 8), (0x028, 4), (0x030, 4), (0x038, 4), (0x040, 4), (0x048, 4),
   (0x050, 4), (0x058, 8), (0x060, 8), (0x068, 4), (0x070, 8), (0x078, 8), (0x080, 8)]

/-- SJSTAT.STATE (12 R268). -/
def setStCode : SetSt → Nat
  | .off => 0
  | .wait => 1
  | .check => 2
  | .run => 3
  | .fault => 4

/-- A register of a Setter context read (12 R268). -/
def setterRead (x : SetCtx) (off : Nat) : W64 :=
  if off = 0x000 then x.own.zeroExtend 64
  else if off = 0x008 then x.cfg
  else if off = 0x010 then x.strandA
  else if off = 0x018 then x.gtab
  else if off = 0x020 then x.sched
  else if off = 0x028 then x.pip
  else if off = 0x030 then x.tmo.zeroExtend 64
  else if off = 0x038 then BitVec.ofNat 64 (b2n x.enable + 2 * b2n x.ctlArm)
  else if off = 0x040 then x.lverd.zeroExtend 64
  else if off = 0x048 then x.step.zeroExtend 64
  else if off = 0x050 then BitVec.ofNat 64
    (setStCode x.st + 8 * x.verdicts.length + 32 * b2n x.armed + 64 * x.last.toNat + 256 * b2n x.err)
  else if off = 0x058 then x.sjerr
  else if off = 0x060 then x.sjaddr
  else if off = 0x068 then x.flg.zeroExtend 64
  else if off = 0x070 then x.appl
  else if off = 0x078 then x.skip
  else if off = 0x080 then x.prog
  else 0

/-- NGRP values that are not reserved (12 R268). -/
def ngrpOk (n : Nat) : Bool := decide (1 ≤ n) && decide (n ≤ 4096)

/-- A configuration register of a disabled context written (12 R268). -/
def setterCfgWrite (x : SetCtx) (off : Nat) (v m : W64) : SetCtx :=
  if off = 0x008 then { x with cfg := mergeField x.cfg (masked x.cfg v m) 0 24 }
  else if off = 0x010 then { x with strandA := mergeField x.strandA (masked x.strandA v m) 0 48 }
  else if off = 0x018 then
    (let n := masked x.gtab v m
     { x with gtab := wrField (mergeField x.gtab n 0 48) n 48 13 ngrpOk })
  else if off = 0x020 then { x with sched := mergeField x.sched (masked x.sched v m) 0 48 }
  else if off = 0x028 then
    (let n := masked x.pip v m
     let p := wrField x.pip n 0 6 pipOk
     let p := mergeField p n 6 10
     let p := wrField p n 16 6 pipOk
     { x with pip := mergeField p n 22 10 })
  else if off = 0x030 then { x with tmo := (masked x.tmo (v.truncate 32) (m.truncate 32)) &&& 0x3FFFFFF }
  else if off = 0x048 then { x with step := masked x.step (v.truncate 32) (m.truncate 32) }
  else x

/-- SJCTL written: ENABLE on a change (12 R269, R291), then ARM (R280). -/
def sjctlWrite (s : State) (i : Nat) (v m : W64) : State :=
  let x := s.setter i
  let s := s.setSetter i { x with ctlArm := if m.getLsbD 1 then v.getLsbD 1 else x.ctlArm }
  let s := if m.getLsbD 0 then (if v.getLsbD 0 then setterEnableOp s i else setterDisableOp s i 0) else s
  if v.getLsbD 1 then setterArmOp s i else s

/-- SJLVERD written (12 R279): ignored when VSRC = 0 or ENABLE = 0. -/
def sjlverdWrite (s : State) (i : Nat) (v m : W64) : State :=
  let x := s.setter i
  let s := s.setSetter i { x with lverd := masked x.lverd (v.truncate 2) (m.truncate 2) }
  if x.vsrc && x.enable then setterVerdict s i (localVerdict (v.getLsbD 0) (v.getLsbD 1)) else s

/-- A register of a Setter context written (12 R268). -/
def setterWrite (i : Nat) (s : State) (off : Nat) (v m : W64) : State :=
  let x := s.setter i
  if off = 0x038 then sjctlWrite s i v m
  else if off = 0x040 then sjlverdWrite s i v m
  else if off = 0x050 then s.setSetter i { x with err := x.err && !v.getLsbD 8 }
  else if x.enable then s
  else s.setSetter i (setterCfgWrite x off v m)

/-- A partition reset of a context (12 R291): as a disable with detail 0x01, then every register but SJOWN at its reset value. -/
def setterReset (s : State) (i : Nat) : State :=
  let s := setterDisableOp s i 1
  s.setSetter i { SetCtx.reset with own := (s.setter i).own }

end Sys2Proof.Machine
end

