-- ==== Sys2Proof/Machine/AdderOps.lean ====
section
/-! DEFINITION. The job-tagged adders (13): registers, bucket descriptors, contributions, sums, release, errors, and the ready
words. A context is numbered 8m + j, a bucket slot 64m + n, for module controller m. -/

namespace Sys2Proof.Machine

/-- AJCFG.JOB. -/
def AddCtx.job (x : AddCtx) : Nat := fieldN x.cfg.toNat 0 12
/-- AJCFG.VHOME. -/
def AddCtx.isHome (x : AddCtx) : Bool := x.cfg.getLsbD 12
/-- AJCFG.CRED. -/
def AddCtx.cred (x : AddCtx) : Nat := fieldN x.cfg.toNat 16 8
/-- AJCFG.OCRED. -/
def AddCtx.ocred (x : AddCtx) : Nat := fieldN x.cfg.toNat 24 8
/-- AJRING.RPOS. -/
def AddCtx.rpos (x : AddCtx) : Nat := fieldN x.ring.toNat 0 14
/-- AJRING.RLAST. -/
def AddCtx.rlast (x : AddCtx) : Nat := fieldN x.ring.toNat 14 14
/-- AJRING.NEXT. -/
def AddCtx.nextMod (x : AddCtx) : Nat := fieldN x.ring.toNat 28 18
/-- AJRING.PREV. -/
def AddCtx.prevMod (x : AddCtx) : Nat := fieldN x.ring.toNat 46 18
/-- AJBTAB.ADDR. -/
def AddCtx.table (x : AddCtx) : Nat := fieldN x.btab.toNat 0 48
/-- AJBTAB.NBL. -/
def AddCtx.nbl (x : AddCtx) : Nat := fieldN x.btab.toNat 48 12
/-- AJOWN.HALL. -/
def AddCtx.hall (x : AddCtx) : Byte := x.own.truncate 8
/-- The ring position after this one (13 R294). -/
def AddCtx.succPos (x : AddCtx) : Nat := (x.rpos + 1) % (x.rlast + 1)
/-- AJVCFG.RMASK. -/
def AddCtx.rmask (x : AddCtx) (r : Nat) : Bool := x.vcfg.getLsbD (26 + r)
/-- AJVCFG.PARENT: the port toward the parent home, or none for the root. -/
def AddCtx.parent (x : AddCtx) : Option Nat :=
  let p := fieldN x.vcfg.toNat 30 3
  if p = 0 ∨ p = 7 then none else some (p - 1)
/-- AJVCFG.CHILD of a port. -/
def AddCtx.child (x : AddCtx) (p : Nat) : Bool := decide (p < 6) && x.vcfg.getLsbD (33 + p)

/-- The signal number of an adder context. -/
def adderSrc (i : Nat) : Nat := 2304 + i

/-- s is below r modulo 256 (13 R304). -/
def seqBelow (s r : Nat) : Bool := let d := (r + 256 - s % 256) % 256; decide (1 ≤ d) && decide (d ≤ 127)

/-- The control-space address of an adder context's page (13 R297). -/
def adderPage (i : Nat) : Nat :=
  let m := i / 8
  0x30001000000 + 0x1000000 * (m / 6) + 0x600000 + 0x10000 * (m % 6) + 0x1000 * (i % 8)

/-- The enabled context of a unit that holds a job (13 R298, check 3: there is at most one). -/
def adderOf (s : State) (m job : Nat) : Option Nat :=
  ((List.range 8).map (8 * m + ·)).find? fun i => (s.adder i).enable && (s.adder i).job == job

/-- The verdict home of a job on this module (13 R298, check 7). -/
def verdictHome (s : State) (job : Nat) : Option Nat :=
  (List.range 192).find? fun i => (s.adder i).enable && (s.adder i).isHome && (s.adder i).job == job

/-- A bucket descriptor as memory holds it (13 R300): its address and its words. -/
structure BDesc where
  addr : Nat
  w0 : Nat
  w1 : Nat
  w2 : Nat
  w3 : Nat
  w4 : Nat
  deriving DecidableEq, Repr

/-- DST. -/
def BDesc.dst (d : BDesc) : Nat := fieldN d.w0 0 48
/-- RFMT: BF16. -/
def BDesc.rbf16 (d : BDesc) : Bool := d.w0.testBit 48
/-- DIST. -/
def BDesc.dist (d : BDesc) : Bool := d.w0.testBit 49
/-- SRC. -/
def BDesc.src (d : BDesc) : Nat := fieldN d.w1 0 48
/-- Tiles of the bucket. -/
def BDesc.ntile (d : BDesc) : Nat := fieldN d.w2 0 16 + 1
/-- OWNER. -/
def BDesc.owner (d : BDesc) : Nat := fieldN d.w2 16 14
/-- WIRE. -/
def BDesc.wire (d : BDesc) : Nat := fieldN d.w2 30 2
/-- MODE: tile mode. -/
def BDesc.tileMode (d : BDesc) : Bool := d.w2.testBit 32
/-- RM. -/
def BDesc.rm (d : BDesc) : Nat := fieldN d.w2 33 2
/-- E. -/
def BDesc.e (d : BDesc) : Int := (BitVec.ofNat 8 (fieldN d.w2 35 8)).toInt
/-- SLOT. -/
def BDesc.slot (d : BDesc) : Nat := fieldN d.w2 43 8
/-- CNT. -/
def BDesc.cnt (d : BDesc) : Bool := d.w2.testBit 51
/-- NRND. -/
def BDesc.nrnd (d : BDesc) : Nat := fieldN d.w4 0 8
/-- DPIPEN. -/
def BDesc.dpipen (d : BDesc) : Bool := d.w3.testBit 15
/-- The rounding mode of the bucket's sums (13 R300). -/
def BDesc.round (d : BDesc) : Rm := if d.rm = 1 then .rtz else .rne

/-- The stride of tile images in SRC (13 R301). -/
def wireStride (w : Nat) : Nat := if w = 0 then 4096 else if w = 1 then 2048 else 1056
/-- Bytes of a tile's payload on the wire (13 R301, R333). -/
def wireBytes (w : Nat) : Nat := if w = 0 then 4096 else if w = 1 then 2048 else 1040
/-- Bytes of a result tile (13 R301). -/
def BDesc.rsize (d : BDesc) : Nat := if d.rbf16 then 2048 else 4096

/-- Whether an extent is allowed under 13 R302. -/
def adderPlace (s : State) (i : Nat) (x : AddCtx) (a n : Nat) : Bool :=
  (match partOfHall s x.hall with
  | some p => (firstReserved s a n).isNone && inMemWindows s p a n
  | none => false) &&
  (inCtlRange (ctlOfCtx i) a n || inRegionSram (regionOfCtx i) a n)

/-- What reading an extent meets (13 R329): a hallmark refusal or uncorrectable data. -/
def adderReadErr (s : State) (x : AddCtx) (a n : Nat) : Option (Nat × Nat) :=
  match firstBadPage (fun y => memAccepts s x.hall y 1) a n with
  | some _ => some (3, 0)
  | none => if anyPoison s a n then some (4, (memDetail a).toNat) else none

/-- The checks of a bucket descriptor (13 R300 to R302, R329), in the order of the details of code 0x2. -/
def bucketCheck (s : State) (i : Nat) (x : AddCtx) (d : BDesc) : Option Nat :=
  if d.wire = 3 ∨ 2 ≤ d.rm ∨ d.e < -126 ∨ 105 < d.e ∨ (d.dpipen ∧ 48 ≤ fieldN d.w3 0 6) then some 0
  else if !adderPlace s i x d.dst (d.ntile * d.rsize) then some 2
  else if !d.tileMode && !adderPlace s i x d.src (d.ntile * wireStride d.wire) then some 2
  else if d.dst % 128 ≠ 0 ∨ (!d.tileMode ∧ d.src % 64 ≠ 0) then some 3
  else if x.rlast < d.owner then some 6
  else if d.cnt && (s.slot (256 * regionOfCtx i + d.slot)).refuses x.hall then some 7
  else none

/-- The descriptor of a bucket, or the error that leaves the bucket without one (13 R300, R322). -/
def bucketDesc (s : State) (i b : Nat) : Except (Nat × Nat) BDesc :=
  let x := s.adder i
  if x.nbl ≤ b / 24 then .error (2, 1)
  else
    let a := x.table + 64 * (b / 24)
    match adderReadErr s x a 40 with
    | some e => .error e
    | none =>
      let w (k : Nat) : Nat := leNat (memBytes s (a + 8 * k) 8)
      .ok ⟨a, w 0, w 1, w 2, w 3, w 4⟩

/-- A bucket descriptor read by the unit: the memory behind it is powered, and the read counts as Reduce traffic (16 R392, 20 R458). -/
def descRead (s : State) (i : Nat) (d : BDesc) : State := countPart (wakeExtent s d.addr 40) (partOfHall s (s.adder i).hall) 9 40

/-- The memory that a bucket's round uses at this module (13 R300, R305, R319): its descriptor; DST at OWNER, and elsewhere where RESULT
tiles come; SRC in layer mode. An extent that R302 does not allow is not reached. -/
def bucketExtents (s : State) (i b : Nat) : List (Nat × Nat) :=
  let x := s.adder i
  match bucketDesc s i b with
  | .error _ => if b / 24 < x.nbl then [(x.table + 64 * (b / 24), 64)] else []
  | .ok d => (d.addr, 64) ::
      ([(d.dst, d.ntile * d.rsize, d.dist || x.rpos == d.owner), (d.src, d.ntile * wireStride d.wire, !d.tileMode)].filterMap fun e =>
        if e.2.2 && adderPlace s i x e.1 e.2.1 then some (e.1, e.2.1) else none)

/-- Whether what a bucket reads or writes waits for an arbiter (15 R361, R367). -/
def bucketArbHeld (s : State) (i b : Nat) : Bool := (bucketExtents s i b).any fun e => unitsHeld s e.1 e.2 2

/-- Whether the SRAM behind what a bucket reads or writes is powered (20 R458, log entry 131). -/
def bucketReady (s : State) (i b : Nat) : Bool := (bucketExtents s i b).all fun e => extentReady s e.1 e.2

/-- Whether a bucket's contributions and packets wait: for an arbiter (15 R367), or for SRAM that is being powered (20 R458). -/
def adderHeld (s : State) (i b : Nat) : Bool := bucketArbHeld s i b || !bucketReady s i b

/-- A bucket's contribution or packet waits: memory that is off begins to power up (20 R458). -/
def adderWait (s : State) (i b : Nat) : State :=
  if bucketArbHeld s i b || bucketReady s i b then s else wakeExtents s (bucketExtents s i b)

/-- The slot of a unit that holds a bucket of a context. -/
def slotOf (s : State) (i b : Nat) : Option Nat :=
  ((List.range 64).map (64 * (i / 8) + ·)).find? fun n =>
    let y := s.aslot n
    decide (y.st ≠ 0) && y.ctx.val == i % 8 && y.bucket.toNat == b

/-- The lowest-numbered free slot of a unit (13 R315). -/
def freeSlot (s : State) (m : Nat) : Option Nat :=
  ((List.range 64).map (64 * m + ·)).find? fun n => (s.aslot n).st == 0

/-- The slots that a context holds. -/
def slotsHeld (s : State) (i : Nat) : List Nat :=
  ((List.range 64).map (64 * (i / 8) + ·)).filter fun n => decide ((s.aslot n).st ≠ 0) && (s.aslot n).ctx.val == i % 8

/-- A bucket of a context that waits for its SUMMARY. -/
def awaitOf (x : AddCtx) (b : Nat) : Option Await := x.await.find? fun w => w.bucket.toNat == b

/-- Whether a bucket is open at a context: it holds a slot or waits for its SUMMARY. -/
def bucketOpen (s : State) (i b : Nat) : Bool := (slotOf s i b).isSome || (awaitOf (s.adder i) b).isSome

/-- A reduction packet (13 R309, R310): `fields` are the header bits from BUCKET on. -/
def mkReduce (s : State) (typ job fields dst : Nat) (pay : List Byte) : Packet :=
  ⟨kReduce, reduceCls typ, mkHdr typ job fields s.modId dst, pay, 0⟩

/-- The header fields of a DATA or RESULT packet. -/
def tileFields (x : AddCtx) (d : BDesc) (t : Tile) (seq : Nat) (data : Bool) : Nat :=
  t.bucket.toNat + t.tile.toNat * 2 ^ 16 + d.wire * 2 ^ 32 + b2n t.taint * 2 ^ 34 + b2n t.sat * 2 ^ 35 + (seq % 256) * 2 ^ 41 +
    x.rpos * 2 ^ 49 + (if data && d.wire == 2 then fieldN d.w2 35 8 else 0) * 2 ^ 63

/-- A SUMMARY (13 R309, R320, R322). -/
def summaryPkt (s : State) (x : AddCtx) (b : Nat) (seq : Nat) (taint sat err : Bool) (bmax rpos : Nat) : Packet :=
  mkReduce s 3 x.job (b + b2n taint * 2 ^ 34 + b2n sat * 2 ^ 35 + b2n err * 2 ^ 36 + (bmax % 16) * 2 ^ 37 + (seq % 256) * 2 ^ 41 +
    rpos * 2 ^ 49) x.nextMod []

/-- A packet of a context sent to NEXT; nothing is sent to a module out of reach (14 R336). -/
def adderSend (s : State) (i : Nat) (p : Packet) : State :=
  if fabReachable s p.dst then sendPacket s (partOfHall s (s.adder i).hall) p else s

/-- The queue toward NEXT split into the SUMMARY packets that leave at once, for they need no credit, and what stays, of which `kept` is
passed already: a SUMMARY goes behind the DATA and RESULT packets of its own bucket only (13 R311, R316, log entry 41). -/
def splitOut (kept : List Packet) : List Packet → List Packet × List Packet
  | [] => ([], kept)
  | p :: ps =>
    if p.sub = 3 ∧ kept.all (fun q => q.fld 16 16 != p.fld 16 16) = true then
      let r := splitOut kept ps
      (p :: r.1, r.2)
    else splitOut (kept ++ [p]) ps

/-- Packets of a context sent to NEXT, in order. -/
def adderSends (i : Nat) (s : State) (ps : List Packet) : State := ps.foldl (fun s p => adderSend s i p) s

/-- The SUMMARY packets that can leave do. -/
def pumpOut (s : State) (i : Nat) : State :=
  let r := splitOut [] (s.adder i).outq
  adderSends i (s.setAdder i { s.adder i with outq := r.2 }) r.1

/-- A packet queued toward NEXT (13 R311). -/
def adderQueue (s : State) (i : Nat) (p : Packet) : State :=
  pumpOut (s.setAdder i { s.adder i with outq := (s.adder i).outq ++ [p] }) i

/-- One credit returned to PREV for a bucket (13 R316). -/
def sendCredit (s : State) (i b : Nat) : State :=
  let x := s.adder i
  adderSend s i (mkReduce s 4 x.job (b + 1 * 2 ^ 16) x.prevMod [])

/-- A buffer of a packet from PREV freed, and its credit returned (13 R316). -/
def freeIn (s : State) (i b : Nat) : State :=
  sendCredit (s.setAdder i { s.adder i with inbuf := (s.adder i).inbuf - 1 }) i b

/-- Several buffers freed. -/
def freeIns (s : State) (i b : Nat) : Nat → State
  | 0 => s
  | n + 1 => freeIns (freeIn s i b) i b n

/-- The ready word of a round (13 R323, R326). -/
def readyWordOf (a : RoundAcc) (seq : Byte) : W16 :=
  BitVec.ofNat 16 (b2n (a.taint || a.err) + 2 * b2n a.sat + 4 * b2n a.err + a.bmax.toNat * 16 + seq.toNat * 256)

/-- The ready word sent once AJNDONE reaches NBR (13 R323). -/
def readyCheck (s : State) (i : Nat) : State :=
  let x := s.adder i
  if x.st = .active ∧ !x.ready ∧ fieldN x.rnd.toNat 0 12 ≤ x.cur.done.toNat then
    { s.setAdder i { x with ready := true } with
      readies := s.readies ++ [⟨Fin.ofNat 24 (ctlOfCtx i), Fin.ofNat 8 (i % 8), BitVec.ofNat 12 x.job, readyWordOf x.cur x.seq⟩] }
  else s

/-- A release counted for its round (13 R321, R323). -/
def RoundAcc.count (a : RoundAcc) (taint sat err : Bool) (bmax : BitVec 4) : RoundAcc :=
  ⟨a.done + 1, a.taint || taint, a.sat || sat, a.err || err, if a.bmax < bmax then bmax else a.bmax⟩

/-- The word that a release writes at 0x20 of the descriptor (13 R300, R321): the next round and what the round gathered. -/
def releaseWord (nrnd : Nat) (taint sat err : Bool) (bmax : BitVec 4) : List Byte :=
  leBytes 8 (nrnd % 256 + 256 * b2n taint + 512 * b2n sat + 1024 * b2n err + 2048 * bmax.toNat)

/-- A bucket released (13 R321): its slot contribution, its descriptor, its count and its completion pip. `chk`: what the read finds that
merges the word at 0x20 with its line (10 R234, R242). -/
def bucketRelease (s : State) (i b : Nat) (d : BDesc) (taint sat err : Bool) (bmax : BitVec 4) (bumps : Nat) (chk : Check) : State :=
  let x := s.adder i
  let s := if d.cnt then slotContribute s (256 * regionOfCtx i + d.slot) ⟨x.hall, none, 0, 0, 0, 0, 0, 0, bumps, 0, bmax⟩ else s
  let s := countPart (wakeExtent s d.addr 40) (partOfHall s x.hall) 9 8
  let s := agentStore (mergeCheck s ((List.range 8).map (d.addr + 0x20 + ·)) chk) (d.addr + 0x20)
    (releaseWord (d.nrnd + 1) taint sat err bmax)
  let s := if d.wire = 2 ∧ bmax ≠ 0 then
      let e := BitVec.ofInt 8 (min (d.e + bmax.toNat) 105)
      agentStore (countPart s (partOfHall s x.hall) 9 8) (d.addr + 0x10) (leBytes 8 (setField (BitVec.ofNat 64 d.w2) 35 8 e.toNat).toNat)
    else s
  let x := s.adder i
  let y := { x with
    bump := BitVec.ofNat 64 (satAdd max64 x.bump.toNat bumps), await := x.await.filter (fun w => w.bucket.toNat != b)
    unread := x.unread.filter (fun e => e.1.toNat != b) }
  let y := if d.nrnd % 256 = (x.seq.toNat + 1) % 256 then { y with nxt := y.nxt.count taint sat err bmax }
    else { y with cur := y.cur.count taint sat err bmax }
  let s := s.setAdder i y
  let s := if d.dpipen && !err then sendSig s (adderSrc i) (fieldN d.w3 6 9) (fieldN d.w3 0 6) 1 y.hall else s
  readyCheck s i

/-- The error registers, record and pip of an error of a context (13 R330, 21 R478). `peer`: the module whose loss it reports. -/
def adderError (s : State) (i code detail b seq t : Nat) (peer : Option Nat) : State :=
  let x := s.adder i
  let y := { x with err := true }
  let y := if x.err then y else
    { y with ajerr := BitVec.ofNat 64 (code + detail * 256 + b * 2 ^ 16 + (seq % 256) * 2 ^ 32 + t * 2 ^ 40) }
  let s := s.setAdder i y
  let o := originAdder s i
  let own := partOfHall s x.hall
  let w := detailWord code detail (b + t * 2 ^ 16)
  let s := match peer with
    | some p => reportLog s (peerOrigin p) o 0x10 own w
    | none => reportLog s o o 0xC own w
  let p := x.pip.toNat
  if p.testBit 15 then sendSig s (adderSrc i) (fieldN p 6 9) (fieldN p 0 6) 1 x.hall else s

/-- A bucket beyond NBL has no descriptor: the error is recorded and marked in the ready word (13 R322). -/
def bucketLost (s : State) (i code detail b t : Nat) : State :=
  let s := adderError s i code detail b (s.adder i).seq.toNat t none
  let x := s.adder i
  readyCheck (s.setAdder i { x with cur := { x.cur with err := true } }) i

/-- Whether a RESULT packet of a bucket was forwarded, and so keeps its buffer from PREV: OWNER's own stand in local buffers (13 R315,
R319, log entry 41). -/
def passedOn (s : State) (i b : Nat) : Bool :=
  match slotOf s i b with
  | some n => (s.aslot n).st != 2
  | none => true

/-- What a context holds of a bucket besides its descriptor is dropped: its slot at once, its waiting partial sums, and its packets
toward NEXT but for SUMMARY packets and, with `keep`, RESULT packets (13 R317, R322). Their credits go back. -/
def bucketDrop (s : State) (i b : Nat) (keep : Bool) : State :=
  let x := s.adder i
  let gone (p : Packet) : Bool := p.fld 16 16 == b && (p.sub == 1 || (p.sub == 2 && !keep))
  let mine := x.inq.countP (fun q => q.tile.bucket.toNat == b) +
    (if passedOn s i b then x.outq.countP (fun p => gone p && p.sub == 2) else 0)
  let s := s.setAdder i { x with
    inq := x.inq.filter (fun q => q.tile.bucket.toNat != b)
    outq := x.outq.filter (fun p => !gone p) }
  match slotOf s i b with
  | some n => freeIns (s.setASlot n ASlot.reset) i b (mine + (s.aslot n).datas.length)
  | none => freeIns s i b mine

/-- What a bucket has gathered at this module in its round: TAINT, SAT, the largest final bump, and its bump count. -/
def bucketFlags (s : State) (i b : Nat) : Bool × Bool × BitVec 4 × Nat :=
  match slotOf s i b with
  | some n => let y := s.aslot n; (y.taint, y.sat, y.bmax, y.bumps)
  | none =>
    match awaitOf (s.adder i) b with
    | some w => (w.taint, w.sat, 0, w.bumps)
    | none => (false, false, 0, 0)

/-- The round of a bucket whose descriptor cannot be read, where the unit knows it: that of its slot, or the one after the round that it
ended last (log entry 106). -/
def knownRound (s : State) (i b : Nat) : Option Byte :=
  match slotOf s i b with
  | some n => some (s.aslot n).seq
  | none => ((s.adder i).unread.find? fun e => e.1.toNat == b).map (·.2 + 1)

/-- The round of a bucket whose descriptor cannot be read: the context's where nothing tells it (log entry 106). -/
def roundOf (s : State) (i b : Nat) : Byte := (knownRound s i b).getD (s.adder i).seq

/-- The same where a packet of the bucket names a round: nothing else telling it, the packet's, where a bucket may be in it (13 R304). -/
def packetRound (s : State) (i b q : Nat) : Byte :=
  let seq := (s.adder i).seq
  (knownRound s i b).getD (if q = seq.toNat ∨ q = (seq + 1).toNat then BitVec.ofNat 8 q else seq)

/-- Round `seq` of a bucket ends with an error at this module while its descriptor cannot be read (13 R322, R330): what the release
takes from the descriptor cannot be made (log entry 106), and its word at 0x20 is written where the hallmark reaches it; the count and the
SUMMARY are made, and the unit keeps the round, so that this one does not end again. -/
def bucketUnread (s : State) (i b code detail t : Nat) (seq : Byte) (peer : Option Nat) : State :=
  let (taint, sat, bmax, bumps) := bucketFlags s i b
  let s := bucketDrop (adderError s i code detail b seq.toNat t peer) i b false
  let x := s.adder i
  let a := x.table + 64 * (b / 24) + 0x20
  let s := if memAccepts s x.hall a 8 then
      agentStore (countPart (wakeExtent s a 8) (partOfHall s x.hall) 9 8) a (releaseWord (seq.toNat + 1) taint sat true bmax)
    else s
  let y := { x with
    bump := BitVec.ofNat 64 (satAdd max64 x.bump.toNat bumps), await := x.await.filter (fun w => w.bucket.toNat != b)
    unread := (BitVec.ofNat 16 b, seq) :: x.unread.filter (fun e => e.1.toNat != b) }
  let y := if seq = x.seq + 1 then { y with nxt := y.nxt.count taint sat true bmax } else { y with cur := y.cur.count taint sat true bmax }
  let s := readyCheck (s.setAdder i y) i
  if x.rlast = 0 then s else adderQueue s i (summaryPkt s x b seq.toNat taint sat true bmax.toNat x.rpos)

/-- A bucket ends for want of its descriptor (13 R322, R330): `e` is the code and the detail of what kept it from being read. -/
def bucketFail (s : State) (i : Nat) (e : Nat × Nat) (b t : Nat) : State :=
  if e.1 = 2 then bucketLost (bucketDrop s i b false) i e.1 e.2 b t else bucketUnread s i b e.1 e.2 t (roundOf s i b) none

/-- Whether a contribution to a bucket whose descriptor cannot be read waits, for the bucket would enter round SEQ + 2 (13 R303). -/
def unreadWaits (s : State) (i b : Nat) (e : Nat × Nat) : Bool := e.1 != 2 && roundOf s i b == (s.adder i).seq + 2

/-- A bucket ends with an error at this module, which originates a SUMMARY (13 R322). -/
def bucketEnd (s : State) (i b code detail t : Nat) (peer : Option Nat) : State :=
  match bucketDesc s i b with
  | .error e =>
    if e.1 = 2 then bucketLost (bucketDrop s i b false) i code detail b t else bucketUnread s i b code detail t (roundOf s i b) peer
  | .ok d =>
    let (taint, sat, bmax, bumps) := bucketFlags s i b
    let s := adderError s i code detail b d.nrnd t peer
    let s := bucketRelease (bucketDrop s i b false) i b d taint sat true bmax bumps .clean
    let x := s.adder i
    if x.rlast = 0 then s else adderQueue s i (summaryPkt s x b d.nrnd taint sat true bmax.toNat x.rpos)

/-- A buffer freed whose credit has no module to go to ends its bucket, where that is open (14 R336). -/
def creditEnd (s : State) (i b : Nat) : State :=
  if !fabReachable s (s.adder i).prevMod && bucketOpen s i b then bucketEnd s i b 6 0 0 none else s

/-- A DATA, RESULT or SUMMARY packet of round `q` of a bucket whose descriptor cannot be read, after its buffer is freed (13 R303, R322,
log entry 106): one of a round already released is discarded. -/
def packetFail (s : State) (i : Nat) (e : Nat × Nat) (b t q : Nat) : State :=
  if e.1 = 2 then bucketFail s i e b t
  else
    let n := packetRound s i b q
    if q = n.toNat then bucketUnread s i b e.1 e.2 t n none
    else if seqBelow q n.toNat then creditEnd s i b
    else bucketUnread s i b 6 5 t n none

/-- A non-finite contribution recorded (13 R328). -/
def nonFinite (s : State) (i b t : Nat) : State :=
  let x := s.adder i
  let s := s.setAdder i { x with nf := BitVec.ofNat 64 (satAdd max64 x.nf.toNat 1) }
  reportLog s (originAdder s i) (originAdder s i) 0xD (partOfHall s x.hall) (detailWord 0 0 (b + t * 2 ^ 16))

/-- The codes of a BS8 payload (13 R301). -/
def bs8Codes (p : List Byte) : List Int := (p.take 1024).map BitVec.toInt
/-- The bumps of a BS8 payload (13 R301). -/
def bs8Bumps (p : List Byte) : List Nat := ((p.drop 1024).take 16).flatMap fun b => [b.toNat % 16, b.toNat / 16]
/-- A BS8 payload from codes and bumps. -/
def bs8Pay (codes : List Int) (bumps : List Nat) : List Byte :=
  codes.map (BitVec.ofInt 8) ++ (List.range 16).map fun i => BitVec.ofNat 8 (bumps.getD (2 * i) 0 + 16 * bumps.getD (2 * i + 1) 0)

/-- The patterns of an F32 or B16 payload. -/
def wirePats (w : Nat) (p : List Byte) : List Nat := unpackN (if w = 0 then 32 else 16) 1024 (leNat p)

/-- The format of an F32 or B16 payload. -/
def wireFmt (w : Nat) : Fmt := if w = 0 then fp32 else bf16

/-- The blocks of a BS8 sum (13 R313), `n` left: codes, bumps, SAT. -/
def bs8Sums (rm : Rm) : Nat → List Int → List Nat → List Int → List Nat → List Int × List Nat × Bool
  | 0, _, _, _, _ => ([], [], false)
  | n + 1, qi, bi, ql, bl =>
    let r := bs8SumBlock rm (qi.take 32) (bi.headD 0) (ql.take 32) (bl.headD 0)
    let rest := bs8Sums rm n (qi.drop 32) (bi.drop 1) (ql.drop 32) (bl.drop 1)
    (r.1 ++ rest.1, r.2.1 :: rest.2.1, r.2.2 || rest.2.2)

/-- A tile of a bucket's sum (13 R312, R313), and whether finite inputs gave a value that is not finite (R328). -/
def sumTiles (d : BDesc) (inn loc : Tile) : Tile × Bool :=
  if d.wire = 2 then
    let r := bs8Sums d.round 32 (bs8Codes inn.payload) (bs8Bumps inn.payload) (bs8Codes loc.payload) (bs8Bumps loc.payload)
    ({ loc with taint := inn.taint || loc.taint, sat := inn.sat || loc.sat || r.2.2, payload := bs8Pay r.1 r.2.1 }, false)
  else
    let f := wireFmt d.wire
    let t : TRm := if d.rm = 1 then .rtz else .rne
    let es := ((wirePats d.wire inn.payload).zip (wirePats d.wire loc.payload)).map fun e =>
      let o := (wireSum f t e.1 e.2).bits
      (o, !(f.decode o).isFin, (f.decode e.1).isFin && (f.decode e.2).isFin)
    let bad := es.any (·.2.1)
    let pay := (es.map fun e => leBytes (f.width / 8) e.1).flatten
    ({ loc with taint := inn.taint || loc.taint || bad, sat := inn.sat || loc.sat, payload := pay }, es.any fun e => e.2.1 && e.2.2)

/-- The bump count of an output tile over the tile before it (13 R314). -/
def bumpGain (d : BDesc) (prev : Option Tile) (out : Tile) : Nat :=
  if d.wire = 2 then
    (bs8Bumps out.payload).sum - (match prev with | some p => (bs8Bumps p.payload).sum | none => 0)
  else 0

/-- The bytes of a result tile in RFMT (13 R319). -/
def resultBytes (d : BDesc) (t : Tile) : List Byte :=
  let out (f : Fmt) (v : Fp) : List Byte := leBytes (f.width / 8) (tileOut f false d.round v).bits
  if d.wire = 2 then
    let f := if d.rbf16 then bf16 else fp32
    (((bs8Codes t.payload).zipIdx).map fun q =>
      out f (.fin (decide (q.1 < 0)) q.1.natAbs (d.e + ((bs8Bumps t.payload).getD (q.2 / 32) 0 : Nat)))).flatten
  else if d.wire = 0 then
    (if d.rbf16 then ((wirePats 0 t.payload).map fun v => out bf16 (fp32.decode v)).flatten else t.payload)
  else if d.rbf16 then ((wirePats 1 t.payload).map fun v => out bf16 (bf16.decode v)).flatten
  else ((wirePats 1 t.payload).map fun v => leBytes 4 (v * 65536)).flatten

/-- The largest bump of a final tile (13 R309: BMAX). -/
def tileBmax (d : BDesc) (t : Tile) : BitVec 4 :=
  BitVec.ofNat 4 (if d.wire = 2 then (bs8Bumps t.payload).foldl max 0 else 0)

/-- A result tile written to DST (13 R319), counted as Reduce traffic (16 R392); none where the hallmark is refused. -/
def writeResult (s : State) (i : Nat) (d : BDesc) (t : Tile) : Option State :=
  let a := d.dst + d.rsize * t.tile.toNat
  let x := s.adder i
  if (firstBadPage (fun y => memAccepts s x.hall y 1) a d.rsize).isSome then none
  else
    let s := countPart (wakeExtent s a d.rsize) (partOfHall s x.hall) 9 d.rsize
    some (agentStore s a (resultBytes d t))

/-- A tile of the sum leaves the unit: written at OWNER, forwarded at every other position (13 R295, R317, R319). -/
def tileOutput (s : State) (i n : Nat) (d : BDesc) (prev : Option Tile) (out : Tile) : State :=
  let x := s.adder i
  let y := s.aslot n
  let z := { y with taint := y.taint || out.taint, sat := y.sat || out.sat, bumps := y.bumps + bumpGain d prev out }
  if x.rpos = d.owner then
    match writeResult s i d out with
    | none => bucketEnd s i out.bucket.toNat 3 0 out.tile.toNat none
    | some s =>
      let b := tileBmax d out
      let s := s.setASlot n { z with tiles := out.tile.toNat :: z.tiles, bmax := if z.bmax < b then b else z.bmax }
      if d.dist ∧ x.rlast ≠ 0 then
        let y := s.aslot n
        s.setASlot n { y with
          results := y.results ++ [mkReduce s 2 x.job (tileFields x d out y.seq.toNat false) x.nextMod out.payload] }
      else s
  else
    adderQueue (s.setASlot n z) i (mkReduce s 1 x.job (tileFields x d out y.seq.toNat true) x.nextMod out.payload)

/-- Tile `t` of a slot summed once what it needs is present (13 R317). -/
def slotAdvance (s : State) (i n t : Nat) (d : BDesc) : State :=
  let x := s.adder i
  let y := s.aslot n
  let start := x.rpos == (d.owner + 1) % (x.rlast + 1)
  match y.locals.find? (fun l => l.tile.toNat == t) with
  | none => s
  | some loc =>
    if start then tileOutput (s.setASlot n { y with locals := y.locals.filter (fun l => l.tile.toNat != t) }) i n d none loc
    else match y.datas.find? (fun q => q.tile.toNat == t) with
      | none => s
      | some inn =>
        let s := s.setASlot n { y with
          locals := y.locals.filter (fun l => l.tile.toNat != t), datas := y.datas.filter (fun q => q.tile.toNat != t) }
        let s := freeIn s i y.bucket.toNat
        let r := sumTiles d inn loc
        let s := if r.2 then nonFinite s i y.bucket.toNat t else s
        if fabReachable s x.prevMod then tileOutput s i n d (some inn) r.1 else creditEnd s i y.bucket.toNat

/-- The region-timer count at which a bucket opened now times out (13 R331). -/
def bucketDeadline (s : State) (i : Nat) : Option Nat :=
  let t := fieldN (s.adder i).tmo.toNat 0 26
  if t = 0 then none else some (regionDue s (regionOfCtx i) t)

/-- The slot of a bucket, taken now where it holds none (13 R315, R317); none where no slot is free. -/
def slotFor (s : State) (i b seq : Nat) : Option (Nat × State) :=
  match slotOf s i b with
  | some n => some (n, s)
  | none =>
    (freeSlot s (i / 8)).map fun n =>
      let s := match bucketDesc s i b with | .ok d => descRead s i d | .error _ => s
      (n, s.setASlot n { ASlot.reset with
        st := 1, ctx := Fin.ofNat 8 (i % 8), bucket := BitVec.ofNat 16 b, seq := BitVec.ofNat 8 seq, deadline := bucketDeadline s i })

/-- The checks of the descriptor at a bucket's first contribution or packet of a round (13 R302, R303, R321). -/
def bucketVet (s : State) (i : Nat) (x : AddCtx) (d : BDesc) (b : Nat) : Option Nat :=
  if (slotOf s i b).isSome then none else bucketCheck s i x d

/-- The tiles of a bucket contributed locally in its open round. -/
def tilesGot (s : State) (i b t : Nat) : Bool :=
  (awaitOf (s.adder i) b).isSome ||
    (match slotOf s i b with
    | some n => (s.aslot n).got.contains t
    | none => false)

/-- Local buffers that hold what a context sends: its DATA tiles, and the RESULT tiles of the buckets that it owns (13 R315, log entry
41). -/
def outUsed (s : State) (i : Nat) : Nat :=
  (s.adder i).outq.countP fun p => p.sub == 1 || (p.sub == 2 && !passedOn s i (p.fld 16 16))

/-- Local buffers of a unit in use (13 R315): tiles that wait, tiles to be sent, and tiles on their way to it. -/
def localUsed (s : State) (m : Nat) : Nat :=
  (((List.range 64).map fun n => (s.aslot (64 * m + n)).locals.length + (s.aslot (64 * m + n)).results.length).sum +
    ((List.range 8).map fun j => (s.adder (8 * m + j)).localQ.length + outUsed s (8 * m + j)).sum) +
    s.tiles.countP (fun t => t.tile.bucket.toNat % 24 == m)

/-- Local buffers of a unit: those that no enabled context reserves (13 R315). -/
def localCap (s : State) (m : Nat) : Nat :=
  256 - ((List.range 8).map fun j => if (s.adder (8 * m + j)).enable then (s.adder (8 * m + j)).cred else 0).sum

/-- What became of a contribution presented to a context: taken or ended, or it waits. -/
inductive Taken where
  | yes (s : State)
  | wait

/-- The state after a contribution was taken, if it was. -/
def Taken.state? : Taken → Option State
  | .yes s => some s
  | .wait => none

/-- A local tile presented to its context (13 R303, R306, R307, R317): `layer` for a tile read from SRC. -/
def localTry (s : State) (i : Nat) (layer : Bool) (t : Tile) : Taken :=
  let b := t.bucket.toNat
  let x := s.adder i
  match bucketDesc s i b with
  | .error e => if adderHeld s i b || unreadWaits s i b e then .wait else .yes (bucketFail s i e b t.tile.toNat)
  | .ok d =>
    if adderHeld s i b then .wait
    else if d.nrnd % 256 = (x.seq.toNat + 2) % 256 then .wait
    else match (if bucketOpen s i b then none else bucketCheck s i x d) with
      | some k => .yes (bucketEnd s i b 2 k t.tile.toNat none)
      | none =>
        if (d.tileMode == layer) || t.wire.toNat != d.wire then .yes (bucketEnd s i b 2 4 t.tile.toNat none)
        else if d.ntile ≤ t.tile.toNat then .yes (bucketEnd s i b 2 5 t.tile.toNat none)
        else if tilesGot s i b t.tile.toNat then .wait
        else match slotFor s i b d.nrnd with
          | none => .wait
          | some (n, s) =>
            let y := s.aslot n
            let s := s.setASlot n { y with got := t.tile.toNat :: y.got, locals := y.locals ++ [t] }
            let s := if t.taint then nonFinite s i b t.tile.toNat else s
            .yes (slotAdvance s i n t.tile.toNat d)

/-- A partial sum that passed its checks, presented to its slot (13 R317): its buffer is filled already. -/
def dataTry (s : State) (i : Nat) (q : DataTile) : Taken :=
  let b := q.tile.bucket.toNat
  match bucketDesc s i b with
  | .error e => if adderHeld s i b then .wait else .yes (packetFail (freeIn s i b) i e b q.tile.tile.toNat q.seq.toNat)
  | .ok d =>
    if adderHeld s i b then .wait
    else if d.nrnd % 256 ≠ q.seq.toNat ∨ (awaitOf (s.adder i) b).isSome then .yes (creditEnd (freeIn s i b) i b)
    else match slotFor s i b d.nrnd with
      | none => .wait
      | some (n, s) =>
        let y := s.aslot n
        if y.datas.any (fun z => z.tile == q.tile.tile) then .yes (creditEnd (freeIn s i b) i b)
        else .yes (slotAdvance (s.setASlot n { y with datas := y.datas ++ [q.tile] }) i n q.tile.tile.toNat d)

/-- The waiting partial sums of a context presented again, in order. -/
def retryIn (i : Nat) : List DataTile → State → State
  | [], s => s
  | q :: qs, s =>
    if (s.adder i).inq.contains q then
      match dataTry (s.setAdder i { s.adder i with inq := (s.adder i).inq.erase q }) i q with
      | .yes s => retryIn i qs s
      | .wait => retryIn i qs (adderWait s i q.tile.bucket.toNat)
    else retryIn i qs s

/-- The waiting local tiles of a context presented again, in order. -/
def retryLocal (i : Nat) : List Tile → State → State
  | [], s => s
  | t :: ts, s =>
    if (s.adder i).localQ.contains t then
      match localTry (s.setAdder i { s.adder i with localQ := (s.adder i).localQ.erase t }) i false t with
      | .yes s => retryLocal i ts s
      | .wait => retryLocal i ts (adderWait s i t.bucket.toNat)
    else retryLocal i ts s

/-- Whether a context has contributions that wait. -/
def AddCtx.waits (x : AddCtx) : Bool := x.enable && !(x.inq.isEmpty && x.localQ.isEmpty)

/-- Every waiting contribution of a unit presented again after a slot, a round or a bucket ended (13 R303, R315). -/
def retryUnit (s : State) (m : Nat) : State :=
  ((List.range 8).map (8 * m + ·)).foldl (fun s i =>
    if (s.adder i).waits then retryLocal i (s.adder i).localQ (retryIn i (s.adder i).inq s) else s) s

/-- A tile of the image at SRC (13 R301, R307). -/
def srcTile (s : State) (x : AddCtx) (d : BDesc) (b t : Nat) : Tile :=
  let raw := memBytes s (d.src + wireStride d.wire * t) (wireStride d.wire)
  let pay := raw.take (wireBytes d.wire)
  let flag := (raw.getD 1040 0)
  let f := wireFmt d.wire
  ⟨BitVec.ofNat 12 x.job, BitVec.ofNat 16 b, BitVec.ofNat 16 t, BitVec.ofNat 2 d.wire,
    if d.wire = 2 then flag.getLsbD 0 else (wirePats d.wire pay).any (fun v => !(f.decode v).isFin),
    d.wire == 2 && flag.getLsbD 1, pay⟩

/-- Tile `t` of a published bucket read from SRC and contributed (13 R305, R307), once a local buffer is free for it (R315). -/
def layerRead (s : State) (i b t : Nat) : Taken :=
  match bucketDesc s i b with
  | .error e => if adderHeld s i b || unreadWaits s i b e then .wait else .yes (bucketFail s i e b t)
  | .ok d =>
    let x := s.adder i
    if adderHeld s i b ∨ d.nrnd % 256 = (x.seq.toNat + 2) % 256 then .wait
    else match (if bucketOpen s i b then none else bucketCheck s i x d) with
      | some k => .yes (bucketEnd s i b 2 k t none)
      | none =>
        if d.tileMode then .yes (bucketEnd s i b 2 4 t none)
        else if tilesGot s i b t ∨ localCap s (i / 8) ≤ localUsed s (i / 8) then .wait
        else match adderReadErr s x (d.src + wireStride d.wire * t) (wireStride d.wire) with
          | some e => .yes (bucketEnd s i b e.1 e.2 t none)
          | none =>
            let n := wireStride d.wire
            let s := countPart (wakeExtent s (d.src + n * t) n) (partOfHall s x.hall) 9 n
            match localTry s i true (srcTile s x d b t) with
            | .wait => .wait
            | .yes s =>
              match slotOf s i b with
              | some m =>
                let y := s.aslot m
                .yes (s.setASlot m { y with pubNext := if t + 1 < d.ntile then some (t + 1) else none })
              | none => .yes s

/-- The publish that a context works on: the tile a slot needs next, else the first queued publish that can begin (13 R305). -/
def layerStep (s : State) (i : Nat) : State :=
  match (slotsHeld s i).find? (fun n => (s.aslot n).pubNext.isSome) with
  | some n =>
    let y := s.aslot n
    (match layerRead s i y.bucket.toNat (y.pubNext.getD 0) with
    | .yes s => s
    | .wait => adderWait s i y.bucket.toNat)
  | none =>
    let rec pick : List W16 → Option (W16 × State)
      | [] => none
      | b :: bs =>
        match layerRead s i b.toNat 0 with
        | .yes s => some (b, s)
        | .wait => pick bs
    match pick (s.adder i).pubq with
    | none => (s.adder i).pubq.foldl (fun s b => adderWait s i b.toNat) s
    | some (b, s) => s.setAdder i { s.adder i with pubq := (s.adder i).pubq.erase b }

/-- A write to AJPUB (13 R305). Only the unit at controller b mod 24 sums bucket b (R293); a publish elsewhere is discarded, which is the
model's choice: the manual names no error for it (log entry 105). -/
def adderPublish (s : State) (i : Nat) (b : W16) : State :=
  let x := s.adder i
  if !x.enable || b.toNat % 24 != i / 8 then s
  else if 32 ≤ x.pubq.length then adderError s i 8 0 b.toNat x.seq.toNat 0 none
  else match bucketDesc s i b.toNat with
    | .error e =>
      if unreadWaits s i b.toNat e then s.setAdder i { x with pubq := x.pubq ++ [b] } else retryUnit (bucketFail s i e b.toNat 0) (i / 8)
    | .ok d =>
      let s := descRead s i d
      if d.tileMode then retryUnit (bucketEnd s i b.toNat 2 4 0 none) (i / 8)
      else s.setAdder i { x with pubq := x.pubq ++ [b] }

/-- The checks of 13 R298, in order. -/
def adderCheck (s : State) (i : Nat) (x : AddCtx) : Option Nat :=
  let m := ctlOfCtx i
  let tmoBad (t : Nat) : Bool := decide (t ≠ 0) && (decide (t < 10) || decide (60000000 < t))
  if !x.own.getLsbD 8 then some 0
  else if tmoBad (fieldN x.tmo.toNat 0 26) || tmoBad (fieldN x.vcfg.toNat 0 26) then some 1
  else if (List.range 8).any (fun j => 8 * m + j != i && (s.adder (8 * m + j)).enable && (s.adder (8 * m + j)).job == x.job) then some 2
  else if 240 < x.cred + ((List.range 8).map fun j =>
      if 8 * m + j ≠ i ∧ (s.adder (8 * m + j)).enable then (s.adder (8 * m + j)).cred else 0).sum then some 3
  else
    let n := 64 * max x.nbl 1
    let r := regionOfCtx i
    if x.table % 64 ≠ 0 ∨ !(inRegionSram r x.table n || inRegionLpddr r x.table n) ∨
        !(match partOfHall s x.hall with
          | some p => (firstReserved s x.table n).isNone && inMemWindows s p x.table n
          | none => false) then some 4
    else if x.rlast < x.rpos then some 5
    else if x.isHome && (List.range 192).any (fun k =>
        k != i && (s.adder k).enable && (s.adder k).isHome && (s.adder k).job == x.job) then some 6
    else none

/-- AJCTL.ENABLE set from 0 to 1 (13 R298); a unit out of service does no work (01 R13). -/
def adderEnableOp (s : State) (i : Nat) : State :=
  let x := s.adder i
  if x.enable || ctlRetired s (ctlOfCtx i) then s
  else match adderCheck s i x with
    | some k => adderError s i 1 k 0 x.seq.toNat 0 none
    | none =>
      readyCheck (s.setAdder i { x with
        enable := true, st := .active, seq := 0, ready := false, cur := RoundAcc.zero, nxt := RoundAcc.zero
        credits := x.ocred, inbuf := 0, outq := [], inq := [], localQ := [], pubq := [], await := [], unread := [], vhome := VHome.zero }) i

/-- The enabled contexts of a region that hold a job. -/
def regionAdders (s : State) (r job : Nat) : List Nat :=
  ((List.range 48).map (48 * r + ·)).filter fun i => (s.adder i).enable && (s.adder i).job == job

/-- Two verdict words combined (13 R326): bits 3:0 ORed, the larger BMAX; ERR sets TAINT. -/
def combineWords (a b : W16) : W16 :=
  let o := (a ||| b) &&& 0xF
  let o := if o.getLsbD 2 then o ||| 1 else o
  o + BitVec.ofNat 16 (16 * max (fieldN a.toNat 4 4) (fieldN b.toNat 4 4)) + (b &&& 0xFF00)

/-- A region's contribution for a job, sent once every enabled context of the job has sent its ready word (13 R324, 08 R204). -/
def regionVerdict (s : State) (r job : Nat) : State :=
  let mine (w : ReadyWord) : Bool := w.unit.val / 6 == r && w.job.toNat == job
  let ws := s.gathered.filter mine
  match ws with
  | [] => s
  | w :: rest =>
    if (regionAdders s r job).all (fun i => ws.any fun w => w.unit.val == i / 8 && w.ctx.val == i % 8) then
      let x := s.region r
      let word := rest.foldl (fun a v => combineWords a v.word) w.word
      let word := if x.marks.contains job then word ||| 0xA else word
      let s := s.setRegion r { x with marks := x.marks.filter (· != job) }
      { s with
        gathered := s.gathered.filter (fun w => !mine w)
        vcontribs := s.vcontribs ++ [⟨Fin.ofNat 4 r, BitVec.ofNat 12 job, word⟩] }
    else s

/-- Every open bucket of a context ended with code 0x7 (13 R332). -/
def endBuckets (s : State) (i detail : Nat) : List Nat → State
  | [] => s
  | b :: bs => endBuckets (bucketEnd s i b 7 detail 0 none) i detail bs

/-- The buffers of partial sums that waited and of RESULT tiles that were passed on freed, with their credits (13 R316, R332). -/
def freeHeld (s : State) (i : Nat) : State :=
  let x := s.adder i
  (x.inq.map (·.tile.bucket.toNat) ++ (x.outq.filter (·.sub == 2)).map (·.fld 16 16)).foldl (fun s b => freeIn s i b) s

/-- ENABLE written to 0 (13 R332); `detail` is 1 for a partition reset. The SUMMARY packets that its buckets owe leave, and no tile does
(log entry 41). -/
def adderDisableOp (s : State) (i detail : Nat) : State :=
  let x := s.adder i
  if !x.enable then s
  else
    let bs := (slotsHeld s i).map (fun n => (s.aslot n).bucket.toNat) ++ x.await.map (fun w => w.bucket.toNat)
    let s := freeHeld (endBuckets s i detail bs) i
    let s := adderSends i s ((s.adder i).outq.filter (·.sub == 3))
    let y := s.adder i
    let s := s.setAdder i { y with
      enable := false, st := .off, pubq := [], localQ := [], inq := [], outq := [], inbuf := 0, unread := [], vhome := VHome.zero }
    let mine (w : ReadyWord) : Bool := w.unit.val == ctlOfCtx i && w.ctx.val == i % 8
    let s := { s with readies := s.readies.filter (fun w => !mine w), gathered := s.gathered.filter (fun w => !mine w) }
    let r := regionOfCtx i
    let s := if jobInRegion s r x.job then s
      else s.setRegion r { s.region r with marks := (s.region r).marks.filter (· != x.job) }
    retryUnit (regionVerdict s r x.job) (i / 8)

/-- The registers of an adder context (13 R297). -/
def adderRegs : List RegAt :=
  [(0x000, 4), (0x008, 8), (0x010, 8), (0x018, 8), (0x020, 4), (0x028, 8), (0x030, 4), (0x038, 8), (0x040, 4), (0x048, 4),
   (0x050, 8), (0x058, 8), (0x060, 4), (0x068, 4), (0x070, 8), (0x078, 8), (0x080, 8)]

/-- AJSTAT.STATE (13 R297). -/
def addStCode : AddSt → Nat
  | .off => 0
  | .active => 1
  | .fault => 2

/-- A register of an adder context read (13 R297). -/
def adderRead (s : State) (i off : Nat) : W64 :=
  let x := s.adder i
  if off = 0x000 then x.own.zeroExtend 64
  else if off = 0x008 then x.cfg
  else if off = 0x010 then x.ring
  else if off = 0x018 then x.btab
  else if off = 0x020 then x.rnd.zeroExtend 64
  else if off = 0x028 then x.pip
  else if off = 0x030 then x.tmo.zeroExtend 64
  else if off = 0x038 then x.vcfg
  else if off = 0x040 then BitVec.ofNat 64 (b2n x.enable)
  else if off = 0x048 then x.pub.zeroExtend 64
  else if off = 0x050 then BitVec.ofNat 64
    (addStCode x.st + 4 * (slotsHeld s i).length + 512 * b2n x.err + 1024 * x.pubq.length + 65536 * x.seq.toNat + 2 ^ 24 * b2n x.ready)
  else if off = 0x058 then x.ajerr
  else if off = 0x060 then x.verd.zeroExtend 64
  else if off = 0x068 then x.cur.done.zeroExtend 64
  else if off = 0x070 then x.nf
  else if off = 0x078 then x.bump
  else if off = 0x080 then x.rounds
  else 0

/-- A configuration register of a disabled context written (13 R297). DESIGN CHOICE: an NBL of 0 or above 2,731 and an NBR above 2,731 lie
outside the range that the manual gives and are taken as reserved values, so the field keeps its value (00 R4, log entry 107). -/
def adderCfgWrite (x : AddCtx) (off : Nat) (v m : W64) : AddCtx :=
  if off = 0x008 then
    (let n := masked x.cfg v m
     { x with cfg := mergeField (mergeField x.cfg n 0 13) n 16 16 })
  else if off = 0x010 then { x with ring := masked x.ring v m }
  else if off = 0x018 then
    (let n := masked x.btab v m
     { x with btab := wrField (mergeField x.btab n 0 48) n 48 12 (fun k => decide (1 ≤ k) && decide (k ≤ 2731)) })
  else if off = 0x020 then
    (let n := masked x.rnd (v.truncate 32) (m.truncate 32) &&& 0xFFF
     { x with rnd := if n ≤ 2731 then n else x.rnd })
  else if off = 0x030 then { x with tmo := (masked x.tmo (v.truncate 32) (m.truncate 32)) &&& 0x3FFFFFF }
  else if off = 0x038 then
    (let n := masked x.vcfg v m
     let g := mergeField x.vcfg n 0 30
     let g := wrField g n 30 3 (fun k => decide (k < 7))
     { x with vcfg := mergeField g n 33 6 })
  else x

/-- AJPIP written: a reserved pip number leaves its field (13 R297). -/
def adderPipWrite (x : AddCtx) (v m : W64) : AddCtx :=
  let n := masked x.pip v m
  let p := wrField x.pip n 0 6 pipOk
  let p := mergeField p n 6 10
  let p := wrField p n 16 6 pipOk
  { x with pip := mergeField p n 22 10 }

/-- AJPUB written (13 R305). -/
def ajpubWrite (s : State) (i : Nat) (v m : W64) : State :=
  let x := s.adder i
  adderPublish (s.setAdder i { x with pub := masked x.pub (v.truncate 16) (m.truncate 16) }) i (v.truncate 16)

/-- A register of an adder context written (13 R297). -/
def adderWrite (i : Nat) (s : State) (off : Nat) (v m : W64) : State :=
  let x := s.adder i
  if off = 0x040 then
    (if m.getLsbD 0 then (if v.getLsbD 0 then adderEnableOp s i else adderDisableOp s i 0) else s)
  else if off = 0x048 then (if (m.truncate 16 : W16) = 0 then s else ajpubWrite s i v m)
  else if off = 0x050 then s.setAdder i { x with err := x.err && !v.getLsbD 9 }
  else if off = 0x028 then s.setAdder i (adderPipWrite x v m)
  else if x.enable then s
  else s.setAdder i (adderCfgWrite x off v m)

/-- A partition reset of a context (13 R332): as a disable with detail 0x01, then every register but AJOWN at its reset value. -/
def adderReset (s : State) (i : Nat) : State :=
  let s := adderDisableOp s i 1
  s.setAdder i { AddCtx.reset with own := (s.adder i).own }

/-- ASLOT of a slot as a hallmark reads it (13 R299): 0 where the slot is not held by one of its contexts. -/
def aslotRead (s : State) (m : Nat) (h : Byte) (n : Nat) : W64 :=
  let y := s.aslot (64 * m + n)
  if y.st ≠ 0 ∧ (s.adder (8 * m + y.ctx.val)).hall = h then
    BitVec.ofNat 64 (y.st.toNat + 4 * y.ctx.val + 32 * y.bucket.toNat + 2 ^ 21 * y.seq.toNat + 2 ^ 29 * y.tiles.length)
  else 0

end Sys2Proof.Machine
end

