-- ==== Sys2Proof/Machine/Ops.lean ====
section
/-! DEFINITION. How a cell runs: cell time, interrupts, taking an exception or an interrupt and returning (03 R57 to R66), and the
shared frame of every instruction command: what stands before an instruction executes and what follows it. -/

namespace Sys2Proof.Machine

/-- KIPEND (03 R66). -/
def kipend (s : State) (c : Nat) : W32 :=
  let k := s.cell c
  BitVec.ofNat 32 (2 * b2n (decide (k.ctcmp.toNat ≤ ctime s c)) + 4 * b2n k.defErr.isSome + 8 * b2n k.hmRef.isSome +
    16 * b2n k.bell.isSome)

/-- The class of the interrupt that qualifies: the lowest whose bit is 1 in KIEN and KIPEND, while IEN = 1 (03 R64). -/
def dueInterrupt (s : State) (c : Nat) : Option Nat :=
  let k := s.cell c
  let q := (k.kien &&& kipend s c).toNat
  if k.kstate.getLsbD 1 then [1, 2, 3, 4].find? (fun i => q.testBit i) else none

/-- DETAIL and KADDR of an interrupt (03 R62). -/
def interruptInfo (k : Cell) (cls : Nat) : Byte × W64 :=
  let o := if cls = 2 then k.defErr else if cls = 3 then k.hmRef else if cls = 4 then k.bell else none
  o.getD (0, 0)

/-- KSTATE at trap entry: SAVIEN = IEN, IEN = 0, SAVLEV = the privilege, NEST = 1 (03 R65). -/
def kstateTrap (ks : W32) (sup : Bool) : W32 :=
  BitVec.ofNat 32 (1 + 4 * b2n (ks.getLsbD 1) + 8 * b2n sup)

/-- KSTATE after TRET: IEN = SAVIEN, NEST = 0 (03 R65). -/
def kstateRet (ks : W32) : W32 := BitVec.ofNat 32 (2 * b2n (ks.getLsbD 2) + 4 * b2n (ks.getLsbD 2) + 8 * b2n (ks.getLsbD 3))

/-- The cell after trap entry (03 R65). -/
def Cell.trapEntry (k : Cell) (int : Bool) (cls detail : Byte) (addr : W64) : Cell :=
  { k with
    krpc := if cls = 0x0A ∧ int = false then k.pc + 4 else k.pc
    kcause := BitVec.ofNat 32 (b2n int * 65536 + detail.toNat * 256 + cls.toNat)
    kaddr := addr
    kstate := kstateTrap k.kstate k.sup
    sup := true
    pc := k.kentry &&& ~~~3 }

/-- Trap entry, or a cell fault where an exception is raised while NEST = 1 (03 R61, R65). -/
def takeTrap (s : State) (c : Nat) (int : Bool) (cls detail : Byte) (addr : W64) : State :=
  if !int && (s.cell c).kstate.getLsbD 0 then cellFault s c
  else s.updCell c fun k => k.trapEntry int cls detail addr

/-- TRET at S (03 R65). -/
def Cell.trapReturn (k : Cell) : Cell :=
  { k with pc := k.krpc &&& ~~~3, sup := k.kstate.getLsbD 3, kstate := kstateRet k.kstate }

/-- An interrupt taken: uncommitted tile instructions and a waiting pip instruction are abandoned, and KRPC names the oldest
abandoned instruction (03 R64, 06 R141). A wake of the vector datapaths goes on, and holds back no instruction now (04 R111). -/
def takeInterrupt (s : State) (c : Nat) (cls : Nat) : State :=
  let s := s.updCell c fun k =>
    { k with pc := (match k.tpend with | i :: _ => i.pc | [] => k.pc), tpend := [], wait := none, vwait := false }
  let d := interruptInfo (s.cell c) cls
  takeTrap s c true (BitVec.ofNat 8 cls) d.1 d.2

/-- Whether a cell executes instructions: released, not stopped, not waiting, its block in Run (03 R57, R61, 11 R254, 20 R455), and no
vector instruction before it waiting for a wake (04 R109). -/
def canIssue (s : State) (c : Nat) : Bool :=
  let k := s.cell c
  let b := s.block (blockOfCell c)
  !k.held && !k.faulted && !k.vwait && k.wait.isNone && decide (b.st = .run) && !b.oos

/-- What an instruction does when it executes: it completes and PC moves to the next word; it completes with another PC; it does
not complete yet and is presented again; it raises an exception. -/
inductive Res where
  | done (s : State)
  | jump (s : State) (pc : W64)
  | stay (s : State)
  | exc (e : Exc) (s : State)

/-- The cell with PC moved past a completed instruction. -/
def Cell.nextPc (k : Cell) : Cell := { k with pc := k.pc + 4 }

/-- The state after an instruction (03 R60): before an exception every older tile instruction commits (06 R141). -/
def finish (c : Nat) : Res → State
  | .done s => s.updCell c Cell.nextPc
  | .jump s pc => s.updCell c fun k => { k with pc := pc }
  | .stay s => s
  | .exc e s =>
    let s := commitAll s c
    if (s.cell c).faulted || !(s.cell c).tpend.isEmpty then s else takeTrap s c false e.cls e.detail e.addr

/-- A tile instruction presented to a cell: a qualifying interrupt is taken instead (03 R64). -/
def issueTile (s : State) (c : CellId) (f : State → Res) : State :=
  if canIssue s c.val then
    match dueInterrupt s c.val with
    | some i => takeInterrupt s c.val i
    | none => finish c.val (f s)
  else s

/-- Any other instruction presented to a cell: its effects follow the commits of every older tile instruction (06 R140). -/
def issue (s : State) (c : CellId) (f : State → Res) : State :=
  issueTile s c fun s =>
    let s := commitAll s c.val
    if (s.cell c.val).faulted || !(s.cell c.val).tpend.isEmpty then .stay s else f s

/-- Illegal instruction: a reserved encoding (09 R210). -/
def illegal (s : State) : Res := .exc ⟨1, 0, 0⟩ s

/-- An instruction that changes only its own cell. -/
def onCell (s : State) (c : CellId) (f : Cell → Cell) : Res := .done (s.updCell c.val f)

/-- A vector instruction waits while the vector datapaths are gated, and wakes them (04 R109). -/
def vecReady (s : State) (c : CellId) (f : State → Res) : Res :=
  if (s.cell c.val).vgated then .stay (s.updCell c.val fun k => { k with vwaking := true, vwait := true }) else f s

/-- A memory access that meets memory: it goes on, raises, or waits and is presented again. -/
def memRes (m : Meets) (f : List Nat → State → Res) : Res :=
  match m with
  | .go as s => f as s
  | .raise e s => .exc e s
  | .hold s => .stay s

/-- The answer of a meaning that never stops. -/
abbrev Ans := Host.Outcome State Fault Refusal

/-- A next state. -/
def next (s : State) : Ans := .next s

end Sys2Proof.Machine
end

