-- ==== Sys2Proof/Machine/PipOps.lean ====
section
/-! DEFINITION. Pips, signals and barriers (11): waits and their ends, signals counted, barrier messages sent and received.
A barrier message's `src` is the sending cell, or 512 + the port a tree message came through. -/

namespace Sys2Proof.Machine

/-- Pip `p` of a cell. -/
def Cell.pip (k : Cell) (p : Nat) : Pip := Tab.get Pip.reset k.pips p
/-- Pip `p` of a cell replaced. -/
def Cell.setPip (k : Cell) (p : Nat) (x : Pip) : Cell := { k with pips := Tab.set Pip.reset k.pips p x }

/-- Pip `p` of module cell `c` replaced. -/
def setPipAt (s : State) (c p : Nat) (x : Pip) : State := s.updCell c fun k => k.setPip p x

/-- PCFG.MODE. -/
def Pip.mode (x : Pip) : Nat := fieldN x.cfg.toNat 0 2
/-- PCFG.SPLIT. -/
def Pip.split (x : Pip) : Bool := x.cfg.getLsbD 2
/-- PCFG.RSIG. -/
def Pip.rsig (x : Pip) : Bool := x.cfg.getLsbD 3
/-- PCFG.RJOB. -/
def Pip.rjob (x : Pip) : BitVec 12 := BitVec.ofNat 12 (fieldN x.cfg.toNat 4 12)
/-- PCFG.HCELL. -/
def Pip.hcell (x : Pip) : Nat := fieldN x.cfg.toNat 16 9
/-- PCFG.NPART. -/
def Pip.npart (x : Pip) : Nat := fieldN x.cfg.toNat 32 10
/-- PCFG.PARENT: the port toward the parent home, or none for the root. -/
def Pip.parent (x : Pip) : Option Nat :=
  let p := fieldN x.cfg.toNat 42 3
  if p = 0 ∨ p = 7 then none else some (p - 1)
/-- PCFG.CHILD of a port. -/
def Pip.child (x : Pip) (port : Nat) : Bool := decide (port < 6) && x.cfg.getLsbD (45 + port)

/-- The control-space address of pip `p` of cell `c` (11 R245). -/
def pipAddr (c p : Nat) : Nat := 0x30020000000 + 0x10000 * c + 0x1000 + 0x40 * p

/-- A record of a cell at its block's collector (21 R472). -/
def cellReport (s : State) (c cls : Nat) (detail : W64) : State :=
  reportBlock s (blockOfCell c) (originCell s c) (BitVec.ofNat 16 cls) (ownerOfBlock s (blockOfCell c)) detail

/-- A discarded message at a pip: MISUSE, and a record of class pip misuse (11 R248, R260). -/
def pipMisuse (s : State) (c p : Nat) : State :=
  cellReport (setPipAt s c p { (s.cell c).pip p with misuse := true }) c 6 (detailWord 0 p 0)

/-- A block's exit begins (20 R456). Dormant needs the events of 20 R457. -/
def wakeBlock (s : State) (b : Nat) : State :=
  let x := s.block b
  if x.st = .run ∨ x.st = .dormant then s else s.setBlock b { x with waking := true }

/-- A PIPBAR's condition: CMPL − need ≥ 0 modulo 2^16 (11 R258). -/
def Pip.barDone (x : Pip) : Bool :=
  let need := if x.split then x.gen else x.gen + 1
  decide ((x.cmpl - need).toNat < 32768)

/-- The condition of a wait on its pip (11 R253, R258). -/
def Wait.ok (w : Wait) (x : Pip) : Bool :=
  match w.kind with
  | .wait => decide (1 ≤ x.count.toNat)
  | .watch t => decide (t.toNat ≤ x.count.toNat)
  | .bar => x.barDone && decide (w.wd ≠ .sent)

/-- What completing a wait does to its pip: PIPWAIT consumes 1, PIPBAR moves to the next generation (11 R253, R258). -/
def Pip.complete (x : Pip) : WaitKind → Pip
  | .wait => { x with count := x.count - 1 }
  | .watch _ => x
  | .bar => { x with gen := x.gen + 1, arr := false }

/-- A waiting pip instruction whose condition holds completes, and wakes its block (11 R249, 20 R456). -/
def checkWait (s : State) (c p : Nat) : State :=
  let k := s.cell c
  match k.wait with
  | none => s
  | some w =>
    if w.pip = p ∧ w.ok (k.pip p) then
      wakeBlock (s.setCell c { (k.setPip p ((k.pip p).complete w.kind)) with wait := none, pc := k.pc + 4 }) (blockOfCell c)
    else s

/-- A wait ended with the pip-wait timeout (11 R255): nothing is consumed, and KRPC names the instruction. -/
def endTimeout (s : State) (c p : Nat) : State :=
  let s := s.updCell c fun k => { k with wait := none }
  wakeBlock (takeTrap s c false 9 (BitVec.ofNat 8 p) 0) (blockOfCell c)

/-- COUNT raised by an amount, clamped at 65,535 (11 R247, R249). -/
def Pip.add (x : Pip) (n : W16) : Pip :=
  { x with count := BitVec.ofNat 16 (satAdd 65535 x.count.toNat n.toNat), ovf := x.ovf || decide (65535 < x.count.toNat + n.toNat) }

/-- A signal that passed the hallmark check reaches a pip (11 R247, R248, R264). -/
def countSignal (s : State) (c p : Nat) (n : W16) : State :=
  if (s.block (blockOfCell c)).st = .dormant then cellReport s c 7 (detailWord 0 p 0)
  else
    let x := (s.cell c).pip p
    if x.mode ≠ 0 then pipMisuse s c p
    else
      let s' := setPipAt s c p (x.add n)
      let s' := if 65535 < x.count.toNat + n.toNat then cellReport s' c 5 (detailWord 0 p 0) else s'
      checkWait s' c p

/-- A refused signal: the record at the target's block, and the refusal back to a cell (03 R82). -/
def refuseSignal (s : State) (src c p : Nat) : State :=
  let s := cellReport s c 4 (detailWord 0 0 (pipAddr c p))
  if src < 512 then sendRefusal s src 1 (BitVec.ofNat 64 (pipAddr c p)) else s

/-- The packet that a PIPSIG with REMOTE = 1 makes (11 R252, 14 R344). -/
def signalPacket (s : State) (issuer cell pip amount : Nat) (job : BitVec 12) (dst : Nat) : Packet :=
  ⟨kSignal, 0, mkHdr 0 job.toNat (pip + cell * 2 ^ 6 + amount * 2 ^ 15) s.modId dst, [], issuer + 1⟩

/-- Whether a pip counts a signal of the fabric that carries a job tag (11 R252); at a cell in Dormant it is lost (R264). -/
def remoteOk (s : State) (c p : Nat) (job : BitVec 12) : Bool :=
  let y := (s.cell c).pip p
  decide ((s.block (blockOfCell c)).st = .dormant) || (decide (p < 48) && y.mode == 0 && y.rsig && y.rjob == job)

/-- A signal that names this module by its identifier arrives (11 R252, 14 R336): its issuer stands on this module. -/
def ownSignal (s : State) (g : Sig) (job : BitVec 12) : State :=
  let c := g.cell.val
  let p := g.pip.toNat
  let s := countRx s (ownerOfBlock s (blockOfCell c)) (signalPacket s g.src c p g.amount.toNat job s.modId)
  if remoteOk s c p job then countSignal s c p g.amount else refuseSignal s g.src c p

/-- A signal arrives at a pip of this module (11 R247, R249). DESIGN CHOICE (log entry 119): at a cell in Dormant too its hallmark is
checked first. -/
def signalArrive (s : State) (g : Sig) : State :=
  match g.job with
  | some job => ownSignal s g job
  | none =>
  if hallOk (hallOfBlock s (blockOfCell g.cell.val)) g.hall then countSignal s g.cell.val g.pip.toNat g.amount
  else refuseSignal s g.src g.cell.val g.pip.toNat

/-- The home of a barrier as a pip of a cell names it (11 R244, R256). -/
def homeOf (c : Nat) (x : Pip) : Nat := if x.mode = 2 then c else x.hcell

/-- A barrier message sent on this module. -/
def sendBar (s : State) (kind : BKind) (src c p : Nat) (gen : W16) (hall : Byte) : State :=
  let s := countBridge s (partOfHall s hall) (crossesFrom src c)
  { s with bmsgs := s.bmsgs ++ [⟨kind, src, Fin.ofNat 512 c, BitVec.ofNat 6 p, gen, hall, 0⟩] }

/-- SUB of a TREE packet (14 R344). -/
def treeSub : BKind → Nat
  | .arrival => 0
  | .release => 1
  | .withdraw => 2
  | .accepted => 3
  | .refused => 4

/-- A barrier message sent through a port to the neighbouring home, at the same cell and pip (11 R259, R262). -/
def sendTree (s : State) (kind : BKind) (port c p : Nat) (gen : W16) : State :=
  let x := (s.cell c).pip p
  let dst := (s.port port).partner.toNat % 2 ^ 18
  let pkt : Packet := ⟨kTree, 0,
    mkHdr (treeSub kind) x.rjob.toNat (p + c * 2 ^ 6 + gen.toNat * 2 ^ 15) s.modId dst, [], 0⟩
  sendOut (countTx s (ownerOfBlock s (blockOfCell c)) pkt) (some port) pkt

/-- A barrier message sent to a cell, or through a port (512 + port). -/
def sendTo (s : State) (kind : BKind) (rcv home p : Nat) (gen : W16) : State :=
  if rcv < 512 then sendBar s kind home rcv p gen (s.cell home).hall else sendTree s kind (rcv - 512) home p gen

/-- A barrier message sent to each of some receivers. -/
def sendAllTo (s : State) (kind : BKind) (home p : Nat) (gen : W16) : List Nat → State
  | [] => s
  | t :: ts => sendAllTo (sendTo s kind t home p gen) kind home p gen ts

/-- The receivers of a release: every selected cell but the home's own, and every child port (11 R259). -/
def releaseTargets (x : Pip) (home : Nat) : List Nat :=
  ((List.range 512).filter fun m => m != home && x.bmask.getLsbD (m / 8) && x.cmask.getLsbD (m % 8)) ++
  ((List.range 6).filter x.child).map (· + 512)

/-- Withdrawals answered to their askers in order. -/
def answerAll (s : State) (kind : BKind) (home p : Nat) : List (W16 × Nat) → State
  | [] => s
  | e :: es => answerAll (sendTo s kind e.2 home p e.1) kind home p es

/-- A home completes generation CMPL, and the next one when its arrivals are in (11 R259); `fuel` bounds the generations. The
withdrawals that wait for the parent's answer are refused after the releases (R261): the parent's own answer, of generation CMPL − 1 by
then, is discarded (R260). -/
def completeGen (s : State) (home p : Nat) : Nat → State
  | 0 => s
  | fuel + 1 =>
    let x := (s.cell home).pip p
    let s := sendAllTo s .release home p x.cmpl (releaseTargets x home)
    let y := { (s.cell home).pip p with cmpl := x.cmpl + 1, a0 := x.a1, a1 := 0, wd := [] }
    let s := answerAll (checkWait (setPipAt s home p y) home p) .refused home p x.wd
    if y.a0.toNat = y.npart then
      (match y.parent with
      | none => completeGen s home p fuel
      | some q => sendTree s .arrival q home p y.cmpl)
    else s

/-- An arrival at a home for a generation (11 R259, R260). -/
def homeArrival (s : State) (home p : Nat) (gen : W16) : State :=
  let x := (s.cell home).pip p
  if gen = x.cmpl then
    let y := { x with a0 := x.a0 + 1 }
    let s := setPipAt s home p y
    if y.a0.toNat = x.npart then
      (match x.parent with
      | none => completeGen s home p 2
      | some q => sendTree s .arrival q home p gen)
    else s
  else if gen = x.cmpl + 1 then setPipAt s home p { x with a1 := x.a1 + 1 }
  else pipMisuse s home p

/-- A withdrawal at a home (11 R260, R261): refused for the generation before CMPL, taken back while its count is not forwarded,
else passed to the parent, once for all the withdrawals that wait for its answer, with the ride-through armed (R263). DESIGN CHOICE (log
entry 123): A0 and A1 wrap where they are 0, which takes a rewritten PCFG. -/
def homeWithdraw (s : State) (home p asker : Nat) (gen : W16) : State :=
  let x := (s.cell home).pip p
  if gen = x.cmpl - 1 then sendTo s .refused asker home p gen
  else if gen = x.cmpl then
    if x.parent.isSome ∧ x.npart ≤ x.a0.toNat then
      let s' := setPipAt s home p
        { x with wd := x.wd ++ [(gen, asker)], wdDue := if x.wd = [] then moduleDue s 20 else x.wdDue }
      match x.wd, x.parent with
      | [], some q => sendTree s' .withdraw q home p gen
      | _, _ => s'
    else sendTo (setPipAt s home p { x with a0 := x.a0 - 1 }) .accepted asker home p gen
  else if gen = x.cmpl + 1 then sendTo (setPipAt s home p { x with a1 := x.a1 - 1 }) .accepted asker home p gen
  else pipMisuse s home p

/-- The parent's answer to the withdrawals a home passed on (11 R261, R263): accepted removes their arrivals. -/
def parentAnswer (s : State) (home p : Nat) (accepted : Bool) : State :=
  let x := (s.cell home).pip p
  let s := setPipAt s home p
    { x with wd := [], a0 := if accepted then BitVec.ofNat 10 (x.a0.toNat - x.wd.length) else x.a0 }
  answerAll s (if accepted then .accepted else .refused) home p x.wd

/-- An answer to the withdrawal of a waiting PIPBAR (11 R260, R261). DESIGN CHOICE (log entry 120): of an answer only the outstanding
withdrawal is asked for, not the generation. -/
def memberAnswer (s : State) (c p : Nat) (accepted : Bool) : State :=
  let k := s.cell c
  match k.wait with
  | some w =>
    if w.pip = p ∧ w.kind = .bar ∧ w.wd = .sent then
      if accepted then
        let s := s.setCell c { (k.setPip p { k.pip p with arr := false }) with wait := none }
        match dueInterrupt s c with
        | some i => wakeBlock (takeInterrupt s c i) (blockOfCell c)
        | none => endTimeout s c p
      else checkWait (s.setCell c { k with wait := some { w with wd := .refused } }) c p
    else pipMisuse s c p
  | none => pipMisuse s c p

/-- A release at a member (11 R259, R260). -/
def memberRelease (s : State) (c p : Nat) (gen : W16) : State :=
  let x := (s.cell c).pip p
  if x.mode = 1 ∧ gen = x.cmpl then checkWait (setPipAt s c p { x with cmpl := gen + 1 }) c p else pipMisuse s c p

/-- Whether a tree message may act at a home (11 R260): through its PARENT port or a CHILD port, with RSIG and the job tag. -/
def treeOk (x : Pip) (m : BMsg) : Bool :=
  let port := m.src - 512
  x.mode == 2 && x.rsig && x.rjob == m.job && (x.parent == some port || x.child port)

/-- A barrier message on this module: checked for the hallmark (11 R260) and for Dormant (R264). -/
def barrierLocal (s : State) (m : BMsg) : State :=
  let c := m.cell.val
  let p := m.pip.toNat
  let x := (s.cell c).pip p
  match m.kind with
  | .arrival => if x.mode = 2 then homeArrival s c p m.gen else pipMisuse s c p
  | .release => memberRelease s c p m.gen
  | .withdraw => if x.mode = 2 then homeWithdraw s c p m.src m.gen else pipMisuse s c p
  | .accepted => memberAnswer s c p true
  | .refused => memberAnswer s c p false

/-- A barrier message from another module (11 R259 to R262). DESIGN CHOICE (log entries 121, 122): a release of generation CMPL + 1 has no
effect, and a pip of 48 to 63, which no cell has, is misuse. -/
def barrierTree (s : State) (m : BMsg) : State :=
  let c := m.cell.val
  let p := m.pip.toNat
  let x := (s.cell c).pip p
  let now := m.gen == x.cmpl || m.gen == x.cmpl + 1
  if !treeOk x m then pipMisuse s c p
  else match m.kind with
    | .arrival => homeArrival s c p m.gen
    | .release => if !now then pipMisuse s c p else if m.gen = x.cmpl then completeGen s c p 2 else s
    | .withdraw => homeWithdraw s c p m.src m.gen
    | .accepted => if now then parentAnswer s c p true else pipMisuse s c p
    | .refused => if now then parentAnswer s c p false else pipMisuse s c p

/-- A barrier message arrives. DESIGN CHOICE (log entry 119): at a cell in Dormant too the hallmark is checked first. -/
def barrierArrive (s : State) (m : BMsg) : State :=
  let c := m.cell.val
  if m.src < 512 ∧ hallOk (hallOfBlock s (blockOfCell c)) m.hall = false then
    cellReport s c 4 (detailWord 0 0 (pipAddr c m.pip.toNat))
  else if (s.block (blockOfCell c)).st = .dormant then cellReport s c 7 (detailWord 0 m.pip.toNat 0)
  else if m.src < 512 then barrierLocal s m else barrierTree s m

/-- Whether a barrier message waits for an arbiter. -/
def barHeld (s : State) (m : BMsg) : Bool := msgHeld s m.src m.cell

/-- Whether two barrier messages keep their order: one sender, one receiver (11 R259). -/
def sameBar (x y : BMsg) : Bool := x.src == y.src && x.cell == y.cell
/-- Whether a signal waits for an arbiter (15 R361, R367): one that names this module by its identifier crosses the fabric interface. -/
def sigHeld (s : State) (g : Sig) : Bool :=
  match g.job with
  | some _ => arbHolds s arbFabric (regionOfCell g.src) || msgHeld s 8192 g.cell
  | none => msgHeld s g.src g.cell
/-- Whether two signals keep their order: one issuer, one pip (11 R250). -/
def sameSig (x y : Sig) : Bool := x.src == y.src && x.cell == y.cell && x.pip == y.pip

/-- The kind of barrier message that SUB of a TREE packet names (14 R344). -/
def treeKind (n : Nat) : BKind :=
  if n = 0 then .arrival else if n = 1 then .release else if n = 2 then .withdraw else if n = 3 then .accepted else .refused

/-- A barrier message from a TREE packet that came through a port (11 R262, 14 R344). -/
def treeMsg (pkt : Packet) (port : Nat) : BMsg :=
  ⟨treeKind pkt.sub, 512 + port, Fin.ofNat 512 (pkt.fld 22 9), BitVec.ofNat 6 (pkt.fld 16 6), BitVec.ofNat 16 (pkt.fld 31 16), 0, pkt.job⟩

/-- The barrier message that arrives when the `k`-th one reaches its receiver, where it is of a kind the command names: those on this
module are numbered first, then the packets delivered to it. -/
def takeBar (s : State) (k : Nat) (want : BKind → Bool) : State :=
  if k < s.bmsgs.length then
    match takeMsg sameBar k s.bmsgs with
    | some (m, rest) => if want m.kind && !barHeld s m then barrierArrive { s with bmsgs := rest } m else s
    | none => s
  else
    match takePacket s (k - s.bmsgs.length) (fun p => p.kind == kTree && want (treeKind p.sub)) with
    | some (x, s') =>
      let m := treeMsg x.pkt x.via
      if msgHeld s 8192 m.cell then s else
      let s := s'
      barrierArrive (countRx s (ownerOfBlock s (blockOfCell m.cell)) x.pkt) m
    | none => s

/-- The peer-loss record of a withdrawal that counts as accepted: it names the port toward the parent (11 R263, 21 R478). -/
def withdrawalLost (s : State) (c p : Nat) (peer : W32) : State :=
  let b := blockOfCell c
  reportBlockVia s b peer (originCell s c) 0x10 (ownerOfBlock s b) (detailWord 0 (((s.cell c).pip p).parent.getD 0) 0)

/-- The wait that a pip instruction enters, or the end it meets at once (11 R253 to R258): `t` is Gt[31:0], none without a timeout. -/
def enterWait (s : State) (c p : Nat) (kind : WaitKind) (t : Option Nat) : State :=
  let w : Wait := ⟨p, kind, t.map (fun n => (ctime s c + n) % 2 ^ 64), .none⟩
  let s' := checkWait (s.updCell c fun k => { k with wait := some w }) c p
  if (s'.cell c).wait.isNone then s'
  else if t = some 0 then
    (match kind with
    | .bar =>
      let x := (s.cell c).pip p
      sendBar (s.updCell c fun k => { k with wait := some { w with wd := .sent } }) .withdraw c (homeOf c x) p x.gen (s.cell c).hall
    | _ => endTimeout s' c p)
  else s'

/-- Gt of a wait (09 R212): none where the field names G0. -/
def waitTime (k : Cell) (t : Reg) : Option Nat := if t.val = 0 then none else some (fieldN (k.rdG t).toNat 0 32)

/-- A write to PCFG: reserved field values leave their field (00 R4), the pip becomes fresh, and a wait on it ends (11 R246). DESIGN
CHOICE: an NPART above 518, which 11 R245 does not list, is taken as a reserved value as 0 is (log entry 109). -/
def pcfgWriteOp (s : State) (c p : Nat) (v m : W64) : State :=
  let k := s.cell c
  let x := k.pip p
  let new := masked x.cfg v m
  let g := wrField x.cfg new 0 2 (fun n => decide (n < 3))
  let g := mergeField g new 2 14
  let g := mergeField g new 16 9
  let g := wrField g new 32 10 (fun n => decide (1 ≤ n) && decide (n ≤ 518))
  let g := wrField g new 42 3 (fun n => decide (n < 7))
  let g := mergeField g new 45 6
  let s := setPipAt s c p { Pip.reset with cfg := g, bmask := x.bmask, cmask := x.cmask }
  match k.wait with
  | some w => if w.pip = p then endTimeout s c p else s
  | none => s

/-- A withdrawal sent for a waiting PIPBAR whose arrival stands (11 R261). -/
def sendWithdrawal (s : State) (c : Nat) (w : Wait) : State :=
  let k := s.cell c
  let x := k.pip w.pip
  if w.wd = .none then
    sendBar (s.setCell c { k with wait := some { w with wd := .sent } }) .withdraw c (homeOf c x) w.pip x.gen k.hall
  else s

end Sys2Proof.Machine
end

