-- ==== Sys2Proof/Machine/LinkOps.lean ====
section
/-! DEFINITION. Fabric ports (14 R337 to R343, R349, R350, R360): flits, replay, training, ride-through, and packets received.
A port's counters are, in order: flits sent, flits received, CRC errors, resend events, FEC symbols corrected, FEC codewords
uncorrectable, outages ridden through, partner changes. -/

namespace Sys2Proof.Machine

/-- One bit step of the IEEE 802.3 frame check sequence, least significant bit first. -/
def crcBit (c : W32) : W32 := if c.getLsbD 0 then (c >>> 1) ^^^ 0xEDB88320 else c >>> 1

/-- One byte of the IEEE 802.3 frame check sequence. -/
def crcByte (c : W32) (b : Byte) : W32 :=
  crcBit (crcBit (crcBit (crcBit (crcBit (crcBit (crcBit (crcBit (c ^^^ b.zeroExtend 32))))))))

/-- The IEEE 802.3 frame check sequence of some bytes (14 R338). -/
def crc32 (bs : List Byte) : W32 := ~~~(bs.foldl crcByte 0xFFFFFFFF)

/-- A counter of a port raised (14 R360). -/
def portCount (s : State) (p i n : Nat) : State :=
  let x := s.port p
  s.setPort p { x with cnt := x.cnt.setIfInBounds i (BitVec.ofNat 64 (satAdd max64 (vget x.cnt i).toNat n)) }

/-- A flit header (14 R338). -/
def flitHdr (seq ack cls kind : Nat) (sop eop nak : Bool) : W32 :=
  BitVec.ofNat 32 (seq % 4096 + (ack % 4096) * 2 ^ 12 + (cls % 4) * 2 ^ 24 + (kind % 8) * 2 ^ 26 + b2n sop * 2 ^ 29 + b2n eop * 2 ^ 30 +
    b2n nak * 2 ^ 31)

/-- ACK as a port sends it: the SEQ before the next one expected (14 R338). -/
def Port.ack (x : Port) : Nat := (x.rxNext.toNat + 4095) % 4096

/-- The CRC-32 of a flit, over its bytes 0–251 (14 R338). -/
def flitCrc (hdr : W32) (payload : List Byte) : W32 := crc32 (leBytes 4 hdr.toNat ++ payload)

/-- A flit as this module builds it, with the CRC-32 of its bytes (14 R338). -/
def mkFlit (hdr : W32) (payload : List Byte) : Flit := ⟨hdr, payload, flitCrc hdr payload, true, 0⟩

/-- Whether a received flit carries the CRC-32 of its bytes (14 R338, R340). -/
def flitGood (f : Flit) : Bool := f.crc == flitCrc f.hdr f.payload

/-- A flit sent, with the port's present ACK and NAK, and its CRC (14 R338, R340). -/
def sendFlit (s : State) (p : Fin 6) (f : Flit) : State :=
  let x := s.port p
  let h := (f.hdr.toNat % 4096) + (x.ack * 2 ^ 12) + (fieldN f.hdr.toNat 24 7) * 2 ^ 24 + b2n x.nakDue * 2 ^ 31
  portCount (emit (s.setPort p { x with nakDue := false }) (.flit p (mkFlit (BitVec.ofNat 32 h) f.payload))) p 0 1

/-- Flits sent in order. -/
def sendFlits (s : State) (p : Fin 6) : List Flit → State
  | [] => s
  | f :: fs => sendFlits (sendFlit s p f) p fs

/-- A null flit, which carries ACK and NAK only (14 R339). -/
def sendNull (s : State) (p : Fin 6) : State :=
  sendFlit s p (mkFlit (flitHdr 0 0 3 0 false false false) (List.replicate 248 0))

/-- The payloads of the flits of a packet: header and payload in consecutive flits, the last padded with zeros (14 R343). -/
def flitPays (p : Packet) : List (List Byte) :=
  let bytes := leBytes 16 p.hdr.toNat ++ p.pay
  (List.range ((bytes.length + 247) / 248)).map fun i =>
    let b := (bytes.drop (248 * i)).take 248
    b ++ List.replicate (248 - b.length) 0

/-- The flits of a packet from a sequence number on (14 R338, R339). -/
def flitsFrom (seq : BitVec 12) (p : Packet) : List TxFlit :=
  let ps := flitPays p
  ps.zipIdx.map fun e =>
    let q := seq + BitVec.ofNat 12 e.2
    ⟨q, mkFlit (flitHdr q.toNat 0 p.cls.toNat p.kind.toNat (e.2 == 0) (e.2 + 1 == ps.length) false) e.1, p,
      e.2 + 1 == ps.length⟩

/-- The flits that a port may still grant: none outside UP, and at most 4,095 are unacknowledged (14 R339, R341). -/
def Port.room (x : Port) : Nat := if x.st = .up then 4095 - x.replay.length else 0

/-- Up to `n` flits of a packet leave on a link, from its flit `k` on, as far as the port has room; they stay in the replay buffer
until they are acknowledged (14 R339). The number: the flits of the packet that have left. -/
def sendFrom (s : State) (p : Fin 6) (pkt : Packet) (k n : Nat) : State × Nat :=
  let x := s.port p
  let all := flitsFrom (x.txSeq - BitVec.ofNat 12 k) pkt
  let fs := (all.drop k).take (min n x.room)
  (sendFlits (s.setPort p { x with txSeq := x.txSeq + BitVec.ofNat 12 fs.length, replay := x.replay ++ fs }) p (fs.map (·.flit)),
    k + fs.length)

/-- Up to `n` flits of the packet that holds a port leave; with its last the packet leaves the queue (14 R348). -/
def pump (s : State) (p : Fin 6) (n : Nat) : State :=
  match (s.port p).sent with
  | none => s
  | some (t, k) =>
    let (s, k') := sendFrom s p t.pkt k n
    let x := s.port p
    s.setPort p (if (flitPays t.pkt).length ≤ k' then { x with sent := none, txq := x.txq.erase t } else { x with sent := some (t, k') })

/-- The arbiter after the data phase of a grant has ended: the 64th ends the window (15 R366). -/
def Arb.endPhase (x : Arb) : Arb :=
  if 64 ≤ x.wcnt then { x with wcnt := 0, ucnt := 0, owner := none } else { x with owner := none }

/-- A port's transmit arbiter without an owner: the queue it served is gone (14 R350). -/
def portIdle (s : State) (p : Fin 6) : State :=
  let x := s.arb (arbOfPort p)
  if x.owner.isSome then s.setArb (arbOfPort p) x.endPhase else s

/-- The transmitter resends from ACK + 1 (14 R340, R341). -/
def resendAll (s : State) (p : Fin 6) : State :=
  let x := s.port p
  if x.replay.isEmpty then s else sendFlits (portCount s p 3 1) p (x.replay.map (·.flit))

/-- The flits that an ACK covers leave the replay buffer (14 R339). -/
def ackFlits (l : List TxFlit) (a : BitVec 12) : List TxFlit :=
  match l.findIdx? (fun f => f.seq == a) with
  | some i => l.drop (i + 1)
  | none => l

/-- The payload length of a packet by its header (13 R301, 14 R344). -/
def payLen (kind : BitVec 3) (hdr : Nat) : Nat :=
  if kind = kReduce then
    (if fieldN hdr 0 4 = 1 ∨ fieldN hdr 0 4 = 2 then wireBytes (fieldN hdr 48 2) else 0)
  else if kind = kWrite ∧ fieldN hdr 0 4 = 0 then fieldN hdr 64 12 + 1
  else 0

/-- A packet from the bytes of its flits. -/
def parsePacket (kind : BitVec 3) (cls : BitVec 2) (bytes : List Byte) : Packet :=
  let h := leNat (bytes.take 16)
  ⟨kind, cls, BitVec.ofNat 128 h, (bytes.drop 16).take (payLen kind h), 0⟩

/-- A good, in-order flit taken into its class's partial packet; the EOP flit completes it (14 R343, R348). -/
def assemble (x : Port) (f : Flit) : Port :=
  let cls := fieldN f.hdr.toNat 24 2
  let part := if f.hdr.getLsbD 29 then some f.payload else (vget x.part cls).map (· ++ f.payload)
  match part with
  | none => x
  | some bs =>
    if f.hdr.getLsbD 30 then
      { x with part := x.part.setIfInBounds cls none,
               rx := x.rx ++ [parsePacket (BitVec.ofNat 3 (fieldN f.hdr.toNat 26 3)) (BitVec.ofNat 2 cls) bs] }
    else { x with part := x.part.setIfInBounds cls (some bs) }

/-- A flit received on a link that is up (14 R340). -/
def receiveFlit (s : State) (p : Fin 6) (f : Flit) : State :=
  let s := portCount s p 1 1
  let s := if flitGood f then s else portCount s p 2 1
  let s := if f.fecOk then s else portCount s p 5 1
  let s := portCount s p 4 f.fecFix
  let discard (s : State) : State :=
    let x := s.port p
    if x.discard then s else sendNull (s.setPort p { x with discard := true, nakDue := true }) p
  if !flitGood f || !f.fecOk then discard s
  else
    let x := s.port p
    let s := s.setPort p { x with replay := ackFlits x.replay (BitVec.ofNat 12 (fieldN f.hdr.toNat 12 12)) }
    let s := if f.hdr.getLsbD 31 then resendAll s p else s
    if fieldN f.hdr.toNat 24 2 = 3 then s
    else
      let x := s.port p
      if fieldN f.hdr.toNat 0 12 ≠ x.rxNext.toNat then discard s
      else sendNull (s.setPort p (assemble { x with rxNext := x.rxNext + 1, discard := false } f)) p

/-- A packet answered with REFUSE (13 R310), unless it is itself a REFUSE, CREDIT, VUP or VDOWN. -/
def refusePacket (s : State) (pkt : Packet) (reason : Nat) : State :=
  if pkt.sub = 4 ∨ pkt.sub = 5 ∨ pkt.sub = 6 ∨ pkt.sub = 7 then s
  else routePacket s (mkReduce s 5 pkt.job.toNat
    (pkt.fld 16 16 + reason * 2 ^ 16 + pkt.fld 57 8 * 2 ^ 41) pkt.src [])

/-- A reduction packet that no enabled context takes: discarded, logged and refused (13 R310, 21 R500). -/
def reduceDiscard (s : State) (pkt : Packet) : State :=
  refusePacket (packetDiscarded s (originHub s 5) none pkt) pkt 0

/-- Whether the type of a packet is reserved (13 R310, 14 R344). -/
def packetReserved (pkt : Packet) : Bool :=
  if pkt.kind = kReduce then pkt.sub == 0 || decide (8 ≤ pkt.sub)
  else if pkt.kind = kWrite ∨ pkt.kind = kWack ∨ pkt.kind = kLink then decide (2 ≤ pkt.sub)
  else if pkt.kind = kSignal then decide (1 ≤ pkt.sub)
  else if pkt.kind = kTree then decide (5 ≤ pkt.sub)
  else if pkt.kind = kNotice then decide (4 ≤ pkt.sub)
  else true

/-- The partner's LEAVE (14 R357): RIDE, with the link up and the ride-through not armed. -/
def leaveOp (s : State) (p : Fin 6) : State :=
  let x := s.port p
  if x.st = .up then s.setPort p { x with st := .ride, rideAt := none } else s

/-- A packet held whole at a port (14 R343, R349, R350): for this module, forwarded, or dropped. An IDENT outside training tells a
port nothing new. -/
def receivePacket (s : State) (p : Fin 6) (pkt : Packet) : State :=
  if pkt.kind = kLink then (if pkt.sub = 1 then leaveOp s p else s)
  else if pkt.dst ≠ s.modId then routeVia s (BitVec.ofNat 8 (p.val + 1)) pkt
  else if packetReserved pkt then
    (if pkt.kind = kReduce then reduceDiscard s pkt else packetDiscarded s (originHub s 5) none pkt)
  else deliver s pkt p.val

/-- The packets whose last flit stands in a replay buffer. -/
def replayWhole (l : List TxFlit) : List Packet := (l.filter (·.last)).map (·.pkt)

/-- The packets of which a replay buffer holds flits but not the last: those on their way, and those that were preempted and have not
left again whole (14 R342, R348). They stand in the port's queue still. -/
def replayParts (l : List TxFlit) : List Packet :=
  l.foldl (fun q f => if f.last then q.erase f.pkt else q.erase f.pkt ++ [f.pkt]) []

/-- A queue without some packets that it holds. -/
def withoutPkts (q : List TxPkt) (ps : List Packet) : List TxPkt :=
  ps.foldl (fun q p => match q.find? (fun t => t.pkt == p) with | some t => q.erase t | none => q) q

/-- A link that starts anew with a partner (14 R342, R355; log entry 102): both sequences from 0, nothing partial. The packets with a
flit not acknowledged have left the queue. -/
def Port.fresh (x : Port) (partner : W32) : Port :=
  { x with
    st := .up, partner := partner, txSeq := 0, replay := [], rxNext := 0, nakDue := false, discard := false
    part := Vector.replicate 3 none, txq := withoutPkts x.txq (replayParts x.replay), sent := none, rideAt := none }

/-- The IDENT that a port sends when it trains (14 R344, R355): it takes the next SEQ and a place in the replay buffer, as every flit
that is not null (R339). -/
def sendIdent (s : State) (p : Fin 6) (partner : Nat) : State := (sendFrom s p ⟨kLink, 0, identHdr s partner, [], 0⟩ 0 1).1

/-- The partner's first IDENT on a link that starts anew: its flit 0, which training has taken in (14 R339, R355, log entry 102). -/
def identTaken (s : State) (p : Fin 6) : State := s.setPort p { s.port p with rxNext := (s.port p).rxNext + 1 }

/-- The identifier in an IDENT (14 R344). -/
def identId (h : BitVec 128) : Nat := fieldN h.toNat 16 18

/-- A partner's IDENT as the check of 14 R355 wants it for a port: its POD, dimensions and coordinates. -/
def partnerOk (s : State) (p : Fin 6) (h : BitVec 128) : Bool :=
  let i := identId h
  let d := p.val / 2
  let dim (lo w : Nat) : Nat := if fieldN h.toNat lo w = 0 then 2 ^ w else fieldN h.toNat lo w
  idPod i == idPod s.modId && dim 34 5 == s.fab.dx.toNat && dim 39 5 == s.fab.dy.toNat &&
    dim 44 4 == s.fab.dz.toNat && (d == 0 || idX i == idX s.modId) && (d == 1 || idY i == idY s.modId) &&
    (d == 2 || idZ i == idZ s.modId)

/-- The packets that wait at a port whose partner now lies beyond their target: dropped with SUB 0x0 (14 R350). -/
def dropBypassed (s : State) (p : Fin 6) : State :=
  let x := s.port p
  let past (t : TxPkt) : Bool := t.pkt.kind != kLink && (match routeDim s t.pkt.dst with
    | some k => k == p.val / 2 && bypassed s k p t.pkt.dst
    | none => false)
  dropAll (s.setPort p { x with txq := x.txq.filter fun t => !past t }) 0 ((x.txq.filter past).map (·.pkt))

/-- What 14 R342 does before the port resumes: the packets with a flit not acknowledged are discarded, each with a NOTICE of SUB 0x3,
and the change is counted and recorded. `x`: the port as it was. -/
def newPartner (s : State) (p : Fin 6) (x : Port) (new : Nat) : State :=
  let s := dropAll s 3 (replayWhole x.replay ++ replayParts x.replay)
  let s := portCount s p 7 1
  reportLog s (originPort s p.val) (originPort s p.val) 0xF none (detailWord 0 0 (new + x.partner.toNat % 2 ^ 24 * 2 ^ 24))

/-- A port that has trained with a partner that 14 R355 does not admit: MISMATCH, a record of class miscabling, and every packet that
waited for the port dropped with SUB 0x1 (R350). -/
def mismatch (s : State) (p : Fin 6) (new : W32) : State :=
  let x := s.port p
  let s := dropAll (s.setPort p { x with st := .mismatch, txq := [] }) 1 (x.txq.map (·.pkt))
  reportLog s (originPort s p.val) (originPort s p.val) 0x12 none (detailWord 0 0 new.toNat)

/-- Whether a port that completes training may come to UP: it trains for a JOIN or again after DOWN, or it rides through a loss of
signal (14 R341). -/
def Port.trains (x : Port) : Bool := decide (x.st = .training) || decide (x.st = .down) || (decide (x.st = .ride) && x.rideAt.isSome)

/-- A port that completes training and has exchanged IDENT (14 R341, R342, R355). The check of R355 is a JOIN's: a port that trains again
after a loss of signal resumes with whatever partner it finds (R342). -/
def trainedOp (s : State) (p : Fin 6) (h : BitVec 128) : State :=
  let x := s.port p
  let new : W32 := BitVec.ofNat 32 (identId h)
  if !x.trains then s
  else if x.st = .ride ∧ x.partner = new then
    sendIdent (portCount (resendAll (s.setPort p { x with st := .up, rideAt := none }) p) p 6 1) p (identId h)
  else
    let known := decide (x.partner ≠ 0xFFFFFFFF) && decide (x.partner ≠ new)
    let ok := decide (x.st ≠ .training) || partnerOk s p h
    let s := identTaken (sendIdent (portIdle (s.setPort p (x.fresh new)) p) p (identId h)) p
    let s := if ok then s else mismatch s p new
    let s := if known then newPartner s p x new.toNat else s
    if ok then dropBypassed s p else s

/-- The ride-through of a port expires (14 R341, R350): DOWN, and every packet held for the link is dropped. -/
def rideExpireOp (s : State) (p : Fin 6) : State :=
  let x := s.port p
  match x.rideAt with
  | some t =>
    if x.st = .ride then
      let s := moduleTimeTo s t
      let s := portIdle (s.setPort p
        { x with st := .down, replay := [], txq := [], sent := none, rideAt := none, part := Vector.replicate 3 none }) p
      let s := dropAll s 1 (replayWhole x.replay ++ x.txq.map (·.pkt))
      reportLog s (originPort s p.val) (originPort s p.val) 0x13 none (detailWord 0 0 (x.partner.toNat % 2 ^ 18))
    else s
  | none => s

/-- A port that loses signal or alignment (14 R341): RIDE, and the ride-through of 20 ms on the module timer, armed once. -/
def signalLossOp (s : State) (p : Fin 6) : State :=
  let x := s.port p
  if x.st = .up ∨ x.st = .ride then
    s.setPort p { x with st := .ride, rideAt := some (x.rideAt.getD (moduleDue s 20)) }
  else s

end Sys2Proof.Machine
end

