-- ==== Sys2Proof/Machine/ArbOps.lean ====
section
/-! DEFINITION. Arbiters (15): requesters and classes, grants by class and port, the window and its quota, preemption, FREEZE, and the
registers. A request is one transfer by a port; an arbiter is named by its key (`arbKey`). -/

namespace Sys2Proof.Machine

/-- The copy engine whose queue a block arbiter guards (15 R368: block arbiters 2 and 3). -/
def queueOfArb (k : Nat) : Option Nat := if k < 256 ∧ 2 ≤ k % 4 then some (2 * (k / 4) + (k % 4 - 2)) else none

/-- ARBCTL.FREEZE written (15 R367): what the Ethernet port or the bridge's port to the fabric held back leaves when granting resumes. -/
def setFreeze (s : State) (k : Nat) (on : Bool) : State :=
  match portOfArb k with
  | some p => s.setPort p { s.port p with freeze := on }
  | none =>
    let s := s.setArb k { s.arb k with freeze := on }
    if on then s else if k = arbEth then flushEth s else if k = arbFabric then flushBridge s else s

/-- The class of a transfer (15 R362): of a packet that it carries, and of a snoop that of the access which caused it. -/
def clsOf : Transfer → Cls
  | .signal _ => .urgent
  | .barrier _ => .urgent
  | .ready _ => .urgent
  | .verdict _ => .urgent
  | .wdp _ _ => .urgent
  | .drain _ => .reduce
  | .adder _ _ _ => .reduce
  | .packet c => c
  | .inbound _ c => c
  | .outbound _ _ c => c
  | .snoop w => clsOf w
  | .fetch _ _ => .bulk
  | .load _ _ => .bulk
  | .atomic _ _ => .bulk
  | .store _ _ => .bulk
  | .cpq _ _ _ _ => .bulk
  | .copy _ _ => .bulk
  | .setter _ _ => .bulk
  | .scrub => .bulk
  | .roce _ _ _ _ => .bulk

/-- The number of a class in a packet. -/
def clsIx : Cls → Nat
  | .urgent => 0
  | .reduce => 1
  | .bulk => 2

/-- Whether a transfer is an access by a cell of a block, its drain buffer and messages included (15 R361). -/
def ofCell (s : State) (c : Nat) : Transfer → Bool
  | .fetch d _ => d.val == c
  | .load d _ => d.val == c
  | .atomic d _ => d.val == c
  | .store d _ => d.val == c
  | .cpq d _ _ _ => d.val == c
  | .drain d => d.val == c
  | .signal k => (s.sigs[k]?).any (fun g => g.src == c)
  | .barrier k => (s.bmsgs[k]?).any (fun m => m.src == c)
  | _ => false

/-- Whether a transfer is an access to memory, a snoop, its response and a write-back included. -/
def isAccess : Transfer → Bool
  | .fetch _ _ => true
  | .load _ _ => true
  | .atomic _ _ => true
  | .store _ _ => true
  | .copy _ _ => true
  | .setter _ _ => true
  | .adder _ _ _ => true
  | .inbound _ c => c == .bulk
  | .roce _ _ _ _ => true
  | .wdp _ _ => true
  | .snoop w => isAccess w
  | _ => false

/-- Whether a transfer is a snoop, its response, or a write-back. -/
def isSnoop : Transfer → Bool
  | .snoop _ => true
  | _ => false

/-- The bridge's requester port of an issuer numbered as in `Sig.src` (15 R361): its region, 4 the fabric interface, 5 the host port. -/
def issuerPort (src : Nat) : Nat :=
  if src < 512 then src / 128
  else if src < 640 then (src - 512) / 32
  else if src < 1024 then (src - 640) / 16
  else if src < 2048 then (src - 1024) / 256
  else if src < 2304 then (src - 2048) / 48
  else if src < 4096 then (src - 2304) / 48
  else if src < 8192 then 5
  else 4

/-- The mesh stop in its region of an issuer numbered as in `Sig.src`; none where it is on the hub die. -/
def issuerStop (src : Nat) : Option Nat :=
  if src < 512 then some (src / 8 % 16)
  else if src < 640 then some ((src - 512) / 2 % 16)
  else if src < 1024 then some ((src - 640) % 16)
  else if src < 2048 then some (Config.unitStop (24 + (src - 1024) / 256)).val
  else if src < 2304 then some (Config.unitStop ((src - 2048) / 8)).val
  else if src < 4096 then some (Config.unitStop ((src - 2304) / 8)).val
  else none

/-- Where a transfer comes from: the bridge's requester port (15 R361: a region, 4 the fabric interface, 5 the host port) and its mesh stop
in that region. -/
def xferFrom (s : State) : Transfer → Option (Nat × Option Nat)
  | .fetch c _ => some (issuerPort c.val, issuerStop c.val)
  | .load c _ => some (issuerPort c.val, issuerStop c.val)
  | .atomic c _ => some (issuerPort c.val, issuerStop c.val)
  | .store c _ => some (issuerPort c.val, issuerStop c.val)
  | .drain c => some (issuerPort c.val, issuerStop c.val)
  | .copy b _ => some (b.val / 16, some (b.val % 16))
  | .setter m _ => some (m.val / 6, some (Config.unitStop m.val).val)
  | .adder m _ _ => some (m.val / 6, some (Config.unitStop m.val).val)
  | .signal k => (s.sigs[k]?).map fun g => (issuerPort g.src, issuerStop g.src)
  | .barrier k => (s.bmsgs[k]?).map fun m => (issuerPort m.src, issuerStop m.src)
  | .ready k => (s.readies[k]?).map fun w => (w.unit.val / 6, some (Config.unitStop w.unit.val).val)
  | .verdict k => (s.vcontribs[k]?).map fun v => (v.region.val, some (Config.unitStop (24 + v.region.val)).val)
  | .inbound k c => if (s.inbox[k]?).any (fun x => x.pkt.cls.toNat == clsIx c) then some (4, none) else none
  | .roce _ _ _ _ => some (5, none)
  | .wdp _ _ => some (6, none)
  | _ => none

/-- Whether a transfer is a packet of this module on its way to a port of the fabric: its place in that port's queue, with its class. -/
def isOutbound (s : State) : Transfer → Bool
  | .outbound p k c => ((s.port p).txq[k]?).any fun t => t.req == 0 && t.pkt.cls.toNat == clsIx c
  | _ => false

/-- Whether a transfer may stand at port 4 of mesh stop `a` of region `r` (15 R361): its issuer is attached there, or the bridge that it
came by; a snoop is answered wherever the line is held. -/
def atStop (s : State) (r a : Nat) (w : Transfer) : Bool :=
  isSnoop w || (isOutbound s w) ||
    (match xferFrom s w with
    | some (q, some t) => if q = r then t == a else (Config.unitStop (28 + r)).val == a
    | some (_, none) => (Config.unitStop (28 + r)).val == a
    | none => false)

/-- Whether a transfer may stand at a requester port of the bridge (15 R361). The WDP endpoint is reached through the host port and the
module controller. -/
def atBridge (s : State) (n : Nat) (w : Transfer) : Bool :=
  (isSnoop w && decide (n ≤ 6)) || (isOutbound s w && decide (n < 4)) ||
    (match w, xferFrom s w with
    | .wdp _ _, _ => n == 5 || n == 6
    | _, some (q, _) => n == q
    | _, none => false)

/-- Whether a transfer may pass a region's mesh from stop to stop. -/
def onMesh (s : State) (w : Transfer) : Bool := isSnoop w || isOutbound s w || (xferFrom s w).isSome

/-- The most beats of a transfer at an arbiter (15 R361). -/
def maxBeats (k : Nat) : Nat :=
  if k < 256 then (if k % 4 < 2 then 4 else 1)
  else if k < 1368 then
    (let a := (k - 256) % 278
     if a < 16 then 4 else if a < 272 then 2 else 1)
  else if (portOfArb k).isSome then 17 else if k = arbEth then 33 else 4

/-- The packets of a class that a requester has queued at a fabric port, oldest first (14 R348, 15 R361). -/
def portReqs (x : Port) (req : Byte) (c : Cls) : List TxPkt :=
  x.txq.filter fun t => t.req == req && t.pkt.cls.toNat == clsIx c

/-- Whether a request can stand at an arbiter: its requester port is one of the resource, its class one the resource has, its transfer one
that this requester presents, and its beats as many as a transfer there has (15 R361). What it addresses is not checked (R369). -/
def reqOk (s : State) (k : Nat) (q : ArbReq) : Bool :=
  let n := q.port.toNat
  decide (1 ≤ q.beats) && decide (q.beats ≤ maxBeats k) &&
  if k < 256 then
    let b := k / 4
    let cell := decide (n < 8) && ofCell s (8 * b + n) q.what
    let eng := (n == 8 || n == 9) && (match q.what with | .copy b' e => b'.val == b && e.val + 8 == n | _ => false)
    let cpq := match q.what with | .cpq _ _ _ _ => true | _ => false
    if k % 4 = 0 then (cell && isAccess q.what) || eng || (n == 11 && isAccess q.what)
    else if k % 4 = 1 then (cell && !cpq) || eng || (n == 10 && isAccess q.what)
    else cell && cpq
  else if k < 1368 then
    let r := (k - 256) / 278
    let a := (k - 256) % 278
    let scrub := match q.what with | .scrub => true | _ => false
    if a < 16 then (decide (n < 4) && onMesh s q.what) || (n == 4 && atStop s r a q.what)
    else if a < 272 then (n == 0 && isAccess q.what && onMesh s q.what) || (n == 1 && scrub)
    else
      let m := 6 * r + (a - 272)
      (match q.what with
      | .setter m' _ => n == 1 && m'.val == m
      | .adder m' _ _ => n == 2 && m'.val == m
      | .scrub => n == 3
      | w => n == 0 && isAccess w && onMesh s w && decide (clsOf w ≠ .urgent))
  else match portOfArb k with
    | some p => (match q.what with
      | .packet c => !(portReqs (s.port p) q.port c).isEmpty
      | _ => false)
    | none =>
      if k = arbEth then (match q.what with
        | .roce _ _ _ _ => n == 0
        | .wdp _ _ => n == 1
        | _ => false)
      else atBridge s n q.what

/-- Whether Urgent requests are masked in the current window (15 R366). -/
def Arb.masked (x : Arb) : Bool := decide (0 < x.wcnt) && decide (x.quota < 64) && decide (x.quota ≤ x.ucnt)

/-- The classes in the order of a decision (15 R363). -/
def clsOrder (masked : Bool) : List Cls := if masked then [.reduce, .bulk, .urgent] else [.urgent, .reduce, .bulk]

/-- The least port of a list. -/
def leastPort : List Byte → Option Byte
  | [] => none
  | p :: ps => some (ps.foldl (fun a b => if b < a then b else a) p)

/-- The first port of a list after a port, wrapping round (15 R363). -/
def portAfter (last : Option Byte) (ps : List Byte) : Option Byte :=
  match last with
  | none => leastPort ps
  | some q =>
    match leastPort (ps.filter (fun p => q < p)) with
    | some p => some p
    | none => leastPort ps

/-- The request that an arbiter grants (15 R363): of the chosen port and class the one that stands longest. -/
def arbChoose (x : Arb) : Option ArbReq :=
  (clsOrder x.masked).findSome? fun c =>
    let qs := x.waiting.filter (fun q => clsOf q.what == c)
    (portAfter (vget x.last (clsIx c)) (qs.map (·.port))).bind fun p => qs.find? (fun q => q.port == p)

/-- A grant made: the owner, the window and the quota (15 R363, R366). -/
def Arb.grant (x : Arb) (q : ArbReq) : Arb :=
  let x := if x.wcnt = 0 then { x with quota := x.quotaNew, ucnt := 0 } else x
  { x with
    owner := some q, wcnt := x.wcnt + 1, ucnt := if clsOf q.what = .urgent then x.ucnt + 1 else x.ucnt
    last := x.last.setIfInBounds (clsIx (clsOf q.what)) (some q.port), waiting := x.waiting.erase q }

/-- The count of an arbiter's level timer at which its watchdog bites, armed now with ARBWDT.TICKS (15 R368, R369). -/
def arbDue (s : State) (k : Nat) : Nat :=
  let n := (s.arb k).wdt.toNat
  if k < 256 then count48 (s.block (k / 4)).timer n
  else if k < 1368 then regionDue s ((k - 256) / 278) n
  else moduleDue s n

/-- The timer of an arbiter's level moved on to a count (15 R361). -/
def arbTimeTo (s : State) (k t : Nat) : State :=
  if k < 256 then blockTimeTo s (k / 4) t
  else if k < 1368 then regionTimeTo s ((k - 256) / 278) t
  else moduleTimeTo s t

/-- The packet that a fabric port's owner sends: the oldest of its requester and class (14 R348). -/
def portTake (s : State) (k : Nat) : State :=
  match portOfArb k, (s.arb k).owner with
  | some p, some q =>
    let x := s.port p
    s.setPort p { x with sent := ((portReqs x q.port (clsOf q.what)).head?).map fun t => (t, 0) }
  | _, _ => s

/-- A request granted: the owner, its watchdog, and at a fabric port its packet. -/
def grantTo (s : State) (k : Nat) (q : ArbReq) : State := portTake (s.setArb k { (s.arb k).grant q with due := arbDue s k }) k

/-- Whether an arbiter may make a new grant (15 R367, 14 R339, R341). -/
def mayGrant (s : State) (k : Nat) : Bool :=
  !arbFrozen s k && (match portOfArb k with
    | some p => decide (0 < (s.port p).room)
    | none => true)

/-- The decision of the next owner, where the arbiter makes one (15 R363). -/
def decideOwner (s : State) (k : Nat) : State :=
  if mayGrant s k then
    match arbChoose (s.arb k) with
    | some q => grantTo s k q
    | none => s
  else s

/-- Requests that stand at an arbiter from now on. -/
def standing (s : State) (k : Nat) (reqs : List ArbReq) : State :=
  let x := s.arb k
  let ok := (x.waiting ++ reqs).filter (reqOk s k)
  s.setArb k { x with waiting := ok.eraseDups }

/-- The flits that a fabric port's owner has moved: of its packet as many as the port takes (14 R339, R348). -/
def moveFlits (s : State) (k n : Nat) : State :=
  match portOfArb k with
  | some p => pump s p n
  | none => s

/-- Whether the transfer of a fabric port's owner is unfinished: flits of its packet wait for room or for the link. -/
def unfinished (s : State) (k : Nat) : Bool :=
  match portOfArb k with
  | some p => (s.port p).sent.isSome
  | none => false

/-- Whether the last beat of an owner's transfer has moved, after `beats` of it have: at a fabric port, with the last flit of its
packet. -/
def lastBeat (s : State) (k : Nat) (o : ArbReq) (beats : Nat) : Bool :=
  if (portOfArb k).isSome then !unfinished s k else decide (o.beats ≤ beats)

/-- The next owner decided during the last beat of the present one (15 R363, R364): no owner whose flits still wait is displaced. -/
def grantOp (s : State) (k : Nat) (reqs : List ArbReq) : State :=
  let s := standing (moveFlits s k 17) k reqs
  if unfinished s k then s
  else
    let x := s.arb k
    decideOwner (if x.owner.isSome then s.setArb k x.endPhase else s) k

/-- The owner's transfer dropped: at a fabric port its packet stays queued, to be sent again from its SOP flit (14 R348). -/
def endTransfer (s : State) (k : Nat) : State :=
  match portOfArb k with
  | some p => s.setPort p { s.port p with sent := none }
  | none => s

/-- A Bulk transfer ended by an unmasked Urgent request (15 R365) after `beats` of it have moved; it stays pending, and restarts from its
first beat. A transfer whose last beat has moved completes. -/
def preemptOp (s : State) (k : Nat) (q : ArbReq) (beats : Nat) : State :=
  let x := s.arb k
  match x.owner with
  | none => s
  | some o =>
    if decide (clsOf o.what = .bulk) && decide (clsOf q.what = .urgent) && reqOk s k q && mayGrant s k && !x.masked then
      let s := moveFlits s k beats
      if lastBeat s k o beats then grantOp s k [q]
      else
        let s := endTransfer s k
        let x := (s.arb k).endPhase
        grantTo (s.setArb k { x with
          waiting := x.waiting ++ [o], preempt := BitVec.ofNat 16 (satAdd 65535 x.preempt.toNat 1) }) k q
    else s

/-- The origin word of an arbiter's resource (21 R477, R500). -/
def arbOrigin (s : State) (k : Nat) : W32 :=
  if k < 256 then originBlock s (k / 4)
  else if k < 1368 then
    (let a := (k - 256) % 278
     let r := (k - 256) / 278
     if a < 16 then originWord s 3 a r else if a < 272 then originBank s r (a - 16) else originWord s 5 (a - 272) r)
  else match portOfArb k with
    | some p => originPort s p.val
    | none => originHub s (if k = arbEth then 3 else 0)

/-- A record that the error collector of an arbiter's level receives, with the resource as origin (15 R369). -/
def arbReport (s : State) (k : Nat) (cls : W16) (detail : W64) : State :=
  if k < 256 then reportBlock s (k / 4) (arbOrigin s k) cls (ownerOfBlock s (k / 4)) detail
  else reportLog s (arbOrigin s k) (arbOrigin s k) cls none detail

/-- The address of an arbiter's ARBCTL (15 R368). -/
def arbAddr (k : Nat) : Nat :=
  if k < 256 then 0x30010004000 + 0x100000 * (k / 4) + 0x40 * (k % 4)
  else if k < 1368 then 0x30001100000 + 0x1000000 * ((k - 256) / 278) + 0x40 * ((k - 256) % 278)
  else 0x30000010000 + 0x40 * (k - 1368)

/-- The registers of an arbiter (15 R368). -/
def arbRegs : List RegAt := [(0x00, 4), (0x08, 8), (0x10, 4)]

/-- ARBSTAT.DRAINED (15 R367). -/
def arbDrained (s : State) (k : Nat) : Bool :=
  (s.arb k).owner.isNone && (match queueOfArb k with
    | some e => (s.engine e).queue.isEmpty
    | none => true)

/-- A register of an arbiter read (15 R368). WCNT reads 0 while the 64th grant of a window holds the resource. -/
def arbRead (s : State) (k off : Nat) : W64 :=
  let x := s.arb k
  let owner : Nat := if x.bitten then x.bitOwner.toNat else match x.owner with
    | some q => q.port.toNat
    | none => 255
  if off = 0x00 then BitVec.ofNat 64 (b2n (arbFrozen s k) + 2 * x.quotaNew)
  else if off = 0x08 then BitVec.ofNat 64
    (b2n (arbDrained s k) + 2 * b2n x.masked + 4 * b2n x.bitten + 256 * owner + 65536 * x.bites.toNat + 2 ^ 32 * x.preempt.toNat +
      2 ^ 48 * x.ucnt + 2 ^ 55 * (x.wcnt % 64))
  else if off = 0x10 then x.wdt.zeroExtend 64
  else 0

/-- TICKS within its level's range (15 R368). -/
def ticksOk (k v : Nat) : Bool :=
  if k < 256 then decide (10 ≤ v) && decide (v ≤ 10000000)
  else if k < 1368 then decide (10 ≤ v) && decide (v ≤ 60000000)
  else decide (1 ≤ v)

/-- The mask of TICKS (15 R368). -/
def ticksMask (k : Nat) : W32 := if k < 256 then 0xFFFFFF else if k < 1368 then 0x3FFFFFF else 0xFFFFFFFF

/-- A register of an arbiter written (15 R368). -/
def arbWrite (k : Nat) (s : State) (off : Nat) (v m : W64) : State :=
  let x := s.arb k
  if off = 0x00 then
    let s := if m.getLsbD 0 then setFreeze s k (v.getLsbD 0) else s
    let n := fieldN (masked (BitVec.ofNat 64 (2 * x.quotaNew)) v m).toNat 1 7
    if 1 ≤ n ∧ n ≤ 64 then s.setArb k { s.arb k with quotaNew := n } else s
  else if off = 0x08 then s.setArb k { x with bitten := x.bitten && !v.getLsbD 2 }
  else if off = 0x10 then
    let n := masked x.wdt (v.truncate 32) (m.truncate 32) &&& ticksMask k
    if ticksOk k n.toNat then s.setArb k { x with wdt := n } else s
  else s

end Sys2Proof.Machine
end

