-- ==== Sys2Proof/Machine/CopyData.lean ====
section
/-! DEFINITION. What a copy descriptor names and moves (10 R221 to R227): its fields and checks, the bytes it reads, what it
writes and where, and the counts of its conversion. -/

namespace Sys2Proof.Machine

/-- A field of DONE. -/
def Desc.doneF (d : Desc) (lo w : Nat) : Nat := fieldN d.done.toNat lo w
/-- DONE.PIPEN. -/
def Desc.pipen (d : Desc) : Bool := d.done.getLsbD 15
/-- DONE.REMOTE. -/
def Desc.remote (d : Desc) : Bool := d.done.getLsbD 34
/-- DONE.EPIPEN. -/
def Desc.epipen (d : Desc) : Bool := d.done.getLsbD 54
/-- DONE.MODULE. -/
def Desc.modId (d : Desc) : Nat := d.doneF 16 18
/-- SRC.ADDR. -/
def Desc.srcA (d : Desc) : Nat := d.src.toNat % 2 ^ 48
/-- DST.ADDR. -/
def Desc.dstA (d : Desc) : Nat := d.dst.toNat % 2 ^ 48
/-- SCALE.ADDR. -/
def Desc.scaleA (d : Desc) : Nat := d.scale.toNat % 2 ^ 48
/-- N0, N1, N2. -/
def Desc.n0 (d : Desc) : Nat := fieldN d.shape.toNat 0 24
def Desc.n1 (d : Desc) : Nat := fieldN d.shape.toNat 24 20
def Desc.n2 (d : Desc) : Nat := fieldN d.shape.toNat 44 20
/-- A field of CONV. -/
def Desc.cv (d : Desc) (lo w : Nat) : Nat := fieldN d.conv.toNat lo w
/-- SFMT, DFMT, CVT, RM, CNT, GSEL, SRULE, MULT. -/
def Desc.sfmt (d : Desc) : Nat := d.cv 0 4
def Desc.dfmt (d : Desc) : Nat := d.cv 4 4
def Desc.cvt (d : Desc) : Bool := d.conv.getLsbD 8
def Desc.cnt (d : Desc) : Bool := d.conv.getLsbD 11
def Desc.mult (d : Desc) : Fp := fp32.decode (d.cv 32 32)
/-- G, the weight group size. -/
def Desc.gsz (d : Desc) : Nat := 32 <<< d.cv 20 2

/-- The descriptor of 64 bytes (10 R221). -/
def descOf (bs : List Byte) : Desc :=
  let w (i : Nat) : W64 := BitVec.ofNat 64 (leNat ((bs.drop (8 * i)).take 8))
  ⟨w 0, w 1, w 2, w 3, w 4, w 5, w 6, w 7⟩

/-- What a descriptor does with its elements (10 R223). -/
inductive CopyKind where
  | bytes | narrow | widen | weight | invalid
  deriving DecidableEq, Repr

/-- The conversions a descriptor may request (10 R223). -/
def Desc.kind (d : Desc) : CopyKind :=
  if !d.cvt then (if d.sfmt = 0 ∧ d.dfmt = 0 then .bytes else .invalid)
  else if d.sfmt = 0 ∧ (d.dfmt = 1 ∨ d.dfmt = 2 ∨ d.dfmt = 3) then .narrow
  else if d.sfmt = 1 ∧ (d.dfmt = 2 ∨ d.dfmt = 3) then .narrow
  else if (d.sfmt = 1 ∨ d.sfmt = 2 ∨ d.sfmt = 3) ∧ d.dfmt = 0 then .widen
  else if (d.sfmt = 2 ∨ d.sfmt = 3) ∧ d.dfmt = 1 then .widen
  else if (d.sfmt = 0 ∨ d.sfmt = 1) ∧ (d.dfmt = 4 ∨ d.dfmt = 5 ∨ d.dfmt = 6) then .weight
  else .invalid

/-- Bytes of a source element (10 R222). -/
def Desc.es (d : Desc) : Nat := if d.cvt then tagBytes d.sfmt else 1
/-- Bits of a destination element (10 R222). -/
def Desc.edBits (d : Desc) : Nat :=
  if d.kind = .weight then (if d.dfmt = 6 then 1 else 2) else if d.cvt then 8 * tagBytes d.dfmt else 8
/-- Bytes of a row at the source and at the destination. -/
def Desc.srcRow (d : Desc) : Nat := d.n0 * d.es
def Desc.dstRow (d : Desc) : Nat := d.n0 * d.edBits / 8

/-- The strides S1 and S2 of a stride word. -/
def strideLo (w : W64) : Int := (w.truncate 32 : W32).toInt
def strideHi (w : W64) : Int := ((w >>> 32).truncate 32 : W32).toInt

/-- The rows of a descriptor in element order: plane and row. -/
def Desc.rows (d : Desc) : List (Nat × Nat) :=
  (List.range d.n2).flatMap fun p => (List.range d.n1).map fun r => (p, r)

/-- The address of a row (10 R222). -/
def rowAddr (a : Nat) (str : W64) (x : Nat × Nat) : Int := a + x.1 * strideHi str + x.2 * strideLo str

/-- The extents of the source, of the destination on this module, and of the group scales: start, length, written or not. -/
def Desc.srcExt (d : Desc) : List (Int × Nat × Bool) := d.rows.map fun x => (rowAddr d.srcA d.sstr x, d.srcRow, false)
def Desc.dstExt (d : Desc) : List (Int × Nat × Bool) :=
  if d.remote then [] else d.rows.map fun x => (rowAddr d.dstA d.dstr x, d.dstRow, true)
def Desc.scaleExt (d : Desc) : List (Int × Nat × Bool) :=
  if d.kind = .weight then [((d.scaleA : Int), 2 * d.n1 * d.n2 * (d.n0 / d.gsz), true)] else []
def Desc.exts (d : Desc) : List (Int × Nat × Bool) := d.srcExt ++ d.dstExt ++ d.scaleExt

/-- The range from the lowest to the highest address of rows (10 R225). -/
def rowSpan (d : Desc) (a : Nat) (str : W64) (n : Nat) : Int × Int :=
  let u := ((d.n1 - 1 : Nat) : Int) * strideLo str
  let v := ((d.n2 - 1 : Nat) : Int) * strideHi str
  (a + min 0 u + min 0 v, a + max 0 u + max 0 v + n)

/-- The ranges that may not intersect (10 R225). DESIGN CHOICE (log entry 118): the destination of a copy to another module is none of
them, also where MODULE names this one. -/
def Desc.spans (d : Desc) : List (Int × Int) :=
  [rowSpan d d.srcA d.sstr d.srcRow] ++ (if d.remote then [] else [rowSpan d d.dstA d.dstr d.dstRow]) ++
    d.scaleExt.map (fun e => (e.1, e.1 + (e.2.1 : Int)))

/-- Whether two ranges of a list intersect. -/
def spansMeet : List (Int × Int) → Bool
  | [] => false
  | x :: xs => xs.any (fun y => decide (x.1 < y.2) && decide (y.1 < x.2)) || spansMeet xs

/-- The checks of field values and of overlap (10 R225): the detail of code 0x4. -/
def Desc.fieldErr (d : Desc) : Option Nat :=
  let w := decide (d.kind = .weight)
  if decide (9 ≤ d.sfmt) || decide (9 ≤ d.dfmt) || (d.cvt && decide (2 ≤ d.cv 9 2)) || (decide (4 ≤ d.dfmt) && decide (d.dfmt ≤ 6) &&
      decide (d.cv 20 2 = 3)) || (d.pipen && decide (48 ≤ d.doneF 0 6)) ||
      (d.epipen && decide (48 ≤ d.doneF 48 6)) then some 0
  else if d.n0 = 0 ∨ d.n1 = 0 ∨ d.n2 = 0 then some 1
  else if d.kind = .invalid then some 2
  else if w && decide (d.n0 % d.gsz ≠ 0) then some 4
  else if spansMeet d.spans then some 3
  else none

/-- An address as a 48-bit number. -/
def addr48 (a : Int) : Nat := (a % (2 ^ 48 : Int)).toNat

/-- The destination's extents, on this module or another. -/
def Desc.dstAll (d : Desc) : List (Int × Nat × Bool) := d.rows.map fun x => (rowAddr d.dstA d.dstr x, d.dstRow, true)

/-- The first address of some extents that fails a check of an address, with a written or read access; a negative address is no
address. -/
def firstInExts (ok : Nat → Bool → Bool) : List (Int × Nat × Bool) → Option Nat
  | [] => none
  | e :: es =>
    if e.1 < 0 then some (addr48 e.1)
    else match firstBadPage (fun x => ok x e.2.2) e.1.toNat e.2.1 with
      | some a => some a
      | none => firstInExts ok es

/-- The statistic slot a descriptor counts into: of the source's region (10 R221). -/
def Desc.slotIx (d : Desc) : Nat := 256 * regionOfPlace (placeOf d.srcA) + d.cv 12 8

/-- The control-space address of a statistic slot's page (01 R26, 08 R194). -/
def slotPage (i : Nat) : Nat := 0x30001800000 + 0x1000000 * (i / 256) + 0x1000 * (i % 256)

/-- The checks of a descriptor in their order (10 R225): code, detail, address. -/
def descErr (s : State) (b : Nat) (d : Desc) : Option (Nat × Nat × Nat) :=
  match d.fieldErr with
  | some t => some (4, t, 0)
  | none =>
    -- the extents in order; at another module only the address map is known
    match (firstInExts (fun a _ => populated s a) d.srcExt).or
        ((firstInExts (fun a _ => if d.remote then decide (placeOf a ≠ .reserved) else populated s a) d.dstAll).or
          (firstInExts (fun a _ => populated s a) d.scaleExt)) with
    | some a => some (1, 0, a)
    | none =>
      let own := ownerOfBlock s b
      match firstInExts (fun a _ => match own with | some p => agentHas s p a | none => false) d.exts with
      | some a => some (1, 1, a)
      | none =>
        if d.cnt && (s.slot d.slotIx).refuses (hallOfBlock s b) then some (1, 2, slotPage d.slotIx)
        else
          match firstInExts (fun a _ => match placeOf a with
            | .tile c _ => decide ((s.block (blockOfCell c)).st ≠ .dormant)
            | _ => true) d.exts with
          | some a => some (1, 3, a)
          | none => none

/-- A byte with the uncorrectable source it comes from: address and detail. -/
abbrev CByte := Byte × Option (Nat × Byte)

/-- Consecutive bytes to write. -/
abbrev Piece := Nat × List CByte

/-- A byte of memory or of a tile window as a copy engine reads it (10 R227, 06 R157); `ctl` reads control space. -/
def copyByte (s : State) (ctl : Nat → Byte) (a : Nat) : CByte :=
  match placeOf a with
  | .tile c off =>
    let k := s.cell c
    (BitVec.ofNat 8 ((vget k.t (off / 1024)).toNat >>> (8 * (off % 1024))),
      if k.sliceBad (off / 1024) (off % 1024 / 64) 1 then some (a, 3) else none)
  | .lpddr _ => (memByte s a, memBad s a)
  | .sram _ => (memByte s a, memBad s a)
  | _ => (ctl a, none)

/-- Consecutive bytes read. -/
def copyBytes (rd : Nat → CByte) (a n : Nat) : List CByte := (List.range n).map fun i => rd (a + i)

/-- The first uncorrectable byte of some. -/
def badOf (bs : List CByte) : Option (Nat × Byte) := bs.findSome? (·.2)

/-- The elements of a row: bits, and the uncorrectable source. -/
def rowElems (d : Desc) (rd : Nat → CByte) (a : Nat) : List (Nat × Option (Nat × Byte)) :=
  (List.range d.n0).map fun i =>
    let bs := copyBytes rd (a + d.es * i) d.es
    (leNat (bs.map (·.1)), badOf bs)

/-- What a copy moves: the pieces in element order, and its contribution. -/
structure Moved where
  pieces : List Piece
  contrib : Option Contribution

/-- The pieces of one element. -/
def elemPiece (a w bits : Nat) (bad : Option (Nat × Byte)) : Piece := (a, (leBytes w bits).map fun b => (b, bad))

/-- A group of weights converted (10 R222, R223): the piece of its codes, its scale with the source of uncorrectable bytes, its counts and
its amax. -/
structure WGroup where
  codes : Piece
  scale : Nat × Option (Nat × Byte)
  out : GroupOut
  amax : Fp

/-- The groups of a row of weights (10 R222, R223). -/
def weightRow (d : Desc) (rd : Nat → CByte) (x : Nat × Nat) : List WGroup :=
  let es := rowElems d rd (addr48 (rowAddr d.srcA d.sstr x))
  let da := addr48 (rowAddr d.dstA d.dstr x)
  let g := d.gsz
  (List.range (d.n0 / g)).map fun i =>
    let xs := (es.drop (g * i)).take g
    let vs := xs.map fun e => fp32.decode (tileOut fp32 false (if d.cv 9 2 = 1 then .rtz else .rne)
      (Fp.mul ((tagFmt d.sfmt).decode e.1) d.mult).1).bits
    let bad := xs.findSome? (·.2)
    let o := emitGroup d.dfmt (d.conv.getLsbD 22) vs
    ⟨elemPiece (da + d.edBits * g * i / 8) (d.edBits * g / 8) (packN d.edBits o.codes) bad, (o.scale, bad), o,
      vs.foldl (fun m v => Fp.max m v.abs) (.fin false 0 0)⟩

/-- The scales of the groups of a copy, by rising address (10 R222): `gs` holds the groups of each row in turn. -/
def scalePieces (d : Desc) (gs : List WGroup) : List Piece :=
  let k := d.n0 / d.gsz
  (List.range (d.n2 * k * d.n1)).filterMap fun n =>
    let r := n % d.n1
    let g := n / d.n1 % k
    let p := n / d.n1 / k
    gs[(p * d.n1 + r) * k + g]?.map fun x => elemPiece (d.scaleA + 2 * n) 2 x.scale.1 x.scale.2

/-- What a copy moves (10 R222, R223, 08 R197). -/
def copyMoved (hall : Byte) (d : Desc) (rd : Nat → CByte) : Moved :=
  let dst (x : Nat × Nat) : Nat := addr48 (rowAddr d.dstA d.dstr x)
  let src (x : Nat × Nat) : Nat := addr48 (rowAddr d.srcA d.sstr x)
  match d.kind with
  | .bytes => ⟨d.rows.map fun x => (dst x, copyBytes rd (src x) d.n0), none⟩
  | .weight =>
    let rs := d.rows.flatMap (weightRow d rd)
    let sum (f : GroupOut → Nat) : Nat := (rs.map (fun r => f r.out)).sum
    ⟨rs.map (·.codes) ++ scalePieces d rs,
      if d.cnt then some
        { hall := hall, fmt := some (BitVec.ofNat 4 d.dfmt), conv := d.n0 * d.n1 * d.n2, satc := sum (·.satc), vanc := sum (·.vanc)
          invc := 0, degc := sum (·.degc), nfc := sum (·.nfc), bumpc := 0
          amax := BitVec.ofNat 32 (amaxBits (rs.foldl (fun m r => Fp.max m r.amax) (.fin false 0 0))), bump := 0 }
      else none⟩
  | _ =>
    let es := d.rows.flatMap fun x => rowElems d rd (src x)
    let o := scaleConv (tagFmt d.dfmt) true (TRm.ofBits (d.cv 9 2)) d.mult (es.map fun e => (tagFmt d.sfmt).decode e.1) ⟨1, TFl.none⟩
    let at_ := d.rows.flatMap fun x => (List.range d.n0).map fun i => dst x + tagBytes d.dfmt * i
    ⟨((at_.zip o.out).zip es).map fun t => elemPiece t.1.1 (tagBytes d.dfmt) t.1.2 t.2.2,
      if d.cnt && decide (d.kind = .narrow) then
        some (convContribution hall d.dfmt es.length o.satc o.vanc o.nfc (BitVec.ofNat 32 (amaxBits o.amax)))
      else none⟩

/-- The tile windows that an extent touches: cell, offset, length. -/
def tileSpans (a n : Nat) : List (Nat × Nat × Nat) :=
  if n = 0 then []
  else (List.range ((a + n - 1) / 65536 - a / 65536 + 1)).filterMap fun i =>
    let lo := max a (65536 * (a / 65536 + i))
    match placeOf lo with
    | .tile c off => some (c, off, min (a + n) (65536 * (lo / 65536 + 1)) - lo)
    | _ => none

/-- The tile windows of some extents, with whether each is written. -/
def extTiles (es : List (Int × Nat × Bool)) : List (Nat × Nat × Nat × Bool) :=
  es.flatMap fun e => (tileSpans e.1.toNat e.2.1).map fun t => (t.1, t.2.1, t.2.2, e.2.2)

/-- Consecutive bytes split where a place may end: at multiples of 64 KiB; `fuel` bounds the parts. -/
def split64 : Nat → Piece → List Piece
  | 0, _ => []
  | fuel + 1, (a, bs) =>
    if bs.isEmpty then []
    else
      let k := 65536 - a % 65536
      (a, bs.take k) :: split64 fuel (a + k, bs.drop k)

/-- Pieces of which each begins where the one before it ends, as one write. -/
def joinPieces : List Piece → List Piece
  | [] => []
  | p :: ps =>
    match joinPieces ps with
    | q :: qs => if q.1 = p.1 + p.2.length then (p.1, p.2 ++ q.2) :: qs else p :: q :: qs
    | [] => [p]

/-- One part of a piece written to memory or to a tile window. -/
def writePart (s : State) (p : Piece) : State :=
  let bs := p.2.map (·.1)
  match placeOf p.1 with
  | .lpddr _ => agentStore s p.1 bs
  | .sram _ => agentStore s p.1 bs
  | .tile c off => s.updCell c fun k => k.windowWrite off bs
  | _ => s

/-- Whether an address lies in control space. -/
def inCtl (a : Nat) : Bool :=
  match placeOf a with
  | .moduleCtl _ => true
  | .regionCtl _ _ => true
  | .blockCtl _ _ => true
  | .cellCtl _ _ => true
  | _ => false

/-- A byte put into a list of bytes by address: a later one at the same address replaces it. -/
def putByte (l : List (Nat × Byte)) (e : Nat × Byte) : List (Nat × Byte) := Tab.put l e.1 e.2

/-- Bytes by rising address as writes of control space: each inside one aligned word of 8 bytes (10 R232). -/
def ctlWords : List (Nat × Byte) → List (Nat × List Byte)
  | [] => []
  | e :: es =>
    match ctlWords es with
    | w :: ws => if w.1 = e.1 + 1 ∧ w.1 % 8 ≠ 0 then (e.1, e.2 :: w.2) :: ws else (e.1, [e.2]) :: w :: ws
    | [] => [(e.1, [e.2])]

/-- The parts of some pieces. -/
def partsOf (ps : List Piece) : List Piece := (joinPieces ps).flatMap fun p => split64 (p.2.length / 65536 + 2) p

/-- The bytes that some pieces write in control space, by rising address. -/
def ctlPart (ps : List Piece) : List (Nat × List Byte) :=
  ctlWords ((ps.flatMap fun p => (p.2.zipIdx.map fun e => (p.1 + e.2, e.1.1)).filter fun e => inCtl e.1).foldl putByte [])

/-- The destination of an uncorrectable byte: its line poisoned, or its tile slice written with bad parity (10 R227). -/
def spoilAt (s : State) (a : Nat) : State :=
  match placeOf a with
  | .tile c off => s.updCell c fun k => k.spoilSlices off 1
  | .lpddr _ => poisonLine s a
  | .sram _ => poisonLine s a
  | _ => s

/-- The uncorrectable bytes of a piece spoiled at their destination. -/
def spoilPiece (s : State) (p : Piece) : State :=
  p.2.zipIdx.foldl (fun s e => if e.1.2.isSome then spoilAt s (p.1 + e.2) else s) s

/-- Pieces written: memory and tile windows in order, control space one word after another by rising address (10 R232), with `put`; then
the uncorrectable bytes spoiled. -/
def writePieces (put : State → Nat → List Byte → State) (s : State) (ps : List Piece) : State :=
  ps.foldl spoilPiece ((ctlPart ps).foldl (fun s w => put s w.1 w.2) ((partsOf ps).foldl writePart s))

/-- The addresses of memory that some pieces write. -/
def pieceAddrs (ps : List Piece) : List Nat := ps.flatMap fun p => if isMem p.1 then (List.range p.2.length).map (p.1 + ·) else []

/-- Whether the unit at an address accepts a hallmark (01 R27, 10 R241). -/
def unitAccepts (s : State) (h : Byte) (a : Nat) : Bool :=
  if isMem a then memAccepts s h a 1 else ctlAccepts s (placeOf a) h

/-- The bytes of some pieces that a stopped copy has written: a subset the manual leaves open (10 R227). -/
def openPieces (n : Nat) (ps : List Piece) : List Piece :=
  (ps.flatMap fun p => p.2.zipIdx.map fun e => (p.1 + e.2, [e.1])).zipIdx.filterMap fun e =>
    if Config.freeBit n e.2 then some e.1 else none

/-- The resident quads that a copy's source names written back (01 R25, 06 R144). -/
def sourceTiles (s : State) (d : Desc) : State :=
  (extTiles d.srcExt).foldl (fun s t => s.updCell t.1 fun k => k.windowRead t.2.1 t.2.2.1) s

/-- Whether a piece is of the group scales, which lie on this module (10 R222). -/
def Desc.isScale (d : Desc) (p : Piece) : Bool := d.scaleExt.any fun e => insideRange p.1 p.2.length e.1.toNat e.2.1

/-- The destination lines that receive uncorrectable data (10 R227). -/
def badLines (ps : List Piece) : List Nat :=
  (ps.flatMap fun p => p.2.zipIdx.filterMap fun e => if e.1.2.isSome then some ((p.1 + e.2) / 128) else none).eraseDups

/-- Pieces without the bytes of the lines that receive uncorrectable data, joined. -/
def goodPieces (ps : List Piece) : List Piece :=
  match badLines ps with
  | [] => joinPieces ps
  | ls => joinPieces (ps.flatMap fun p =>
      p.2.zipIdx.filterMap fun e => if ls.contains ((p.1 + e.2) / 128) then none else some (p.1 + e.2, [e.1]))

/-- The memory behind a copy's extents powered (20 R458, R459), and whether it is ready. -/
def wakeExts (s : State) (d : Desc) : State := d.exts.foldl (fun s e => wakeExtent s e.1.toNat e.2.1) s
def extsReady (s : State) (d : Desc) : Bool := d.exts.all fun e => extentReady s e.1.toNat e.2.1

/-- What the check bits of the words that a copy reads show (10 R234, R239): byte `src.byte` of its source, in element order. -/
def sourceCheck (s : State) (d : Desc) (src : Check) : State :=
  let i := src.byte % max 1 (d.srcRow * d.rows.length)
  match d.srcExt[i / max 1 d.srcRow]? with
  | some e =>
    let a := e.1.toNat + i % max 1 d.srcRow
    if isMem a then foundAt s a src.ecc else s
  | none => s

/-- What a stopped copy has written (10 R227): nothing while a group it needs is being powered (20 R458, log entry 131). A control
register is read at a moment the manual leaves open, so its byte is a free value, and no control register is among those written; nor is a byte of a unit
that refuses the hallmark. A copy to another module writes only its group scales here. -/
def stoppedWrites (s : State) (hall : Byte) (d : Desc) : State :=
  if d.fieldErr.isSome then s
  else if !extsReady (wakeExts s d) d then wakeExts s d
  else
    let (n, s) := draw (sourceTiles (wakeExts s d) d)
    let ps := (copyMoved hall d (copyByte s fun a => (Config.freeWord (n + a)).truncate 8)).pieces
    writePieces (fun s _ _ => s) s ((openPieces n ps).filter fun p => (!d.remote || d.isScale p) && unitAccepts s hall p.1)

end Sys2Proof.Machine
end

