-- ==== Sys2Proof/Machine/CopyRegs.lean ====
section
/-! DEFINITION. The copy engines' errors, abort and registers (10 R226 to R230). An engine is numbered 2b + e. -/

namespace Sys2Proof.Machine

/-- The block of an engine. -/
def blockOfEngine (i : Nat) : Nat := i / 2

/-- The signal number of a copy engine. -/
def engineSrc (i : Nat) : Nat := 512 + i

/-- Whether a packet is a WRITE packet of a copy engine of this module. -/
def ofEngine (s : State) (i : Nat) (pkt : Packet) : Bool := pkt.kind == kWrite && pkt.src == s.modId && pkt.fld 76 7 == i

/-- A finish packet that signals no pip. -/
def Packet.quiet (p : Packet) : Packet := { p with hdr := p.hdr &&& ~~~(1#128 <<< 31) }

/-- The packets of a remote copy that ends with an error, where they have not left the module (10 R226, R227): the data is not sent, and
the finish packet signals no pip. A packet whose first flit has left goes on. -/
def recallPackets (s : State) (i : Nat) : State :=
  let fix (p : Packet) : Packet := if ofEngine s i p && p.sub == 1 then p.quiet else p
  let data (p : Packet) : Bool := ofEngine s i p && p.sub == 0
  let inbox := (s.inbox.filter fun x => !data x.pkt).map fun x => { x with pkt := fix x.pkt }
  let ports := s.ports.map fun x =>
    let going (t : TxPkt) : Bool := match x.sent with | some (u, _ + 1) => u == t | _ => false
    let q := (x.txq.filter fun t => going t || !data t.pkt).map fun t => if going t then t else { t with pkt := fix t.pkt }
    let sent := match x.sent with
      | some (u, 0) => if data u.pkt then none else some ({ u with pkt := fix u.pkt }, 0)
      | y => y
    { x with txq := q, sent := sent }
  let bridgeq := (s.bridgeq.filter fun e => !data e.2).map fun e => (e.1, fix e.2)
  { s with inbox := inbox, ports := ports, bridgeq := bridgeq }

/-- What the end of a remote copy with an error leaves (log entry 48): nothing more of it is sent, and the WACK of a finish packet that
was sent is still owed. -/
def remoteStop (s : State) (i : Nat) (j : Job) : State :=
  let x := s.engine i
  if !j.desc.remote || !x.fin then s
  else recallPackets (s.setEngine i { x with fin := false, stale := x.stale ++ [j.desc.modId] }) i

/-- A descriptor ends with an error (10 R226, R228, R230): the engine's error registers unless they hold one, its record, and the
error pip. The loss of a remote module is reported as peer loss (21 R478). -/
def copyEnd (s : State) (i : Nat) (j : Job) (code detail addr : Nat) : State :=
  let s := remoteStop s i j
  let x := s.engine i
  let b := blockOfEngine i
  let ea := if code = 4 ∨ code = 5 ∨ code = 6 then 0 else addr % 2 ^ 48
  let y := { x with run := none, err := true, contrib := none }
  let y := if x.err then y else
    { y with
      ceerr := BitVec.ofNat 64 (code + detail * 256 + j.num.toNat % 2 ^ 48 * 65536)
      ceaddr := BitVec.ofNat 64 ea }
  let s := s.setEngine i y
  let own := ownerOfBlock s b
  let s := if code = 7 ∧ detail = 1 then
      reportBlockVia s b (peerOrigin j.desc.modId) (originEngine s i) 0x10 own (detailWord code detail 0)
    else reportBlock s b (originEngine s i) 8 own (detailWord code detail ea)
  if j.desc.epipen then sendSig s (engineSrc i) j.cell (j.desc.doneF 48 6) 1 (hallOfBlock s b) else s

/-- A WRITE data packet (14 R344). -/
def writePacket (s : State) (i : Nat) (d : Desc) (a : Nat) (bs : List Byte) : Packet :=
  ⟨kWrite, 2, mkHdr 0 (d.doneF 35 12) (a % 2 ^ 48 + (bs.length - 1) * 2 ^ 48 + i * 2 ^ 60) s.modId d.modId, bs, 0⟩

/-- The WRITE finish packet (14 R344). -/
def finishPacket (s : State) (i : Nat) (d : Desc) : Packet :=
  ⟨kWrite, 2, mkHdr 1 (d.doneF 35 12) (d.doneF 0 16 + i * 2 ^ 60) s.modId d.modId, [], 0⟩

/-- The data packets of a piece: at most 4,096 bytes each (14 R344); `fuel` bounds them. -/
def dataPackets (s : State) (i : Nat) (d : Desc) : Nat → Nat → List Byte → List Packet
  | 0, _, _ => []
  | fuel + 1, a, bs =>
    if bs.isEmpty then []
    else writePacket s i d a (bs.take 4096) :: dataPackets s i d fuel (a + 4096) (bs.drop 4096)

/-- Packets sent in order. -/
def sendAll (s : State) (own : Option Nat) : List Packet → State
  | [] => s
  | p :: ps => sendAll (sendPacket s own p) own ps

/-- The packets of a copy to another module: its data, then its finish packet, which signals no pip where the copy has ended with an
error. -/
def sendCopy (s : State) (i : Nat) (d : Desc) (ps : List Piece) (quiet : Bool) : State :=
  let own := ownerOfBlock s (blockOfEngine i)
  let s := sendAll s own (ps.flatMap fun p => dataPackets s i d (p.2.length / 4096 + 1) p.1 (p.2.map (·.1)))
  let f := finishPacket s i d
  if quiet then sendPacket (s.setEngine i { s.engine i with stale := (s.engine i).stale ++ [d.modId] }) own f.quiet
  else sendPacket s own f

/-- What a remote copy that is stopped before it has sent its finish packet has written at the other module: bytes the manual leaves open
(10 R227). -/
def openSend (s : State) (i : Nat) (d : Desc) (hall : Byte) : State :=
  if d.fieldErr.isSome || !fabReachable s d.modId || !extsReady s d then s
  else
    let (n, s) := draw s
    let ps := (copyMoved hall d (copyByte s fun a => (Config.freeWord (n + a)).truncate 8)).pieces.filter fun p => !d.isScale p
    match joinPieces (openPieces n (goodPieces ps)) with
    | [] => s
    | qs => sendCopy s i d qs true

/-- A running copy stopped after data has begun to move (10 R227): what it has written stands. -/
def copyStopped (s : State) (i : Nat) (j : Job) (code detail addr : Nat) : State :=
  let h := hallOfBlock s (blockOfEngine i)
  if j.desc.remote then
    if (s.engine i).fin then copyEnd s i j code detail addr
    else openSend (copyEnd (stoppedWrites s h j.desc) i j code detail addr) i j.desc h
  else copyEnd (stoppedWrites s h j.desc) i j code detail addr

/-- CECTL.ABORT (10 R227, R230): the running descriptor ends with code 0x6 where it stands, and the queue is discarded. -/
def copyAbortOp (s : State) (i : Nat) : State :=
  let s := s.setEngine i { s.engine i with queue := [] }
  match (s.engine i).run with
  | some j => copyStopped s i j 6 0 0
  | none => s

/-- The registers of an engine's page (10 R229). -/
def engineRegs : List RegAt := [(0x00, 4), (0x08, 8), (0x10, 8), (0x18, 8), (0x20, 8), (0x28, 4)]

/-- A register of an engine read (10 R229). -/
def engineRead (x : Engine) (off : Nat) : W64 :=
  if off = 0x00 then BitVec.ofNat 64 (min x.queue.length 16 + 32 * b2n x.run.isSome + 256 * b2n x.err)
  else if off = 0x08 then x.acc
  else if off = 0x10 then x.done
  else if off = 0x18 then x.ceerr
  else if off = 0x20 then x.ceaddr
  else if off = 0x28 then BitVec.ofNat 64 (b2n x.cectl)
  else 0

/-- A register of an engine written (10 R229). -/
def engineWrite (i : Nat) (s : State) (off : Nat) (v m : W64) : State :=
  let x := s.engine i
  if off = 0x00 then s.setEngine i { x with err := x.err && !v.getLsbD 8 }
  else if off = 0x28 then
    let s := s.setEngine i { x with cectl := if m.getLsbD 0 then v.getLsbD 0 else x.cectl }
    if v.getLsbD 0 then copyAbortOp s i else s
  else s

/-- A partition reset of an engine (10 R230): an abort, then every register at its reset value. A WACK still owed to it stays owed (log
entry 48). -/
def engineReset (s : State) (i : Nat) : State :=
  let s := copyAbortOp s i
  s.setEngine i { Engine.reset with stale := (s.engine i).stale }

end Sys2Proof.Machine
end

