-- ==== Sys2Proof/Machine/QpOps.lean ====
section
/-! DEFINITION. Queue pairs and memory windows (19 R443 to R451): registers, send and receive entries, completions, and what
the peer asks for. A queue pair is numbered 64b + k, a window 16b + w. -/

namespace Sys2Proof.Machine

/-- A field of QPCFG. -/
def Qp.cfgF (x : Qp) (lo w : Nat) : Nat := fieldN x.cfg.toNat lo w
/-- QPCFG.ENABLE. -/
def Qp.enable (x : Qp) : Bool := x.cfg.getLsbD 0
/-- SQPI. -/
def Qp.sqpi (x : Qp) : W16 := x.idx.truncate 16
/-- RQPI. -/
def Qp.rqpi (x : Qp) : W16 := (x.idx >>> 16).truncate 16

/-- The base of a ring. -/
def ringBase (r : W64) : Nat := fieldN r.toNat 0 48
/-- The entries of a ring: 2^LOG2N. -/
def ringLen (r : W64) : Nat := 2 ^ fieldN r.toNat 48 4
/-- The address of a ring entry (19 R446). -/
def entryAddr (r : W64) (i : W16) : Nat := ringBase r + 32 * (i.toNat % ringLen r)

/-- A ring entry (19 R446). -/
structure Entry where
  laddr : Nat
  len : Nat
  op : Nat
  rva : W64
  rkey : W32
  deriving DecidableEq, Repr

/-- Bytes between the RoCEv2 engine, on the hub die, and an address in a region, over the bridge (01 R19, 16 R392). -/
def countRegion (s : State) (p : Option Nat) (a n : Nat) : State := if isMem a then countPart s p 11 n else s

/-- The traffic of reading a ring entry (16 R392), whose memory is powered for it (20 R458, R459). -/
def entryRead (s : State) (i : Nat) (r : W64) (j : W16) : State :=
  let p := ownerOfBlock s (i / 64)
  countPart (countRegion (wakeExtent s (entryAddr r j) 32) p (entryAddr r j) 32) p 10 32

/-- A ring entry read. -/
def readEntry (s : State) (r : W64) (i : W16) : Entry :=
  let a := entryAddr r i
  let w (k : Nat) : Nat := leNat (memBytes s (a + 8 * k) 8)
  ⟨fieldN (w 0) 0 48, fieldN (w 1) 0 32, fieldN (w 1) 32 2, BitVec.ofNat 64 (w 2), BitVec.ofNat 32 (w 3)⟩

/-- What the RoCEv2 engine waits for before it reaches some extents of memory, with the state that its waiting leaves: an arbiter on its way
(15 R361, R367), or SRAM that is being powered (20 R458). -/
def engineWaits (s : State) (es : List (Nat × Nat)) : Option State :=
  if es.any fun e => unitsHeld s e.1 e.2 0 || (pageStarts e.1 e.2).any fun a => hostPathHeld s (regionOfPlace (placeOf a)) then some s
  else if allReady s es then none
  else some (wakeExtents s es)

/-- The partition of a queue pair's block. -/
def qpPart (s : State) (i : Nat) : Option Nat := ownerOfBlock s (i / 64)
/-- Its hallmark. -/
def qpHall (s : State) (i : Nat) : Byte := hallOfBlock s (i / 64)

/-- What a local extent of memory meets (19 R448): the status that ends the entry, or nothing. -/
def localErr (s : State) (p : Option Nat) (a n : Nat) (rd : Bool) : Option Byte :=
  if n = 0 then none
  else match p with
    | none => some 2
    | some p =>
      if (firstReserved s a n).isSome || !inMemWindows s p a n then some 2
      else if !(s.part p).keyed || (rd && anyPoison s a n) then some 6
      else none

/-- Whether a ring passes the checks of 19 R445. -/
def ringOk (s : State) (p : Option Nat) (r : W64) : Bool :=
  let n := fieldN r.toNat 48 4
  decide (ringBase r % 64 = 0) && decide (4 ≤ n) && decide (n ≤ 12) &&
    (localErr s p (ringBase r) (32 * ringLen r) false).isNone

/-- QPCFG.ENABLE set from 0 to 1 (19 R445). -/
def qpEnableOp (s : State) (i : Nat) : State :=
  let x := s.qp i
  if x.enable then s
  else
    let x := { x with cfg := x.cfg ||| 1 }
    if ringOk s (qpPart s i) x.sq && ringOk s (qpPart s i) x.rq then s.setQp i { x with st := .rts }
    else s.setQp i { x with st := .error, err := 1 }

/-- QPCFG.ENABLE written to 0 (19 R445). -/
def qpDisableOp (s : State) (i : Nat) : State :=
  let x := s.qp i
  s.setQp i { x with
    cfg := x.cfg &&& ~~~1#64, st := .reset, err := 0, sqci := 0, rqci := 0, started := 0, comps := [], retries := 0, rnrs := 0, got := 0 }

/-- QPIDX written (19 R446): entries posted. -/
def qpPostOp (s : State) (i : Nat) (v m : W32) : State :=
  let x := s.qp i
  s.setQp i { x with idx := masked x.idx v m }

/-- The packets that a number of bytes take (19 R443). -/
def mtuPackets (n : Nat) : Nat := max 1 ((n + 4095) / 4096)

/-- PSN fields advanced (19 R444). -/
def Qp.psnAdd (x : Qp) (lo n : Nat) : Qp := { x with psn := setField x.psn lo 24 ((fieldN x.psn.toNat lo 24 + n) % 2 ^ 24) }

/-- RoCEv2 operations as the trace names them: requests, then answers to the peer. -/
def roceWrite : Nat := 0
def roceRead : Nat := 1
def roceSend : Nat := 2
def roceAck : Nat := 3
def roceReadData : Nat := 4
def roceNakAccess : Nat := 5
def roceRnr : Nat := 6
def roceNakInvalid : Nat := 7
def roceCnp : Nat := 8

/-- Bytes counted to a partition's HOSTTX (14) or HOSTRX (15), over the bridge (01 R19, 16 R392). -/
def countHost (s : State) (p : Option Nat) (k n : Nat) : State := countPart (countPart s p k n) p 11 n

/-- The peer's address of a queue pair in network order (19 R444): of an IPv4 peer the last four bytes. -/
def Qp.peer (x : Qp) : Bool × List Byte :=
  let a := leBytes 8 x.raddr0.toNat ++ leBytes 8 x.raddr1.toNat
  if a.take 12 = List.replicate 10 0 ++ [0xFF, 0xFF] then (false, a.drop 12) else (true, a)

/-- A RoCEv2 operation toward the peer of a queue pair, where a next hop leads to it (19 R441). -/
def roceOut (s : State) (i op : Nat) (va : W64) (key : W32) (data : List Byte) : State :=
  match nextHop s .host (s.qp i).peer.1 (s.qp i).peer.2 with
  | some h => emit s (.roce h i op va key data)
  | none => s

/-- The retransmission timer of a queue pair armed anew: 134 ms on the module timer (19 R448). -/
def armRetry (s : State) (i : Nat) : State := s.setQp i { s.qp i with due := moduleDue s 134 }

/-- The request of a send entry put on the wire. -/
def emitEntry (s : State) (i : Nat) (e : Entry) : State :=
  let p := qpPart s i
  let s := armRetry s i
  if e.op = 1 then roceOut s i roceRead e.rva e.rkey (leBytes 4 e.len)
  else
    let s := countBulk (countHost (wakeExtent s e.laddr e.len) p 14 e.len) p e.len
    roceOut s i (if e.op = 0 then roceWrite else roceSend) e.rva e.rkey (memBytes s e.laddr e.len)

/-- The oldest started send entry without an outcome (19 R447); `fuel` bounds the ring. -/
def unacked (x : Qp) : Nat → W16 → Option W16
  | 0, _ => none
  | n + 1, j =>
    if j = x.started then none
    else if x.comps.any (fun c => c.send && c.idx == j) then unacked x n (j + 1) else some j

/-- The same, from SQCI on. -/
def Qp.oldest (x : Qp) : Option W16 := unacked x 4096 x.sqci

/-- The started send entries without an outcome. -/
def Qp.outstanding (x : Qp) : List W16 :=
  ((List.range (x.started - x.sqci).toNat).map fun k => x.sqci + BitVec.ofNat 16 k).filter fun j =>
    !x.comps.any fun c => c.send && c.idx == j

/-- The index of the oldest posted receive entry without an outcome, if any (19 R447). -/
def Qp.nextRecv (x : Qp) : Option W16 :=
  let j := x.rqci + BitVec.ofNat 16 (x.comps.countP fun c => !c.send)
  if j = x.rqpi then none else some j

/-- The memory that putting a send entry on the wire reads: the entry, and the buffer of a WRITE or SEND whose extent is good. -/
def sendExtents (s : State) (i : Nat) (j : W16) : List (Nat × Nat) :=
  let x := s.qp i
  let e := readEntry s x.sq j
  (entryAddr x.sq j, 32) :: (if e.op % 2 = 0 ∧ localErr s (qpPart s i) e.laddr e.len true = none then [(e.laddr, e.len)] else [])

/-- An entry has its outcome (19 R447). -/
def outcome (s : State) (i : Nat) (send : Bool) (idx : W16) (status : Byte) (bytes : Nat) : State :=
  let x := s.qp i
  s.setQp i { x with comps := x.comps ++ [⟨send, idx, status, BitVec.ofNat 64 bytes⟩] }

/-- The next send entry started (19 R447), once its memory can be reached. An entry with the reserved OP has no stated status: a free
value. -/
def startEntry (s : State) (i : Nat) : State :=
  let x := s.qp i
  if x.st = .rts ∧ x.started ≠ x.sqpi then
    match engineWaits s (sendExtents s i x.started) with
    | some s => s
    | none =>
    let e := readEntry s x.sq x.started
    let s := entryRead s i x.sq x.started
    let s := s.setQp i { x with started := x.started + 1 }
    if e.op = 3 then
      let (n, s) := draw s
      outcome s i true x.started ((Config.freeWord n).truncate 8) 0
    else match localErr s (qpPart s i) e.laddr e.len (e.op != 1) with
      | some c => outcome s i true x.started c 0
      | none => emitEntry (s.setQp i ((s.qp i).psnAdd 0 (mtuPackets e.len))) i e
  else s

/-- The status of an entry written to its ring (19 R446, R448), with the bytes that a receive entry took. `chk`: what the read finds that
merges them with their line (10 R234, R242). -/
def statusWrite (s : State) (i a : Nat) (send : Bool) (status : Byte) (bytes : W64) (chk : Check) : State :=
  let full := !send && status == 1
  let s := countPart (countRegion (wakeExtent s a 32) (qpPart s i) a (if full then 9 else 1)) (qpPart s i) 10 (if full then 9 else 1)
  let s := mergeCheck s ((if full then (List.range 8).map (a + 0x10 + ·) else []) ++ [a + 0x1C]) chk
  let s := if full then agentStore s (a + 0x10) (leBytes 8 bytes.toNat) else s
  agentStore s (a + 0x1C) [status]

/-- Whether the engine may write to a ring of a queue pair: the ring passed the checks of R445, and memory still takes the hallmark. A
queue pair with the configuration error 0x01 may have a ring that did not (log entry 45). -/
def ringOpen (s : State) (i : Nat) (r : W64) (a : Nat) : Bool :=
  ((s.qp i).err != 1 || ringOk s (qpPart s i) r) && memAccepts s (qpHall s i) a 32

/-- A completion (19 R447, R448): the status in the ring, the index, the pip; the first bad one puts the queue pair in ERROR. -/
def completeEntry (s : State) (i : Nat) (send : Bool) (status : Byte) (bytes : W64) (chk : Check) : State :=
  let x := s.qp i
  let r := if send then x.sq else x.rq
  let a := entryAddr r (if send then x.sqci else x.rqci)
  let s := if ringOpen s i r a then statusWrite s i a send status bytes chk else s
  let x := s.qp i
  let y := if send then { x with sqci := x.sqci + 1, started := if x.started = x.sqci then x.sqci + 1 else x.started }
    else { x with rqci := x.rqci + 1 }
  let y := if status ≠ 1 ∧ x.st = .rts then { y with st := .error, err := status, comps := [] } else y
  let s := s.setQp i y
  if x.cfg.getLsbD 17 then sendSig s (4096 + i) (x.cfgF 8 9) (x.cfgF 2 6) 1 (qpHall s i) else s

/-- The entry of a queue pair that completes next (19 R447, R448): one with its outcome, in ring order; in ERROR the next posted entry,
flushed. -/
def Qp.due? (x : Qp) : Option Comp :=
  match x.st with
  | .reset => none
  | .error => if x.sqci ≠ x.sqpi then some ⟨true, x.sqci, 8, 0⟩ else if x.rqci ≠ x.rqpi then some ⟨false, x.rqci, 8, 0⟩ else none
  | .rts => x.comps.find? fun c => c.idx == (if c.send then x.sqci else x.rqci)

/-- The next completion of a queue pair (19 R447, R448), once its ring can be reached. -/
def completionOp (s : State) (i : Nat) (chk : Check) : State :=
  let x := s.qp i
  match x.due? with
  | none => s
  | some c =>
    let r := if c.send then x.sq else x.rq
    let a := entryAddr r c.idx
    match engineWaits s (if ringOpen s i r a then [(a, 32)] else []) with
    | some s => s
    | none => completeEntry (s.setQp i { x with comps := x.comps.erase c }) i c.send c.status c.bytes chk

/-- The outstanding send entries put on the wire again, from the oldest (19 R448). -/
def resendEntries (s : State) (i : Nat) : Nat → W16 → State
  | 0, _ => s
  | n + 1, j =>
    let x := s.qp i
    if j = x.started then s
    else
      let s := if x.comps.any (fun c => c.send && c.idx == j) then s else emitEntry (entryRead s i x.sq j) i (readEntry s x.sq j)
      resendEntries s i n (j + 1)

/-- A window that a remote key names (19 R449, R450). -/
def mwOf (key : W32) : Nat := key.toNat / 2 ^ 22

/-- The device address a remote access names, where it is performed (19 R450). -/
def mwAccess (s : State) (i : Nat) (key : W32) (rva n : Nat) (wr : Bool) : Option Nat :=
  let m := mwOf key
  let w := s.mw m
  let p := ownerOfBlock s (m / 16)
  if w.cfg.getLsbD 0 && fieldN w.cfg.toNat 4 22 == key.toNat % 2 ^ 22 && p.isSome && p == qpPart s i &&
      w.cfg.getLsbD (if wr then 2 else 1) && decide (rva + n ≤ fieldN w.len.toNat 0 40) &&
      (localErr s p (fieldN w.base.toNat 0 48 + rva) n (!wr)).isNone then
    some (fieldN w.base.toNat 0 48 + rva)
  else none

/-- The registers of a queue pair (19 R444). -/
def qpRegs : List RegAt :=
  [(0x00, 8), (0x08, 8), (0x10, 8), (0x18, 8), (0x20, 8), (0x28, 8), (0x38, 4), (0x40, 8)]

/-- QPSTAT.STATE (19 R444). -/
def qpStCode : QpSt → Nat
  | .reset => 0
  | .rts => 1
  | .error => 2

/-- A register of a queue pair read (19 R444). -/
def qpRead (x : Qp) (off : Nat) : W64 :=
  if off = 0x00 then x.cfg
  else if off = 0x08 then x.raddr0
  else if off = 0x10 then x.raddr1
  else if off = 0x18 then x.psn
  else if off = 0x20 then x.sq
  else if off = 0x28 then x.rq
  else if off = 0x38 then x.idx.zeroExtend 64
  else if off = 0x40 then BitVec.ofNat 64 (qpStCode x.st + 256 * x.err.toNat + 65536 * x.sqci.toNat + 2 ^ 32 * x.rqci.toNat)
  else 0

/-- LOG2N values that are not reserved (19 R444). -/
def log2nOk (n : Nat) : Bool := decide (4 ≤ n) && decide (n ≤ 12)

/-- A ring register written: a reserved LOG2N leaves its field (19 R444). -/
def ringWrite (old v m : W64) : W64 :=
  let n := masked old v m
  wrField (mergeField old n 0 48) n 48 4 log2nOk

/-- QPCFG's other fields written while ENABLE = 0 (19 R444). -/
def qpCfgFields (old v m : W64) : W64 :=
  let n := masked old v m
  mergeField (mergeField (wrField old n 2 6 pipOk) n 8 10) n 32 24

/-- QPCFG written (19 R444, R445). -/
def qpcfgWrite (s : State) (i : Nat) (v m : W64) : State :=
  let x := s.qp i
  if x.enable then (if m.getLsbD 0 && !v.getLsbD 0 then qpDisableOp s i else s)
  else
    let s := s.setQp i { x with cfg := qpCfgFields x.cfg v m }
    if m.getLsbD 0 && v.getLsbD 0 then qpEnableOp s i else s

/-- A register of a queue pair written (19 R444). -/
def qpWrite (i : Nat) (s : State) (off : Nat) (v m : W64) : State :=
  let x := s.qp i
  let low24 : W64 := 0x00FFFFFF00FFFFFF
  if off = 0x00 then qpcfgWrite s i v m
  else if off = 0x38 then qpPostOp s i (v.truncate 32) (m.truncate 32)
  else if x.enable then s
  else if off = 0x08 then s.setQp i { x with raddr0 := masked x.raddr0 v m }
  else if off = 0x10 then s.setQp i { x with raddr1 := masked x.raddr1 v m }
  else if off = 0x18 then s.setQp i { x with psn := masked x.psn v m &&& low24 }
  else if off = 0x20 then s.setQp i { x with sq := ringWrite x.sq v m }
  else if off = 0x28 then s.setQp i { x with rq := ringWrite x.rq v m }
  else s

/-- The registers of a memory window (19 R449). -/
def mwRegs : List RegAt := [(0x00, 8), (0x08, 8), (0x10, 4)]

/-- A register of a memory window read (19 R449). -/
def mwRead (x : Mw) (off : Nat) : W64 :=
  if off = 0x00 then x.base else if off = 0x08 then x.len else if off = 0x10 then x.cfg.zeroExtend 64 else 0

/-- MWCFG written (19 R449): VALID from 0 to 1 opens the window, or sets BAD. -/
def mwcfgWrite (s : State) (i : Nat) (v m : W32) : State :=
  let x := s.mw i
  let n := masked x.cfg v m
  if x.cfg.getLsbD 0 then
    s.setMw i { x with cfg := if n.getLsbD 0 then x.cfg else x.cfg &&& ~~~1#32 }
  else
    let g := (x.cfg &&& 0x80000000#32) ||| (n &&& 0x03FFFFF6#32)
    if n.getLsbD 0 then
      let a := fieldN x.base.toNat 0 48
      let l := fieldN x.len.toNat 0 40
      let ok := decide (0 < l) && (localErr s (ownerOfBlock s (i / 16)) a l false).isNone
      s.setMw i { x with cfg := if ok then (g &&& 0x7FFFFFFF#32) ||| 1 else g ||| 0x80000000#32 }
    else s.setMw i { x with cfg := g }

/-- A register of a memory window written (19 R449). -/
def mwWrite (i : Nat) (s : State) (off : Nat) (v m : W64) : State :=
  let x := s.mw i
  if off = 0x10 then mwcfgWrite s i (v.truncate 32) (m.truncate 32)
  else if x.cfg.getLsbD 0 then s
  else if off = 0x00 then s.setMw i { x with base := masked x.base v m &&& 0xFFFFFFFFFFFF#64 }
  else if off = 0x08 then s.setMw i { x with len := masked x.len v m &&& 0xFFFFFFFFFF#64 }
  else s

/-- A partition reset of a block's queue pairs and windows (19 R451). -/
def qpResets (s : State) (b : Nat) : State :=
  let s := ((List.range 64).map (64 * b + ·)).foldl (fun s i => s.setQp i Qp.reset) s
  ((List.range 16).map (16 * b + ·)).foldl (fun s i => s.setMw i Mw.reset) s

end Sys2Proof.Machine
end

