-- ==== Sys2Proof/Machine/Ctl.lean ====
section
/-! DEFINITION. Control space (01 R26, R499, 03 R58, R59): the registers of cells, blocks, regions and the module by address,
the permissions of cells, and the hallmark check of their units. -/

namespace Sys2Proof.Machine

/-- The timer registers of a cell (02 R51). -/
def timerRegs : List RegAt := [(0x00, 8), (0x08, 4), (0x0C, 4)]

/-- A timer register read (02 R51). -/
def timerRead (s : State) (c off : Nat) : W64 :=
  if off = 0x00 then BitVec.ofNat 64 (ctime s c)
  else if off = 0x08 then (s.cell c).ctcorr.zeroExtend 64
  else if off = 0x0C then (s.cell c).ctcseq.zeroExtend 64
  else 0

/-- The registers of a pip (11 R245). -/
def pipRegs : List RegAt := [(0x00, 4), (0x08, 8), (0x10, 8), (0x18, 8), (0x20, 8)]

/-- Whether a cell waits on a pip (11 R245: PSTAT.WAIT). -/
def waitsOn (k : Cell) (p : Nat) : Bool :=
  match k.wait with
  | some w => w.pip == p
  | none => false

/-- A register of a pip read (11 R245). -/
def pipRead (k : Cell) (p off : Nat) : W64 :=
  let x := k.pip p
  if off = 0x00 then x.count.zeroExtend 64
  else if off = 0x08 then BitVec.ofNat 64
    (b2n (waitsOn k p) + 2 * b2n x.ovf + 4 * b2n x.misuse + 8 * b2n x.arr + 65536 * x.gen.toNat + 2 ^ 32 * x.cmpl.toNat)
  else if off = 0x10 then x.cfg
  else if off = 0x18 then x.bmask
  else if off = 0x20 then BitVec.ofNat 64 (x.cmask.toNat + 65536 * x.a0.toNat + 2 ^ 26 * x.a1.toNat)
  else 0

/-- A register of a pip written (11 R245, R246). -/
def pipWrite (c p : Nat) (s : State) (off : Nat) (v m : W64) : State :=
  let x := (s.cell c).pip p
  if off = 0x00 then checkWait (setPipAt s c p { x with count := masked x.count (v.truncate 16) (m.truncate 16) }) c p
  else if off = 0x08 then
    setPipAt s c p { x with ovf := x.ovf && !v.getLsbD 1, misuse := x.misuse && !v.getLsbD 2 }
  else if off = 0x10 then pcfgWriteOp s c p v m
  else if off = 0x18 then setPipAt s c p { x with bmask := masked x.bmask v m }
  else if off = 0x20 then setPipAt s c p { x with cmask := masked x.cmask (v.truncate 8) (m.truncate 8) }
  else s

/-- BCCTL.L2EN written (03 R77 to R79). -/
def l2enWrite (s : State) (b : Nat) (on : Bool) : State :=
  let x := s.block b
  if x.l2.en == on then s
  else if on then
    let s := s.setBlock b { x with l2 := { x.l2 with en := true } }
    reportBlock s b (originBlock s b) 3 (ownerOfBlock s b) 0
  else disableL2 s b

/-- The registers of a block's first page and of its error collector (03 R77, 21 R474). -/
def blockRegs : List RegAt := [(0x0000, 4), (0x2000, 4), (0x2008, 8)]

/-- A register of a block read. -/
def blockRead (x : Block) (off : Nat) : W64 :=
  if off = 0x0000 then BitVec.ofNat 64 (b2n x.l2.en + 2 * b2n x.l2.stale)
  else if off = 0x2000 then x.becfg.zeroExtend 64
  else if off = 0x2008 then x.becnt
  else 0

/-- A register of a block written (03 R77, 21 R474). -/
def blockWrite (b : Nat) (s : State) (off : Nat) (v m : W64) : State :=
  if off = 0x0000 then (if m.getLsbD 0 then l2enWrite s b (v.getLsbD 0) else s)
  else if off = 0x2000 then
    let x := s.block b
    let old := x.becfg.zeroExtend 64
    let n := masked old v m
    s.setBlock b { x with becfg := (mergeField (wrField old n 0 6 pipOk) n 6 12).truncate 32 }
  else s

/-- A page of registers: the registers, how they are read and written, and the place of the access in the page. -/
structure Page where
  regs : List RegAt
  rd : Nat → W64
  wr : State → Nat → W64 → W64 → State
  off : Nat

/-- The page that an address of control space lies in, for an access with a hallmark (01 R26): none where no register is defined. -/
def pageOf (s : State) (h : Byte) : Place → Option Page
  | .cellCtl c off =>
    if off < 0x1000 then some ⟨timerRegs, timerRead s c, fun s _ _ _ => s, off⟩
    else if off < 0x1C00 then
      let p := (off - 0x1000) / 0x40
      some ⟨pipRegs, pipRead (s.cell c) p, pipWrite c p, off % 0x40⟩
    else none
  | .blockCtl b off =>
    if off < 0x1000 ∨ (0x2000 ≤ off ∧ off < 0x3000) then some ⟨blockRegs, blockRead (s.block b), blockWrite b, off⟩
    else if off < 0x2000 then
      let i := 2 * b + (off - 0x1000) / 0x800
      some ⟨engineRegs, engineRead (s.engine i), engineWrite i, off % 0x800⟩
    else if 0x4000 ≤ off ∧ off < 0x4100 then
      let k := 4 * b + (off - 0x4000) / 0x40
      some ⟨arbRegs, arbRead s k, arbWrite k, off % 0x40⟩
    else if 0x8000 ≤ off ∧ off < 0xC000 then
      let i := 64 * b + (off - 0x8000) / 0x100
      some ⟨qpRegs, qpRead (s.qp i), qpWrite i, off % 0x100⟩
    else if 0xC000 ≤ off ∧ off < 0xC200 then
      let i := 16 * b + (off - 0xC000) / 0x20
      some ⟨mwRegs, mwRead (s.mw i), mwWrite i, off % 0x20⟩
    else none
  | .regionCtl r off =>
    if 0x100000 ≤ off ∧ off < 0x104580 then
      let k := 256 + 278 * r + (off - 0x100000) / 0x40
      some ⟨arbRegs, arbRead s k, arbWrite k, off % 0x40⟩
    else if 0x400000 ≤ off ∧ off < 0x460000 ∧ off % 0x10000 < 0x8000 then
      let i := 8 * (6 * r + (off - 0x400000) / 0x10000) + off % 0x10000 / 0x1000
      some ⟨setterRegs, setterRead (s.setter i), setterWrite i, off % 0x1000⟩
    else if 0x600000 ≤ off ∧ off < 0x660000 ∧ off % 0x10000 < 0x8000 then
      let i := 8 * (6 * r + (off - 0x600000) / 0x10000) + off % 0x10000 / 0x1000
      some ⟨adderRegs, adderRead s i, adderWrite i, off % 0x1000⟩
    else if 0x680000 ≤ off ∧ off < 0x6E0000 ∧ off % 0x10000 < 0x200 then
      let m := 6 * r + (off - 0x680000) / 0x10000
      some ⟨(List.range 64).map (fun n => (8 * n, 8)), fun o => aslotRead s m h (o / 8), fun s _ _ _ => s, off % 0x10000⟩
    else if 0x800000 ≤ off ∧ off < 0x900000 then
      let i := 256 * r + (off - 0x800000) / 0x1000
      some ⟨slotRegs, slotRead (s.slot i), slotWrite i, off % 0x1000⟩
    else none
  | .moduleCtl off =>
    if 0x10000 ≤ off ∧ off < 0x10380 then
      let k := 1368 + (off - 0x10000) / 0x40
      some ⟨arbRegs, arbRead s k, arbWrite k, off % 0x40⟩
    else none
  | _ => none

/-- Bytes of control space read, in pieces of 32 bytes: every page is a multiple of that. -/
def ctlRead (s : State) (h : Byte) : Nat → Nat → Nat → List Byte
  | 0, _, _ => []
  | fuel + 1, a, n =>
    if n = 0 then []
    else
      let k := min n (32 - a % 32)
      (match pageOf s h (placeOf a) with
      | some p => pageBytes p.regs p.rd p.off k
      | none => List.replicate k 0) ++ ctlRead s h fuel (a + k) (n - k)

/-- Bytes of control space as one read of a unit. -/
def ctlBytes (s : State) (h : Byte) (a n : Nat) : List Byte := ctlRead s h (n / 32 + 2) a n

/-- Bytes written to control space, in pieces of 32 bytes. -/
def ctlWrite (h : Byte) : Nat → Nat → List Byte → State → State
  | 0, _, _, s => s
  | fuel + 1, a, bs, s =>
    if bs.isEmpty then s
    else
      let k := 32 - a % 32
      let s := match pageOf s h (placeOf a) with
        | some p => pageWrite p.wr p.off (bs.take k) p.regs s
        | none => s
      ctlWrite h fuel (a + k) (bs.drop k) s

/-- Bytes written to control space as one write of a unit. -/
def ctlPut (s : State) (h : Byte) (a : Nat) (bs : List Byte) : State := ctlWrite h (bs.length / 32 + 2) a bs s

/-- The unit that an offset of a region's range belongs to, as the origin of a record (21 R477, R500): a statistic slot, a Setter or an
adder context, an arbiter's resource; of the ASLOT page the controller of its unit. -/
def regionOrigin (s : State) (r off : Nat) : W32 :=
  if 0x800000 ≤ off then originSlot s (256 * r + (off - 0x800000) / 0x1000 % 256)
  else if 0x680000 ≤ off then originCtl s (6 * r + (off - 0x680000) / 0x10000 % 6)
  else if 0x600000 ≤ off then originAdder s (8 * (6 * r + (off - 0x600000) / 0x10000 % 6) + off % 0x10000 / 0x1000 % 8)
  else if 0x400000 ≤ off then originSetter s (8 * (6 * r + (off - 0x400000) / 0x10000 % 6) + off % 0x10000 / 0x1000 % 8)
  else arbOrigin s (256 + 278 * r + (off - 0x100000) / 0x40 % 278)

/-- What a hallmark refusal at an address leaves behind: the record of the unit that refused (03 R82, 21 R472, R476; log entry 71). -/
def refusedAtUnit (s : State) (a : Nat) : State :=
  let d := detailWord 0 0 (a % 2 ^ 48)
  let atBlock (b : Nat) (o : W32) : State := reportBlock s b o 4 (ownerOfBlock s b) d
  match placeOf a with
  | .cellCtl c _ => atBlock (blockOfCell c) (originCell s c)
  | .tile c _ => atBlock (blockOfCell c) (originCell s c)
  | .blockCtl b off =>
    atBlock b (if 0x1000 ≤ off ∧ off < 0x2000 then originEngine s (2 * b + (off - 0x1000) / 0x800) else originBlock s b)
  | .regionCtl r off => reportLog s (regionOrigin s r off) (regionOrigin s r off) 4 (partOfHall s (regionPageHall s r off)) d
  | .moduleCtl _ => reportLog s (originMc s) (originMc s) 4 none d
  | _ => memRefusal s a

/-- A write by an agent that carries a hallmark to a register of a unit (01 R27): performed, or refused with its record. -/
def regAccess (s : State) (h : Byte) (a : Nat) (f : State → State) : State :=
  if ctlAccepts s (placeOf a) h then f s else refusedAtUnit s a

/-- Why a cell may not reach an address of control space (03 R58, R62): the detail of its access fault. -/
def ctlDetail (s : State) (c : Nat) (wr : Bool) (a : Nat) : Option Byte :=
  let sup := (s.cell c).sup
  let own := ownerOfBlock s (blockOfCell c)
  let ok (b : Bool) : Option Byte := if b then none else some 4
  match placeOf a with
  | .reserved => some 0
  | .cellCtl d off =>
    if d = c then ok (if off < 16 then !wr else sup) else ok (sup && own.isSome && ownerOfBlock s (blockOfCell d) == own)
  | .blockCtl b _ => ok (sup && own.isSome && ownerOfBlock s b == own)
  | .regionCtl r off =>
    let h := hallOfBlock s (blockOfCell c)
    ok (sup && decide (h ≠ 0) && (regionPageHall s r off == h ||
      (!wr && (match aslotUnit r off with | some m => holdsAdder s m h | none => false))))
  | _ => some 4

/-- The lowest byte of an access to control space that raises an access fault. -/
def ctlFault (s : State) (c : Nat) (wr : Bool) (va : W64) : Nat → Option Exc
  | 0 => none
  | n + 1 =>
    match ctlDetail s c wr va.toNat with
    | some d => some ⟨3, d, va⟩
    | none => ctlFault s c wr (va + 1) n

/-- The first byte of an access whose unit refuses the cell's hallmark. -/
def ctlRefused (s : State) (h : Byte) (a n : Nat) : Option Nat :=
  ((List.range n).map (a + ·)).find? fun x => !ctlAccepts s (placeOf x) h

/-- Whether an access starts in control space, or above it, in the 64-bit address of a cell. -/
def isCtl (va : W64) : Bool := decide (ctlBase ≤ va.toNat)

end Sys2Proof.Machine
end

