-- ==== Sys2Proof/Machine/Setter.lean ====
section
/-! DEFINITION. The commands of the Setters (12 R267 to R291). Context j of controller m is numbered 8m + j. -/

namespace Sys2Proof.Machine

/-- The control-space address of a register of a Setter context (12 R267). -/
def setterPage (i off : Nat) : Nat :=
  0x30001400000 + 0x1000000 * (ctlOfCtx i / 6) + 0x10000 * (ctlOfCtx i % 6) + 0x1000 * (i % 8) + off

/-- The number of a context. -/
def ctxIx (m : CtlId) (j : CtxId) : Nat := 8 * m.val + j.val

/-- SETTER_ENABLE (12 R269): a write of 1 to SJCTL.ENABLE. -/
def execSetterEnable (hall : Byte) (m : CtlId) (j : CtxId) (s : State) : Ans :=
  next (regAccess s hall (setterPage (ctxIx m j) 0x038) fun s => sjctlWrite s (ctxIx m j) 1 1)

/-- SETTER_DISABLE (12 R291): a write of 0 to SJCTL.ENABLE. -/
def execSetterDisable (hall : Byte) (m : CtlId) (j : CtxId) (s : State) : Ans :=
  next (regAccess s hall (setterPage (ctxIx m j) 0x038) fun s => sjctlWrite s (ctxIx m j) 0 1)

/-- SETTER_ARM (12 R280): a write of 1 to SJCTL.ARM. -/
def execSetterArm (hall : Byte) (m : CtlId) (j : CtxId) (s : State) : Ans :=
  next (regAccess s hall (setterPage (ctxIx m j) 0x038) fun s => sjctlWrite s (ctxIx m j) 2 2)

/-- SETTER_LOCAL_VERDICT (12 R279): a write to SJLVERD. -/
def execSetterLocalVerdict (hall : Byte) (m : CtlId) (j : CtxId) (taint sat : Bool) (s : State) : Ans :=
  next (regAccess s hall (setterPage (ctxIx m j) 0x040) fun s =>
    sjlverdWrite s (ctxIx m j) (BitVec.ofNat 64 (b2n taint + 2 * b2n sat)) 3)

/-- Whether a context may consume a verdict (12 R281). -/
def SetCtx.due (x : SetCtx) : Bool := decide (x.st = .wait) && !x.verdicts.isEmpty && (x.armed || x.autoarm)

/-- LAST for the verdict that a context consumes: none for a pass (12 R281). -/
def SetCtx.skips (x : SetCtx) : Option (BitVec 2) :=
  let w := x.verdicts.headD 0
  if w.getLsbD 0 then some 2 else if w.getLsbD 1 && x.satskip then some 3 else none

/-- Whether a context runs a pass. -/
def SetCtx.busy (x : SetCtx) : Bool := decide (x.st = .check) || decide (x.st = .run)

/-- The context of a Setter whose pass runs. -/
def passOf (s : State) (m : Nat) : Option Nat := ((List.range 8).map (8 * m + ·)).find? fun i => (s.setter i).busy

/-- A verdict consumed (12 R281): a skip, or the entry to CHECK with the pass timeout armed (R285). -/
def setterConsume (s : State) (i : Nat) : State :=
  let x := s.setter i
  let y := { x with verdicts := x.verdicts.tail, armed := false }
  match x.skips with
  | some l =>
    setterDone (s.setSetter i { y with last := l, skip := y.skip + 1 }) i
  | none =>
    s.setSetter i { y with
      st := .check, prog := 0
      deadline := if x.tmo = 0 then none else some (regionDue s (regionOfCtx i) x.tmo.toNat) }

/-- SETTER_STEP_START (12 R281, R286): the lowest-numbered context that may go; a pass waits for a running one, a skip does not. -/
def execSetterStepStart (m : CtlId) (s : State) : Ans :=
  next (
    let free := (passOf s m).isNone
    match ((List.range 8).map (8 * m.val + ·)).find? fun i => (s.setter i).due && (free || (s.setter i).skips.isSome) with
    | some i => setterConsume s i
    | none => s)

/-- The extents that a Setter reads in CHECK: the group table, and the schedules its descriptors name (12 R282). -/
def checkExtents (s : State) (x : SetCtx) : List (Nat × Nat) :=
  let tab := x.gtab.toNat % 2 ^ 48
  (tab, 128 * x.ngrp) :: (List.range x.ngrp).map fun n =>
    (x.sched.toNat % 2 ^ 48 + 0x400 * (pgroupOf (memBytes s (tab + 0x80 * n) 128)).sched, 1024)

/-- Whether a Setter's access to an extent waits for an arbiter (15 R361, R367). -/
def setterHeld (s : State) (es : List (Nat × Nat)) : Bool := es.any fun e => unitsHeld s e.1 e.2 1

/-- CHECK carried to its end (12 R282), its reads counted to the partition (16 R392). It waits for the SRAM groups it reads (20 R458). -/
def checkRun (s : State) (i : Nat) : State :=
  let x := s.setter i
  match x.st, x.strand with
  | .check, some st =>
    let es := checkExtents s x
    if setterHeld s es then s
    else if !allReady (wakeExtents s es) es then wakeExtents s es
    else
      let s := countBulk (wakeExtents s es) (partOfHall s x.hall) ((es.map (·.2)).sum)
      (match setterGroups s i x st 0 x.ngrp with
      | .error (c, d, n, a) => setterError s i c d n a true
      | .ok ps => s.setSetter i { s.setter i with st := .run, flg := 0, groups := ps })
  | _, _ => s

/-- SETTER_CHECK_END (12 R275, R282). -/
def execSetterCheckEnd (m : CtlId) (s : State) : Ans :=
  next (match passOf s m with
    | none => s
    | some i => checkRun s i)

/-- The memory behind a pass's extents powered. -/
def wakePass (s : State) (x : SetCtx) : State := wakeExtents s (runExtents x)

/-- The addresses that a pass writes. -/
def passAddrs (s : State) (i : Nat) : List Nat :=
  let x := s.setter i
  match x.strand with
  | some st => (x.groups.flatMap fun p => (groupPass s x st p none).items).flatMap fun t => (List.range t.bytes.length).map (t.addr + ·)
  | none => []

/-- SETTER_PASS_COMPLETE (12 R284, R289, R290). `chk`: what the check bits of the lines that its writes merge with show. -/
def execSetterPassComplete (m : CtlId) (chk : Check) (s : State) : Ans :=
  next (match passOf s m with
    | none => s
    | some i =>
      let x := s.setter i
      if x.st = .run ∧ setterHeld s (runExtents x) = false then
        let s := wakePass s x
        if !allReady s (runExtents x) then s
        else passRun (if chk.ecc = .clean then s else mergeCheck s (passAddrs s i) chk) i none
      else s)

/-- A refusal or a bitten read during CHECK (12 R282, R287): the manual leaves open which descriptor it fell on. -/
def checkStop (s : State) (i code detail : Nat) : State :=
  let x := s.setter i
  let (n, s) := draw s
  let g := (Config.freeWord n).toNat % max 1 x.ngrp
  setterError s i code detail g (x.gtab.toNat % 2 ^ 48 + 128 * g) true

/-- The memory that a bitten transfer of a Setter goes to (12 R287): the resource's, at arbiter `k`; on the mesh, the table's in CHECK and
region SRAM in RUN (12 R266). -/
def setterBiteDetail (x : SetCtx) (k : Nat) : Nat :=
  let a := (k - 256) % 278
  if 272 ≤ a then 2 else if 16 ≤ a then 1 else if x.st = .check then (memDetail (x.gtab.toNat % 2 ^ 48)).toNat else 1

/-- A Setter's transfer bitten at arbiter `k` (15 R370): a poisoned input of the pass, of an element that the manual leaves open. -/
def setterBite (s : State) (i k : Nat) : State :=
  let x := s.setter i
  let t := setterBiteDetail x k
  match x.st with
  | .check => checkStop s i 5 t
  | .run =>
    let (n, s) := draw s
    let (m, s) := draw s
    let g := (Config.freeWord n).toNat % max 1 x.groups.length
    let s := wakePass s x
    if !allReady s (runExtents x) then s
    else passRun s i (some (g, (Config.freeWord m).toNat % max 1 (x.group g).count, t))
  | _ => s

/-- SETTER_PASS_ERROR (12 R289 to R291): what stops or poisons the pass. A strand error is one that its beads raise; uncorrectable data is
found at an address that the pass reads. -/
def execSetterPassError (m : CtlId) (err : SetterStop) (s : State) : Ans :=
  next (match passOf s m with
    | none => s
    | some i =>
      let x := s.setter i
      match err with
      | .abort => setterDisableOp s i 0
      | .hallmark => if x.st = .check then checkStop s i 4 0 else passStop s i 4 0 true
      | .strand =>
        if x.st = .run ∧ passTraps s i then
          let s := wakePass s x
          if allReady s (runExtents x) then passRun s i none else s
        else s
      | .uncorrectable a =>
        let es := if x.st = .check then checkExtents s x else runExtents x
        if es.any (fun e => insideRange a.toNat 1 e.1 e.2) then
          let s := foundAt s a.toNat .double
          if x.st = .check then checkRun s i
          else
            let s := wakePass s x
            if allReady s (runExtents x) then passRun s i none else s
        else s)

/-- SETTER_PASS_TIMEOUT (12 R285, R287): the region timer reaches the deadline. -/
def execSetterPassTimeout (m : CtlId) (s : State) : Ans :=
  next (match passOf s m with
    | none => s
    | some i =>
      match (s.setter i).deadline with
      | some t =>
        let s := regionTimeTo s (regionOfCtl m) t
        passStop s i 6 0 false
      | none => s)

end Sys2Proof.Machine
end

