-- ==== Sys2Proof/Machine/Adder.lean ====
section
/-! DEFINITION. The commands of the job-tagged adders (13 R293 to R332) and of the verdict (R323 to R327). Context j of
controller m is numbered 8m + j, bucket slot n 64m + n. -/

namespace Sys2Proof.Machine

/-- ADDER_ENABLE (13 R298): a write of 1 to AJCTL.ENABLE. -/
def execAdderEnable (hall : Byte) (m : CtlId) (j : CtxId) (s : State) : Ans :=
  next (regAccess s hall (adderPage (ctxIx m j) + 0x40) fun s => adderWrite (ctxIx m j) s 0x40 1 1)

/-- ADDER_DISABLE (13 R332): a write of 0 to AJCTL.ENABLE. -/
def execAdderDisable (hall : Byte) (m : CtlId) (j : CtxId) (s : State) : Ans :=
  next (regAccess s hall (adderPage (ctxIx m j) + 0x40) fun s => adderWrite (ctxIx m j) s 0x40 0 1)

/-- AJPUB (13 R305): a write of a bucket to AJPUB. -/
def execAjpub (hall : Byte) (m : CtlId) (j : CtxId) (bucket : BitVec 16) (s : State) : Ans :=
  next (regAccess s hall (adderPage (ctxIx m j) + 0x48) fun s =>
    adderWrite (ctxIx m j) s 0x48 (bucket.zeroExtend 64) 0xFFFF)

/-- LAYER_TILE_READ (13 R305). -/
def execLayerTileRead (m : CtlId) (j : CtxId) (s : State) : Ans :=
  next (if (s.adder (ctxIx m j)).enable then retryUnit (layerStep s (ctxIx m j)) m.val else s)

/-- A drained tile refused at its home unit (13 R306, 03 R82): the refusal goes back to the cell, and the unit records it, for the
partition of the context that holds JOB where one does (21 R480). -/
def refuseTile (s : State) (m : Nat) (t : LocalTile) : State :=
  let a := adderPage (8 * m)
  let o := originAdder s (8 * m)
  let own := (adderOf s m t.tile.job.toNat).bind fun i => partOfHall s (s.adder i).hall
  sendRefusal (reportLog s o o 4 own (detailWord 0 0 (a % 2 ^ 48))) t.cell.val 0 (BitVec.ofNat 64 a)

/-- LOCAL_TILE_ARRIVE (13 R303, R306, R315, R317): the tiles of one cell keep their order. -/
def execLocalTileArrive (k : Nat) (s0 : State) : Ans :=
  next (match takeMsg (fun x y => x.cell == y.cell) k s0.tiles with
    | none => s0
    | some (t, rest) =>
      let s := { s0 with tiles := rest }
      let m := t.tile.bucket.toNat % 24
      if pathHeld s0 (blockOfCell t.cell.val) (t.cell.val % 8) (regionOfCtl m) then s0
      else match adderOf s m t.tile.job.toNat with
      | none => refuseTile s m t
      | some i =>
        if (s.adder i).hall ≠ t.hall then refuseTile s m t
        else match localTry s i false t.tile with
          | .yes s => retryUnit s m
          | .wait =>
            let s := adderWait s i t.tile.bucket.toNat
            s.setAdder i { s.adder i with localQ := (s.adder i).localQ ++ [t.tile] })

/-- The tile that a DATA or RESULT packet carries (13 R309). -/
def pktTile (p : Packet) : Tile :=
  ⟨p.job, BitVec.ofNat 16 (p.fld 16 16), BitVec.ofNat 16 (p.fld 32 16), BitVec.ofNat 2 (p.fld 48 2),
    p.hdr.getLsbD 50, p.hdr.getLsbD 51, p.pay⟩

/-- BUCKET of a reduction packet. -/
def pktBucket (p : Packet) : Nat := p.fld 16 16
/-- SEQ of a reduction packet. -/
def pktSeq (p : Packet) : Nat := p.fld 57 8

/-- Whether a packet is a reduction packet of a type. -/
def isReduce (t : Nat) (p : Packet) : Bool := p.kind == kReduce && p.sub == t

/-- A reduction packet taken by the context that holds its job at its bucket's home; discarded where there is none (13 R310). It waits
at a frozen bridge port (15 R367), and while its bucket's accesses wait. -/
def takeReduce (s : State) (k t : Nat) (f : State → Nat → Packet → State) : State :=
  match takePacket s k (isReduce t) with
  | none => s
  | some (x, s') =>
    match adderOf s' (pktBucket x.pkt % 24) x.pkt.job.toNat with
    | none => if inHeld s (pktBucket x.pkt % 24 / 6) then s else reduceDiscard s' x.pkt
    | some i =>
      if inHeld s (regionOfCtx i) then s
      else if adderHeld s' i (pktBucket x.pkt) then adderWait s i (pktBucket x.pkt)
      else f (countRx s' (partOfHall s' (s'.adder i).hall) x.pkt) i x.pkt

/-- The checks of a DATA or RESULT packet of the open round against the descriptor (13 R303, R329). -/
def pktVet (s : State) (i : Nat) (d : BDesc) (p : Packet) (data : Bool) : Option (Nat × Nat) :=
  match bucketVet s i (s.adder i) d (pktBucket p) with
  | some k => some (2, k)
  | none =>
    if p.fld 48 2 ≠ d.wire then some (2, 4)
    else if d.ntile ≤ p.fld 32 16 then some (2, 5)
    else if data ∧ d.wire = 2 ∧ p.fld 79 8 ≠ fieldN d.w2 35 8 then some (6, 3)
    else none

/-- A DATA or RESULT packet (13 R303, R316): the buffer, the round and the descriptor; `f` takes a good packet of the open round. -/
def tilePacket (s : State) (i : Nat) (p : Packet) (data : Bool) (f : State → BDesc → State) : State :=
  let x := s.adder i
  let b := pktBucket p
  if x.cred ≤ x.inbuf then refusePacket s p 2
  else
    let s := s.setAdder i { x with inbuf := x.inbuf + 1 }
    match bucketDesc s i b with
    | .error e => packetFail (freeIn s i b) i e b (p.fld 32 16) (pktSeq p)
    | .ok d =>
      let s := descRead s i d
      if pktSeq p = d.nrnd then
        (match pktVet s i d p data with
        | some e => bucketEnd (freeIn s i b) i b e.1 e.2 (p.fld 32 16) none
        | none => f s d)
      else if seqBelow (pktSeq p) d.nrnd then creditEnd (freeIn s i b) i b
      else bucketEnd (freeIn s i b) i b 6 5 (p.fld 32 16) none

/-- DATA_ARRIVE (13 R303, R313, R316, R317). -/
def execDataArrive (k : Nat) (s : State) : Ans :=
  next (takeReduce s k 1 fun s i p =>
    let q : DataTile := ⟨pktTile p, BitVec.ofNat 8 (pktSeq p)⟩
    retryUnit (tilePacket s i p true fun s _ =>
      match dataTry s i q with
      | .yes s => s
      | .wait => s.setAdder i { s.adder i with inq := (s.adder i).inq ++ [q] }) (i / 8))

/-- RESULT_ARRIVE (13 R303, R319): a RESULT to be forwarded keeps its buffer until it leaves (R316). -/
def execResultArrive (k : Nat) (s : State) : Ans :=
  next (takeReduce s k 2 fun s i p =>
    retryUnit (tilePacket s i p false fun s d =>
      let t := pktTile p
      match writeResult s i d t with
      | none => bucketEnd (freeIn s i (pktBucket p)) i (pktBucket p) 3 0 (p.fld 32 16) none
      | some s =>
        let x := s.adder i
        if x.succPos = d.owner then creditEnd (freeIn s i (pktBucket p)) i (pktBucket p)
        else adderQueue s i (mkReduce s 2 x.job (tileFields x d t (pktSeq p) false) x.nextMod t.payload)) (i / 8))

/-- A bucket at OWNER whose writes and RESULT packets are done: released, its SUMMARY sent, its slot freed (13 R317, R320). A SUMMARY
whose module cannot be reached ends the bucket instead (14 R336). -/
def finishBucket (s : State) (i n : Nat) (d : BDesc) (chk : Check) : State :=
  let y := s.aslot n
  let b := y.bucket.toNat
  if (s.adder i).rlast ≠ 0 ∧ fabReachable s (s.adder i).nextMod = false then bucketEnd s i b 6 0 0 none
  else
  let s := bucketRelease s i b d y.taint y.sat false y.bmax y.bumps chk
  let s := s.setASlot n ASlot.reset
  let x := s.adder i
  if x.rlast = 0 then s else adderQueue s i (summaryPkt s x b d.nrnd y.taint y.sat false y.bmax.toNat x.rpos)

/-- RESULT packets of a bucket still to be sent. -/
def resultsLeft (x : AddCtx) (b : Nat) : Bool := x.outq.any fun p => p.sub == 2 && p.fld 16 16 == b

/-- A DONE slot finished once its RESULT packets have left (13 R317, R320). -/
def finishIfSent (s : State) (i n : Nat) (chk : Check) : State :=
  let y := s.aslot n
  let b := y.bucket.toNat
  if y.st ≠ 2 ∨ resultsLeft (s.adder i) b = true then s
  else match bucketDesc s i b with
    | .error e => bucketFail s i e b 0
    | .ok d => finishBucket s i n d chk

/-- A DATA packet of a slot has been forwarded (13 R317): the last one frees the slot, and the bucket waits for its SUMMARY. -/
def dataForwarded (s : State) (i b t : Nat) : State :=
  match slotOf s i b with
  | none => s
  | some n =>
    let y := s.aslot n
    let y := { y with tiles := t :: y.tiles }
    match bucketDesc s i b with
    | .error e => bucketFail s i e b t
    | .ok d =>
      if y.tiles.length < d.ntile then s.setASlot n y
      else
        let x := s.adder i
        (s.setASlot n ASlot.reset).setAdder i { x with await := x.await ++ [⟨y.bucket, y.taint, y.sat, y.bumps, y.deadline⟩] }

/-- A RESULT packet of a bucket has left: the buffer of one passed on is free (13 R316), and OWNER's last one ends its bucket (R320). -/
def resultSent (s : State) (i b : Nat) : State :=
  if passedOn s i b then creditEnd (freeIn s i b) i b
  else match slotOf s i b with
    | some n => finishIfSent s i n .clean
    | none => s

/-- The oldest RESULT of a bucket that OWNER still sums, sent while nothing else waits: its buffers could not hold them all (13 R315, R319,
log entry 41). -/
def sendEarly (s : State) (i : Nat) : State :=
  let x := s.adder i
  match (slotsHeld s i).find? fun n => !(s.aslot n).results.isEmpty with
  | none => s
  | some n =>
    let y := s.aslot n
    match y.results with
    | [] => s
    | p :: ps =>
      if !fabReachable s p.dst then bucketEnd s i y.bucket.toNat 6 0 (p.fld 32 16) none
      else if x.credits = 0 then s
      else adderSend ((s.setASlot n { y with results := ps }).setAdder i { x with credits := x.credits - 1 }) i p

/-- The oldest packet of a context sent to NEXT with a credit (13 R316). Where its module cannot be reached the bucket ends (14 R336); a
RESULT whose bucket is released already is dropped. -/
def sendNext (s : State) (i : Nat) : State :=
  let x := s.adder i
  match x.outq with
  | [] => sendEarly s i
  | p :: ps =>
    let b := pktBucket p
    if !fabReachable s p.dst then
      (if ps.any (fun q => q.sub == 3 && q.fld 16 16 == b) then pumpOut (freeIn (s.setAdder i { x with outq := ps }) i b) i
      else bucketEnd s i b 6 0 (p.fld 32 16) none)
    else if x.credits = 0 then s
    else
      let s := adderSend (s.setAdder i { x with outq := ps, credits := x.credits - 1 }) i p
      pumpOut (if p.sub = 1 then dataForwarded s i b (p.fld 32 16) else resultSent s i b) i

/-- DATA_SEND (13 R316, R317). -/
def execDataSend (m : CtlId) (j : CtxId) (s : State) : Ans :=
  next (if (s.adder (ctxIx m j)).enable then retryUnit (sendNext s (ctxIx m j)) m.val else s)

/-- CREDIT_ARRIVE (13 R316). -/
def execCreditArrive (k : Nat) (s : State) : Ans :=
  next (takeReduce s k 4 fun s i p =>
    s.setAdder i { s.adder i with credits := (s.adder i).credits + p.fld 32 8 })

/-- Whether a bucket is open in a round at a context: it holds a slot or waits for its SUMMARY. -/
def openIn (s : State) (i b seq : Nat) : Bool :=
  match bucketDesc s i b with
  | .error _ => false
  | .ok d => decide (d.nrnd = seq) && ((slotOf s i b).isSome || (awaitOf (s.adder i) b).isSome)

/-- REFUSE_ARRIVE (13 R316). -/
def execRefuseArrive (k : Nat) (s : State) : Ans :=
  next (takeReduce s k 5 fun s i p =>
    if openIn s i (pktBucket p) (pktSeq p) then
      retryUnit (bucketEnd s i (pktBucket p) 6 (if p.fld 32 8 = 2 then 2 else 0) 0 none) (i / 8)
    else s)

/-- BUCKET_DONE (13 R317, R319, R320): every tile's write is visible, so OWNER sends its RESULT tiles, then its SUMMARY. `chk` is what the
release's write finds, where the release comes at once. -/
def execBucketDone (m : CtlId) (n : Fin 64) (chk : Check) (s : State) : Ans :=
  next (
    let k := 64 * m.val + n.val
    let y := s.aslot k
    let i := 8 * m.val + y.ctx.val
    let b := y.bucket.toNat
    if y.st ≠ 1 then s
    else match bucketDesc s i b with
      | .error _ => s
      | .ok d =>
        if (s.adder i).rpos ≠ d.owner ∨ y.tiles.length < d.ntile then s
        else if adderHeld s i b then adderWait s i b
        else
          let s := y.results.foldl (fun s p => adderQueue s i p) (s.setASlot k { y with st := 2, results := [] })
          retryUnit (finishIfSent s i k chk) m.val)

/-- A SUMMARY forwarded unless NEXT holds the originator's position (13 R320). -/
def forwardSummary (s : State) (i : Nat) (p : Packet) : State :=
  let x := s.adder i
  if x.succPos = p.fld 65 14 then s
  else adderQueue s i (summaryPkt s x (pktBucket p) (pktSeq p) (p.hdr.getLsbD 50) (p.hdr.getLsbD 51) (p.hdr.getLsbD 52)
    (p.fld 53 4) (p.fld 65 14))

/-- A SUMMARY of the open round (13 R320 to R322): the RESULT packets that wait for NEXT go before it (R311). One that cannot be forwarded
ends its bucket (14 R336). -/
def takeSummary (s : State) (i : Nat) (p : Packet) (d : BDesc) (chk : Check) : State :=
  let b := pktBucket p
  let x := s.adder i
  let peer := p.hdr.getLsbD 52
  let lost := decide (x.succPos ≠ p.fld 65 14) && !fabReachable s x.nextMod
  let s := if peer then adderError s i 6 4 b d.nrnd 0 (some p.src) else s
  let s := if lost then adderError s i 6 0 b d.nrnd 0 none else s
  let err := peer || lost
  let bumps := (bucketFlags s i b).2.2.2
  let s := bucketDrop s i b true
  let s := bucketRelease s i b d (p.hdr.getLsbD 50) (p.hdr.getLsbD 51) err (BitVec.ofNat 4 (p.fld 53 4)) bumps chk
  forwardSummary s i p

/-- SUMMARY_ARRIVE (13 R303, R320 to R322): `chk` is what the release's write finds. -/
def execSummaryArrive (k : Nat) (chk : Check) (s : State) : Ans :=
  next (takeReduce s k 3 fun s i p =>
    let b := pktBucket p
    retryUnit (match bucketDesc s i b with
      | .error e => packetFail s i e b 0 (pktSeq p)
      | .ok d =>
        let s := descRead s i d
        if pktSeq p = d.nrnd then takeSummary s i p d chk
        else if seqBelow (pktSeq p) d.nrnd then s
        else bucketEnd s i b 6 5 0 none) (i / 8))

/-- The deadline of a bucket of a context (13 R331). -/
def deadlineOf (s : State) (i b : Nat) : Option Nat :=
  match slotOf s i b with
  | some n => (s.aslot n).deadline
  | none => (awaitOf (s.adder i) b).bind (·.deadline)

/-- BUCKET_TIMEOUT (13 R331): the region timer reaches the bucket's deadline. -/
def execBucketTimeout (m : CtlId) (j : CtxId) (bucket : BitVec 16) (s : State) : Ans :=
  next (match deadlineOf s (ctxIx m j) bucket.toNat with
    | none => s
    | some t =>
      if adderHeld s (ctxIx m j) bucket.toNat then adderWait s (ctxIx m j) bucket.toNat
      else retryUnit (bucketEnd (regionTimeTo s (regionOfCtl m) t) (ctxIx m j) bucket.toNat 5 0 0 none) m.val)

/-- READY_WORD_ARRIVE (13 R323, R324, R326): a word whose SEQ differs from those its region holds is discarded and logged. It waits at a
frozen mesh stop (15 R367). -/
def execReadyWordArrive (k : Nat) (s0 : State) : Ans :=
  next (match takeMsg (fun x y => x.unit == y.unit && x.ctx == y.ctx) k s0.readies with
    | none => s0
    | some (w, rest) =>
      let s := { s0 with readies := rest }
      let r := w.unit.val / 6
      if unitPathHeld s w.unit.val r r then s0 else
      let o := originAdder s (8 * w.unit.val + w.ctx.val)
      if s.gathered.any (fun v => v.unit.val / 6 == r && v.job == w.job && v.word >>> 8 != w.word >>> 8) then
        reportLog s o o 0xE (partOfHall s (s.adder (8 * w.unit.val + w.ctx.val)).hall) (detailWord 0 0 0)
      else regionVerdict { s with gathered := s.gathered ++ [w] } r w.job.toNat)

/-- A verdict word delivered to an adder context of the job (13 R323). -/
def adderVerdict (w : W16) (s : State) (i : Nat) : State :=
  let x := s.adder i
  let o := originAdder s i
  if x.seq ≠ (w >>> 8).truncate 8 then reportLog s o o 0xE (partOfHall s x.hall) (detailWord 0 0 w.toNat)
  else
    let s := s.setAdder i { x with
      seq := x.seq + 1, cur := x.nxt, nxt := RoundAcc.zero, ready := false, verd := w, rounds := x.rounds + 1 }
    let p := x.pip.toNat
    let s := if p.testBit 31 then sendSig s (adderSrc i) (fieldN p 22 9) (fieldN p 16 6) 1 x.hall else s
    retryUnit (readyCheck s i) (i / 8)

/-- A verdict word delivered on this module with the hallmark of its home, context `home` (13 R327, 12 R279): to a context of another region
it crosses the bridge (16 R392). -/
def verdictDeliver (s : State) (home job : Nat) (h : Byte) (w : W16) : State :=
  let cross (s : State) (i : Nat) : State := countBridge s (partOfHall s h) (decide (regionOfCtx i ≠ regionOfCtx home))
  let s := (List.range 192).foldl (fun s i =>
    let x := s.setter i
    if x.enable && !x.vsrc && x.job == job && x.hall == h then setterVerdict (cross s i) i w else s) s
  (List.range 192).foldl (fun s i =>
    if (s.adder i).enable && (s.adder i).job == job then adderVerdict w (cross s i) i else s) s

/-- A verdict packet to the home beyond a port (13 R309, R325). -/
def sendVerdict (s : State) (i typ port : Nat) (w : W16) : State :=
  let x := s.adder i
  adderSend s i (mkReduce s typ x.job (w.toNat * 2 ^ 16 + w.toNat / 256 * 2 ^ 41) ((s.port port).partner.toNat % 2 ^ 18) [])

/-- VDOWN sent to every CHILD port (13 R325). -/
def sendDown (s : State) (i : Nat) (w : W16) : State :=
  (List.range 6).foldl (fun s p => if (s.adder i).child p then sendVerdict s i 7 p w else s) s

/-- The final word at a home: delivered on its module, then forwarded to its children (13 R325, R327). -/
def verdictFinal (s : State) (i : Nat) (w : W16) : State :=
  let x := s.adder i
  let s := s.setAdder i { x with vhome := VHome.zero }
  sendDown (verdictDeliver s i x.job x.hall w) i w

/-- A verdict home that has heard every region of RMASK and every CHILD port: VUP to its parent, or the final word (13 R325, R331). -/
def verdictReady (s : State) (i : Nat) : State :=
  let x := s.adder i
  let v := x.vhome
  match v.word with
  | none => s
  | some w =>
    if v.sent || !(List.range 4).all (fun r => !x.rmask r || v.regions.contains r) ||
        !(List.range 6).all (fun p => !x.child p || v.ports.contains p) then s
    else match x.parent with
      | none => verdictFinal s i w
      | some p =>
        let t := fieldN x.vcfg.toNat 0 26
        let dl := if t = 0 then none else some (regionDue s (regionOfCtx i) t)
        sendVerdict (s.setAdder i { x with vhome := { v with sent := true, deadline := dl } }) i 6 p w

/-- A word combined at a verdict home (13 R326): `v` marks its source. None where its SEQ differs. -/
def verdictCombine (s : State) (i : Nat) (w : W16) (v : VHome → VHome) : Option State :=
  let x := s.adder i
  if w >>> 8 ≠ x.seq.zeroExtend 16 then none
  else
    let z := match x.vhome.word with
      | none => combineWords 0 w
      | some u => combineWords u w
    some (verdictReady (s.setAdder i { x with vhome := { v x.vhome with word := some z } }) i)

/-- VERDICT_CONTRIBUTION_ARRIVE (13 R325, R326): a region that RMASK does not name, or another SEQ, is discarded and logged. -/
def execVerdictContributionArrive (k : Nat) (s0 : State) : Ans :=
  next (match takeMsg (fun x y => x.region == y.region) k s0.vcontribs with
    | none => s0
    | some (v, rest) =>
      let s := { s0 with vcontribs := rest }
      if unitPathHeld s (24 + v.region.val) v.region.val (((verdictHome s v.job.toNat).map regionOfCtx).getD v.region.val) then s0 else
      match verdictHome s v.job.toNat with
      | none => reportLog s (originHub s 5) (originHub s 5) 0xE none (detailWord 0 0 v.word.toNat)
      | some i =>
        let s := countBridge s (partOfHall s (s.adder i).hall) (decide (v.region.val ≠ regionOfCtx i))
        let drop := reportLog s (originAdder s i) (originAdder s i) 0xE (partOfHall s (s.adder i).hall) (detailWord 0 0 v.word.toNat)
        if !(s.adder i).rmask v.region.val then drop
        else (verdictCombine s i v.word fun h => { h with regions := insertNat v.region.val h.regions }).getD drop)

/-- A verdict packet taken by the verdict home of its job; discarded where there is none (13 R310). It waits at a frozen bridge port (15
R367). -/
def takeVerdict (s0 : State) (k t : Nat) (f : State → Nat → Packet → Nat → State) : State :=
  match takePacket s0 k (isReduce t) with
  | none => s0
  | some (x, s) =>
    match verdictHome s x.pkt.job.toNat with
    | none => reduceDiscard s x.pkt
    | some i =>
      if inHeld s (regionOfCtx i) then s0 else f (countRx s (partOfHall s (s.adder i).hall) x.pkt) i x.pkt x.via

/-- The record of a verdict packet that its home discards (13 R326). -/
def verdictDropped (s : State) (i : Nat) (p : Packet) : State :=
  packetDiscarded s (originAdder s i) (partOfHall s (s.adder i).hall) p

/-- VUP_ARRIVE (13 R325, R326): one that came through no CHILD port, or with another SEQ, is discarded and logged. -/
def execVupArrive (k : Nat) (s : State) : Ans :=
  next (takeVerdict s k 6 fun s i p via =>
    if !(s.adder i).child via then verdictDropped s i p
    else (verdictCombine s i (BitVec.ofNat 16 (p.fld 32 16)) fun h => { h with ports := insertNat via h.ports }).getD
      (verdictDropped s i p))

/-- VDOWN_ARRIVE (13 R325, R327): one that did not come through the PARENT port is discarded and logged. -/
def execVdownArrive (k : Nat) (s : State) : Ans :=
  next (takeVerdict s k 7 fun s i p via =>
    if (s.adder i).parent ≠ some via then verdictDropped s i p
    else verdictFinal s i (BitVec.ofNat 16 (p.fld 32 16)))

/-- VERDICT_TIMEOUT (13 R330, R331): the region timer reaches the home's deadline; the context enters FAULT. -/
def execVerdictTimeout (m : CtlId) (j : CtxId) (s : State) : Ans :=
  next (
    let i := ctxIx m j
    match (s.adder i).vhome.deadline with
    | none => s
    | some t =>
      let s := regionTimeTo s (regionOfCtl m) t
      let x := s.adder i
      adderError (s.setAdder i { x with st := .fault, vhome := { x.vhome with deadline := none } }) i 5 1 0 x.seq.toNat 0 none)

end Sys2Proof.Machine
end

