-- ==== Sys2Proof/Machine/Idle.lean ====
section
/-! DEFINITION. What passes when no command waits: one millisecond (log entry 10). -/

namespace Sys2Proof.Machine

/-- One ms on a block's timer and its cells' timers: they stop in Dormant (02 R45). -/
def Block.tick (b : Block) : Block :=
  if b.st = .dormant then b
  else { b with timer := count48 b.timer 1000, ctimes := b.ctimes.map fun t => (t + 1000000) % 2 ^ 64 }

/-- Whether the compute, base and hub dies are powered (20 R462, 21 R471). -/
def powered (s : State) : Bool :=
  match s.ctl.st with
  | .standby => true
  | .active => true
  | .boot => decide (4 ≤ s.ctl.stage)
  | _ => false

/-- Frames that come in at the host port counted (18 R433): none while it has no power. -/
def framesIn (s : State) (i : Iface) (n : Nat) : State :=
  if i = .host ∧ powered s = true then { s with eth := { s.eth with rx := BitVec.ofNat 64 (satAdd max64 s.eth.rx.toNat n) } } else s

/-- One ms of every timer that counts (02 R43, R45). It outlasts the longest pause of a priority, 65,535 quanta of 512 bit times at
800 Gb/s (19 R440). -/
def idle (s : State) : State :=
  flushEth { s with
    ctl := if s.ctl.st = .off then s.ctl
      else { s.ctl with timer := count48 s.ctl.timer 1 }
    regions := if powered s then s.regions.map (fun r => { r with timer := count48 r.timer 1000 }) else s.regions
    blocks := s.blocks.map fun e => (e.1, e.2.tick)
    eth := { s.eth with pause := Vector.replicate 8 0 } }

end Sys2Proof.Machine
end

