-- ==== Sys2Proof/Machine/Copies.lean ====
section
/-! DEFINITION. The copy commands (10 R214, R224 to R231, 14 R345, 16 R375) and the patrol scrubbers (10 R235, R239). -/

namespace Sys2Proof.Machine

/-- A CPQ issued (09 R214, 10 R224): alignment, then a frozen queue port, which waits (15 R367), then the queue, then the descriptor's
bytes. -/
def cpqOp (c : CellId) (d a : Reg) (e : Fin 2) (chk : Check) (s : State) : State :=
  issue s c fun s =>
    let k := s.cell c
    let va := k.rdG a
    let b := blockOfCell c
    let i := 2 * b + e.val
    if va.toNat % 64 ≠ 0 then .exc ⟨3, 5, va⟩ s
    else if arbFrozen s (4 * b + 2 + e.val) then .stay s
    else if 16 ≤ (s.engine i).queue.length then onCell s c fun k => k.wrG d 1
    else memRes (cellRead s c va 64 chk) fun as s =>
      let x := s.engine i
      let j : Job := ⟨descOf (cellBytes s c as), c.val, x.acc⟩
      onCell (s.setEngine i { x with queue := x.queue ++ [j], acc := x.acc + 1 }) c fun k => k.wrG d 0

/-- CPQ (09 R214). -/
def execCpq (c : CellId) (d a : Reg) (e : Fin 2) (chk : Check) (s : State) : Ans := next (cpqOp c d a e chk s)

/-- What the tile windows that a copy touches allow (01 R25): it goes on, it waits, or the cell's block is Dormant. -/
inductive Gate where
  | ready (s : State)
  | wait (s : State)
  | gone (a : Nat) (s : State)

/-- The tile windows of a copy, in order. -/
def tileGate : List (Nat × Nat × Nat × Bool) → State → Gate
  | [], s => .ready s
  | t :: ts, s =>
    match (s.block (blockOfCell t.1)).st with
    | .dormant => .gone (0x20000000000 + 0x10000 * t.1 + t.2.1) s
    | .nap => .wait (wakeBlock s (blockOfCell t.1))
    | .doze => .wait (wakeBlock s (blockOfCell t.1))
    | _ =>
      let s := commitAll (wakeBlock s (blockOfCell t.1)) t.1
      if (s.cell t.1).windowHeld t.2.1 t.2.2.1 then .wait s else tileGate ts s

/-- Bytes of extents at memory, and bytes that cross the bridge from a region (16 R392). -/
def memLen (es : List (Int × Nat × Bool)) : Nat := (es.map fun e => if isMem e.1.toNat then e.2.1 else 0).sum
def bridgeLen (r : Nat) (es : List (Int × Nat × Bool)) : Nat :=
  (es.map fun e => if regionOfPlace (placeOf e.1.toNat) ≠ r then e.2.1 else 0).sum

/-- The traffic of a copy counted to its partition (16 R392). -/
def countCopy (s : State) (b : Nat) (d : Desc) : State :=
  let own := ownerOfBlock s b
  countPart (countBulk s own (memLen d.exts)) own 11 (bridgeLen (regionOfBlock b) d.exts)

/-- What an agent reads with a hallmark. -/
def copyReader (s : State) (h : Byte) : Nat → CByte := copyByte s fun a => (ctlBytes s h a 1).headD 0

/-- Whether a copy waits for an arbiter on its way to one of its extents (15 R361, R367): its queue is served, its accesses wait. -/
def copyHeld (s : State) (i : Nat) (d : Desc) : Bool :=
  d.exts.any fun e => unitsHeld s e.1.toNat e.2.1 0 ||
    (pageStarts e.1.toNat e.2.1).any fun a => pathHeld s (blockOfEngine i) (8 + i % 2) (regionOfPlace (placeOf a))

/-- A running copy completed (10 R226): CEDONE, then the completion pip. -/
def copyDone (s : State) (i : Nat) (j : Job) : State :=
  let x := s.engine i
  let s := s.setEngine i { x with done := x.done + 1, run := none, contrib := none, fin := false }
  if j.desc.pipen && !j.desc.remote then
    sendSig s (engineSrc i) (j.desc.doneF 6 9) (j.desc.doneF 0 6) 1 (hallOfBlock s (blockOfEngine i))
  else s

/-- The contribution of a copy made (08 R197 to R199). -/
def copyContribute (s : State) (d : Desc) (x : Option Contribution) : State :=
  match x with
  | some x => slotContribute s d.slotIx x
  | none => s

/-- A local copy carried to its end (10 R226, R227): every write, then the error or the completion. `src`, `chk`: what the check bits of
the words it reads, and of the lines its writes merge with, show. -/
def copyMove (s : State) (i : Nat) (j : Job) (src chk : Check) : State :=
  let b := blockOfEngine i
  let h := hallOfBlock s b
  let d := j.desc
  match firstInExts (fun a _ => unitAccepts s h a) d.exts with
  | some a => copyStopped (refusedAtUnit s a) i j 2 0 a
  | none =>
    let s := sourceTiles (sourceCheck s d src) d
    let m := copyMoved h d (copyReader s h)
    let s := mergeCheck s (pieceAddrs m.pieces) chk
    let s := countCopy (writePieces (fun s a bs => ctlPut s h a bs) s m.pieces) b d
    if (s.engine i).run ≠ some j then s
    else match m.pieces.findSome? (fun p => badOf p.2) with
      | some (a, t) => copyEnd s i j 3 t.toNat a
      | none => copyDone (copyContribute s d m.contrib) i j

/-- A copy to another module (10 R231, 14 R345): the local source read, the scales of a weight conversion written here, the data
packets and the finish packet sent. The lines that receive uncorrectable data are not sent, and the finish packet then signals no pip
(log entry 48). -/
def copySend (s : State) (i : Nat) (j : Job) (src chk : Check) : State :=
  let b := blockOfEngine i
  let h := hallOfBlock s b
  let d := j.desc
  if (s.engine i).fin then s
  else match firstInExts (fun a _ => unitAccepts s h a) d.exts with
    | some a => copyStopped (refusedAtUnit s a) i j 2 0 a
    | none =>
      let s := sourceTiles (sourceCheck s d src) d
      let m := copyMoved h d (copyReader s h)
      let (near, far) := m.pieces.partition d.isScale
      let s := mergeCheck s (pieceAddrs near) chk
      let s := countCopy (writePieces (fun s a bs => ctlPut s h a bs) s near) b d
      match m.pieces.findSome? (fun p => badOf p.2) with
      | some (a, t) => sendCopy (copyEnd s i j 3 t.toNat a) i d (goodPieces far) true
      | none => sendCopy (s.setEngine i { s.engine i with contrib := m.contrib, fin := true }) i d (goodPieces far) false

/-- DESCRIPTOR_START (10 R224, R225): the next queued descriptor is checked before any byte moves. -/
def execDescriptorStart (b : BlockId) (e : Fin 2) (s : State) : Ans :=
  next (
    let i := 2 * b.val + e.val
    let x := s.engine i
    let y := s.block b.val
    match x.queue with
    | [] => s
    | j :: rest =>
      if x.run.isSome || y.oos || !(decide (y.st = .run) || decide (y.st = .poise)) then s
      else
        let s' := s.setEngine i { x with queue := rest, run := some j }
        match descErr s b.val j.desc with
        | some t => copyEnd s' i j t.1 t.2.1 t.2.2
        | none => if j.desc.remote && !fabReachable s j.desc.modId then copyEnd s' i j 7 0 j.desc.dstA else s')

/-- What the arbiters on its way, the SRAM groups it needs (20 R458) and its tile windows let a running copy do. -/
def copyGo (s : State) (i : Nat) (j : Job) (f : State → State) : State :=
  if copyHeld s i j.desc then s
  else
    let s := wakeExts s j.desc
    if !extsReady s j.desc then s
    else match tileGate (extTiles j.desc.exts) s with
    | .ready s => f s
    | .wait s => s
    | .gone a s => copyEnd s i j 1 3 a

/-- COPY_COMPLETE (10 R226, R227): the bytes of the running descriptor move. A copy to another module is sent, and ends on its WACK. -/
def execCopyComplete (b : BlockId) (e : Fin 2) (src chk : Check) (s : State) : Ans :=
  next (
    let i := 2 * b.val + e.val
    match (s.engine i).run with
    | none => s
    | some j => copyGo s i j fun s => if j.desc.remote then copySend s i j src chk else copyMove s i j src chk)

/-- A line of a copy's source found uncorrectable as the engine reads it (10 R227, R228, R234, R239): in the L2 that answers (detail 0),
in memory, or in a tile register. Memory records it, counts it and marks its unit failing. -/
def sourceBad (s : State) (a : Nat) (detail : Byte) : State :=
  match placeOf a with
  | .tile c off => s.updCell c fun k => k.spoilSlices off 1
  | .reserved => s
  | .moduleCtl _ => s
  | .regionCtl _ _ => s
  | .blockCtl _ _ => s
  | .cellCtl _ _ => s
  | _ =>
    match (if detail = 0 then l2Of s a else none) with
    | some g => badL2 s g (a / 128)
    | none => foundBad s a

/-- The control-space address of a copy engine's register (10 R229). -/
def engineReg (b : Nat) (e off : Nat) : Nat := 0x30010001000 + 0x100000 * b + 0x800 * e + off

/-- COPY_ABORT (10 R229, R230): a write of 1 to CECTL.ABORT. -/
def execCopyAbort (hall : Byte) (b : BlockId) (e : Fin 2) (s : State) : Ans :=
  next (regAccess s hall (engineReg b.val e.val 0x28) fun s => engineWrite (2 * b.val + e.val) s 0x28 1 1)

/-- The fields of a receive window (16 R375). -/
def rwinHas (w : BitVec 128) (job a n : Nat) : Bool :=
  w.getLsbD 127 && decide (fieldN w.toNat 48 12 = job) && insideRange a n (fieldN w.toNat 0 48) (fieldN w.toNat 64 48)

/-- The partition that accepts a remote write of a job (16 R375): inside an enabled receive window and inside one memory window. -/
def acceptsWrite (s : State) (job a n : Nat) : Option Nat :=
  (List.range 16).find? fun p =>
    decide ((s.part p).hall ≠ 0) && (s.part p).rwins.toList.any (fun w => rwinHas w job a n) &&
      (s.part p).wins.toList.any (fun w => insideRange a n (winBase w) (winLen w)) && memExtentOk s p a n

/-- The key of a remote copy: its source module and engine. -/
def remoteKey (pkt : Packet) : Nat := 128 * pkt.src + pkt.fld 76 7

/-- A WACK to the source of a remote copy (14 R344). -/
def sendWack (s : State) (own : Option Nat) (pkt : Packet) (refused : Bool) : State :=
  sendPacket s own ⟨kWack, 0, mkHdr (b2n refused) pkt.job.toNat (pkt.fld 76 7 * 2 ^ 60) s.modId pkt.src, [], 0⟩

/-- REMOTE_WRITE_RECEIVE (10 R231, 14 R345, 16 R375): written with the hallmark of the window's partition, or refused: the first
refusal of a descriptor answers WACK, and no later byte of it is written (10 R227). `chk`: what the check bits of the lines that the
write merges with show. It waits for a frozen arbiter on its way (15 R367) and for its SRAM group (20 R458). -/
def execRemoteWriteReceive (k : Nat) (chk : Check) (s0 : State) : Ans :=
  next (match takePacket s0 k (fun p => p.kind == kWrite && p.sub == 0) with
    | none => s0
    | some (x, s) =>
      let a := x.pkt.fld 16 48
      let n := x.pkt.pay.length
      if inHeld s (regionOfPlace (placeOf a)) || unitsHeld s a n 0 then s0
      else if s.wrefused.contains (remoteKey x.pkt) then s
      else match acceptsWrite s x.pkt.job.toNat a n with
        | some p =>
          if !extentReady (wakeExtent s a n) a n then wakeExtent s0 a n else
          let s := countBulk (countRx (wakeExtent s a n) (some p) x.pkt) (some p) n
          let s := { s with wtaken := Tab.put s.wtaken (remoteKey x.pkt) (s.part p).hall }
          agentStore (mergeCheck s ((List.range n).map (a + ·)) chk) a x.pkt.pay
        | none => sendWack { s with wrefused := insertNat (remoteKey x.pkt) s.wrefused } none x.pkt true)

/-- The partition that has a receive window enabled for a job. -/
def windowOwner (s : State) (job : Nat) : Option Nat :=
  (List.range 16).find? fun p =>
    decide ((s.part p).hall ≠ 0) && (s.part p).rwins.toList.any (fun w => w.getLsbD 127 && decide (fieldN w.toNat 48 12 = job))

/-- The partition that takes the finish packet of a remote copy: the one that took its writes (10 R231). -/
def finishOwner (s : State) (pkt : Packet) : Option Nat :=
  match s.wtaken.find? (fun e => e.1 == remoteKey pkt) with
  | some e => partOfHall s e.2
  | none => windowOwner s pkt.job.toNat

/-- The contribution of a copy that this module's own finish packet ends: made before the completion pip (08 R198). A copy to another
module makes its own when the WACK arrives (log entry 48). -/
def finishContribute (s : State) (pkt : Packet) : State :=
  let i := pkt.fld 76 7
  if pkt.src ≠ s.modId then s
  else match (s.engine i).run with
    | some j =>
      if j.desc.remote && (s.engine i).fin then
        copyContribute (s.setEngine i { s.engine i with contrib := none }) j.desc (s.engine i).contrib
      else s
    | none => s

/-- REMOTE_WRITE_FINISH (10 R231, 14 R345): WACK, and the completion pip with the hallmark of the window's partition. A descriptor
with a refused packet has had its answer. -/
def execRemoteWriteFinish (k : Nat) (s : State) : Ans :=
  next (match takePacket s k (fun p => p.kind == kWrite && p.sub == 1) with
    | none => s
    | some (x, s) =>
      let q := x.pkt
      if s.wrefused.contains (remoteKey q) then
        { s with wrefused := s.wrefused.filter (· ≠ remoteKey q), wtaken := Tab.erase s.wtaken (remoteKey q) }
      else match finishOwner s q with
        | none => sendWack { s with wtaken := Tab.erase s.wtaken (remoteKey q) } none q true
        | some p =>
          let s := finishContribute (countRx s (some p) q) q
          let s := if q.hdr.getLsbD 31 ∧ q.fld 16 6 < 48 then sendSig s 8192 (q.fld 22 9) (q.fld 16 6) 1 (s.part p).hall else s
          sendWack { s with wtaken := Tab.erase s.wtaken (remoteKey q) } (some p) q false)

/-- WACK_RECEIVE (10 R226, R231, 14 R345): the running remote descriptor of the named engine completes or ends with code 0x7. A WACK
still owed to a descriptor that has ended is that one's. -/
def execWackReceive (k : Nat) (s0 : State) : Ans :=
  next (match takePacket s0 k (fun p => p.kind == kWack) with
    | none => s0
    | some (x, s) =>
      let i := x.pkt.fld 76 7
      let own := ownerOfBlock s (blockOfEngine i)
      let y := s.engine i
      if inHeld s (regionOfBlock (blockOfEngine i)) then s0
      else if y.stale.contains x.pkt.src then countRx (s.setEngine i { y with stale := y.stale.erase x.pkt.src }) own x.pkt
      else match y.run with
        | some j =>
          if j.desc.remote && j.desc.modId == x.pkt.src && y.fin then
            let s := countRx s own x.pkt
            if x.pkt.sub = 0 then copyDone (copyContribute s j.desc y.contrib) i j
            else copyEnd (recallPackets (s.setEngine i { y with fin := false }) i) i j 7 0 j.desc.dstA
          else packetDiscarded s (originHub s 5) own x.pkt
        | none => packetDiscarded s (originHub s 5) own x.pkt)

/-- SRAM_SCRUB (10 R235): one word of region SRAM, where its group holds data. -/
def execSramScrub (r : RegionId) (w : BitVec 27) (ecc : Ecc) (s : State) : Ans :=
  next (
    let a := 0x10000000000 + 0x40000000 * r.val + 8 * w.toNat
    if powered s && groupReady s a && !unitHeld s a 3 then scrubAt (wakeGroup s a) a ecc else s)

/-- LPDDR_SCRUB (10 R239): one line of a controller's range; not in self-refresh (20 R459), nor without power (R462). -/
def execLpddrScrub (m : CtlId) (line : BitVec 28) (ecc : Ecc) (s : State) : Ans :=
  next (
    let a := ctlRangeBase m.val + 128 * line.toNat
    if powered s && !(s.region (m.val / 6)).selfRef.getLsbD (m.val % 6) && !unitHeld s a 3 then scrubAt s a ecc else s)

end Sys2Proof.Machine
end

