-- ==== Sys2Proof/Machine/ScalarMem.lean ====
section
/-! DEFINITION. The scalar memory family SM (09 R215, 03 R58, R59, R69 to R71, R82): loads, stores and atomics of memory and of
control space. -/

namespace Sys2Proof.Machine

/-- Whether a cell's access to control space beyond its block waits for an arbiter on its way (15 R361, R367). -/
def ctlPathHeld (s : State) (c a : Nat) : Bool :=
  let b := blockOfCell c
  (match placeOf a with
  | .cellCtl d _ => blockOfCell d != b
  | .blockCtl d _ => d != b
  | _ => true) && pathHeld s b (c % 8) (regionOfPlace (placeOf a))

/-- Bytes between a cell and control space of another region, over the bridge (16 R392). -/
def countCtl (s : State) (c a n : Nat) : State :=
  if regionOfPlace (placeOf a) = regionOfCell c then s else countPart s (ownerOfBlock s (blockOfCell c)) 11 n

/-- A load of `n` bytes: what it meets in memory (03 R63) or control space (03 R58, 01 R27), and what it does with the bytes.
`chk`: what the check bits of the words it reads show. -/
def loadRes (s : State) (c : Nat) (va : W64) (n : Nat) (chk : Check) (f : List Byte → State → Res) : Res :=
  if isCtl va then
    match ctlFault s c false va n with
    | some e => .exc e s
    | none =>
      let h := (s.cell c).hall
      if ctlPathHeld s c va.toNat then .stay s
      else match ctlRefused s h va.toNat n with
      | some a => .exc ⟨4, 0, BitVec.ofNat 64 a⟩ (refusedAtUnit s a)
      | none => f (ctlBytes s h va.toNat n) (countCtl s c va.toNat n)
  else
    memRes (cellRead s c va n chk) fun as s => f (cellBytes s c as) s

/-- Bytes of a store to control space that fall in one 4 KiB page: performed, or refused and returned (03 R82). -/
def ctlStorePart (s : State) (c a : Nat) (bs : List Byte) : State :=
  if bs.isEmpty then s
  else
    let h := (s.cell c).hall
    let s := countCtl s c a bs.length
    if ctlAccepts s (placeOf a) h then ctlPut s h a bs
    else sendRefusal (refusedAtUnit s a) c 0 (BitVec.ofNat 64 a)

/-- A store of some bytes: only the access fault is precise (03 R82). -/
def storeRes (s : State) (c : Nat) (va : W64) (bs : List Byte) (chk : Check) (f : State → Res) : Res :=
  if isCtl va then
    match ctlFault s c true va bs.length with
    | some e => .exc e s
    | none =>
      let a := va.toNat
      let k := 4096 - a % 4096
      if ctlPathHeld s c a then .stay s
      else f (ctlStorePart (ctlStorePart s c a (bs.take k)) c (a + k) (bs.drop k))
  else memRes (cellWriteCheck s c va bs.length) fun as s => f (cellStore s c va as bs chk)

/-- The address Ga + IMM of an SM instruction (09 R215). -/
def smAddr (k : Cell) (a : Reg) (imm : BitVec 13) : W64 := k.rdG a + imm.signExtend 64

/-- LD, LDS (09, KIND 0b000 and 0b001). -/
def execLd (c : CellId) (sgn : Bool) (d a : Reg) (sz : Size) (imm : BitVec 13) (chk : Check) (s : State) : Ans :=
  next (issue s c fun s =>
    if sgn && decide (sz = .d) then illegal s
    else loadRes s c (smAddr (s.cell c) a imm) (szBytes sz) chk fun bs s =>
      onCell s c fun k => k.wrG d (if sgn then sext64 (szBits sz) (leNat bs) else BitVec.ofNat 64 (leNat bs)))

/-- ST (09, KIND 0b010). -/
def execSt (c : CellId) (d a : Reg) (sz : Size) (imm : BitVec 13) (chk : Check) (s : State) : Ans :=
  next (issue s c fun s =>
    let k := s.cell c
    storeRes s c (smAddr k a imm) (leBytes (szBytes sz) (k.rdG d).toNat) chk .done)

/-- Bytes of a .W or .D access. -/
def wdBytes (dbl : Bool) : Nat := if dbl then 8 else 4

/-- FLD (09, KIND 0b011; 04 R85). -/
def execFld (c : CellId) (d a : Reg) (dbl : Bool) (imm : BitVec 13) (chk : Check) (s : State) : Ans :=
  next (issue s c fun s =>
    loadRes s c (smAddr (s.cell c) a imm) (wdBytes dbl) chk fun bs s =>
      onCell s c fun k => k.wrF d (BitVec.ofNat 64 (leNat bs)))

/-- FST (09, KIND 0b100). -/
def execFst (c : CellId) (d a : Reg) (dbl : Bool) (imm : BitVec 13) (chk : Check) (s : State) : Ans :=
  next (issue s c fun s =>
    let k := s.cell c
    storeRes s c (smAddr k a imm) (leBytes (wdBytes dbl) (k.rdF d).toNat) chk .done)

/-- The access fault of a misaligned ordered or atomic access (03 R71). DESIGN CHOICE (log entry 96): a misaligned LD.AQ or ST.RL
reports it before any other detail. -/
def misaligned (s : State) (va : W64) : Res := .exc ⟨3, 5, va⟩ s

/-- LD.AQ (09, KIND 0b101; 03 R70, R71). -/
def execLdAq (c : CellId) (d a : Reg) (dbl : Bool) (imm : BitVec 13) (chk : Check) (s : State) : Ans :=
  next (issue s c fun s =>
    let va := smAddr (s.cell c) a imm
    if va.toNat % wdBytes dbl ≠ 0 then misaligned s va
    else loadRes s c va (wdBytes dbl) chk fun bs s => onCell s c fun k => k.wrG d (BitVec.ofNat 64 (leNat bs)))

/-- ST.RL (09, KIND 0b110; 03 R70, R71). -/
def execStRl (c : CellId) (d a : Reg) (dbl : Bool) (imm : BitVec 13) (chk : Check) (s : State) : Ans :=
  next (issue s c fun s =>
    let k := s.cell c
    let va := smAddr k a imm
    if va.toNat % wdBytes dbl ≠ 0 then misaligned s va
    else storeRes s c va (leBytes (wdBytes dbl) (k.rdG d).toNat) chk .done)

/-- An atomic on an aligned location of memory (03 R58, R71, 09 R215): the old value, what it becomes (none: unchanged), and Gd.
DESIGN CHOICE (log entry 96): a misaligned atomic in control space reports the detail of control space, and a reserved address of
control space the detail of a reserved address. -/
def atomic (s : State) (c : CellId) (d a : Reg) (dbl : Bool) (chk : Check) (f : Nat → Option Nat) : Res :=
  let va := (s.cell c).rdG a
  let n := wdBytes dbl
  if isCtl va then .exc ⟨3, (match placeOf va.toNat with | .reserved => 0 | _ => 4), va⟩ s
  else if va.toNat % n ≠ 0 then misaligned s va
  else memRes (cellRead s c va n chk) fun as s =>
    let old := leNat (cellBytes s c as)
    let s := match f old with
      | some v => cellStore s c va as (leBytes n v) .clean
      | none => s
    onCell s c fun k => k.wrG d (BitVec.ofNat 64 old)

/-- ATMADD (09, AFN 0b00). -/
def execAtmadd (c : CellId) (d a b : Reg) (dbl _aq _rl : Bool) (chk : Check) (s : State) : Ans :=
  next (issue s c fun s =>
    let v := ((s.cell c).rdG b).toNat
    atomic s c d a dbl chk fun old => some (old + v))

/-- ATMSWAP (09, AFN 0b01). -/
def execAtmswap (c : CellId) (d a b : Reg) (dbl _aq _rl : Bool) (chk : Check) (s : State) : Ans :=
  next (issue s c fun s =>
    let v := ((s.cell c).rdG b).toNat
    atomic s c d a dbl chk fun _ => some v)

/-- ATMCAS (09, AFN 0b10): only the accessed bits are compared. -/
def execAtmcas (c : CellId) (d a b : Reg) (dbl _aq _rl : Bool) (chk : Check) (s : State) : Ans :=
  next (issue s c fun s =>
    let k := s.cell c
    let v := (k.rdG b).toNat
    let w := (k.rdG d).toNat % 2 ^ (8 * wdBytes dbl)
    atomic s c d a dbl chk fun old => if old = w then some v else none)

end Sys2Proof.Machine
end

