-- ==== Sys2Proof/Machine/SysRegs.lean ====
section
/-! DEFINITION. The system registers of a cell (03 R56, 04 R88, 05 R122, 06 R130): the access table, SRD and SWR. -/

namespace Sys2Proof.Machine

/-- Access of a privilege level to a system register. -/
inductive SrAcc where
  | none | ro | rw
  deriving DecidableEq, Repr

/-- The access table: U and S (03 R56, 04 R88, 05 R122, 06 R130). A WC register is one that its level may write. -/
def srAcc (n : Nat) : Option (SrAcc × SrAcc) :=
  match n with
  | 0x000 => some (.none, .rw)
  | 0x001 => some (.none, .rw)
  | 0x002 => some (.none, .rw)
  | 0x003 => some (.none, .ro)
  | 0x004 => some (.none, .ro)
  | 0x005 => some (.none, .rw)
  | 0x006 => some (.none, .rw)
  | 0x007 => some (.none, .rw)
  | 0x010 => some (.rw, .rw)
  | 0x020 => some (.none, .rw)
  | 0x021 => some (.ro, .ro)
  | 0x022 => some (.ro, .ro)
  | 0x030 => some (.none, .rw)
  | 0x040 => some (.ro, .ro)
  | 0x041 => some (.ro, .rw)
  | 0x042 => some (.rw, .rw)
  | 0x043 => some (.none, .ro)
  | 0x044 => some (.none, .rw)
  | 0x045 => some (.ro, .rw)
  | 0x050 => some (.rw, .rw)
  | 0x051 => some (.rw, .rw)
  | 0x052 => some (.rw, .rw)
  | 0x053 => some (.rw, .rw)
  | 0x054 => some (.rw, .rw)
  | 0x055 => some (.rw, .rw)
  | 0x056 => some (.none, .rw)
  | 0x057 => some (.ro, .rw)
  | _ => none

/-- Illegal instruction with DETAIL 0x01: a register that is unknown, or whose access is forbidden (03 R56, R62). -/
def srIllegal : Exc := ⟨1, 1, 0⟩
/-- Privilege with DETAIL 0x01: an SWR at U to a register that S may write (03 R56). -/
def srPrivilege : Exc := ⟨2, 1, 0⟩

/-- What an SRD raises (03 R56). -/
def srdExc (sup : Bool) (n : Nat) : Option Exc :=
  match srAcc n with
  | none => some srIllegal
  | some (u, v) => if (if sup then v else u) = .none then some srIllegal else none

/-- What an SWR raises (03 R56). -/
def swrExc (sup : Bool) (n : Nat) : Option Exc :=
  match srAcc n with
  | none => some srIllegal
  | some (u, v) =>
    if sup then (if v = .rw then none else some srIllegal)
    else if u = .rw then none
    else if v = .rw then some srPrivilege else some srIllegal

/-- CELLID (03 R56). -/
def cellIdWord (c : Nat) : W64 := BitVec.ofNat 64 (c % 8 + 8 * (c / 8 % 16) + 128 * (c / 128) + 512 * c)

/-- A power register read: AUTO and IDLE, and GATED (04 R88, 06 R160). -/
def pwrRead (pwr : W32) (gated : Bool) : W64 := (pwr.zeroExtend 64 : W64) ||| BitVec.ofNat 64 (2 * b2n gated)

/-- STRSTAT.VALID (05 R122). -/
def strValid (k : Cell) : Nat :=
  (List.range 4).foldl (fun a i => a + 2 ^ i * b2n (vget k.ss i).isSome) 0

/-- A system register read (03 R56, R65, R66, R77, 04 R88, 05 R122, 06 R131 to R158). -/
def srRead (s : State) (c n : Nat) : W64 :=
  let k := s.cell c
  match n with
  | 0x000 => k.kstate.zeroExtend 64
  | 0x001 => k.kentry
  | 0x002 => k.krpc
  | 0x003 => k.kcause.zeroExtend 64
  | 0x004 => k.kaddr
  | 0x005 => k.kspare
  | 0x006 => k.kien.zeroExtend 64
  | 0x007 => (kipend s c).zeroExtend 64
  | 0x010 => k.fstat.zeroExtend 64
  | 0x020 => BitVec.ofNat 64 (b2n k.l1i.en + 2 * b2n k.l1d.en + 4 * b2n k.l1i.stale + 8 * b2n k.l1d.stale)
  | 0x021 => k.chall.zeroExtend 64
  | 0x022 => cellIdWord c
  | 0x030 => k.ctcmp
  | 0x040 => 2048
  | 0x041 => k.vresume.zeroExtend 64
  | 0x042 => k.vstat.zeroExtend 64
  | 0x043 => k.vfcause.zeroExtend 64
  | 0x044 => pwrRead k.vpwr k.vgated
  | 0x045 => BitVec.ofNat 64 (strValid k)
  | 0x050 => vget k.tcfg 0
  | 0x051 => vget k.tcfg 1
  | 0x052 => vget k.tcfg 2
  | 0x053 => vget k.tcfg 3
  | 0x054 => k.tstat.zeroExtend 64
  | 0x055 => k.tseed.zeroExtend 64
  | 0x056 => pwrRead k.tpwr k.tgated
  | 0x057 => BitVec.ofNat 64 (k.terrReg.toNat + 64 * b2n k.terrValid + 256 * k.terrCount.toNat)
  | _ => 0

/-- An L1 cache of a cell re-enabled: ignored while the L2 is disabled (03 R78); old contents come back with a record (03 R79). -/
def l1Enable (s : State) (c : Nat) (data : Bool) : State :=
  if !(s.block (blockOfCell c)).l2.en then s
  else
    let s := s.updCell c fun k =>
      if data then { k with l1d := { k.l1d with en := true } } else { k with l1i := { k.l1i with en := true } }
    reportBlock s (blockOfCell c) (originCell s c) 3 (ownerOfBlock s (blockOfCell c)) 0

/-- A write of one EN bit of CCTL (03 R77 to R79). -/
def l1Write (s : State) (c : Nat) (data on : Bool) : State :=
  let x := if data then (s.cell c).l1d else (s.cell c).l1i
  if x.en == on then s
  else if on then l1Enable s c data
  else if data then disableL1d s c else disableL1i s c

/-- CCTL written (03 R77). -/
def cctlWrite (s : State) (c : Nat) (v : W64) : State := l1Write (l1Write s c false (v.getLsbD 0)) c true (v.getLsbD 1)

/-- Whether every tag of a TCFG value is defined (06 R131). -/
def tagsOk (v : W64) : Bool := (List.range 16).all fun i => decide (fieldN v.toNat (4 * i) 4 ≤ 8)

/-- The low bits of a value that a register keeps. -/
def low32 (v : W64) (mask : Nat) : W32 := BitVec.ofNat 32 (v.toNat &&& mask)

/-- TSTAT written: a reserved RM leaves that field (06 R132, 00 R4). -/
def tstatWrite (old : W32) (v : W64) : W32 :=
  if fieldN v.toNat 8 2 = 3 then low32 v 0x1F ||| (old &&& 0x300) else low32 v 0x31F

/-- A cell's own register written by an SWR that its level allows (03 R56, R65, R66, 04 R88, 05 R122, 06 R131 to R159). -/
def Cell.srPut (k : Cell) (n : Nat) (v : W64) : Cell :=
  match n with
  | 0x000 => { k with kstate := low32 v 0xF }
  | 0x001 => { k with kentry := v }
  | 0x002 => { k with krpc := v }
  | 0x005 => { k with kspare := v }
  | 0x006 => { k with kien := low32 v 0x1E }
  | 0x007 =>
    { k with
      defErr := if v.getLsbD 2 then none else k.defErr
      hmRef := if v.getLsbD 3 then none else k.hmRef
      bell := if v.getLsbD 4 then none else k.bell }
  | 0x010 => { k with fstat := low32 v 0x7F }
  | 0x030 => { k with ctcmp := v }
  | 0x041 => { k with vresume := low32 v 0x1FF }
  | 0x042 => { k with vstat := low32 v 1 }
  | 0x044 => { k with vpwr := low32 v 0x00FFFF01 }
  | 0x045 => { k with ss := Vector.ofFn fun i : Fin 4 => if v.getLsbD i.val then none else k.ss[i] }
  | 0x054 => { k with tstat := tstatWrite k.tstat v }
  | 0x055 => { k with tseed := if low32 v 0xFFFFFFFF = 0 then 1 else low32 v 0xFFFFFFFF }
  | 0x056 => { k with tpwr := low32 v 0x00FFFF01 }
  | 0x057 => { k with terrValid := k.terrValid && !v.getLsbD 6 }
  | _ => k

/-- TCFGn written (06 R131, R132): the resident accumulator is written back and its residency ends before the tags change. -/
def tcfgPut (s : State) (c : CellId) (n : Nat) (v : W64) : Res :=
  if tagsOk v then onCell s c fun k => let k := k.endRes; { k with tcfg := k.tcfg.setIfInBounds n v }
  else illegal s

/-- A value written to KIPEND where a new event sets some bits in the same handshake (03 R66): the set wins, the bit stays 1 and the
earlier event is the one kept. -/
def keepAgain (v : W64) (again : BitVec 5) : W64 := v &&& ~~~(again.zeroExtend 64)

/-- SWR of a value (03 R56). -/
def swrRes (s : State) (c : CellId) (n : Nat) (v : W64) : Res :=
  match swrExc (s.cell c.val).sup n with
  | some e => .exc e s
  | none =>
    if n = 0x020 then .done (cctlWrite s c.val v)
    else if 0x050 ≤ n ∧ n ≤ 0x053 then tcfgPut s c (n - 0x050) v
    else onCell s c fun k => k.srPut n v

/-- SRD (03 R56). -/
def srdRes (s : State) (c : CellId) (d : Reg) (n : Nat) : Res :=
  match srdExc (s.cell c.val).sup n with
  | some e => .exc e s
  | none => onCell s c fun k => k.wrG d (srRead s c.val n)

end Sys2Proof.Machine
end

