-- ==== Sys2Proof/Machine/System.lean ====
section
/-! DEFINITION. The system family and what happens to a cell (03 R56 to R82): ordering, system registers, traps, interrupts, the
timer comparison, doorbells, refusals that return, and the caches' enables. -/

namespace Sys2Proof.Machine

/-- FENCE (03 R70): a cell performs its accesses in order here, so only PC advances. -/
def execFence (c : CellId) (s : State) : Ans := next (issue s c .done)

/-- FETCHSYNC (03 R70, R73): instruction fetch is no command here, so only PC advances (log entry 12). -/
def execFetchsync (c : CellId) (s : State) : Ans := next (issue s c fun s => .done s)

/-- SRD (03 R56). That of a TCFGn reads without waiting for older tile instructions (06 R132); its register write is held until they have
committed, as every younger instruction's is (06 R140). -/
def execSrd (c : CellId) (d : Reg) (sr : BitVec 12) (s : State) : Ans :=
  next (issue s c fun s => srdRes s c d sr.toNat)

/-- SWR (03 R56). `again`: the bits of KIPEND that a new event sets in the same handshake (03 R66). -/
def execSwr (c : CellId) (sr : BitVec 12) (a : Reg) (again : BitVec 5) (s : State) : Ans :=
  next (issue s c fun s =>
    let v := (s.cell c).rdG a
    swrRes s c sr.toNat (if sr = 0x007 then keepAgain v again else v))

/-- TRAP (03 R62, R65; 09, SY 0x05). -/
def execTrap (c : CellId) (imm : BitVec 12) (s : State) : Ans :=
  next (issue s c fun s => .exc ⟨0x0A, imm.truncate 8, 0⟩ s)

/-- BRK (03 R62; 09, SY 0x06). -/
def execBrk (c : CellId) (s : State) : Ans := next (issue s c fun s => .exc ⟨0x0B, 0, 0⟩ s)

/-- TRET (03 R65; 09, SY 0x07): S only. -/
def execTret (c : CellId) (s : State) : Ans :=
  next (issue s c fun s =>
    if (s.cell c).sup then
      let k := (s.cell c).trapReturn
      .jump (s.setCell c k) k.pc
    else .exc ⟨2, 0, 0⟩ s)

/-- INTERRUPT_TAKE (03 R64, 11 R261, 20 R456): between instructions; a block that does not run first wakes; a PIPBAR that has
arrived first withdraws. -/
def execInterruptTake (c : CellId) (s : State) : Ans :=
  next (
    let k := s.cell c
    let b := blockOfCell c
    match (if k.held || k.faulted || (s.block b).oos then none else dueInterrupt s c) with
    | none => s
    | some i =>
      if (s.block b).st ≠ .run then wakeBlock s b
      else match k.wait with
        | some w => if w.kind = .bar ∧ (k.pip w.pip).arr then sendWithdrawal s c w else takeInterrupt s c i
        | none => takeInterrupt s c i)

/-- TIMER_COMPARE (03 R66): CTIME reaches CTCMP, and KIPEND.TIMER reads 1 from then on. -/
def execTimerCompare (c : CellId) (s : State) : Ans := next (cellTimeTo s c (s.cell c).ctcmp.toNat)

/-- CTCMP_WRITE (03 R66). -/
def execCtcmpWrite (c : CellId) (a : Reg) (s : State) : Ans :=
  next (issue s c fun s => swrRes s c 0x030 ((s.cell c).rdG a))

/-- DOORBELL (03 R62, R66): the first one's number is the one reported. -/
def execDoorbell (c : CellId) (n : BitVec 8) (s : State) : Ans :=
  next (s.updCell c fun k => { k with bell := some (k.bell.getD (n, 0)) })

/-- Whether two refusals keep their order: they return to one cell. -/
def sameRefusal (x y : HmRefusal) : Bool := x.cell == y.cell

/-- HALLMARK_REFUSAL_RETURN (03 R66, R82): the first one's detail and address are the ones reported. -/
def execHallmarkRefusalReturn (k : Nat) (s : State) : Ans :=
  next (match takeMsg sameRefusal k s.hmrefs with
    | some (r, rest) =>
      { s with hmrefs := rest }.updCell r.cell fun x => { x with hmRef := some (x.hmRef.getD (r.detail, r.addr)) }
    | none => s)

/-- CACHE_DISABLE (03 R77): the SWR to CCTL that clears the named EN bits and keeps the other. `bad`: the dirty lines whose check bits
fail as they are read for the write-back (03 R67). -/
def execCacheDisable (c : CellId) (l1i l1d : Bool) (bad : List Nat) (s : State) : Ans :=
  next (issue s c fun s =>
    let k := s.cell c
    let s := if k.sup && l1d && k.l1d.en then spoilL1 s bad c else s
    swrRes s c 0x020 (BitVec.ofNat 64 (b2n (k.l1i.en && !l1i) + 2 * b2n (k.l1d.en && !l1d))))

/-- L2_DISABLE (03 R77, R78): the write to BCCTL that clears L2EN; `bad` as at CACHE_DISABLE. -/
def execL2Disable (hall : Byte) (b : BlockId) (bad : List Nat) (s : State) : Ans :=
  next (regAccess s hall (0x30010000000 + 0x100000 * b.val) fun s =>
    l2enWrite (if (s.block b).l2.en then spoilBlock s bad b else s) b false)

/-- CACHE_REENABLE (03 R78, R79): the SWR to CCTL that sets an EN bit, or the cell's store to BCCTL that sets L2EN. -/
def execCacheReenable (c : CellId) (which : CacheSel) (s : State) : Ans :=
  next (issue s c fun s =>
    let k := s.cell c
    match which with
    | .l1i => swrRes s c 0x020 (BitVec.ofNat 64 (1 + 2 * b2n k.l1d.en))
    | .l1d => swrRes s c 0x020 (BitVec.ofNat 64 (b2n k.l1i.en + 2))
    | .l2 => storeRes s c (BitVec.ofNat 64 (0x30010000000 + 0x100000 * blockOfCell c)) [1, 0, 0, 0] .clean .done)

end Sys2Proof.Machine
end

