-- ==== Sys2Proof/Machine/Pips.lean ====
section
/-! DEFINITION. Pips, signals and barriers: the cell's pip instructions and the messages that arrive (11 R244 to R264). -/

namespace Sys2Proof.Machine

/-- The partition's fabric job tag of a cell (11 R252, 16 R372). -/
def fjobOf (s : State) (c : Nat) : BitVec 12 :=
  match ownerOfBlock s (blockOfCell c) with
  | some p => (s.part p).fjob.truncate 12
  | none => 0

/-- A PIPSIG with REMOTE = 1 (11 R252, 14 R336): sent as a SIGNAL packet, or refused where no such module can be reached. One that names
this module stays on it, in the order of its cell's other signals to the pip (R250). -/
def remoteSignal (s : State) (c : CellId) (cell pip amount dst : Nat) : State :=
  if !fabReachable s dst then sendRefusal s c 1 (BitVec.ofNat 64 (pipAddr cell pip))
  else
    let job := fjobOf s c
    let own := ownerOfBlock s (blockOfCell c)
    let pkt := signalPacket s c cell pip amount job dst
    if dst = s.modId then
      let s := countTx s own pkt
      { s with sigs := s.sigs ++ [⟨c, Fin.ofNat 512 cell, BitVec.ofNat 6 pip, BitVec.ofNat 16 amount, 0, some job⟩] }
    else sendPacket { s with rsigs := s.rsigs ++ [⟨c, BitVec.ofNat 18 dst, BitVec.ofNat 16 (64 * cell + pip), job⟩] } own pkt

/-- PIPSIG (09 R213, 11 R247, R252). -/
def execPipsig (c : CellId) (a b : Reg) (s : State) : Ans :=
  next (issue s c fun s =>
    let k := s.cell c
    let t := (k.rdG a).toNat
    let n := fieldN (k.rdG b).toNat 0 16
    let pip := fieldN t 0 6
    let cell := fieldN t 6 9
    if 48 ≤ pip then .exc ⟨3, 0, k.rdG a⟩ s
    else if t.testBit 15 then .done (remoteSignal s c cell pip n (fieldN t 16 18))
    else .done (sendSig s c cell pip n k.hall))

/-- PIP_SIGNAL_ARRIVE (11 R247 to R250). -/
def execPipSignalArrive (k : Nat) (s : State) : Ans :=
  next (match takeMsg sameSig k s.sigs with
    | some (g, rest) => if sigHeld s g then s else signalArrive { s with sigs := rest } g
    | none => s)

/-- REMOTE_SIGNAL_ARRIVE (11 R252): counted, or logged and refused to its issuer; lost at a cell in Dormant (R264). The packets
delivered to this module are numbered first, then the signals that name it from within. -/
def execRemoteSignalArrive (k : Nat) (s : State) : Ans :=
  next (
    if s.inbox.length ≤ k then
      match takeMsg sameSig (k - s.inbox.length) s.sigs with
      | some (g, rest) => if g.job.isNone || sigHeld s g then s else signalArrive { s with sigs := rest } g
      | none => s
    else match takePacket s k (fun p => p.kind == kSignal) with
      | none => s
      | some (x, s') =>
        let c := x.pkt.fld 22 9
        let p := x.pkt.fld 16 6
        if msgHeld s 8192 c then s
        else
          let s := countRx s' (ownerOfBlock s' (blockOfCell c)) x.pkt
          if remoteOk s c p x.pkt.job then countSignal s c p (BitVec.ofNat 16 (x.pkt.fld 31 16))
          else dropPacket (cellReport s c 4 (detailWord 0 0 (pipAddr c p))) x.pkt 2)

/-- A wait instruction (09 R212, 11 R253, R256): a reserved pip number is illegal, and the pip must be in one of its modes. -/
def waitInstr (s : State) (c : CellId) (pip : BitVec 6) (bar : Bool) (f : State → State) : State :=
  issue s c fun s =>
    let p := pip.toNat
    if 48 ≤ p then illegal s
    else if decide (((s.cell c).pip p).mode = 0) == bar then .exc ⟨3, 0, BitVec.ofNat 64 (pipAddr c p + 0x10)⟩ s
    else .stay (f s)

/-- PIPWAIT (11 R253 to R255). -/
def execPipwait (c : CellId) (pip : BitVec 6) (t : Reg) (s : State) : Ans :=
  next (waitInstr s c pip false fun s => enterWait s c pip.toNat .wait (waitTime (s.cell c) t))

/-- PIPWATCH (11 R253 to R255). -/
def execPipwatch (c : CellId) (pip : BitVec 6) (b t : Reg) (s : State) : Ans :=
  next (waitInstr s c pip false fun s =>
    let k := s.cell c
    enterWait s c pip.toNat (.watch ((k.rdG b).truncate 16)) (waitTime k t))

/-- PIPBAR (11 R258): the arrival once per generation, then the wait. -/
def execPipbar (c : CellId) (pip : BitVec 6) (t : Reg) (s : State) : Ans :=
  next (waitInstr s c pip true fun s =>
    let p := pip.toNat
    let k := s.cell c
    let x := k.pip p
    let s := if x.arr then s else sendBar (setPipAt s c p { x with arr := true }) .arrival c (homeOf c x) p x.gen k.hall
    enterWait s c p .bar (waitTime k t))

/-- PIP_WAIT_TIMEOUT (11 R255, R261): the cell's timer reaches the wait's expiry. -/
def execPipWaitTimeout (c : CellId) (s : State) : Ans :=
  next (
    let k := s.cell c
    match k.wait with
    | none => s
    | some w =>
      match w.expiry with
      | none => s
      | some t =>
        if k.held || k.faulted then s
        else
          let s := cellTimeTo s c t
          if w.kind = .bar ∧ (k.pip w.pip).arr then wakeBlock (sendWithdrawal s c w) (blockOfCell c)
          else endTimeout s c w.pip)

/-- PCFG_WRITE (11 R245, R246): all of PCFG written. -/
def execPcfgWrite (hall : Byte) (c : CellId) (pip : Fin 48) (v : BitVec 64) (s : State) : Ans :=
  next (regAccess s hall (pipAddr c pip.val + 0x10) fun s => pcfgWriteOp s c pip.val v (-1))

/-- BARRIER_ARRIVAL (11 R259, R260, R262). -/
def execBarrierArrival (k : Nat) (s : State) : Ans := next (takeBar s k fun m => m == .arrival)

/-- BARRIER_RELEASE (11 R259, R260, R262). -/
def execBarrierRelease (k : Nat) (s : State) : Ans := next (takeBar s k fun m => m == .release)

/-- BARRIER_WITHDRAWAL (11 R260, R261). -/
def execBarrierWithdrawal (k : Nat) (s : State) : Ans := next (takeBar s k fun m => m == .withdraw)

/-- WITHDRAWAL_ANSWER (11 R260, R261). -/
def execWithdrawalAnswer (k : Nat) (s : State) : Ans := next (takeBar s k fun m => m == .accepted || m == .refused)

/-- WITHDRAWAL_RIDE_EXPIRE (11 R263, 14 R341, 21 R478): the module timer reaches the armed count, and the withdrawals
passed to the parent count as accepted; the record names the port and the partner beyond it. -/
def execWithdrawalRideExpire (c : CellId) (pip : Fin 48) (s : State) : Ans :=
  next (
    let x := (s.cell c).pip pip.val
    match x.wd, x.parent with
    | _ :: _, some q =>
      let s := moduleTimeTo s x.wdDue
      parentAnswer (withdrawalLost s c pip.val (peerOrigin (s.port q).partner.toNat)) c pip.val true
    | _, _ => s)

end Sys2Proof.Machine
end

