-- ==== Sys2Proof/Machine/Sm3.lean ====
section
/-! DEFINITION. The SM3 digest, which measurement uses (16 R388, R389). The manual names the standard and does not spell
the function out: PRESUMED from GB/T 32905 (log entry 9). -/

namespace Sys2Proof.Machine

/-- Left rotation of a 32-bit word. -/
def rol32 (x : W32) (n : Nat) : W32 := x.rotateLeft n

/-- P0 and P1 of the compression and the expansion. -/
def sm3P0 (x : W32) : W32 := x ^^^ rol32 x 9 ^^^ rol32 x 17
/-- P1. -/
def sm3P1 (x : W32) : W32 := x ^^^ rol32 x 15 ^^^ rol32 x 23

/-- The message words, newest first: `n` more words after the ones of `ws`. -/
def sm3Expand : Nat → List W32 → List W32
  | 0, ws => ws
  | n + 1, ws =>
    let g (i : Nat) : W32 := ws.getD (i - 1) 0
    sm3Expand n ((sm3P1 (g 16 ^^^ g 9 ^^^ rol32 (g 3) 15) ^^^ rol32 (g 13) 7 ^^^ g 6) :: ws)

/-- The eight chaining words. -/
structure Sm3 where
  a : W32
  b : W32
  c : W32
  d : W32
  e : W32
  f : W32
  g : W32
  h : W32
  deriving DecidableEq, Repr

/-- The initial value. -/
def Sm3.iv : Sm3 :=
  ⟨0x7380166F, 0x4914B2B9, 0x172442D7, 0xDA8A0600, 0xA96F30BC, 0x163138AA, 0xE38DEE4D, 0xB0FB0E4E⟩

/-- One round: `j`, its message word and the word four places later. -/
def Sm3.round (v : Sm3) (j : Nat) (w w4 : W32) : Sm3 :=
  let tj : W32 := if j < 16 then 0x79CC4519 else 0x7A879D8A
  let ss1 := rol32 (rol32 v.a 12 + v.e + rol32 tj (j % 32)) 7
  let ss2 := ss1 ^^^ rol32 v.a 12
  let ff := if j < 16 then v.a ^^^ v.b ^^^ v.c else (v.a &&& v.b) ||| (v.a &&& v.c) ||| (v.b &&& v.c)
  let gg := if j < 16 then v.e ^^^ v.f ^^^ v.g else (v.e &&& v.f) ||| (~~~v.e &&& v.g)
  let tt1 := ff + v.d + ss2 + (w ^^^ w4)
  let tt2 := gg + v.h + ss1 + w
  ⟨tt1, v.a, rol32 v.b 9, v.c, sm3P0 tt2, v.e, rol32 v.f 19, v.g⟩

/-- The rounds from `j` on over the expanded words, oldest first; `n` rounds left. -/
def Sm3.rounds : Nat → Nat → List W32 → Sm3 → Sm3
  | 0, _, _, v => v
  | n + 1, j, ws, v => Sm3.rounds n (j + 1) (ws.drop 1) (v.round j (ws.getD 0 0) (ws.getD 4 0))

/-- A 64-byte block's big-endian words. -/
def beWords : Nat → List Byte → List W32
  | 0, _ => []
  | n + 1, bs => BitVec.ofNat 32 (leNat (bs.take 4).reverse) :: beWords n (bs.drop 4)

/-- One block compressed into the chaining value. -/
def Sm3.block (v : Sm3) (blk : List Byte) : Sm3 :=
  let ws := (sm3Expand 52 (beWords 16 blk).reverse).reverse
  let r := Sm3.rounds 64 0 ws v
  ⟨r.a ^^^ v.a, r.b ^^^ v.b, r.c ^^^ v.c, r.d ^^^ v.d, r.e ^^^ v.e, r.f ^^^ v.f, r.g ^^^ v.g, r.h ^^^ v.h⟩

/-- The blocks of a padded message, `n` blocks left. -/
def Sm3.blocks : Nat → List Byte → Sm3 → Sm3
  | 0, _, v => v
  | n + 1, bs, v => Sm3.blocks n (bs.drop 64) (v.block (bs.take 64))

/-- SM3: 32 bytes. -/
def sm3 (msg : List Byte) : List Byte :=
  let l := msg.length
  let zeros := (119 - l % 64) % 64
  let padded := msg ++ [0x80#8] ++ List.replicate zeros 0#8 ++ beBytes 8 (8 * l)
  let v := Sm3.blocks ((l + 9 + zeros) / 64) padded Sm3.iv
  [v.a, v.b, v.c, v.d, v.e, v.f, v.g, v.h].flatMap fun w => beBytes 4 w.toNat

/-- HMAC of a message under a key of at most 64 bytes with SM3 (17 R400; PRESUMED from RFC 2104, log entry 9). -/
def hmacSm3 (key msg : List Byte) : List Byte :=
  let k := key ++ List.replicate (64 - key.length) 0
  sm3 (k.map (· ^^^ 0x5C) ++ sm3 (k.map (· ^^^ 0x36) ++ msg))

end Sys2Proof.Machine
end

