-- ==== Sys2Proof/Machine/ModOps.lean ====
section
/-! DEFINITION. The module controller: notifications, status flags, sessions, module states, the ends of commands, rejections, and
what a module reset or a loss of power leaves (17, 20 R462, 21). -/

namespace Sys2Proof.Machine

/-- Whether an interface answers in a module state (17 R397). -/
def answers (st : ModSt) (i : Iface) : Bool :=
  match st with
  | .standby => true
  | .active => true
  | .withdrawn => i == .field
  | .faulted => i == .field
  | _ => false

/-- The encoding of a module state (17 R411). -/
def modStCode : ModSt → Byte
  | .off => 0
  | .boot => 1
  | .standby => 2
  | .active => 3
  | .withdrawn => 4
  | .faulted => 5

/-- A role as a bit of a mask: Owner 1, Tenant 2, Observer 4 (00 R12, 17 R403). -/
def Sess.bit (x : Sess) : Nat := if x.role = 1 then 1 else if x.role = 2 then 2 else if x.role = 3 then 4 else 0

/-- Whether a session is established. -/
def Sess.live (x : Sess) : Bool := decide (x.st = .up)

/-- The bytes of a WDP message before its TAG (17 R399). -/
def msgBytes (m : WdpMsg) : List Byte :=
  [1, m.op, m.status, m.flags] ++ leBytes 4 m.sess.toNat ++ leBytes 4 m.seq.toNat ++ leBytes 2 m.idx.toNat ++ [m.sub, 0] ++
    leBytes 2 m.off.toNat ++ leBytes 2 m.len.toNat ++ leBytes 2 m.total.toNat ++ [0, 0] ++ m.pay

/-- The TAG of the bytes of a message under a session key (17 R400). -/
def tagOf (key bytes : List Byte) : List Byte := (hmacSm3 key bytes).take 16

/-- A WDP message sent to an address and port from the module's own port (17 R396), over the next hop that the addresses of `at` give: a
new address applies after the response to its write (18 R433). Without a next hop it goes nowhere (19 R441). -/
def sendWdp (hops s : State) (i : Iface) (dst : Udp) (m : WdpMsg) (tag : List Byte) : State :=
  match nextHop hops i dst.v6 dst.addr with
  | some h => emit s (.wdp i h dst s.ctl.udpNow m tag)
  | none => s

/-- A NOTIFY to a session, at the address and port of its last valid request (17 R404, R421). -/
def notify (s : State) (j idx sub : Nat) (pay : List Byte) : State :=
  let x := s.sess j
  let m : WdpMsg := ⟨0x20, 0, 2, x.id, x.nseq + 1, BitVec.ofNat 16 idx, BitVec.ofNat 8 sub, 0, BitVec.ofNat 16 pay.length, 0, pay⟩
  sendWdp s (s.setSess j { x with nseq := x.nseq + 1 }) x.peerIf x.peer m (tagOf x.keyOut (msgBytes m))

/-- A NOTIFY to every session that a condition picks (17 R421). -/
def notifyAll (s : State) (who : Sess → Bool) (idx sub : Nat) (pay : List Byte) : State :=
  (List.range 16).foldl (fun s j => if (s.sess j).live && who (s.sess j) then notify s j idx sub pay else s) s

/-- A status flag set and its event counted (17 R413, R421). -/
def setFlag (s : State) (bit : Nat) : State :=
  let s := { s with ctl := { s.ctl with
    flags := s.ctl.flags ||| (1#32 <<< bit)
    flagCnt := s.ctl.flagCnt.setIfInBounds bit (BitVec.ofNat 32 (satAdd max32 (vget s.ctl.flagCnt bit).toNat 1)) } }
  notifyAll s (fun x => x.mask.getLsbD 3 && (x.role == 1 || x.role == 3)) 0x3001 1 (leBytes 4 s.ctl.flags.toNat)

/-- A session ended: its entry, its segmented transfers and its cached response go (17 R405). -/
def sessEnd (s : State) (j : Nat) : State := s.setSess j Sess.reset

/-- Sessions that a condition picks ended. -/
def sessEndAll (s : State) (who : Sess → Bool) : State :=
  (List.range 16).foldl (fun s j => if who (s.sess j) then sessEnd s j else s) s

/-- The module state changes (17 R397, R405, R412, R421): sessions whose interface stops answering end, the others are told. -/
def setModSt (s : State) (st : ModSt) : State :=
  let s := { s with ctl := { s.ctl with prev := s.ctl.st, st := st, entryMs := s.ctl.timer, cause := 0 } }
  let s := sessEndAll s (fun x => !answers st x.iface)
  notifyAll s (fun x => x.mask.getLsbD 2) 0x3000 1 [modStCode st]

/-- The encoding of a partition state (16 R372). -/
def partStCode : PartSt → Byte
  | .free => 0
  | .creating => 1
  | .loading => 2
  | .active => 3
  | .closing => 4

/-- A rejection recorded (17 R407). -/
def reject (s : State) (idx sub code : Nat) (part : Option Nat) (sess : W32) : State :=
  let pst : Byte := match part with
    | some p => partStCode (s.part p).st
    | none => 0xFF
  let n := satAdd max32 (s.ctl.rej.getD 7 0).toNat 1
  { s with ctl := { s.ctl with
    rej := [BitVec.ofNat 64 s.ctl.timer, BitVec.ofNat 64 idx, BitVec.ofNat 64 sub, BitVec.ofNat 64 code,
      (modStCode s.ctl.st).zeroExtend 64, pst.zeroExtend 64, sess.zeroExtend 64, BitVec.ofNat 64 n] } }

/-- The state of a command slot in its status word (17 R414). -/
def cmdStCode : CmdSt → Nat
  | .idle => 0
  | .queued => 1
  | .running => 2
  | .done => 3
  | .failed => 4
  | .aborted => 5

/-- The status word of a slot (17 R414). -/
def CmdSlot.word (x : CmdSlot) : Nat := cmdStCode x.st * 2 ^ 28 + x.error.toNat * 2 ^ 16 + x.progress.toNat

/-- Whether a session belongs to the holder of a slot (17 R414); 0xFE stands for the Observers, whom 18 R436 lets ATTEST. -/
def holderIs (x : Sess) (h : Option Byte) : Bool :=
  match h with
  | none => false
  | some h => if h = 0xFF then x.role == 1 else if h = 0xFE then x.role == 3 else x.role == 2 && x.part == h

/-- Whether a slot is in progress. -/
def CmdSlot.busy (x : CmdSlot) : Bool := decide (x.st = .queued) || decide (x.st = .running)
/-- Whether a slot has ended and is still held. -/
def CmdSlot.ended (x : CmdSlot) : Bool := decide (x.st = .done) || decide (x.st = .failed) || decide (x.st = .aborted)

/-- A command ends (17 R415, R418, R419, R421). -/
def cmdEnd (s : State) (n : Nat) (st : CmdSt) (err : Byte) : State :=
  let x := s.cmd n
  let y := { x with
    st := st, error := err, progress := if st = .done then 0xFFFF else x.progress
    due := moduleDue s (1000 * s.ctl.hold.toNat), abort := false, aux := 0 }
  let s := notifyAll (s.setCmd n y) (fun z => z.mask.getLsbD 0 && holderIs z y.holder) (0x8000 + n) 2 (leBytes 4 y.word)
  if st = .failed then setFlag s 8 else s

/-- A command ends DONE with its result (17 R418). -/
def cmdDone (s : State) (n : Nat) (result : List Byte) : State :=
  cmdEnd (s.setCmd n { s.cmd n with result := result }) n .done 0

/-- An ended slot returns to IDLE (17 R415). -/
def cmdIdle (s : State) (n : Nat) : State :=
  s.setCmd n { s.cmd n with st := .idle, holder := none, error := 0, progress := 0, result := [], due := 0 }

/-- Whether slot `n` runs a command with a code. -/
def running (s : State) (n : Nat) (code : W16) : Bool := decide ((s.cmd n).st = .running) && (s.cmd n).code == code

/-- The slot that runs a command with a code. -/
def runner (s : State) (code : W16) : Option Nat := (List.range 16).find? fun n => running s n code

/-- PROGRESS raised (17 R418). -/
def setProgress (s : State) (n v : Nat) : State :=
  let x := s.cmd n
  s.setCmd n { x with progress := BitVec.ofNat 16 (max x.progress.toNat (min v 65535)) }

/-- An argument byte of a command. -/
def CmdSlot.arg (x : CmdSlot) (k : Nat) : Nat := (x.args.getD k 0).toNat

/-- The classes of commands (18 R436): MODULE 0, FABRIC 1, PARTITION 2, ATTEST 3, ACCOUNTING 4. -/
def cmdClass (code : W16) : Nat :=
  if code = 0x0001 then 0
  else if code = 0x0020 ∨ code = 0x0021 then 1
  else if code = 0x0040 ∨ code = 0x0042 then 3
  else if code = 0x0041 then 4
  else 2

/-- The roles of a command as a mask; 0 for a code that is not listed (18 R436). -/
def cmdRoles (code : W16) : Nat :=
  if code = 0x0001 ∨ code = 0x0020 ∨ code = 0x0021 ∨ code = 0x0030 ∨ code = 0x0033 ∨ code = 0x0042 then 1
  else if code = 0x0031 ∨ code = 0x0032 ∨ code = 0x0041 then 3
  else if code = 0x0040 then 7
  else 0

/-- Argument bytes of a command (18 R436). -/
def cmdArgs (code : W16) : Nat :=
  if code = 0x0001 ∨ code = 0x0021 then 0 else if code = 0x0040 ∨ code = 0x0042 then 36 else 4

/-- The partition a command names, where it names one (18 R436). -/
def cmdPart (code : W16) (args : List Byte) : Option Nat :=
  let p := (args.getD 0 0).toNat
  if (code = 0x0030 ∨ code = 0x0031 ∨ code = 0x0032 ∨ code = 0x0033 ∨ code = 0x0040 ∨ code = 0x0041) ∧ p < 16 then some p else none

/-- Whether the module state admits a command (18 R436). -/
def cmdModOk (st : ModSt) (code : W16) : Bool :=
  match st with
  | .standby => true
  | .active => code != 0x0021
  | .withdrawn => code == 0x0001
  | .faulted => code == 0x0001
  | _ => false

/-- Whether the partition states admit a command (14 R357, 16 R379, R391, 18 R438). -/
def cmdPartOk (s : State) (code : W16) (args : List Byte) : Bool :=
  match cmdPart code args with
  | none => code != 0x0021 || (List.range 16).all (fun p => decide ((s.part p).st = .free))
  | some p =>
    let st := (s.part p).st
    if code = 0x0030 then decide (st = .free)
    else if code = 0x0031 then decide (st = .loading)
    else if code = 0x0040 then decide (st ≠ .creating) && decide (st ≠ .closing)
    else decide (st = .loading) || decide (st = .active)

/-- Whether a command is legal in the present state (17 R415, R417). -/
def cmdLegal (s : State) (code : W16) (args : List Byte) : Bool := cmdModOk s.ctl.st code && cmdPartOk s code args

/-- The number of clasps that a mask names. -/
def claspCount (m : BitVec 6) : Nat := (List.range 6).countP (fun i => m.getLsbD i)

/-- The hold of both clasps of a pair applied or removed; the sensors are read 10 ms later (14 R353). -/
def setHold (s : State) (pair : Nat) (on : Bool) : State :=
  let f := s.fab
  let m : BitVec 6 := 3#6 <<< (2 * pair)
  let h := if on then f.hold ||| m else f.hold &&& ~~~m
  { s with fab := { f with
    hold := h, checkAt := f.checkAt.setIfInBounds pair (some (moduleDue s 10))
    moves := BitVec.ofNat 64 (satAdd max64 f.moves.toNat (claspCount (h ^^^ f.hold))) } }

/-- Every hold gone (01 R21, 14 R354, R358): the clasps close, and the sensors of each pair that moves are read 10 ms later (R353). -/
def closeClasps (s : State) : State :=
  let s := (List.range 3).foldl (fun s k => if s.fab.hold.getLsbD (2 * k) || s.fab.hold.getLsbD (2 * k + 1) then setHold s k false else s) s
  { s with fab := { s.fab with drain := false } }

/-- A port without its die: OFF, its counters kept (14 R360). -/
def Port.off (x : Port) : Port := { Port.reset with cnt := x.cnt }

/-- The dies lose power (20 R462, 21 R471): everything on them is lost, and what is on its way with it. -/
def diesOff (s : State) : State :=
  { s with
    cells := [], blocks := s.blocks.map (fun e => (e.1, { Block.reset with oos := e.2.oos, groupOos := e.2.groupOos }))
    engines := [], qps := [], mws := [], slots := [], setters := [], adders := [], aslots := [], arbs := []
    regions := s.regions.map (fun r => { r with selfRef := 0, marks := [] })
    ports := s.ports.map Port.off
    sram := [], lpddr := [], poison := []
    sigs := [], rsigs := [], bmsgs := [], hmrefs := [], tiles := [], readies := [], gathered := [], vcontribs := []
    inbox := [], bridgeq := [], wrefused := [], wtaken := [], ethq := []
    breps := [], lreps := s.breps.foldl (fun q r => queueReport { r with block := none } q) s.lreps
    eth := { s.eth with host := { s.eth.host with up := false }, pause := Vector.replicate 8 0 } }

/-- The hallmark of a partition released: it becomes the most recently released one (16 R376). -/
def releaseHall (s : State) (h : Byte) : State :=
  if h = 0 then s else { s with ctl := { s.ctl with hallOrder := s.ctl.hallOrder ++ [h.toNat] } }

/-- Every partition ended without a close record; its accounting records stay (21 R468). -/
def partsLost (s : State) : State :=
  (List.range 16).foldl (fun s p =>
    let x := s.part p
    (releaseHall s x.hall).setPart p { Part.reset with records := x.records }) s

/-- A region after a module reset: its counts since power-on and its Owner configuration stay (10 R236, R240, R243, 21 R468). -/
def Region.again (x : Region) : Region :=
  { x with timer := 0, bankFail := 0, ctlFail := 0, ctlOos := 0, selfRef := 0, marks := [] }

/-- A module reset (21 R467 to R469): back to stage 1 of BOOT. Counts since power-on, the log, the accounting SEQ and records and the
Owner configuration stay; LPDDR5X holds ciphertext that no key reads. -/
def moduleReset (s : State) (cause : Byte) : State :=
  let pois := s.poison.filter (fun l => match placeOf (128 * l) with | .lpddr _ => true | _ => false)
  let s := partsLost (diesOff s)
  let c := s.ctl
  closeClasps { s with
    ctl := { Ctl.reset with
      prev := c.st, pinHeld := c.pinHeld, resetCause := cause, resetCount := BitVec.ofNat 32 (satAdd max32 c.resetCount.toNat 1)
      bootAt := 0, wdNew := c.wdNew, wdNow := c.wdNow, wdBites := c.wdBites, rej := c.rej, meters := c.meters
      udpNow := c.udpNew, udpNew := c.udpNew, idle := c.idle, hold := c.hold, ownerKeys := c.ownerKeys, obsKeys := c.obsKeys
      acctMs := c.acctMs, acctSeq := c.acctSeq, sessNext := c.sessNext, orderNext := c.orderNext, epochNext := c.epochNext
      hallOrder := c.hallOrder, mv := c.mv, tj := c.tj, rate := c.rate }
    blocks := [], regions := s.regions.map Region.again
    sessions := Vector.replicate 16 Sess.reset
    cmds := Vector.replicate 16 CmdSlot.reset
    eth := { s.eth with host := { s.eth.host with up := false }, field := { s.eth.field with up := false }, pause := Vector.replicate 8 0 }
    poison := pois }

/-- A region after a loss of power: its Owner configuration alone stays (21 R466, R468). -/
def Region.cold (x : Region) : Region :=
  { Region.reset with scrub := x.scrub, bankThr := x.bankThr, lscrub := x.lscrub, ctlThr := x.ctlThr }

/-- An interface after a loss of power: its addresses alone stay (21 R466). -/
def EthIf.cold (x : EthIf) : EthIf := { x with up := false }

/-- The standby supply lost (17 R412, 21 R466, R468): all state is lost but for flash and the accounting SEQ. -/
def powerOff (s : State) : State :=
  let c := s.ctl
  { State.reset with
    pending := s.pending, out := s.out, draws := s.draws
    ctl := { Ctl.reset with
      st := .off, prev := c.st, supply := false
      wdNew := c.wdNew, wdNow := c.wdNew, udpNow := c.udpNew, udpNew := c.udpNew, idle := c.idle, hold := c.hold
      ownerKeys := c.ownerKeys, obsKeys := c.obsKeys, acctMs := c.acctMs, acctSeq := c.acctSeq, sessNext := c.sessNext
      epochNext := c.epochNext }
    regions := s.regions.map Region.cold
    fab := { Fab.reset with id := s.fab.id, dx := s.fab.dx, dy := s.fab.dy, dz := s.fab.dz, joinMs := s.fab.joinMs }
    eth := { Eth.reset with host := s.eth.host.cold, field := s.eth.field.cold } }

/-- Every command in progress ended by a hardware error, a RESET that waits apart (17 R419, 21 R471). -/
def cmdsLost (s : State) : State :=
  (List.range 16).foldl (fun s n =>
    if (s.cmd n).busy && (s.cmd n).code != 0x0001 then cmdEnd s n .failed 3 else s) s

/-- The module enters FAULTED (21 R471). -/
def faultModule (s : State) (cause : Byte) : State :=
  let s := reportLog s (originMc s) (originMc s) 0x16 none (detailWord cause.toNat 0 0)
  let s := setModSt (closeClasps (partsLost (diesOff s))) .faulted
  cmdsLost { s with ctl := { s.ctl with cause := cause } }

end Sys2Proof.Machine
end

