-- ==== Sys2Proof/Machine/RoceOps.lean ====
section
/-! DEFINITION. What the RoCEv2 engine does with packets from the peer and with its timers (19 R447 to R450), and how the host
port and the field link treat frames (19 R440 to R442). A queue pair is numbered 64b + k. -/

namespace Sys2Proof.Machine

/-- A packet that reaches a queue pair (19 R445, R448): taken in RTS, discarded silently in RESET; in RTS and in ERROR one that is marked CE
is also answered with a CNP. -/
def atQp (s : State) (i : Nat) (ce : Bool) (f : State → State) : State :=
  if (s.qp i).st = .reset then s
  else
    let s := if (s.qp i).st = .rts then f s else s
    if ce then roceOut s i roceCnp 0 0 [] else s

/-- An answer to the peer, without data. -/
def answerPeer (s : State) (i op : Nat) : State := roceOut s i op 0 0 []

/-- EPSN advanced by the packets of a request (19 R444). -/
def epsnAdd (s : State) (i n : Nat) : State := s.setQp i ((s.qp i).psnAdd 32 n)

/-- Bytes from the peer written to memory and counted (16 R392, 19 R450). `chk`: what the check bits of the lines that they merge with
show. -/
def hostStore (s : State) (i a : Nat) (bs : List Byte) (chk : Check) : State :=
  let p := qpPart s i
  let s := mergeCheck (wakeExtent s a bs.length) ((List.range bs.length).map (a + ·)) chk
  countBulk (countHost (agentStore s a bs) p 15 bs.length) p bs.length

/-- An incoming RDMA WRITE packet (19 R450). -/
def rdmaWriteOp (s : State) (i : Nat) (key : W32) (rva : W64) (bs : List Byte) (chk : Check) : State :=
  match mwAccess s i key rva.toNat bs.length true with
  | none => answerPeer s i roceNakAccess
  | some a => answerPeer (epsnAdd (hostStore s i a bs chk) i 1) i roceAck

/-- An incoming RDMA READ request (19 R450). -/
def rdmaReadOp (s : State) (i : Nat) (key : W32) (rva : W64) (n : Nat) : State :=
  match mwAccess s i key rva.toNat n false with
  | none => answerPeer s i roceNakAccess
  | some a =>
    let p := qpPart s i
    let s := countBulk (countHost (wakeExtent s a n) p 14 n) p n
    roceOut (epsnAdd s i (mtuPackets n)) i roceReadData rva key (memBytes s a n)

/-- An incoming SEND (19 R447, R448). -/
def sendOp (s : State) (i : Nat) (bs : List Byte) (chk : Check) : State :=
  let x := s.qp i
  match x.nextRecv with
  | none => answerPeer s i roceRnr
  | some j =>
    let e := readEntry s x.rq j
    let s := entryRead s i x.rq j
    let s := epsnAdd s i (mtuPackets bs.length)
    if e.len < bs.length then answerPeer (outcome s i false j 5 0) i roceNakInvalid
    else match localErr s (qpPart s i) e.laddr bs.length false with
      | some c => answerPeer (outcome s i false j c 0) i roceNakInvalid
      | none => answerPeer (outcome (hostStore s i e.laddr bs chk) i false j 1 bs.length) i roceAck

/-- A send entry ends (19 R447, R448): its outcome; the counts of retries and of READ data start anew. -/
def sendEnds (s : State) (i : Nat) (j : W16) (status : Byte) : State :=
  let s := outcome s i true j status 0
  s.setQp i { s.qp i with retries := 0, rnrs := 0, got := 0, due := moduleDue s 134 }

/-- Data of a READ response (19 R447): the entry ends when all of it is in memory. -/
def readData (s : State) (i : Nat) (j : W16) (e : Entry) (data : List Byte) (chk : Check) : State :=
  let x := s.qp i
  let bs := data.take (e.len - x.got)
  match localErr s (qpPart s i) (e.laddr + x.got) bs.length false with
  | some c => sendEnds s i j c
  | none =>
    let s := hostStore s i (e.laddr + x.got) bs chk
    if e.len ≤ x.got + bs.length then sendEnds s i j 1
    else s.setQp i { x with got := x.got + bs.length, retries := 0, rnrs := 0, due := moduleDue s 134 }

/-- The outstanding entries sent again; data of a READ comes from its start (19 R448). -/
def resend (s : State) (i : Nat) : State :=
  let s := s.setQp i { s.qp i with got := 0 }
  resendEntries s i 4096 (s.qp i).sqci

/-- What the peer answers to the oldest outstanding send entry (19 R447, R448). -/
def peerAnswer (s : State) (i : Nat) (ans : RoceAck) (chk : Check) : State :=
  let x := s.qp i
  match x.oldest with
  | none => s
  | some j =>
    let e := readEntry s x.sq j
    let s := entryRead s i x.sq j
    match ans with
    | .ack => if e.op = 1 then s else sendEnds s i j 1
    | .nakAccess => sendEnds s i j 3
    | .rnr => if 7 ≤ x.rnrs + 1 then sendEnds s i j 4 else resend (s.setQp i { x with rnrs := x.rnrs + 1 }) i
    | .readData d => if e.op = 1 then readData s i j e d chk else s

/-- 134 ms on the module timer without an acknowledgement (19 R448). -/
def retransmit (s : State) (i : Nat) : State :=
  let x := s.qp i
  match x.oldest with
  | none => s
  | some j =>
    let s := moduleTimeTo s x.due
    if 7 ≤ x.retries then sendEnds s i j 4 else resend (s.setQp i { x with retries := x.retries + 1 }) i

/-- The memory that a packet to a queue pair makes the engine reach (19 R447 to R450). -/
def roceExtents (s : State) (i : Nat) (m : RoceMsg) : List (Nat × Nat) :=
  let x := s.qp i
  let buffer (e : Entry) (k n : Nat) : List (Nat × Nat) :=
    if n ≤ e.len - k ∧ localErr s (qpPart s i) (e.laddr + k) n false = none then [(e.laddr + k, n)] else []
  if x.st ≠ .rts then []
  else match m with
    | .write key rva bs _ => ((mwAccess s i key rva.toNat bs.length true).map fun a => (a, bs.length)).toList
    | .readRequest key rva n => ((mwAccess s i key rva.toNat n.toNat false).map fun a => (a, n.toNat)).toList
    | .send bs _ =>
      (match x.nextRecv with
      | some j => (entryAddr x.rq j, 32) :: buffer (readEntry s x.rq j) 0 bs.length
      | none => [])
    | .answer ans _ =>
      (match x.oldest, ans with
      | some j, .readData d =>
        let e := readEntry s x.sq j
        (entryAddr x.sq j, 32) :: (if e.op = 1 then buffer e x.got (min d.length (e.len - x.got)) else [])
      | some _, .rnr => x.outstanding.flatMap (sendExtents s i)
      | some j, _ => [(entryAddr x.sq j, 32)]
      | none, _ => [])
    | .cnp => []

/-- A CNP (19 R448): the send rate halves. -/
def cnpOp (s : State) (i : Nat) : State := s.setQp i { s.qp i with rate := (s.qp i).rate / 2 }

/-- A packet at its queue pair (19 R445, R447, R448, R450). -/
def roceTake (s : State) (i : Nat) (h : RoceHdr) (m : RoceMsg) : State :=
  atQp s i h.ce fun s =>
    match m with
    | .write key rva bs chk => rdmaWriteOp s i key rva bs chk
    | .readRequest key rva n => rdmaReadOp s i key rva n.toNat
    | .send bs chk => sendOp s i bs chk
    | .answer ans chk => peerAnswer s i ans chk
    | .cnp => cnpOp s i

/-- The UDP port of RoCEv2 (19 R441). -/
def rocePort : W16 := 4791

/-- Whether a RoCEv2 packet reaches the module (17 R397, 19 R441): the host port answers, and the packet is to one of its addresses and
to the port. -/
def roceReached (s : State) (h : RoceHdr) : Bool :=
  answers s.ctl.st .host && addrMine s .host h.dst.v6 h.dst.addr && h.dst.port == rocePort

/-- A RoCEv2 packet received (19 R441): discarded, or taken at its queue pair once the memory that it needs can be reached; until then it
waits and is presented again (log entry 18). `count` counts its frames where it waits no more. -/
def roceArrive (s : State) (i : Nat) (h : RoceHdr) (m : RoceMsg) (count : State → State) : State :=
  if !roceReached s h then count s
  else match engineWaits s (roceExtents s i m) with
    | some s => s
    | none => roceTake (count s) i h m

/-- The frames in which a RoCEv2 message comes (19 R443). -/
def roceFrames : RoceMsg → Nat
  | .write _ _ bs _ => mtuPackets bs.length
  | .readRequest _ _ _ => 1
  | .send bs _ => mtuPackets bs.length
  | .answer (.readData d) _ => mtuPackets d.length
  | .answer _ _ => 1
  | .cnp => 1

/-- A send or receive entry whose operation was bitten (15 R370, 19 R448). -/
def biteEntry (s : State) (i : Nat) (recv : Bool) (j : W16) : State :=
  let x := s.qp i
  if x.st ≠ .rts then s
  else if recv then (if x.nextRecv = some j then outcome s i false j 7 0 else s)
  else if x.oldest = some j then sendEnds s i j 7
  else if x.outstanding.contains j then outcome s i true j 7 0
  else s

/-- The interface a frame arrives on. -/
def frameIface : Frame → Iface
  | .arp i _ _ => i
  | .neighbour i _ _ => i
  | .echo i _ _ _ _ => i
  | .udp i _ _ _ => i
  | .roce i _ _ _ _ => i
  | .pause8023x i => i
  | .other i => i
  | .badFcs i => i

/-- A frame counted at the host port, with the FEC codewords it took (18 R433): none while the port has no power (22 R488). -/
def countFrame (s : State) (f : EthFrame) : State :=
  let up (w : W64) (n : Nat) : W64 := BitVec.ofNat 64 (satAdd max64 w.toNat n)
  if frameIface f.body ≠ .host ∨ powered s = false then s
  else { s with eth := { s.eth with
    rx := up s.eth.rx 1, bad := up s.eth.bad (match f.body with | .badFcs _ => 1 | _ => 0)
    fecCorr := up s.eth.fecCorr f.fecFix, fecUnc := up s.eth.fecUnc f.fecBad } }

/-- The bytes that a frame has at the least: its headers, its body and its check sequence. -/
def frameMin : Frame → Nat
  | .echo _ v6 _ _ b => (if v6 then 66 else 46) + b.length
  | .udp _ _ dst b => (if dst.v6 then 66 else 46) + b.length
  | .roce _ h _ _ (.write _ _ b _) => (if h.dst.v6 then 82 else 62) + b.length
  | .roce _ h _ _ (.send b _) => (if h.dst.v6 then 82 else 62) + b.length
  | .roce _ h _ _ (.answer (.readData b) _) => (if h.dst.v6 then 82 else 62) + b.length
  | _ => 0

/-- Whether a frame is longer than the host port accepts (19 R439). -/
def tooLong (f : EthFrame) : Bool := frameIface f.body == .host && decide (4200 < max f.len (frameMin f.body))

/-- The answers an interface gives to frames: ARP 0, neighbour discovery 1, ICMP echo 2. They go back to the asker: on the link, and of an
echo through the next hop that leads to it. -/
def frameAnswer (s : State) (f : Frame) : Option Out :=
  match f with
  | .arp i a w => if ip4Mine s i a.toNat then some (.frame i w 0 (beBytes 4 a.toNat) w []) else none
  | .neighbour i a w => if ip6Mine s i a then some (.frame i w 1 a w []) else none
  | .echo i v6 a w b => if addrMine s i v6 a then (nextHop s i v6 w).map fun h => .frame i h 2 a w b else none
  | _ => none

/-- A frame received (19 R439, R441, R442): answered where the interface answers, or discarded. The VLAN ID of its tag is ignored. -/
def frameOp (s : State) (f : EthFrame) : State :=
  let s := countFrame s f
  if answers s.ctl.st (frameIface f.body) && !tooLong f then
    match frameAnswer s f.body with
    | some o => emit s o
    | none => s
  else s

end Sys2Proof.Machine
end

