-- ==== Sys2Proof/Machine/Sm2.lean ====
section
/-! DEFINITION. SM2: the signet's signatures (16 R389), and the key exchange that establishes a session, on the module's side (17 R403).
The manual names the standard and does not spell it out: PRESUMED from GB/T 32918 (log entry 127). -/

namespace Sys2Proof.Machine

/-- The prime of the curve's field. -/
def sm2P : Nat := 0xFFFFFFFEFFFFFFFFFFFFFFFFFFFFFFFFFFFFFFFF00000000FFFFFFFFFFFFFFFF
/-- The coefficient a of the curve y² = x³ + ax + b. -/
def sm2A : Nat := sm2P - 3
/-- The coefficient b. -/
def sm2B : Nat := 0x28E9FA9E9D9F5E344D5A9E4BCF6509A7F39789F515AB8F92DDBCBD414D940E93
/-- The order of the base point; the cofactor is 1. -/
def sm2N : Nat := 0xFFFFFFFEFFFFFFFFFFFFFFFFFFFFFFFF7203DF6B21C6052B53BBF40939D54123

/-- A point of the curve; none is the point at infinity. -/
abbrev Pt := Option (Nat × Nat)

/-- The base point. -/
def sm2G : Pt :=
  some (0x32C4AE2C1F1981195F9904466A39C9948FE30BBFF2660BE1715A4589334C74C7,
    0xBC3736A2F4F6779C59BDCEE36B692153D0A9877CC62A474002DF32E52139F0A0)

/-- A power modulo `m`; `fuel` bounds the bits of the exponent. -/
def sm2Pow (m : Nat) : Nat → Nat → Nat → Nat
  | 0, _, _ => 1
  | fuel + 1, x, e =>
    let r := sm2Pow m fuel (x * x % m) (e / 2)
    if e % 2 = 1 then x * r % m else r

/-- A quotient in the field. -/
def sm2Div (x y : Nat) : Nat := x * sm2Pow sm2P 256 (y % sm2P) (sm2P - 2) % sm2P
/-- A difference in the field. -/
def sm2Sub (x y : Nat) : Nat := (x + sm2P - y % sm2P) % sm2P

/-- The third point on the line of slope `l` through two points, reflected. -/
def sm2Chord (l x1 y1 x2 : Nat) : Pt :=
  let x := sm2Sub (sm2Sub (l * l) x1) x2
  some (x, sm2Sub (l * sm2Sub x1 x) y1)

/-- The sum of two points. -/
def sm2Add : Pt → Pt → Pt
  | none, q => q
  | p, none => p
  | some (x1, y1), some (x2, y2) =>
    if x1 % sm2P ≠ x2 % sm2P then sm2Chord (sm2Div (sm2Sub y2 y1) (sm2Sub x2 x1)) x1 y1 x2
    else if (y1 + y2) % sm2P = 0 then none
    else sm2Chord (sm2Div (3 * x1 * x1 + sm2A) (2 * y1)) x1 y1 x2

/-- A multiple of a point; `fuel` bounds the bits of the factor. -/
def sm2Mul : Nat → Nat → Pt → Pt
  | 0, _, _ => none
  | fuel + 1, k, p =>
    let r := sm2Mul fuel (k / 2) (sm2Add p p)
    if k % 2 = 1 then sm2Add p r else r

/-- Whether a point lies on the curve. -/
def sm2OnCurve : Pt → Bool
  | none => false
  | some (x, y) => decide (x < sm2P) && decide (y < sm2P) && y * y % sm2P == (x * x * x + sm2A * x + sm2B) % sm2P

/-- A point's 64 bytes: x, then y, big-endian. -/
def sm2Bytes : Pt → List Byte
  | none => List.replicate 64 0
  | some (x, y) => beBytes 32 x ++ beBytes 32 y

/-- The point that 64 bytes name. -/
def sm2Point (bs : List Byte) : Pt := some (leNat (bs.take 32).reverse, leNat ((bs.drop 32).take 32).reverse)

/-- A private key from a constant without a value: from 1 to the order less 2. -/
def sm2Private (k : Nat) : Nat := 1 + k % (sm2N - 2)
/-- A random number, or an ephemeral private key, from a constant without a value: from 1 to the order less 1. -/
def sm2Random (k : Nat) : Nat := 1 + k % (sm2N - 1)

/-- The digest Z of a party: its distinguishing identifier, which is the standard's default (16 R389), the curve and its public key. -/
def sm2Z (key : List Byte) : List Byte :=
  sm3 (beBytes 2 128 ++ (List.range 16).map (fun i => BitVec.ofNat 8 (0x31 + i % 8)) ++ beBytes 32 sm2A ++ beBytes 32 sm2B ++
    sm2Bytes sm2G ++ key)

/-- The x coordinate of an ephemeral key as the exchange takes it: its low 127 bits, and bit 127. -/
def sm2Bar (bs : List Byte) : Nat := 2 ^ 127 + leNat (bs.take 32).reverse % 2 ^ 127

/-- The signet's key pair (16 R389). -/
def signetPrivate : Nat := sm2Private Config.signetKey
/-- Its public key. -/
def signetPublic : List Byte := sm2Bytes (sm2Mul 256 signetPrivate sm2G)

/-- A signature (r, s) of a digest with private key `d` and the random number `k`; none where the standard draws another number. -/
def sm2SignWith (d e k : Nat) : Option (Nat × Nat) :=
  let r := (e + ((sm2Mul 256 k sm2G).map (·.1)).getD 0) % sm2N
  let t := sm2Pow sm2N 256 (1 + d) (sm2N - 2) * (k + (sm2N - r * d % sm2N)) % sm2N
  if r = 0 ∨ r + k = sm2N ∨ t = 0 then none else some (r, t)

/-- Signing number `n` over a message: r, then s, big-endian (16 R389). The random numbers are constants without a value; where four in a
row would be drawn again, so are the bytes. -/
def signature (n : Nat) (msg : List Byte) : List Byte :=
  let e := leNat (sm3 (sm2Z signetPublic ++ msg)).reverse
  let sig := (List.range 4).findSome? fun t => sm2SignWith signetPrivate e (sm2Random (Config.signatureNonce n t))
  (List.range 64).map fun i =>
    match sig with
    | some (r, t) => (if i < 32 then beBytes 32 r else beBytes 32 t).getD (i % 32) 0
    | none => Config.signatureByte n i

/-- The module's ephemeral private key of a session. -/
def ephemeralPrivate (id : W32) : Nat := sm2Random (Config.ephemeralKey id.toNat)
/-- The module's ephemeral key RB (17 R403, step 4). -/
def ephemeral (id : W32) : List Byte := sm2Bytes (sm2Mul 256 (ephemeralPrivate id) sm2G)

/-- The point V that both sides reach, from the host's static key and RA; none where the exchange fails: RA is not on the curve, or V is
the point at infinity. -/
def sm2Shared (key ra : List Byte) (id : W32) : Pt :=
  if sm2OnCurve (sm2Point ra) then
    let t := (signetPrivate + sm2Bar (ephemeral id) * ephemeralPrivate id) % sm2N
    sm2Mul 256 t (sm2Add (sm2Point key) (sm2Mul 256 (sm2Bar ra) (sm2Point ra)))
  else none

/-- The two digests that the keys and the confirmations are made with. -/
def sm2Parties (key : List Byte) : List Byte := sm2Z key ++ sm2Z signetPublic

/-- The 64 bytes that the exchange derives (17 R403). -/
def sessKeys (key ra : List Byte) (id : W32) : List Byte :=
  let z := sm2Bytes (sm2Shared key ra id) ++ sm2Parties key
  sm3 (z ++ beBytes 4 1) ++ sm3 (z ++ beBytes 4 2)

/-- A confirmation: its tag is 2 for SB, 3 for SA. -/
def sm2Confirm (tag : Byte) (key ra : List Byte) (id : W32) : List Byte :=
  let v := sm2Bytes (sm2Shared key ra id)
  sm3 (tag :: v.drop 32 ++ sm3 (v.take 32 ++ sm2Parties key ++ ra ++ ephemeral id))

/-- SB (17 R403, step 4). -/
def confirmB (key ra : List Byte) (id : W32) : List Byte := sm2Confirm 2 key ra id
/-- SA, as the module expects it (17 R403, step 5). -/
def confirmA (key ra : List Byte) (id : W32) : List Byte := sm2Confirm 3 key ra id

end Sys2Proof.Machine
end

