-- ==== Sys2Proof/Machine/PartOps.lean ====
section
/-! DEFINITION. What the partition commands do (16 R372 to R395, 21 R470): checks, creation, start, reset, close, the measurement
registers, signed structures, accounting. -/

namespace Sys2Proof.Machine

/-- Whether a partition exists. -/
def Part.held (x : Part) : Bool := decide (x.st ≠ .free)

/-- A bit of a BLOB's octet string. -/
def blobBit (bs : List Byte) (i : Nat) : Bool := (bs.getD (i / 8) 0).getLsbD (i % 8)

/-- IMAGE's ranges: device address and length (16 R372). -/
def imageRanges (bs : List Byte) : List (Nat × Nat) :=
  (List.range (bs.length / 16)).map fun k =>
    let b := (bs.drop (16 * k)).take 16
    (leNat (b.take 8), leNat (b.drop 8))

/-- Check 1 of 16 R380: the blocks. -/
def partBlocksOk (s : State) (p : Nat) : Bool :=
  let x := s.part p
  decide (x.blocks ≠ 0) && (List.range 64).all fun b =>
    !x.blocks.getLsbD b || (!(s.block b).oos &&
      (List.range 16).all (fun q => q == p || !((s.part q).held && (s.part q).blocks.getLsbD b)))

/-- A memory window that is valid alone (16 R373). -/
def windowOk (x : Part) (w : BitVec 128) : Bool :=
  let k := winKind w
  if k = 0 then true
  else if k = 3 ∨ winLen w = 0 then false
  else
    let b := winBase w
    let n := winLen w
    let u := winUnit w
    decide (b % u = 0) && decide (winPBase w % u = 0) && decide (winPBase w + n ≤ 0x20000000000) &&
    (if k = 1 then (List.range 4).any fun r => insideRange b n (0x4000000000 * r) 0x3000000000
     else decide (0x10000000000 ≤ b) && decide (b + n ≤ 0x10100000000) &&
       (List.range (n / u)).all fun i => x.blocks.getLsbD ((b - 0x10000000000) / u + i))

/-- Whether two windows overlap in device space or in partition-relative space (16 R373). -/
def windowsMeet (v w : BitVec 128) : Bool :=
  rangesMeet (winBase v) (winLen v) (winBase w) (winLen w) || rangesMeet (winPBase v) (winLen v) (winPBase w) (winLen w)

/-- Whether no two windows of a list overlap. -/
def windowsApart : List (BitVec 128) → Bool
  | [] => true
  | w :: ws => !ws.any (windowsMeet w) && windowsApart ws

/-- Check 2 of 16 R380: the windows. -/
def partWinsOk (s : State) (p : Nat) : Bool :=
  let x := s.part p
  let ws := x.wins.toList
  ws.all (windowOk x) && windowsApart ws && (List.range 16).all fun q =>
    q == p || !(s.part q).held || !ws.any fun w => winKind w == 1 && (s.part q).wins.toList.any fun v =>
      winKind v == 1 && rangesMeet (winBase v) (winLen v) (winBase w) (winLen w)

/-- Check 3 of 16 R380: slots, contexts, default slots. -/
def partUnitsOk (s : State) (p : Nat) : Bool :=
  let x := s.part p
  ((List.range 1024).all fun i => !blobBit x.slots i || !(s.slot i).assigned) &&
  ((List.range 24).all fun m =>
    let oos := (s.region (m / 6)).ctlOos.getLsbD (m % 6)
    (List.range 8).all fun j =>
      (!blobBit x.setters (8 * m + j) || (!oos && !(s.setter (8 * m + j)).assigned)) &&
      (!blobBit x.adders (8 * m + j) || (!oos && !(s.adder (8 * m + j)).own.getLsbD 8))) &&
  (List.range 4).all fun r => !x.dslots.getLsbD (32 + r) || blobBit x.slots (256 * r + fieldN x.dslots.toNat (8 * r) 8)

/-- Check 4 of 16 R380: IMAGE. -/
def partImageOk (s : State) (p : Nat) : Bool :=
  let x := s.part p
  decide (x.image.length % 16 = 0) && (imageRanges x.image).all fun e => inMemWindows s p e.1 e.2

/-- The first check of PART_CREATE that fails (16 R380, R385). -/
def partCreateError (s : State) (p : Nat) : Option Byte :=
  if !partBlocksOk s p then some 0x20
  else if !partWinsOk s p then some 0x21
  else if !partUnitsOk s p then some 0x22
  else if (s.part p).tenant.length ≠ 64 then some 0x23
  else if !partImageOk s p then some 0x24
  else none

/-- PCFGD (16 R381): the values in sub-index order, each BLOB preceded by its length as a U16. -/
def partDigest (x : Part) : List Byte :=
  let blob (b : List Byte) : List Byte := leBytes 2 b.length ++ b
  sm3 (leBytes 8 x.blocks.toNat ++ leBytes 8 x.entry.toNat ++ leBytes 2 x.fjob.toNat ++ blob x.slots ++ leBytes 8 x.dslots.toNat ++
    blob x.setters ++ blob x.adders ++ blob x.tenant ++ blob x.image ++ (x.wins.toList.map fun w => blob (leBytes 16 w.toNat)).flatten)

/-- The blocks of a partition. -/
def Part.blockList (x : Part) : List Nat := (List.range 64).filter fun b => x.blocks.getLsbD b

/-- A block brought to Run out of Dormant, its cells held in reset with the hallmark (16 R380, 20 R457, R461): the vector datapaths stay
gated until the first vector instruction (04 R112). DESIGN CHOICE (log entry 117): the tile array comes ungated, as TPWR's reset value has
it (06 R161). A WACK still owed to an engine stays owed (log entry 48). -/
def blockCreate (h : Byte) (s : State) (b : Nat) : State :=
  let x := s.block b
  let s := (List.range 4).foldl (fun s a => s.setArb (4 * b + a) (Arb.reset (arbTicks (4 * b + a)))) s
  let fresh (s : State) (i : Nat) : State := s.setEngine i { Engine.reset with stale := (s.engine i).stale }
  let s := qpResets (fresh (fresh s (2 * b)) (2 * b + 1)) b
  let s := s.setBlock b { Block.reset with st := .run, group := .on, oos := x.oos, groupOos := x.groupOos }
  setCellsOf s b fun k => { Cell.reset with chall := h.zeroExtend 32, ctcorr := k.ctcorr, ctcseq := k.ctcseq, vgated := true }

/-- The owner fields of a partition's slots and contexts written (16 R380, 08 R195, 12 R267, 13 R297). -/
def ownUnits (s : State) (x : Part) (h : Byte) : State :=
  let own : W32 := h.zeroExtend 32 + 256
  let s := (List.range 1024).foldl (fun s i =>
    if blobBit x.slots i then
      let r := i / 256
      let d := x.dslots.getLsbD (32 + r) && fieldN x.dslots.toNat (8 * r) 8 == i % 256
      s.setSlot i { s.slot i with own := if d then own + 512 else own }
    else s) s
  let s := (List.range 192).foldl (fun s i => if blobBit x.setters i then s.setSetter i { s.setter i with own := own } else s) s
  (List.range 192).foldl (fun s i => if blobBit x.adders i then s.setAdder i { s.adder i with own := own } else s) s

/-- The memory of a new partition: its region SRAM zero (10 R237), its LPDDR5X not yet written under its key, which raises no error when it
is read (10 R242). -/
def freshMemory (s : State) (ws : List (BitVec 128)) : State :=
  let mine (a : Nat) : Bool := ws.any fun w => winHas w a
  { s with
    sram := s.sram.filter (fun e => !mine e.1), lpddr := s.lpddr.filter (fun e => !mine e.1)
    poison := s.poison.filter (fun l => !mine (128 * l)) }

/-- The free hallmark that PART_CREATE takes (16 R376): the one not held for the longest time. -/
def nextHall (s : State) : Byte := BitVec.ofNat 8 (s.ctl.hallOrder.headD 0)

/-- Step 5 of 16 R380: CREATING, PCFGD, the hallmark, and what a new partition begins with. -/
def partEnter (s : State) (p : Nat) : State :=
  let x := s.part p
  { s.setPart p { x with
      st := .creating, hall := nextHall s, pcfgd := partDigest x, pmeas := List.replicate 32 0, keys := none
      epoch := s.ctl.epochNext
      rwins := Vector.replicate 4 0, cnt := Vector.replicate 17 0, carry := 0, pseq := 0, seq := 0, prevMs := s.ctl.timer
      acctAt := moduleDue s s.ctl.acctMs.toNat, records := [], tol := 0, logFrom := s.log.last } with
    ctl := { s.ctl with hallOrder := s.ctl.hallOrder.tail, epochNext := s.ctl.epochNext + 1 } }

/-- Steps 6 to 9 of 16 R380: the keys, the owner fields, zeroed memory, LOADING; the first partition makes the module ACTIVE (R379). -/
def partFill (s : State) (p : Nat) : State :=
  let x := s.part p
  let s := x.blockList.foldl (blockCreate x.hall) (s.setPart p
    { x with st := .loading, keys := some (Config.partKey x.epoch 0, Config.partKey x.epoch 1) })
  let s := freshMemory (ownUnits s x x.hall) x.wins.toList
  if s.ctl.st = .standby then setModSt s .active else s

/-- PART_CREATE after its checks (16 R379, R380). -/
def partCreateOp (s : State) (p : Nat) : State :=
  partFill (if (s.part p).st = .creating then s else partEnter s p) p

/-- A PART_CREATE that begins to run enters CREATING once its checks pass (16 R380). -/
def partBegin (s : State) (n : Nat) : State :=
  let y := s.cmd n
  if y.st = .running ∧ y.code = 0x0030 ∧ (s.part (y.arg 0)).st = .free ∧ (partCreateError s (y.arg 0)).isNone then
    partEnter s (y.arg 0)
  else s

/-- What a failed reading of IMAGE meets: an address out of service or uncorrectable data. -/
def imageBad (s : State) (x : Part) : Bool :=
  (imageRanges x.image).any fun e => (firstReserved s e.1 e.2).isSome || anyPoison s e.1 e.2

/-- The report of uncorrectable data in an image (10 R235, R239, 17 R419). -/
def imageReport (s : State) (x : Part) : State :=
  (imageRanges x.image).foldl (fun s e => match firstPoison s e.1 e.2 with
    | some a => poisonMet s a
    | none => s) s

/-- The memory of an image powered, and whether it is ready (20 R458, R459). -/
def imageWake (s : State) (x : Part) : State := (imageRanges x.image).foldl (fun s e => wakeExtent s e.1 e.2) s
def imageReady (s : State) (x : Part) : Bool := (imageRanges x.image).all fun e => extentReady s e.1 e.2

/-- PMEAS (16 R382). -/
def imageMeasure (s : State) (x : Part) : List Byte :=
  sm3 (((imageRanges x.image).filter (fun e => decide (e.2 ≠ 0))).flatMap fun e => leBytes 8 e.1 ++ leBytes 8 e.2 ++ memBytes s e.1 e.2)

/-- A block's exit from its present state begins; a Dormant block wakes too (20 R456, R457). -/
def beginExit (s : State) (b : Nat) : State :=
  let x := s.block b
  if x.st = .run ∨ x.oos then s else s.setBlock b { x with waking := true }

/-- The cells of a block released at ENTRY (03 R57, 16 R382); those of a Dormant block start when its exit ends (20 R457). -/
def releaseCells (entry : W64) (s : State) (b : Nat) : State :=
  if (s.block b).oos then s
  else if (s.block b).st = .dormant then beginExit s b
  else beginExit (setCellsOf s b fun k => { k with held := false, pc := entry }) b

/-- PART_START (16 R382). -/
def partStartOp (s : State) (p : Nat) : State :=
  let x := s.part p
  let s := (imageRanges x.image).foldl (fun s e => countPart (countBulk s (some p) e.2) (some p) 11 e.2) (imageWake s x)
  let m := imageMeasure s x
  x.blockList.foldl (releaseCells x.entry) (s.setPart p { s.part p with st := .active, pmeas := m })

/-- A cell after a partition reset (21 R470): held, its registers at reset but for CHALL, the caches and the timer. `deep`: its block is
in Nap or Doze, whose datapaths and array stay gated on the return to Run (04 R112, 06 R161). DESIGN CHOICE (log entry 99): a
committed tile still in the drain buffer goes with the cell's other state. -/
def Cell.partReset (deep : Bool) (k : Cell) : Cell :=
  { Cell.reset with
    chall := k.chall, l1i := k.l1i, l1d := k.l1d, vgated := deep, tgated := deep }

/-- The units of a block after a partition reset (21 R470). -/
def blockPartReset (s : State) (b : Nat) : State :=
  let deep := decide ((s.block b).st = .nap) || decide ((s.block b).st = .doze)
  let s := if (s.block b).st = .dormant then s else setCellsOf s b (Cell.partReset deep)
  let s := engineReset (engineReset s (2 * b)) (2 * b + 1)
  let s := qpResets s b
  beginExit (s.setBlock b { s.block b with becfg := Block.reset.becfg, becnt := 0 }) b

/-- A statistic slot after a partition reset: every register but SOWN at reset, then CLEAR (21 R470). -/
def slotPartReset (s : State) (i : Nat) : State := s.setSlot i { Slot.reset with own := (s.slot i).own }.clear

/-- The slots and contexts of a partition. -/
def ownSlots (s : State) (h : Byte) : List Nat := (List.range 1024).filter fun i => (s.slot i).assigned && (s.slot i).hall == h
/-- The Setter contexts of a partition. -/
def ownSetters (s : State) (h : Byte) : List Nat := (List.range 192).filter fun i => (s.setter i).assigned && (s.setter i).hall == h
/-- The adder contexts of a partition. -/
def ownAdders (s : State) (h : Byte) : List Nat := (List.range 192).filter fun i => (s.adder i).own.getLsbD 8 && (s.adder i).hall == h

/-- A partition reset (16 R383, R384, 21 R470). -/
def partResetOp (s : State) (p : Nat) : State :=
  let x := s.part p
  let s := x.blockList.foldl blockPartReset s
  let s := (ownSetters s x.hall).foldl setterReset s
  let s := (ownAdders s x.hall).foldl adderReset s
  let s := (ownSlots s x.hall).foldl slotPartReset s
  let s := x.blockList.foldl (fun s b => if groupFails s b then blockOut s b (some p) else s) s
  s.setPart p { s.part p with pmeas := List.replicate 32 0, st := .loading }

/-- Whether something on its way carries a hallmark (16 R385, step 2). -/
def hallBusy (s : State) (h : Byte) : Bool :=
  s.sigs.any (fun g => g.hall == h) || s.tiles.any (fun t => t.hall == h) || s.bmsgs.any (fun m => m.hall == h)

/-- A signet signature over a message (16 R389). -/
def signed (s : State) (msg : List Byte) : List Byte × State :=
  let (n, s) := draw s
  (msg ++ signature n msg, s)

/-- An accounting record: its 320 bytes (16 R394). -/
def acctRecord (s : State) (p : Nat) (reason : Nat) (seq : W64) : List Byte × State :=
  let x := s.part p
  signed s (leBytes 4 2 ++ leBytes 2 1 ++ [BitVec.ofNat 8 reason, BitVec.ofNat 8 p] ++ leBytes 8 Config.serial.toNat ++ leBytes 8 seq.toNat ++
    leBytes 4 x.pseq.toNat ++ leBytes 4 x.hall.toNat ++ leBytes 8 x.prevMs ++ leBytes 8 s.ctl.timer ++ x.pcfgd ++
    (x.cnt.toList.map (leBytes 8)).flatten ++ List.replicate 36 0 ++ leBytes 4 s.ctl.kModule.toNat)

/-- A record emitted (16 R394, R395, 17 R421): it is kept among the 64 latest, and the Owner and the partition's Tenants are told. -/
def emitRecord (s : State) (p reason : Nat) : List Byte × State :=
  let seq := s.ctl.acctSeq + 1
  let (r, s) := acctRecord s p reason seq
  let x := s.part p
  let recs := x.records ++ [r]
  let s := s.setPart p { x with records := recs.drop (recs.length - 64), pseq := x.pseq + 1, seq := seq, prevMs := s.ctl.timer }
  let s := { s with ctl := { s.ctl with acctSeq := seq } }
  (r, notifyAll s (fun z => z.role == 1 || (z.role == 2 && z.part.toNat == p)) (0x6110 + p) 1 r)

/-- The end of a close (16 R385, steps 3 to 6, 17 R405, R412). -/
def partCloseOp (s : State) (p : Nat) : State :=
  let s := (emitRecord s p 1).2
  let x := s.part p
  let s := (ownSlots s x.hall).foldl (fun s i => s.setSlot i { s.slot i with own := 0 }) s
  let s := (ownSetters s x.hall).foldl (fun s i => s.setSetter i { s.setter i with own := 0 }) s
  let s := (ownAdders s x.hall).foldl (fun s i => s.setAdder i { s.adder i with own := 0 }) s
  let s := x.blockList.foldl (fun s b => setCellsOf s b fun k => { k with chall := 0 }) s
  let rw := x.rwins.map fun w => w &&& ~~~(1#128 <<< 127)
  let s := s.setPart p { x with st := .free, hall := 0, keys := none, rwins := rw }
  let s := retireAll (x.blockList.foldl blockDormant (releaseHall s x.hall))
  let s := sessEndAll s (fun z => z.role == 2 && z.part.toNat == p)
  if (List.range 16).all (fun q => !(s.part q).held) && decide (s.ctl.st = .active) then setModSt s .standby else s

/-- MEASn extended (16 R388). -/
def extendMeas (s : State) (n : Nat) (d : List Byte) : State :=
  { s with ctl := { s.ctl with meas := s.ctl.meas.setIfInBounds n (sm3 ((s.ctl.meas[n]?).getD [] ++ d)) } }

/-- An attestation report (16 R391). -/
def attestReport (s : State) (p : Option Nat) (nonce : List Byte) : List Byte × State :=
  let zeros (n : Nat) : List Byte := List.replicate n 0
  let x := match p with
    | some p => s.part p
    | none => Part.reset
  let pb : Byte := match p with
    | some p => BitVec.ofNat 8 p
    | none => 0xFF
  signed s (leBytes 4 1 ++ leBytes 2 1 ++ [pb, partStCode x.st] ++ leBytes 8 Config.serial.toNat ++ leBytes 4 s.fab.id.toNat ++
    leBytes 4 x.hall.toNat ++ leBytes 8 s.ctl.timer ++ nonce ++ s.ctl.meas.toList.flatten ++ x.pcfgd ++ x.pmeas ++
    leBytes 4 Config.secVersionFw.toNat ++ leBytes 4 Config.secVersionUc.toNat ++ leBytes 8 x.seq.toNat ++ zeros 48)

/-- A block's activity proxy over a period, in pJ (16 R393). -/
def proxy (a : BlockActivity) : Nat :=
  a.cellSteps * 195 + a.beats * 654 + a.lpUnits * 4250 + a.sramUnits * 640 + a.msRun * 2000000000 + a.msNap * 1000000000 +
    a.msDoze * 200000000

/-- The activity of a block that counts: none out of service (16 R384, R393). -/
def activeProxy (s : State) (act : List BlockActivity) (b : Nat) : Nat :=
  if (s.block b).oos then 0 else proxy (act.getD b ⟨0, 0, 0, 0, 0, 0, 0⟩)

/-- What a partition is charged of a region's energy, in mJ (16 R393). -/
def regionCharge (s : State) (act : List BlockActivity) (meters : List Nat) (p r : Nat) : Rat :=
  let bs := (List.range 16).map (16 * r + ·)
  let all := (bs.map (activeProxy s act)).sum
  let own := ((bs.filter fun b => ownerOfBlock s b == some p).map (activeProxy s act)).sum
  if all = 0 then 0 else (meters.getD r 0 : Rat) * own / all

/-- What a partition is charged of every region's energy. -/
def partCharge (s : State) (act : List BlockActivity) (meters : List Nat) (p : Nat) : Rat :=
  ((List.range 4).map (regionCharge s act meters p)).sum

/-- A period's energy charged to a partition, with its carry, and its cell-steps counted (16 R392, R393). -/
def chargePart (act : List BlockActivity) (mj : Rat) (s : State) (p : Nat) : State :=
  let x := s.part p
  let t := x.carry + mj
  let steps := (((List.range 64).filter fun b => x.blocks.getLsbD b && !(s.block b).oos).map fun b =>
    (act.getD b ⟨0, 0, 0, 0, 0, 0, 0⟩).cellSteps).sum
  s.setPart p { x with
    carry := t - t.floor
    cnt := (x.cnt.setIfInBounds 16 (vget x.cnt 16 + t.floor.toNat)).setIfInBounds 0 (vget x.cnt 0 + steps) }

/-- A period's energy charged (16 R393). -/
def energyOp (s : State) (meters : List Nat) (moduleMeter : Nat) (act : List BlockActivity) : State :=
  let owners := (List.range 16).filter fun p => decide ((s.part p).hall ≠ 0)
  let cs := owners.map fun p => (p, partCharge s act meters p)
  let total := (cs.map (·.2)).sum
  let s := cs.foldl (fun s e => chargePart act (if total = 0 then e.2 else e.2 + (moduleMeter : Rat) * e.2 / total) s e.1) s
  let add (i n : Nat) (v : Vector W64 5) : Vector W64 5 := v.setIfInBounds i (vget v i + BitVec.ofNat 64 n)
  let v := (List.range 4).foldl (fun v r => add r (meters.getD r 0) v) s.ctl.meters
  { s with ctl := { s.ctl with meters := add 4 moduleMeter v } }

end Sys2Proof.Machine
end

