-- ==== Sys2Proof/Machine/PowerOps.lean ====
section
/-! DEFINITION. Block power states (20), SRAM groups and self-refresh behind them, operating points and the thermal cap (02 R34 to
R39). -/

namespace Sys2Proof.Machine

/-- The exit latency of a block state in µs, which a tolerance must reach (20 R452, R455). -/
def PState.latency : PState → Nat
  | .run => 0
  | .poise => 1
  | .nap => 20
  | .doze => 2000
  | .dormant => 1500000

/-- The next deeper state. -/
def PState.deeper : PState → PState
  | .run => .poise
  | .poise => .nap
  | .nap => .doze
  | .doze => .dormant
  | .dormant => .dormant

/-- A block state in 0x2105 (20 R452). -/
def pstateCode : PState → Byte
  | .run => 0
  | .poise => 1
  | .nap => 2
  | .doze => 3
  | .dormant => 4

/-- A cell that keeps its block from being busy (20 R454). -/
def Cell.quiet (k : Cell) : Bool := (k.wait.isSome || k.held || k.faulted) && k.tpend.isEmpty && k.drain.isNone

/-- Whether a block is idle (20 R454). -/
def blockIdle (s : State) (b : Nat) : Bool :=
  (List.range 8).all (fun i => (s.cell (8 * b + i)).quiet) &&
  [2 * b, 2 * b + 1].all fun e => (s.engine e).run.isNone && (s.engine e).queue.isEmpty

/-- A cell in a block that enters Nap: the datapaths are off, the resident accumulator written back (04 R112, 06 R161), unless its
parity was bad (06 R158). -/
def Cell.nap (k : Cell) : Cell :=
  { (if k.accBad then { k with res := none, accDirty := false } else k.endRes) with
    vgated := true, vwaking := false, vwait := false, tgated := true, twaking := false }

/-- A block enters its next deeper state (20 R453, R455, R458). The dwells given in time are armed at the entry to Poise, less than a tick
after the block became idle (log entry 128). -/
def enterState (s : State) (b : Nat) (st : PState) : State :=
  match st with
  | .run => s
  | .poise =>
    let x := s.block b
    s.setBlock b { x with st := .poise, idleAt := x.timer, idleK := Tab.get 0x40000000#32 s.ctl.kBlock b }
  | .nap => setCellsOf (s.setBlock b { s.block b with st := .nap }) b Cell.nap
  | .doze =>
    let s := cleanBlock s b
    s.setBlock b { s.block b with st := .doze, group := .retention }
  | .dormant => blockDormant (cleanBlock s b) b

/-- The dwell of a state in µs on the block timer (20 R455); that of Poise is counted in steps, on no timer. -/
def PState.dwell : PState → Nat
  | .nap => 100
  | .doze => 20000
  | .dormant => 10000000
  | _ => 0

/-- The block timer when the dwell of a deeper state has passed (20 R455, 02 R44, R50). -/
def dwellTo (s : State) (b : Nat) (d : PState) : State :=
  let x := s.block b
  match d with
  | .run => s
  | .poise => s
  | _ => blockTimeTo s b (count48 x.idleAt (ticks x.idleK d.dwell))

/-- Whether a block may enter its next deeper state (20 R455). -/
def mayDescend (s : State) (b : Nat) : Bool :=
  let x := s.block b
  let d := x.st.deeper
  match ownerOfBlock s b with
  | none => false
  | some p =>
    !x.oos && !x.waking && decide (x.st ≠ .dormant) && blockIdle s b && decide (d.latency ≤ (s.part p).tol.toNat) &&
      (decide (d ≠ .dormant) || (List.range 8).all fun i => !(s.cell (8 * b + i)).faulted)

/-- A block's exit completes: Run, and out of Dormant every unit at its reset value, the cells at ENTRY where the partition is ACTIVE
(20 R452, R457). -/
def exitOp (s : State) (b : Nat) : State :=
  let x := s.block b
  if !x.waking then s
  else if x.st ≠ .dormant then s.setBlock b { x with st := .run, waking := false, group := .on }
  else
    match ownerOfBlock s b with
    | none => s
    | some p =>
      let y := s.part p
      let s := blockCreate y.hall s b
      let s := setCellsOf s b fun k => { k with ctcorr := Cell.reset.ctcorr, ctcseq := 0 }
      if y.st = .active then releaseCells y.entry s b else s

/-- A tolerance written (18 R429, 20 R456, R457): a block whose state is deeper than it allows begins its exit. -/
def toleranceOp (s : State) (p : Nat) (v : W32) : State :=
  let x := s.part p
  x.blockList.foldl (fun s b => if v.toNat < (s.block b).st.latency then beginExit s b else s) (s.setPart p { x with tol := v })

/-- Whether every block of a region lets its controllers sleep (20 R459). -/
def regionSleeps (s : State) (r : Nat) : Bool :=
  (List.range 16).all fun g =>
    let b := 16 * r + g
    decide ((s.block b).st = .doze) || decide ((s.block b).st = .dormant) || (s.block b).oos || (ownerOfBlock s b).isNone

/-- The effective operating point: the lower of the request and the cap (02 R38). -/
def opEffective (c : Ctl) : Byte := if c.cap < c.opReq then c.cap else c.opReq

/-- The supply begins to slew where the effective point changes, or turns during a slew (02 R37, R38). -/
def opSlew (s : State) : State :=
  let e := opEffective s.ctl
  if e = s.ctl.opNow then s else { s with ctl := { s.ctl with opNow := e, slew := some e } }

/-- 0x2000.01 written (02 R37). -/
def opRequestOp (s : State) (v : Byte) : State := opSlew { s with ctl := { s.ctl with opReq := v } }

/-- Whether an F32 temperature is at or above a positive threshold. -/
def tjAtLeast (t : W32) (th : W32) : Bool := !t.getLsbD 31 && decide (th.toNat ≤ t.toNat) && decide (t.toNat ≤ 0x7F800000)

/-- Some region's hottest sensor is at 100 °C or above (02 R38). -/
def tooHot (s : State) : Bool := s.ctl.tj.toList.any fun t => tjAtLeast t 0x42C80000
/-- Every region's hottest sensor is below 95 °C (02 R38). -/
def coolEnough (s : State) : Bool := s.ctl.tj.toList.all fun t => !tjAtLeast t 0x42BE0000

/-- The thermal cap falls (02 R38). -/
def capFall (s : State) : State :=
  let n : Byte := if s.ctl.opNow = 0 then 0 else s.ctl.opNow - 1
  let lower := decide (n < s.ctl.cap)
  let s := opSlew { s with ctl := { s.ctl with cap := if lower then n else s.ctl.cap } }
  if lower then setFlag s 0 else s

/-- The thermal cap rises (02 R38). -/
def capRise (s : State) : State :=
  let n : Byte := if s.ctl.cap < 2 then s.ctl.cap + 1 else 0xFF
  opSlew { s with ctl := { s.ctl with cap := n } }

end Sys2Proof.Machine
end

