-- ==== Sys2Proof/Machine/Dict.lean ====
section
/-! DEFINITION. The object dictionary (18): which entries exist, their sizes and roles, and their values. Roles are masks: Owner 1,
Tenant 2, Observer 4. -/

namespace Sys2Proof.Machine

/-- The highest sub-index of an object, for every listed index (18 R423, R426). -/
def objTop (i : Nat) : Option Nat :=
  let inR (lo n : Nat) : Bool := decide (lo ≤ i) && decide (i < lo + n)
  let region (k : Nat) : Bool := inR 0x4000 0x400 && decide (i % 0x100 = k)
  if i = 0x1000 then some 7 else if i = 0x1001 then some 3 else if i = 0x1100 then some 4 else if i = 0x1101 then some 2
  else if i = 0x1102 then some 2 else if i = 0x1110 then some 4 else if i = 0x1111 then some 8 else if inR 0x1120 16 then some 5
  else if i = 0x2000 then some 5 else if i = 0x2001 then some 8 else if i = 0x2100 then some 3 else if i = 0x2101 then some 5
  else if i = 0x2104 then some 16 else if i = 0x2105 then some 1 else if i = 0x2200 then some 7 else if i = 0x2201 then some 0x40
  else if inR 0x2202 4 then some 0x80 else if i = 0x2210 then some 2 else if i = 0x2220 then some 4
  else if i = 0x3000 then some 4 else if i = 0x3001 then some 1 else if i = 0x3002 then some 10 else if i = 0x3003 then some 2
  else if i = 0x3004 then some 8 else if i = 0x3100 then some 2 else if inR 0x3110 16 then some 0x23
  else if region 0 then some 3 else if region 0x10 then some 5 else if region 0x11 then some 15
  else if i = 0x5000 then some 6 else if inR 0x5001 6 then some 12 else if i = 0x5010 then some 4 else if inR 0x5100 2 then some 8
  else if i = 0x5102 then some 5 else if i = 0x5103 then some 2 else if i = 0x6000 then some 4 else if i = 0x6001 then some 2
  else if i = 0x6100 then some 1 else if inR 0x6110 16 then some 2 else if i = 0x7000 then some 5 else if i = 0x7001 then some 2
  else if inR 0x8000 16 then some 6 else if i = 0x9000 then some 3 else if i = 0x9001 then some 16 else if i = 0x9002 then some 2
  else none

/-- Whether a sub-index of a listed object exists (18 R423). -/
def subThere (i sub top : Nat) : Bool :=
  decide (sub ≤ top) && !(decide (0x3110 ≤ i) && decide (i < 0x3120) && (sub == 0xE || sub == 0xF))

/-- An entry: bytes of a fixed-size type, 0 for a BLOB or VSTR, and the roles that may read and write it (18 R424). -/
structure Ent where
  size : Nat
  rd : Nat
  wr : Nat
  deriving DecidableEq, Repr

/-- A per-partition entry .01–.23 (16 R372). -/
def partEnt (sub : Nat) : Ent :=
  let size := if sub = 1 ∨ sub = 2 ∨ sub = 5 then 8 else if sub = 3 then 2 else if sub = 0xC ∨ sub = 0xD then 1 else 0
  ⟨size, 7, if 0xA ≤ sub ∧ sub ≤ 0xD then 0 else if 0x20 ≤ sub then 3 else 1⟩

/-- An entry of a command slot (17 R414, 18 R436): ATTEST admits Observers. -/
def slotEnt (sub : Nat) : Ent :=
  if sub = 1 then ⟨0, 3, 7⟩ else if sub = 3 then ⟨0, 7, 0⟩ else if sub = 5 then ⟨1, 7, 7⟩ else if sub = 6 then ⟨2, 7, 0⟩
  else ⟨4, 7, 0⟩

/-- An entry of sub-index 1 or more: the tables of the chapters that 18 R426 names. -/
def ent (i sub : Nat) : Ent :=
  if i = 0x1000 then ⟨if sub ≤ 2 then 0 else if sub = 3 then 8 else if sub = 4 then 2 else 4, 7, 0⟩
  else if i = 0x1001 then ⟨if sub = 2 then 4 else 8, 7, 0⟩
  else if i = 0x1100 then (if sub = 1 then ⟨2, 5, 1⟩ else if sub = 4 then ⟨1, 7, 0⟩ else ⟨4, 5, 1⟩)
  else if i = 0x1101 then ⟨8, 5, 0⟩
  else if i = 0x1102 then (if sub = 1 then ⟨4, 7, 0⟩ else ⟨1, 7, 7⟩)
  else if i = 0x1110 ∨ i = 0x1111 then ⟨0, 1, 1⟩
  else if i < 0x1130 then ⟨if sub ≤ 3 then 1 else if sub = 4 then 4 else 8, 5, 0⟩
  else if i = 0x2000 then ⟨if sub = 4 then 2 else 1, 7, if sub = 1 then 1 else 0⟩
  else if i = 0x2001 then ⟨4, 7, 0⟩
  else if i = 0x2100 then ⟨4, 5, 0⟩
  else if i = 0x2101 then ⟨8, 5, 0⟩
  else if i = 0x2104 then ⟨4, 7, 3⟩
  else if i = 0x2105 then ⟨0, 5, 0⟩
  else if i < 0x2206 then ⟨4, 7, 0⟩
  else if i = 0x2210 then ⟨4, 5, if sub = 1 then 1 else 0⟩
  else if i = 0x2220 then ⟨if sub = 3 then 8 else 4, 5, if sub = 1 then 5 else 1⟩
  else if i = 0x3000 then ⟨if sub = 3 then 8 else 1, 7, 0⟩
  else if i = 0x3001 then ⟨4, 7, 1⟩
  else if i = 0x3002 then ⟨4, 7, 0⟩
  else if i = 0x3003 then ⟨if sub = 1 then 1 else 4, 7, 0⟩
  else if i = 0x3004 then ⟨if sub = 1 then 8 else if sub = 2 ∨ sub = 4 then 2 else if sub = 3 ∨ sub = 5 ∨ sub = 6 then 1 else 4, 5, 0⟩
  else if i = 0x3100 then ⟨if sub = 1 then 2 else 8, 5, 0⟩
  else if i < 0x3120 then partEnt sub
  else if i < 0x5000 then
    (if i % 0x100 = 0 then ⟨if sub = 1 then 2 else 8, 5, 0⟩
     else if i % 0x100 = 0x10 then ⟨if sub ≤ 2 then 4 else if sub = 5 then 0 else 8, 5, if sub ≤ 2 then 1 else 0⟩
     else ⟨if sub ≤ 2 then 4 else if sub = 15 then 1 else 8, 5, if sub ≤ 2 then 1 else 0⟩)
  else if i = 0x5000 then ⟨if 2 ≤ sub ∧ sub ≤ 4 then 1 else 4, 7, if sub = 5 then 0 else 1⟩
  else if i < 0x5007 then ⟨if sub = 1 ∨ sub = 3 then 1 else if sub = 2 then 4 else if sub = 12 then 2 else 8, 7, if sub = 3 then 1 else 0⟩
  else if i = 0x5010 then ⟨if sub = 4 then 8 else 1, 7, if sub = 3 then 1 else 0⟩
  else if i < 0x5102 then
    ⟨if sub = 1 ∨ sub = 4 ∨ sub = 6 then 1 else if sub = 2 then 8 else if sub = 5 ∨ sub = 8 then 4 else 0, 7, if 3 ≤ sub then 1 else 0⟩
  else if i = 0x5102 then ⟨8, 5, 0⟩
  else if i = 0x5103 then ⟨2, 5, 0⟩
  else if i = 0x6000 then ⟨0, 5, 0⟩
  else if i = 0x6001 then (if sub = 1 then ⟨2, 7, 7⟩ else ⟨0, 7, 0⟩)
  else if i = 0x6100 then ⟨4, 7, 1⟩
  else if i < 0x6120 then ⟨if sub = 1 then 0 else 4, 7, 0⟩
  else if i = 0x7000 then ⟨if sub = 1 then 2 else if sub = 5 then 1 else 8, if sub = 4 then 5 else if sub = 5 then 0 else 7,
    if sub = 5 then 1 else 0⟩
  else if i = 0x7001 then (if sub = 1 then ⟨8, 7, 7⟩ else ⟨0, 7, 0⟩)
  else if i < 0x8010 then slotEnt sub
  else ⟨if i = 0x9002 then 4 else 0, 7, 0⟩

/-- An entry, sub-index 0x00 among them: readable by every role that may read some entry of the object (00 R10). -/
def entry (i sub : Nat) : Ent :=
  if sub = 0 then ⟨1, (List.range ((objTop i).getD 0)).foldl (fun m k => m ||| (ent i (k + 1)).rd) 0, 0⟩ else ent i sub

/-- The partition whose Tenants alone reach an entry (18 R424). -/
def entPart (i sub : Nat) : Option Nat :=
  if 0x3110 ≤ i ∧ i < 0x3120 then some (i - 0x3110)
  else if 0x6110 ≤ i ∧ i < 0x6120 then some (i - 0x6110)
  else if i = 0x2104 ∧ 0 < sub then some (sub - 1)
  else none

/-- A Tenant's reach of an entry. -/
def tenantOk (x : Sess) (i sub : Nat) : Bool :=
  x.role != 2 || (match entPart i sub with
    | some p => x.part.toNat == p
    | none => true)

/-- The statistic slot that a session's SEL names (18 R434). -/
def selSlot (x : Sess) : Nat := 256 * fieldN x.slotSel.toNat 8 2 + fieldN x.slotSel.toNat 0 8

/-- Whether a session may read 0x6001.02 (18 R434). -/
def slotViewOk (s : State) (x : Sess) : Bool :=
  let y := s.slot (selSlot x)
  if y.assigned then x.role == 2 && (s.part x.part.toNat).hall == y.hall && decide (y.hall ≠ 0) else x.role == 1 || x.role == 3

/-- Whether a session may read an entry (18 R424). -/
def mayRead (s : State) (x : Sess) (i sub : Nat) : Bool :=
  decide ((entry i sub).rd &&& x.bit ≠ 0) && tenantOk x i sub &&
  (if x.role = 2 ∧ 0 < sub ∧ i = 0x2201 then ownerOfBlock s (sub - 1) == some x.part.toNat
   else if x.role = 2 ∧ 0 < sub ∧ 0x2202 ≤ i ∧ i < 0x2206 then ownerOfBlock s (16 * (i - 0x2202) + (sub - 1) / 8) == some x.part.toNat
   else if i = 0x6001 ∧ sub = 2 then slotViewOk s x
   else if 0x8000 ≤ i ∧ i < 0x8010 ∧ 2 ≤ sub then
     (let own := holderIs x (s.cmd (i - 0x8000)).holder
      if sub = 2 ∨ sub = 6 then own || x.role == 1 || x.role == 3 else own)
   else true)

/-- Whether a session may write an entry (18 R424). -/
def mayWrite (s : State) (x : Sess) (i sub : Nat) : Bool :=
  decide ((entry i sub).wr &&& x.bit ≠ 0) && tenantOk x i sub &&
  (if 0x8000 ≤ i ∧ i < 0x8010 ∧ sub = 5 then holderIs x (s.cmd (i - 0x8000)).holder else true)

/-- The bytes of a text. -/
def textBytes (t : String) : List Byte := t.toList.map fun c => BitVec.ofNat 8 c.toNat

/-- A mask of the units of a list that hold a property. -/
def maskOf (n : Nat) (f : Nat → Bool) : Nat := ((List.range n).map fun i => if f i then 2 ^ i else 0).sum

/-- The identity objects and the session objects (18 R427, 17 R422). -/
def valComm (s : State) (j i sub : Nat) : List Byte :=
  let c := s.ctl
  if i = 0x1000 then
    (if sub = 1 then textBytes "Selanabin Microsystems" else if sub = 2 then textBytes "TH4-M512"
     else if sub = 3 then leBytes 8 Config.serial.toNat else if sub = 4 then leBytes 2 Config.hwLevel.toNat
     else leBytes 4 (if sub = 5 then Config.fwVersion else if sub = 6 then Config.ucVersion else Config.romVersion).toNat)
  else if i = 0x1001 then
    (if sub = 1 then leBytes 8 (maskOf 64 fun b => !(s.block b).oos)
     else if sub = 2 then leBytes 4 (maskOf 24 fun m => !(s.region (m / 6)).ctlOos.getLsbD (m % 6))
     else leBytes 8 (maskOf 64 fun b => !(s.block b).groupOos))
  else if i = 0x1100 then
    (if sub = 1 then leBytes 2 c.udpNew.toNat else if sub = 2 then leBytes 4 c.idle.toNat else if sub = 3 then leBytes 4 c.hold.toNat
     else [BitVec.ofNat 8 (s.sessions.toList.countP Sess.live)])
  else if i = 0x1101 then leBytes 8 (if sub = 1 then c.authFail else c.seqFail).toNat
  else if i = 0x1102 then (if sub = 1 then leBytes 4 (s.sess j).id.toNat else [(s.sess j).mask])
  else if i = 0x1110 then (c.ownerKeys[sub - 1]?).getD []
  else if i = 0x1111 then (c.obsKeys[sub - 1]?).getD []
  else
    let y := s.sess (i - 0x1120)
    let y := if y.live then y else Sess.reset
    if sub = 1 then [y.role] else if sub = 2 then [if y.role = 2 then y.part else 0xFF]
    else if sub = 3 then [if y.iface = .field then 1 else 0] else if sub = 4 then leBytes 4 y.id.toNat else leBytes 8 y.estMs

/-- The arbiter that a session's SEL names: its key (18 R431). -/
def selArb (w : W32) : Option Nat :=
  let a := fieldN w.toNat 0 9
  let r := fieldN w.toNat 9 2
  if w.getLsbD 11 then (if a < 14 then some (1368 + a) else none) else if a < 278 then some (256 + 278 * r + a) else none

/-- Operating point, power, timers, watchdog and arbiter objects (02 R39, R53, 18 R428 to R431). -/
def valPower (s : State) (j i sub : Nat) : List Byte :=
  let c := s.ctl
  if i = 0x2000 then
    (if sub = 1 then [c.opReq] else if sub = 2 then [c.opNow] else if sub = 3 then [if c.slew.isSome then 1 else 0]
     else if sub = 4 then leBytes 2 c.mv.toNat else [c.cap])
  else if i = 0x2001 then leBytes 4 (if sub ≤ 4 then vget c.tj (sub - 1) else vget c.rate (sub - 5)).toNat
  else if i = 0x2100 then leBytes 4 (Config.inputReading s.draws sub).toNat
  else if i = 0x2101 then leBytes 8 (vget c.meters (sub - 1)).toNat
  else if i = 0x2104 then leBytes 4 (s.part (sub - 1)).tol.toNat
  else if i = 0x2105 then (List.range 64).map fun b => if (s.block b).oos then 5 else pstateCode (s.block b).st
  else if i = 0x2200 then
    leBytes 4 (if sub = 1 then c.kModule.toNat else if sub ≤ 5 then (vget c.kRegion (sub - 2)).toNat
      else if sub = 6 then c.calSeq.toNat else (c.timer + 2 ^ 48 - c.calAt) % 2 ^ 48)
  else if i = 0x2201 then leBytes 4 (Tab.get 0x40000000#32 c.kBlock (sub - 1)).toNat
  else if i < 0x2206 then leBytes 4 (Tab.get 0x40000000#32 c.kCell (128 * (i - 0x2202) + (sub - 1))).toNat
  else if i = 0x2210 then leBytes 4 (if sub = 1 then c.wdNew else c.wdBites).toNat
  else
    let x := s.sess j
    if sub = 1 then leBytes 4 x.arbSel.toNat
    else match selArb x.arbSel with
      | some k => if sub = 2 then leBytes 4 (arbRead s k 0x00).toNat else if sub = 3 then leBytes 8 (arbRead s k 0x08).toNat
        else leBytes 4 (arbRead s k 0x10).toNat
      | none => []

/-- A partition's entries (16 R372). -/
def valPart (x : Part) (sub : Nat) : List Byte :=
  if sub = 1 then leBytes 8 x.blocks.toNat else if sub = 2 then leBytes 8 x.entry.toNat else if sub = 3 then leBytes 2 x.fjob.toNat
  else if sub = 4 then x.slots else if sub = 5 then leBytes 8 x.dslots.toNat else if sub = 6 then x.setters else if sub = 7 then x.adders
  else if sub = 8 then x.tenant else if sub = 9 then x.image else if sub = 0xA then x.pcfgd else if sub = 0xB then x.pmeas
  else if sub = 0xC then [partStCode x.st] else if sub = 0xD then [x.hall]
  else if sub < 0x20 then leBytes 16 ((x.wins[sub - 0x10]?).getD 0).toNat
  else leBytes 16 ((x.rwins[sub - 0x20]?).getD 0).toNat

/-- Module, partition and region objects (17 R407, R411, R413, 18 R432, 10 R243). -/
def valModule (s : State) (i sub : Nat) : List Byte :=
  let c := s.ctl
  if i = 0x3000 then
    (if sub = 1 then [modStCode c.st] else if sub = 2 then [c.cause] else if sub = 3 then leBytes 8 c.entryMs else [modStCode c.prev])
  else if i = 0x3001 then leBytes 4 c.flags.toNat
  else if i = 0x3002 then leBytes 4 (vget c.flagCnt (sub - 1)).toNat
  else if i = 0x3003 then (if sub = 1 then [c.resetCause] else leBytes 4 c.resetCount.toNat)
  else if i = 0x3004 then leBytes (ent i sub).size (c.rej.getD (sub - 1) 0).toNat
  else if i = 0x3100 then
    (if sub = 1 then leBytes 2 (maskOf 16 fun p => (s.part p).held) else leBytes 8 (maskOf 64 fun b => (ownerOfBlock s b).isSome))
  else if i < 0x3120 then valPart (s.part (i - 0x3110)) sub
  else
    let r := i / 0x100 - 0x40
    let x := s.region r
    if i % 0x100 = 0 then
      (if sub = 1 then leBytes 2 (maskOf 16 fun g => (ownerOfBlock s (16 * r + g)).isSome)
       else if sub = 2 then leBytes 8 x.timer else leBytes 8 x.sent.toNat)
    else if i % 0x100 = 0x10 then
      (if sub = 1 then leBytes 4 x.scrub.toNat else if sub = 2 then leBytes 4 x.bankThr.toNat else if sub = 3 then leBytes 8 x.corr.toNat
       else if sub = 4 then leBytes 8 x.unc.toNat else leBytes 32 x.bankFail.toNat)
    else if sub = 1 then leBytes 4 x.lscrub.toNat else if sub = 2 then leBytes 4 x.ctlThr.toNat
    else if sub ≤ 8 then leBytes 8 (vget x.ctlCorr (sub - 3)).toNat else if sub ≤ 14 then leBytes 8 (vget x.ctlUnc (sub - 9)).toNat
    else [BitVec.ofNat 8 x.ctlFail.toNat]

/-- The encoding of a port state (14 R360). -/
def portStCode : PortSt → Byte
  | .off => 0
  | .training => 1
  | .up => 2
  | .ride => 3
  | .down => 4
  | .mismatch => 5

/-- The entries of an interface (18 R433). -/
def valEth (x : EthIf) (mac : BitVec 48) (sub : Nat) : List Byte :=
  if sub = 1 then [if x.up then 1 else 0] else if sub = 2 then leBytes 8 mac.toNat else if sub = 3 then x.ip6
  else if sub = 4 then [x.pfx6] else if sub = 5 then leBytes 4 x.ip4.toNat else if sub = 6 then [x.pfx4]
  else if sub = 7 then x.gw6 else leBytes 4 x.gw4.toNat

/-- Fabric and Ethernet objects (14 R360, 18 R433). -/
def valFabric (s : State) (i sub : Nat) : List Byte :=
  let f := s.fab
  if i = 0x5000 then
    (if sub = 1 then leBytes 4 f.id.toNat else if sub = 2 then [f.dx] else if sub = 3 then [f.dy] else if sub = 4 then [f.dz]
     else if sub = 5 then leBytes 4 20 else leBytes 4 f.joinMs.toNat)
  else if i < 0x5007 then
    (let x := s.port (i - 0x5001)
     if sub = 1 then [portStCode x.st] else if sub = 2 then leBytes 4 x.partner.toNat else if sub = 3 then [if x.freeze then 1 else 0]
     else if sub < 12 then leBytes 8 (vget x.cnt (sub - 4)).toNat else leBytes 2 x.replay.length)
  else if i = 0x5010 then
    (if sub = 1 then [BitVec.ofNat 8 f.opened.toNat] else if sub = 2 then [BitVec.ofNat 8 f.hold.toNat]
     else if sub = 3 then [BitVec.ofNat 8 f.fault.toNat] else leBytes 8 f.moves.toNat)
  else if i = 0x5100 then valEth s.eth.host Config.hostMac sub
  else if i = 0x5101 then valEth s.eth.field Config.fieldMac sub
  else if i = 0x5102 then
    leBytes 8 (if sub = 1 then s.eth.rx else if sub = 2 then s.eth.tx else if sub = 3 then s.eth.bad
      else if sub = 4 then s.eth.fecCorr else s.eth.fecUnc).toNat
  else if sub = 1 then leBytes 2 (s.qps.countP fun e => decide (e.2.st ≠ .reset))
  else leBytes 2 (s.mws.countP fun e => e.2.cfg.getLsbD 0)

/-- A log record's 48 bytes (21 R475). -/
def LogRec.bytes (x : LogRec) : List Byte :=
  leBytes 8 x.seq.toNat ++ leBytes 8 x.first ++ leBytes 8 x.last ++ leBytes 4 x.origin.toNat ++ leBytes 2 x.cls.toNat ++ [x.sev, x.own] ++
    leBytes 4 x.count.toNat ++ leBytes 4 x.reporter.toNat ++ leBytes 8 x.detail.toNat

/-- Whether a session sees a record (16 R386, 21 R480). -/
def seesRecord (s : State) (x : Sess) (r : LogRec) : Bool :=
  x.role != 2 ||
    (r.own == 16 + (x.part &&& 0xF) && decide ((s.part x.part.toNat).logFrom < r.seq)) ||
    r.cls == 0xF || r.cls == 0x10 || r.cls == 0x11 || r.cls == 0x12

/-- Statistic, accounting, log, command and security objects (17 R414, 18 R434, R435, 16 R390, R395). -/
def valRecords (s : State) (j i sub : Nat) : List Byte :=
  let x := s.sess j
  if i = 0x6000 then leBytes 32 (maskOf 256 fun n => (s.slot (256 * (sub - 1) + n)).assigned)
  else if i = 0x6001 then
    (if sub = 1 then leBytes 2 x.slotSel.toNat else pageBytes slotRegs (slotRead (s.slot (selSlot x))) 0 328)
  else if i = 0x6100 then leBytes 4 s.ctl.acctMs.toNat
  else if i < 0x6120 then
    (let y := s.part (i - 0x6110)
     if sub = 1 then y.records.flatten
     else match y.records with
       | [] => leBytes 4 0
       | r :: _ => (r.drop 0x18).take 4)
  else if i = 0x7000 then
    (if sub = 1 then leBytes 2 s.log.recs.length
     else if sub = 2 then leBytes 8 (match s.log.recs.head? with | some r => r.seq.toNat | none => 0)
     else if sub = 3 then leBytes 8 (match s.log.recs.getLast? with | some r => r.seq.toNat | none => 0)
     else leBytes 8 s.log.lost.toNat)
  else if i = 0x7001 then
    (if sub = 1 then leBytes 8 x.logStart.toNat
     else ((s.log.recs.filter fun r => decide (x.logStart ≤ r.seq) && seesRecord s x r).map LogRec.bytes).flatten)
  else if i < 0x8010 then
    (let y := s.cmd (i - 0x8000)
     if sub = 1 then leBytes 4 y.code.toNat ++ y.args
     else if sub = 2 then leBytes 4 y.word else if sub = 3 then y.result else if sub = 4 then leBytes 4 y.result.length
     else if sub = 5 then [y.ctl]
     else match y.holder with
       | some h => leBytes 2 (256 + (if h = 0xFE then 0xFF else h.toNat))
       | none => leBytes 2 0)
  else if i = 0x9000 then (if sub = 1 then Config.signetCert else if sub = 2 then Config.productCert else Config.rootDigest)
  else if i = 0x9001 then (s.ctl.meas[sub - 1]?).getD []
  else leBytes 4 (if sub = 1 then Config.secVersionFw else Config.secVersionUc).toNat

/-- The value of an entry as a session reads it (17 R408). -/
def entVal (s : State) (j i sub : Nat) : List Byte :=
  if sub = 0 then [BitVec.ofNat 8 ((objTop i).getD 0)]
  else if i < 0x2000 then valComm s j i sub
  else if i < 0x3000 then valPower s j i sub
  else if i < 0x5000 then valModule s i sub
  else if i < 0x6000 then valFabric s i sub
  else valRecords s j i sub

end Sys2Proof.Machine
end

