-- ==== Sys2Proof/Machine/DictPut.lean ====
section
/-! DEFINITION. Writes of dictionary entries (17 R406, R409): the size, range and state checks of every writable entry, and what
a write does. The entries of command slots are in Machine/WdpOps.lean. -/

namespace Sys2Proof.Machine

/-- Whether an index is a partition's object. -/
def isPartObj (i : Nat) : Bool := decide (0x3110 ≤ i) && decide (i < 0x3120)
/-- Whether an index is region r's SRAM object, or its LPDDR5X object. -/
def isSramObj (i : Nat) : Bool := decide (0x4000 ≤ i) && decide (i < 0x4400) && decide (i % 0x100 = 0x10)
def isLpObj (i : Nat) : Bool := decide (0x4000 ≤ i) && decide (i < 0x4400) && decide (i % 0x100 = 0x11)
/-- Whether an index is an interface's address object. -/
def isEthObj (i : Nat) : Bool := i == 0x5100 || i == 0x5101

/-- Check 5 of 17 R406: the payload has the size of the entry (00 R11, 16 R372, 17 R422, 18 R433). -/
def putType (i sub n : Nat) : Bool :=
  let e := ent i sub
  if e.size ≠ 0 then n == e.size
  else if i = 0x1110 ∨ i = 0x1111 then n == 0 || n == 64
  else if isPartObj i then
    (if sub = 4 then n == 128 else if sub = 6 ∨ sub = 7 then n == 24 else if sub = 8 then true
     else if sub = 9 then decide (n % 16 = 0) && decide (n ≤ 64) else n == 16)
  else if isEthObj i then n == 16
  else decide (4 ≤ n) && decide (n ≤ 1028)

/-- Whether a number lies in a range. -/
def within (v lo hi : Nat) : Bool := decide (lo ≤ v) && decide (v ≤ hi)

/-- Check 6 of 17 R406: the value is in the entry's range. `x`: the session that writes. -/
def putRange (x : Sess) (i sub : Nat) (bs : List Byte) : Bool :=
  let v := leNat bs
  if i = 0x1100 then (if sub = 2 then within v 10 86400 else if sub = 3 then within v 1 3600 else true)
  else if i = 0x2000 then within v 0 2
  else if i = 0x2210 then within v 200 60000
  else if i = 0x2220 then
    (if sub = 1 then (selArb (BitVec.ofNat 32 v)).isSome
     else match selArb x.arbSel with
      | none => false
      | some k => if sub = 2 then within (fieldN v 1 7) 1 64 else if sub = 3 then true else ticksOk k (BitVec.ofNat 32 v &&& ticksMask k).toNat)
  else if isPartObj i then
    (if sub = 2 then decide (v % 4 = 0) else if 0x10 ≤ sub ∧ sub < 0x20 then decide (fieldN v 56 2 ≠ 3) else true)
  else if isSramObj i then (if sub = 1 then within v 1 3600 else within v 1 65535)
  else if isLpObj i then (if sub = 1 then within v 3600 604800 else within v 1 1000000)
  else if i = 0x5000 then
    (if sub = 1 then true else if sub = 4 then within v 1 16 else if sub = 6 then within v 20 60000 else within v 1 32)
  else if 0x5001 ≤ i ∧ i < 0x5007 then within v 0 1
  else if isEthObj i then (if sub = 4 then within v 1 128 else if sub = 6 then within v 1 32 else true)
  else if i = 0x6100 then within v 1000 3600000
  else if i = 0x7000 then v == 1
  else true

/-- Whether the module is in STANDBY or ACTIVE. -/
def working (st : ModSt) : Bool := decide (st = .standby) || decide (st = .active)

/-- The interface whose addresses an object holds (18 R433). -/
def ethObj (s : State) (i : Nat) : EthIf := if i = 0x5100 then s.eth.host else s.eth.field

/-- Whether 0x1110 holds no key (17 R402). -/
def noOwnerKey (c : Ctl) : Bool := c.ownerKeys.toList.all fun k => k.isEmpty

/-- Check 7 of 17 R406: a write that the present state does not admit (02 R37, 10 R243, 14 R360, 16 R372, 17 R422, 18 R429,
R433). -/
def putLegal (s : State) (iface : Iface) (i sub : Nat) (bs : List Byte) : Bool :=
  if i = 0x1110 then
    !(noOwnerKey { s.ctl with ownerKeys := s.ctl.ownerKeys.setIfInBounds (sub - 1) bs } &&
      s.sessions.toList.any fun z => z.live && z.role == 1)
  else if i = 0x2000 ∨ isSramObj i = true ∨ isLpObj i = true then working s.ctl.st
  else if i = 0x2104 then (s.part (sub - 1)).held
  else if isPartObj i then
    (let st := (s.part (i - 0x3110)).st
     if sub < 0x20 then decide (st = .free) else decide (st = .loading) || decide (st = .active))
  else if i = 0x5000 ∧ sub ≤ 4 then
    decide (s.ctl.st = .standby) && s.ports.toList.all fun p => decide (p.st = .off)
  else if isEthObj i then
    (let e := ethObj s i
     let mine := (i == 0x5100) == (iface == .host)
     !(mine && ((sub == 3 && leNat bs == 0 && e.ip4 == 0) || (sub == 5 && leNat bs == 0 && leNat e.ip6 == 0))))
  else true

/-- A partition's entry written (16 R372): reserved bits are ignored (00 R4). -/
def putPart (x : Part) (sub : Nat) (bs : List Byte) : Part :=
  let v := leNat bs
  if sub = 1 then { x with blocks := BitVec.ofNat 64 v }
  else if sub = 2 then { x with entry := BitVec.ofNat 64 v }
  else if sub = 3 then { x with fjob := BitVec.ofNat 16 (v % 4096) }
  else if sub = 4 then { x with slots := bs }
  else if sub = 5 then { x with dslots := BitVec.ofNat 64 (v % 2 ^ 36) }
  else if sub = 6 then { x with setters := bs }
  else if sub = 7 then { x with adders := bs }
  else if sub = 8 then { x with tenant := bs }
  else if sub = 9 then { x with image := bs }
  else if sub < 0x20 then
    { x with wins := x.wins.setIfInBounds (sub - 0x10) (BitVec.ofNat 128 (fieldN v 0 58 + fieldN v 64 48 * 2 ^ 64)) }
  else
    (let w := BitVec.ofNat 128 (fieldN v 0 60 + fieldN v 64 48 * 2 ^ 64 + fieldN v 127 1 * 2 ^ 127)
     { x with rwins := x.rwins.setIfInBounds (sub - 0x20) w })

/-- A region's memory objects written (10 R243). -/
def putRegion (x : Region) (lp : Bool) (sub v : Nat) : Region :=
  let w := BitVec.ofNat 32 v
  if lp then (if sub = 1 then { x with lscrub := w } else { x with ctlThr := w })
  else if sub = 1 then { x with scrub := w } else { x with bankThr := w }

/-- The units of a region whose corrected errors have reached a threshold are failing, whenever the threshold was written (10 R236, R240). -/
def judgeRegion (x : Region) : Region :=
  { x with
    bankFail := (List.range 256).foldl (fun f n =>
      if x.bankThr.toNat ≤ Tab.get 0 x.bankCorr n then f ||| (1#256 <<< n) else f) x.bankFail
    ctlFail := (List.range 6).foldl (fun f i =>
      if x.ctlThr.toNat ≤ (vget x.ctlCorr i).toNat then f ||| (1#6 <<< i) else f) x.ctlFail }

/-- A fabric entry written (14 R360). -/
def putFab (f : Fab) (sub v : Nat) : Fab :=
  if sub = 1 then { f with id := BitVec.ofNat 32 (v % 2 ^ 18) }
  else if sub = 2 then { f with dx := BitVec.ofNat 8 v }
  else if sub = 3 then { f with dy := BitVec.ofNat 8 v }
  else if sub = 4 then { f with dz := BitVec.ofNat 8 v }
  else { f with joinMs := BitVec.ofNat 32 v }

/-- An interface's entry written (18 R433). -/
def putEth (e : EthIf) (sub : Nat) (bs : List Byte) : EthIf :=
  let v := leNat bs
  if sub = 3 then { e with ip6 := bs }
  else if sub = 4 then { e with pfx6 := BitVec.ofNat 8 v }
  else if sub = 5 then { e with ip4 := BitVec.ofNat 32 v }
  else if sub = 6 then { e with pfx4 := BitVec.ofNat 8 v }
  else if sub = 7 then { e with gw6 := bs }
  else { e with gw4 := BitVec.ofNat 32 v }

/-- The session parameters and keys written (17 R422). -/
def putComm (c : Ctl) (i sub : Nat) (bs : List Byte) : Ctl :=
  let v := leNat bs
  if i = 0x1100 then
    (if sub = 1 then { c with udpNew := BitVec.ofNat 16 v } else if sub = 2 then { c with idle := BitVec.ofNat 32 v }
     else { c with hold := BitVec.ofNat 32 v })
  else if i = 0x1110 then { c with ownerKeys := c.ownerKeys.setIfInBounds (sub - 1) bs }
  else { c with obsKeys := c.obsKeys.setIfInBounds (sub - 1) bs }

/-- A session's own entry written (17 R422, 18 R425, R431, R434, R435). -/
def putSess (x : Sess) (i v : Nat) : Sess :=
  if i = 0x1102 then { x with mask := BitVec.ofNat 8 (v % 16) }
  else if i = 0x2220 then { x with arbSel := BitVec.ofNat 32 (v % 4096) }
  else if i = 0x6001 then { x with slotSel := BitVec.ofNat 16 (v % 1024) }
  else { x with logStart := BitVec.ofNat 64 v }

/-- The register that an entry of the arbiter object reaches (18 R431): its offset and the written bits. -/
def putArb (s : State) (x : Sess) (sub v : Nat) : State :=
  match selArb x.arbSel with
  | none => s
  | some k => arbWrite k s (if sub = 2 then 0x00 else if sub = 3 then 0x08 else 0x10) (BitVec.ofNat 64 v) (-1)

/-- The error log emptied (18 R435). -/
def logClearOp (s : State) : State := { s with log := { s.log with recs := [] } }

/-- What a write of an entry does once its checks have passed (17 R409). `j`: the session that writes. -/
def putDo (s : State) (j i sub : Nat) (bs : List Byte) : State :=
  let v := leNat bs
  if i = 0x1100 ∨ i = 0x1110 ∨ i = 0x1111 then { s with ctl := putComm s.ctl i sub bs }
  else if i = 0x1102 ∨ i = 0x6001 ∨ i = 0x7001 ∨ (i = 0x2220 ∧ sub = 1) then s.setSess j (putSess (s.sess j) i v)
  else if i = 0x2000 then opRequestOp s (BitVec.ofNat 8 v)
  else if i = 0x2104 then toleranceOp s (sub - 1) (BitVec.ofNat 32 v)
  else if i = 0x2210 then { s with ctl := { s.ctl with wdNew := BitVec.ofNat 32 v } }
  else if i = 0x2220 then putArb s (s.sess j) sub v
  else if i = 0x3001 then { s with ctl := { s.ctl with flags := s.ctl.flags &&& ~~~(BitVec.ofNat 32 v) } }
  else if isPartObj i then s.setPart (i - 0x3110) (putPart (s.part (i - 0x3110)) sub bs)
  else if isSramObj i ∨ isLpObj i then
    (let r := i / 0x100 - 0x40
     retireAll (s.setRegion r (judgeRegion (putRegion (s.region r) (isLpObj i) sub v))))
  else if i = 0x5000 then { s with fab := putFab s.fab sub v }
  else if 0x5001 ≤ i ∧ i < 0x5007 then setFreeze s (1368 + 7 + (i - 0x5001)) (v == 1)
  else if i = 0x5010 then { s with fab := { s.fab with fault := s.fab.fault &&& ~~~(BitVec.ofNat 6 v) } }
  else if i = 0x5100 then { s with eth := { s.eth with host := putEth s.eth.host sub bs } }
  else if i = 0x5101 then { s with eth := { s.eth with field := putEth s.eth.field sub bs } }
  else if i = 0x6100 then { s with ctl := { s.ctl with acctMs := BitVec.ofNat 32 v } }
  else if i = 0x7000 then logClearOp s
  else s

end Sys2Proof.Machine
end

