-- ==== Sys2Proof/Machine/WdpOps.lean ====
section
/-! DEFINITION. The Wornopa Dictionary Protocol (17): requests and their checks, reads and writes of entries and of device memory,
segmented transfers, command slots, and the establishment of sessions. -/

namespace Sys2Proof.Machine

/-- What a request is answered with: status, TOTAL, payload (17 R399). -/
structure Reply where
  status : Byte
  total : Nat
  pay : List Byte
  deriving DecidableEq, Repr

/-- A reply without payload. -/
def Reply.code (c : Byte) : Reply := ⟨c, 0, []⟩

/-- The session that a header names: established (17 R406, check 1). -/
def sessOf (s : State) (id : W32) : Option Nat := (List.range 16).find? fun j => (s.sess j).live && (s.sess j).id == id

/-- The response to a request (17 R399, R404): it names what the request named (log entry 112). -/
def respMsg (m : WdpMsg) (r : Reply) : WdpMsg :=
  { m with status := r.status, flags := 1, len := BitVec.ofNat 16 r.pay.length, total := BitVec.ofNat 16 r.total, pay := r.pay }

/-- The TAG of messages that carry none (17 R400, R406). -/
def zeroTag : List Byte := List.replicate 16 0

/-- Whether a WDP message reaches the module (17 R396, R397, 18 R433, 19 R441): on an interface that answers, to one of its addresses, at
the UDP port. -/
def reached (s : State) (i : Iface) (dst : Udp) : Bool :=
  answers s.ctl.st i && addrMine s i dst.v6 dst.addr && dst.port == s.ctl.udpNow

/-- A request that fails with AUTH (17 R406, R413). -/
def authBad (s : State) (i : Iface) (src : Udp) (m : WdpMsg) : State :=
  let t := { s with ctl := { s.ctl with authFail := BitVec.ofNat 64 (satAdd max64 s.ctl.authFail.toNat 1) } }
  sendWdp s (setFlag t 6) i src (respMsg m (.code 0x0D)) zeroTag

/-- A request whose SEQ is neither the last nor the next (17 R404). -/
def seqBad (s : State) (q : Req) (m : WdpMsg) (key : List Byte) : State :=
  let t := { s with ctl := { s.ctl with seqFail := BitVec.ofNat 64 (satAdd max64 s.ctl.seqFail.toNat 1) } }
  let r := respMsg m (.code 0x0E)
  sendWdp s t q.iface q.src r (tagOf key (msgBytes r))

/-- A request that has passed checks 1 and 2 of 17 R406 executed; its response is cached where the session still stands. -/
def execute (s : State) (q : Req) (m : WdpMsg) (j : Nat) (act : State → Nat → State × Reply) : State :=
  let key := (s.sess j).keyOut
  let (t, r) := act s j
  let resp := respMsg m r
  let x := t.sess j
  let t := if x.live ∧ x.id = q.sess then t.setSess j { x with seq := q.seq, cached := some resp } else t
  sendWdp s t q.iface q.src resp (tagOf key (msgBytes resp))

/-- A request after establishment (17 R396, R397, R400, R404 to R406): `raw` are its bytes before the TAG. One with more than 1,408
payload bytes, asked for or carried, is discarded. -/
def request (s : State) (q : Req) (m : WdpMsg) (raw : List Byte) (act : State → Nat → State × Reply) : State :=
  if !reached s q.iface q.dst || decide (1408 < m.len.toNat) || decide (1408 < m.pay.length) then s
  else match sessOf s q.sess with
    | none => authBad s q.iface q.src m
    | some j =>
      let x := s.sess j
      if q.tag ≠ tagOf x.keyIn raw then authBad s q.iface q.src m
      else
        let s := s.setSess j { x with due := moduleDue s (1000 * s.ctl.idle.toNat), peerIf := q.iface, peer := q.src }
        match x.cached with
        | some r =>
          if q.seq = x.seq then sendWdp s s q.iface q.src r (tagOf x.keyOut (msgBytes r))
          else if q.seq = x.seq + 1 then execute s q m j act else seqBad s q m x.keyOut
        | none => if q.seq = x.seq + 1 then execute s q m j act else seqBad s q m x.keyOut

/-- Checks 3 and 4 of 17 R406: the status of the first that fails. -/
def reachCheck (s : State) (x : Sess) (i sub : Nat) (wr : Bool) : Option Byte :=
  match objTop i with
  | none => some 1
  | some top =>
    if !subThere i sub top then some 2
    else if (if wr then mayWrite s x i sub else mayRead s x i sub) then none else some 3

/-- A read draws a new reading of the input supply (18 R428). -/
def afterRead (s : State) (i : Nat) : State := if i = 0x2100 then { s with draws := s.draws + 1 } else s

/-- READ of an entry (17 R408). -/
def readEntryOp (i sub : Nat) (s : State) (j : Nat) : State × Reply :=
  match reachCheck s (s.sess j) i sub false with
  | some e => (s, .code e)
  | none =>
    let v := entVal s j i sub
    if 1408 < v.length then (s, .code 5) else (afterRead s i, ⟨0, 0, v⟩)

/-- READ_SEG (17 R410). -/
def readSegOp (i sub off len : Nat) (s : State) (j : Nat) : State × Reply :=
  let x := s.sess j
  match reachCheck s x i sub false with
  | some e => (s, .code e)
  | none =>
    if off = 0 then
      let v := (entVal s j i sub).take 65535
      ((afterRead s i).setSess j { x with snap := some v }, ⟨0, v.length, v.take len⟩)
    else match x.snap with
      | none => (s, .code 5)
      | some v => (s, ⟨0, v.length, (v.drop off).take len⟩)

/-- The hallmark of a session's accesses to device memory (16 R377); none for an Observer. -/
def memHall (s : State) (x : Sess) : Option Byte :=
  if x.role = 2 then some (s.part x.part.toNat).hall else if x.role = 1 then some 0xFF else none

/-- Whether some tile window of an extent is in Dormant or out of service: its access fails as a reserved address does (01 R25). -/
def dormantTile (s : State) (a n : Nat) : Bool :=
  (tileSpans a n).any fun t => decide ((s.block (blockOfCell t.1)).st = .dormant) || (s.block (blockOfCell t.1)).oos

/-- Tile windows of an extent readied for an access (01 R25): blocks in Nap or Doze leave it, tile instructions commit. -/
def readyTiles (s : State) (a n : Nat) : State :=
  (tileSpans a n).foldl (fun s t => commitAll (exitOp (wakeBlock s (blockOfCell t.1)) (blockOfCell t.1)) t.1) s

/-- The checks of a request to device memory (01 R23, R25, R27, 16 R378): the refusal, or the hallmark. -/
def memCheck (s : State) (x : Sess) (a n : Nat) : Except (State × Byte) Byte :=
  match memHall s x with
  | none => .error (s, 3)
  | some h =>
    if (firstReserved s a n).isSome || dormantTile s a n then .error (s, 5)
    else match firstBadPage (fun b => unitAccepts s h b) a n with
      | some b => .error (refusedAtUnit s b, 3)
      | none => .ok h

/-- The traffic of a WDP access to device memory (15 R362, 16 R392): Urgent at memory, and over the bridge. -/
def countWdp (s : State) (h : Byte) (a n : Nat) : State :=
  let p := partOfHall s h
  countPart (countPart s p 8 (if isMem a then n else 0)) p 11 n

/-- Whether a WDP access waits for an arbiter on its way (15 R361, R367: of the bridge port of the region the module controller is
requester 6). -/
def wdpHeld (s : State) (a n : Nat) : Bool :=
  unitsHeld s a n 0 || (pageStarts a n).any fun p => arbHolds s (1368 + regionOfPlace (placeOf p)) 6

/-- A WDP access to device memory that cannot proceed yet, with the state that its waiting leaves: an arbiter is frozen, a block is to
wake, a group of SRAM is being powered (20 R458), or a tile instruction that names its registers is to commit (01 R25). It is presented
again (log entry 18). -/
def memWaits (s : State) (q : Req) (m : WdpMsg) (a n : Nat) (wr : Bool) : Option State :=
  if !reached s q.iface q.dst || decide (1408 < m.len.toNat) || decide (1408 < m.pay.length) then none
  else match sessOf s q.sess with
    | none => none
    | some j =>
      if q.seq ≠ (s.sess j).seq + 1 ∨ q.tag ≠ tagOf (s.sess j).keyIn (msgBytes m) then none
      else match memCheck s (s.sess j) a n with
        | .error _ => none
        | .ok _ =>
          if wdpHeld s a n then some s
          else if !extentReady s a n then some (wakeExtent s a n)
          else match tileGate ((tileSpans a n).map fun t => (t.1, t.2.1, t.2.2, wr)) s with
            | .wait s => some s
            | .ready _ => none
            | .gone _ _ => none

/-- A READ of device memory (01 R23, R24). A byte of an uncorrectable word has no stated value: a free value each. `chk`: what the check
bits show. -/
def readMemOp (a n : Nat) (chk : Check) (s : State) (j : Nat) : State × Reply :=
  if 1408 < n then (s, .code 5)
  else match memCheck s (s.sess j) a n with
  | .error (s, e) => (s, .code e)
  | .ok h =>
    let s := countWdp (readyTiles (wakeExtent s a n) a n) h a n
    let s := if isMem a then readCheck s a n chk else s
    let s := (tileSpans a n).foldl (fun s t => s.updCell t.1 fun k => k.windowRead t.2.1 t.2.2) s
    let bs := copyBytes (copyReader s h) a n
    let vs := bs.zipIdx.map fun e => if e.1.2.isSome then (Config.freeWord (s.draws + e.2)).truncate 8 else e.1.1
    let s := match badOf bs with
      | some (b, _) => if isMem b then poisonMet s b else s
      | none => s
    ({ s with draws := s.draws + n }, ⟨0, 0, vs⟩)

/-- A WRITE of device memory (01 R23, R24). -/
def writeMemOp (a : Nat) (v : List Byte) (chk : Check) (s : State) (j : Nat) : State × Reply :=
  match memCheck s (s.sess j) a v.length with
  | .error (s, e) => (s, .code e)
  | .ok h =>
    let s := countWdp (readyTiles (wakeExtent s a v.length) a v.length) h a v.length
    let s := if isMem a then mergeCheck s ((List.range v.length).map (a + ·)) chk else s
    (writePieces (fun s a bs => ctlPut s h a bs) s [(a, v.map fun b => (b, none))], .code 0)

/-- A STATE_CONFLICT on a plain write, recorded (17 R407). -/
def conflict (s : State) (x : Sess) (i sub : Nat) : State × Byte :=
  let p := if i = 0x2104 then some (sub - 1) else if isPartObj i then some (i - 0x3110) else none
  (reject s i sub 0 p x.id, 0x0C)

/-- A command's arguments with reserved bits and bytes zero (00 R4, 18 R436). -/
def argsOf (code : W16) (args : List Byte) : List Byte :=
  match args with
  | [] => []
  | b :: _ => (if code = 0x0020 then b &&& 7 else b) :: (List.replicate 3 0 ++ args.drop 4)

/-- Whether a command's arguments are in range (18 R436). -/
def argsInRange (code : W16) (args : List Byte) : Bool :=
  let b := (args.getD 0 0).toNat
  if code = 0x0001 ∨ code = 0x0021 then true
  else if code = 0x0020 then decide (b ≠ 0)
  else if code = 0x0042 then within b 12 15
  else if code = 0x0040 then decide (b < 16) || b == 0xFF
  else decide (b < 16)

/-- Whether a session may name the partition of a command (17 R415, 18 R438). -/
def argsMine (x : Sess) (code : W16) (args : List Byte) : Bool :=
  let b := args.getD 0 0
  if x.role = 2 then b == x.part else if x.role = 3 then code != 0x0040 || b == 0xFF else true

/-- The holder that a session's command makes (17 R414, R415). -/
def holderOf (x : Sess) : Byte := if x.role = 1 then 0xFF else if x.role = 2 then x.part else 0xFE

/-- Whether no other slot runs or waits in a class (17 R417). -/
def classFree (s : State) (n : Nat) (code : W16) : Bool :=
  (List.range 16).all fun k => k == n || !(s.cmd k).busy || cmdClass (s.cmd k).code != cmdClass code

/-- The time limit of a command in ms; 0 for a command that has none (18 R436). -/
def cmdLimit (s : State) (code : W16) : Nat :=
  if code = 0x0020 then s.fab.joinMs.toNat else if code = 0x0040 ∨ code = 0x0041 then 1000 else 0

/-- A slot taken by an accepted command (17 R415). -/
def acceptCmd (s : State) (x : Sess) (n : Nat) (code : W16) (args : List Byte) : State :=
  let st : CmdSt := if classFree s n code then .running else .queued
  let s := s.setCmd n { s.cmd n with
    st := st, holder := some (holderOf x), code := code, args := args, error := 0, progress := 0, result := []
    due := moduleDue s (cmdLimit s code)
    sess := x.id, order := s.ctl.orderNext, abort := false, aux := 0 }
  partBegin { s with ctl := { s.ctl with orderNext := s.ctl.orderNext + 1 } } n

/-- A command word and its arguments written to slot `n` (17 R415). -/
def slotCommand (s : State) (x : Sess) (n : Nat) (bs : List Byte) : State × Byte :=
  let y := s.cmd n
  let code := BitVec.ofNat 16 (leNat (bs.take 2))
  let args := argsOf code (bs.drop 4)
  if (y.holder.isSome && y.holder != some (holderOf x)) || y.busy then (s, 6)
  else if cmdRoles code = 0 then (s, 5)
  else if cmdRoles code &&& x.bit = 0 then (s, 3)
  else if bs.length ≠ 4 + cmdArgs code then (s, 4)
  else if !argsMine x code args then (s, 3)
  else if !argsInRange code args then (s, 5)
  else if !cmdLegal s code args then (reject s (0x8000 + n) 1 code.toNat (cmdPart code args) x.id, 0x0C)
  else (acceptCmd s x n code args, 0)

/-- Commands that an ABORT stops while RUNNING (18 R436). -/
def abortable (code : W16) : Bool := code == 0x0020 || code == 0x0031

/-- ABORT of slot `n` (17 R420). -/
def slotAbort (s : State) (x : Sess) (n : Nat) : State × Byte :=
  let y := s.cmd n
  match y.st with
  | .queued => (cmdEnd (s.setCmd n { y with ctl := 1 }) n .aborted 0, 0)
  | .running => if abortable y.code then (s.setCmd n { y with ctl := 1, abort := true }, 0) else (s, 6)
  | _ => conflict s x (0x8000 + n) 5

/-- An ABORT that falls in the handshake of its command's end (17 R420): the checks of the request are made, and it has no effect. -/
def abortMeets (n : Nat) (s : State) (j : Nat) : State × Reply :=
  match reachCheck s (s.sess j) (0x8000 + n) 5 true with
  | some e => (s, .code e)
  | none => (s, .code 0)

/-- RELEASE of slot `n` (17 R415, R420). -/
def slotRelease (s : State) (x : Sess) (n : Nat) : State × Byte :=
  let y := s.cmd n
  if y.ended then (cmdIdle (s.setCmd n { y with ctl := 2 }) n, 0) else conflict s x (0x8000 + n) 5

/-- Whether an entry belongs to a command slot. -/
def isSlotObj (i : Nat) : Bool := decide (0x8000 ≤ i) && decide (i < 0x8010)

/-- WRITE of an entry (17 R406, R409): the checks in order, then the effect. -/
def writeEntry (iface : Iface) (i sub : Nat) (bs : List Byte) (s : State) (j : Nat) : State × Byte :=
  let x := s.sess j
  match reachCheck s x i sub true with
  | some e => (s, e)
  | none =>
    if !putType i sub bs.length then (s, 4)
    else if isSlotObj i then
      (if sub = 1 then slotCommand s x (i - 0x8000) bs
       else if bs = [1] then slotAbort s x (i - 0x8000)
       else if bs = [2] then slotRelease s x (i - 0x8000)
       else (s, 5))
    else if !putRange x i sub bs then (s, 5)
    else if !putLegal s iface i sub bs then conflict s x i sub
    else (putDo s j i sub bs, 0)

/-- WRITE of an entry as a request's action. -/
def writeEntryOp (iface : Iface) (i sub : Nat) (bs : List Byte) (s : State) (j : Nat) : State × Reply :=
  let (s, e) := writeEntry iface i sub bs s j
  (s, .code e)

/-- WRITE_SEG (17 R410): only presence and write access are checked. -/
def writeSegOp (i sub off : Nat) (v : List Byte) (s : State) (j : Nat) : State × Reply :=
  let x := s.sess j
  match reachCheck s x i sub true with
  | some e => (s, .code e)
  | none =>
    let name := (BitVec.ofNat 16 i, BitVec.ofNat 8 sub)
    if off = 0 then (s.setSess j { x with staging := some (name.1, name.2, v) }, .code 0)
    else match x.staging with
      | some (i', sub', w) =>
        if i' = name.1 ∧ sub' = name.2 ∧ off = w.length ∧ w.length + v.length ≤ 65535 then
          (s.setSess j { x with staging := some (i', sub', w ++ v) }, .code 0)
        else (s, .code 5)
      | none => (s, .code 5)

/-- COMMIT (17 R410): the staging is discarded whatever the outcome. -/
def commitOp (iface : Iface) (i sub : Nat) (s : State) (j : Nat) : State × Reply :=
  let x := s.sess j
  let t := s.setSess j { x with staging := none }
  match reachCheck s x i sub true with
  | some e => (t, .code e)
  | none =>
    match x.staging with
    | none => (t, .code 5)
    | some (i', sub', v) =>
      if i'.toNat = i ∧ sub'.toNat = sub then writeEntryOp iface i sub v t j else (t, .code 5)

/-- BYE (17 R405). -/
def byeOp (s : State) (j : Nat) : State × Reply := (sessEnd s j, .code 0)

/-- Whether a key is enrolled for a role (17 R401, R403). -/
def enrolled (s : State) (role part : Byte) (key : List Byte) : Bool :=
  !key.isEmpty &&
  (if role = 1 then part == 0xFF && s.ctl.ownerKeys.toList.contains key
   else if role = 2 then decide (part.toNat < 16) && (s.part part.toNat).held && (s.part part.toNat).tenant == key
   else role == 3 && part == 0xFF && s.ctl.obsKeys.toList.contains key)

/-- Whether a HELLO claims ownership (17 R402). -/
def claims (s : State) (m : HelloMsg) : Bool :=
  m.role == 1 && m.part == 0xFF && decide (m.iface = .field) && noOwnerKey s.ctl && !m.key.isEmpty

/-- The module nonce of a session (17 R403). -/
def moduleNonce (id : W32) : List Byte := (List.range 32).map (Config.nonceByte id.toNat)

/-- The message of a HELLO (17 R399, R403). -/
def helloBytes (m : HelloMsg) : WdpMsg :=
  let pay := [m.role, m.part, 0, 0] ++ m.key ++ m.nonce
  ⟨0x10, 0, 0, m.sess, m.seq, 0, 0, 0, BitVec.ofNat 16 pay.length, 0, pay⟩

/-- A session entry opened by a HELLO (17 R403, steps 1 and 2). -/
def openSess (s : State) (m : HelloMsg) (j : Nat) : State :=
  let id := s.ctl.sessNext
  let t := s.setSess j { Sess.reset with
    st := .hello, role := m.role, part := m.part, iface := m.iface, id := id, due := moduleDue s 10000, key := m.key, nonce := m.nonce
    peerIf := m.iface, peer := m.src }
  sendWdp s { t with ctl := { t.ctl with sessNext := id + 1 } } m.iface m.src
    (respMsg { helloBytes m with sess := id } ⟨0, 0, moduleNonce id⟩) zeroTag

/-- HELLO (17 R401 to R403, R406). -/
def helloOp (s : State) (m : HelloMsg) : State :=
  if !reached s m.iface m.dst then s
  else if m.sess ≠ 0 ∨ m.seq ≠ 0 ∨ !(enrolled s m.role m.part m.key || claims s m) then authBad s m.iface m.src (helloBytes m)
  else match (List.range 16).find? fun j => decide ((s.sess j).st = .none) with
    | none => sendWdp s s m.iface m.src (respMsg (helloBytes m) (.code 6)) zeroTag
    | some j =>
      let s := if claims s m then { s with ctl := { s.ctl with ownerKeys := s.ctl.ownerKeys.setIfInBounds 0 m.key } } else s
      openSess s m j

/-- The message of a KEYX (17 R399, R403). -/
def keyxBytes (m : KeyxMsg) : WdpMsg :=
  let pay := match m.body with
    | .ra key => key
    | .sa conf => conf
  ⟨0x11, 0, 0, m.sess, m.seq, 0, 0, 0, BitVec.ofNat 16 pay.length, 0, pay⟩

/-- KEYX with RA (17 R403, steps 3 and 4): the keys are derived, and the response carries its TAG. Where the exchange fails the answer is
AUTH and the session is discarded (log entry 127). -/
def keyxRa (s : State) (m : KeyxMsg) (j : Nat) (ra : List Byte) : State :=
  let x := s.sess j
  if (sm2Shared x.key ra x.id).isNone then authBad (sessEnd s j) m.iface m.src (keyxBytes m) else
  let b := ephemeral x.id ++ confirmB x.key ra x.id
  let msg := leBytes 4 3 ++ leBytes 4 x.id.toNat ++ x.nonce ++ moduleNonce x.id ++ ra ++ b
  let (r, s) := signed s msg
  let ks := sessKeys x.key ra x.id
  let resp := respMsg (keyxBytes m) ⟨0, 0, b ++ r.drop msg.length⟩
  sendWdp s (s.setSess j { x with st := .keyed, ra := ra, keyIn := ks.take 32, keyOut := ks.drop 32 }) m.iface m.src resp
    (tagOf (ks.drop 32) (msgBytes resp))

/-- KEYX with SA (17 R403, steps 5 and 6). -/
def keyxSa (s : State) (m : KeyxMsg) (j : Nat) (conf : List Byte) : State :=
  let x := s.sess j
  if x.st = .keyed ∧ conf = confirmA x.key x.ra x.id then
    let resp := respMsg (keyxBytes m) (.code 0)
    sendWdp s (s.setSess j { x with
        st := .up, estMs := s.ctl.timer, due := moduleDue s (1000 * s.ctl.idle.toNat), peerIf := m.iface, peer := m.src })
      m.iface m.src resp (tagOf x.keyOut (msgBytes resp))
  else authBad (sessEnd s j) m.iface m.src (keyxBytes m)

/-- KEYX (17 R403, R406). -/
def keyxOp (s : State) (m : KeyxMsg) : State :=
  if !reached s m.iface m.dst then s
  else
    let j := (List.range 16).find? fun j =>
      (decide ((s.sess j).st = .hello) || decide ((s.sess j).st = .keyed)) && (s.sess j).id == m.sess
    match j with
    | none => authBad s m.iface m.src (keyxBytes m)
    | some j =>
      if m.seq ≠ 0 then authBad s m.iface m.src (keyxBytes m)
      else match m.body with
        | .ra key => keyxRa s m j key
        | .sa conf => keyxSa s m j conf

/-- What a request asks for, by its opcode (17 R400). -/
def wdpAct (i : Iface) (m : WdpMsg) : State → Nat → State × Reply :=
  let idx := m.idx.toNat
  let sub := m.sub.toNat
  if m.op = 1 then readEntryOp idx sub
  else if m.op = 2 then writeEntryOp i idx sub m.pay
  else if m.op = 3 then readSegOp idx sub m.off.toNat m.len.toNat
  else if m.op = 4 then writeSegOp idx sub m.off.toNat m.pay
  else if m.op = 5 then commitOp i idx sub
  else byeOp

/-- The message of a request (17 R399). -/
def reqMsg (q : Req) (op : Byte) (idx sub : Nat) (off len : W16) (pay : List Byte) : WdpMsg :=
  ⟨op, 0, 0, q.sess, q.seq, BitVec.ofNat 16 idx, BitVec.ofNat 8 sub, off, len, 0, pay⟩

/-- The message of a WRITE (17 R409). -/
def writeMsg (q : Req) (idx sub : Nat) (v : List Byte) : WdpMsg := reqMsg q 2 idx sub 0 (BitVec.ofNat 16 v.length) v

/-- A request that is its message, and a frame of the host port where it comes by it (18 R433). -/
def askWith (s : State) (q : Req) (m : WdpMsg) (act : State → Nat → State × Reply) : State :=
  request (framesIn s q.iface 1) q m (msgBytes m) act

/-- A request that its opcode says all of. -/
def ask (s : State) (q : Req) (m : WdpMsg) : State := askWith s q m (wdpAct q.iface m)

/-- The message that a datagram holds, its bytes before the TAG, and its TAG; none for one that the module discards (17 R399, R400). -/
def parseWdp (bs : List Byte) : Option (WdpMsg × List Byte × List Byte) :=
  let f (o n : Nat) : Nat := leNat ((bs.drop o).take n)
  let op := BitVec.ofNat 8 (f 1 1)
  let len := f 0x12 2
  let n := if op = 3 then 0 else len
  if bs.length = 0x28 + n ∧ f 0 1 = 1 ∧ op ∈ [1, 2, 3, 4, 5, 0x10, 0x11, 0x12] ∧ len ≤ 1408 then
    some (⟨op, BitVec.ofNat 8 (f 2 1), BitVec.ofNat 8 (f 3 1), BitVec.ofNat 32 (f 4 4), BitVec.ofNat 32 (f 8 4), BitVec.ofNat 16 (f 0xC 2),
      BitVec.ofNat 8 (f 0xE 1), BitVec.ofNat 16 (f 0x10 2), BitVec.ofNat 16 len, BitVec.ofNat 16 (f 0x14 2), (bs.drop 0x18).take n⟩,
      bs.take (0x18 + n), bs.drop (0x18 + n))
  else none

/-- A WDP datagram (17 R396 to R406): it is discarded, or taken as the request that it holds. -/
def wdpDatagram (s : State) (i : Iface) (src dst : Udp) (bs : List Byte) : State :=
  match parseWdp bs with
  | none => s
  | some (m, raw, tag) =>
    let p (o n : Nat) : List Byte := (m.pay.drop o).take n
    if m.op = 0x10 then
      (if m.pay.length = 100 then
        helloOp s ⟨i, src, dst, m.sess, m.seq, (p 0 1).headD 0, (p 1 1).headD 0, p 4 64, p 68 32⟩
      else if reached s i dst then authBad s i src m else s)
    else if m.op = 0x11 then
      (if m.pay.length = 64 then keyxOp s ⟨i, src, dst, m.sess, m.seq, .ra m.pay⟩
      else if m.pay.length = 32 then keyxOp s ⟨i, src, dst, m.sess, m.seq, .sa m.pay⟩
      else if reached s i dst then authBad s i src m else s)
    else request s ⟨i, src, dst, m.sess, m.seq, tag⟩ m raw (wdpAct i m)

/-- A queued command at its start (17 R417): the first of its class, with none running. -/
def mayStart (s : State) (n : Nat) : Bool :=
  let y := s.cmd n
  decide (y.st = .queued) && (List.range 16).all fun k =>
    let z := s.cmd k
    k == n || !z.busy || cmdClass z.code != cmdClass y.code || (decide (z.st = .queued) && decide (y.order < z.order))

/-- A queued command reaches its start (17 R417). -/
def startCmd (s : State) (n : Nat) : State :=
  let y := s.cmd n
  if !mayStart s n then s
  else if cmdLegal s y.code y.args then partBegin (s.setCmd n { y with st := .running, due := moduleDue s (cmdLimit s y.code) }) n
  else
    let s := reject s (0x8000 + n) 1 y.code.toNat (cmdPart y.code y.args) y.sess
    cmdEnd s n .failed 0x0C

end Sys2Proof.Machine
end

