-- ==== Sys2Proof/Machine/Arbiters.lean ====
section
/-! DEFINITION. The commands of the arbiters (15 R363 to R370), and COPY_ERROR, whose bite is an arbiter's. -/

namespace Sys2Proof.Machine

/-- CPQs at the queue of a copy engine, in order (15 R363): each is a grant of one beat. -/
def acceptCpqs (k : Nat) (e : Fin 2) : List ArbReq → State → State
  | [], s => s
  | q :: qs, s =>
    let s := s.setArb k ((s.arb k).grant q).endPhase
    acceptCpqs k e qs (match q.what with
      | .cpq c d a chk => cpqOp c d a e chk s
      | _ => s)

/-- The CPQs that stand at the queue of engine `i` accepted in ascending cell order, so that the queue-full answer falls on the later
ones (15 R363); a frozen queue accepts none (R367). -/
def queueGrant (s : State) (k i : Nat) (reqs : List ArbReq) : State :=
  let s := standing s k reqs
  if mayGrant s k then
    acceptCpqs k (Fin.ofNat 2 i) ((List.range 8).flatMap fun n => (s.arb k).waiting.filter fun q => q.port.toNat == n) s
  else s

/-- ARB_GRANT (15 R363, R364, R366): requests come to an arbiter, which decides during the last beat of its owner. -/
def execArbGrant (a : ArbId) (reqs : List ArbReq) (s : State) : Ans :=
  next (match queueOfArb (arbKey a) with
    | some i => queueGrant s (arbKey a) i reqs
    | none => grantOp s (arbKey a) reqs)

/-- ARB_PREEMPT (15 R365). -/
def execArbPreempt (a : ArbId) (req : ArbReq) (beats : Nat) (s : State) : Ans := next (preemptOp s (arbKey a) req beats)

/-- The exception of a cell whose fetch, load or atomic was bitten (15 R370, 03 R62). -/
def biteExc (s : State) (c : Nat) (va : W64) : Exc :=
  ⟨5, (match xlate s c va.toNat with | .ok a => memDetail a | .error _ => 0), va⟩

/-- A store of a cell bitten (15 R370): its target line is poisoned, and the cell takes a deferred error. -/
def biteStore (s : State) (c : Nat) (va : W64) : State :=
  match xlate s c va.toNat with
  | .ok a => if isMem a then deferAt (spoilCopy s c (a / 128)) c (memDetail a) a else s
  | .error _ => s

/-- A drained tile bitten on its way out (15 R369): the receiver discards its beats, so the tile is lost (log entry 104). -/
def biteDrain (s : State) (c : Nat) : State := s.updCell c fun k => { k with drain := none }

/-- A message bitten is discarded and logged as pip lost (15 R370). -/
def biteMessage (s : State) (k pip : Nat) : State := arbReport s k 7 (detailWord 0 pip 0)

/-- A packet bitten at a fabric port: discarded, with a NOTICE of SUB 0x3 to its source (15 R370, 14 R345). -/
def bitePacket (s : State) (p : Fin 6) (q : ArbReq) : State :=
  let x := s.port p
  match (match x.sent with | some t => some t.1 | none => (portReqs x q.port (clsOf q.what)).head?) with
  | none => s
  | some t => dropPacket (s.setPort p { x with txq := x.txq.erase t, sent := none }) t.pkt 3

/-- The detail of an adder's bitten transfer (13 R329): the memory of the resource, and elsewhere that of the bucket's descriptor. -/
def biteDetail (s : State) (k i b : Nat) : Nat :=
  let a := (k - 256) % 278
  if 256 ≤ k ∧ k < 1368 ∧ 16 ≤ a then (if a < 272 then 1 else 2)
  else (memDetail ((s.adder i).table + 64 * (b / 24))).toNat

/-- Whether a packet is a pip signal, a barrier message or a verdict message (15 R370). -/
def isMessage (p : Packet) : Bool := p.kind == kSignal || p.kind == kTree || (p.kind == kReduce && (p.sub == 6 || p.sub == 7))

/-- A packet bitten between the fabric interface and its unit. DESIGN CHOICE (log entry 130): the manual names the messages of R370, and
every other packet is treated as one at a fabric port. -/
def biteCarried (s : State) (k : Nat) (p : Packet) : State :=
  if isMessage p then biteMessage s k (if p.kind = kReduce then 0 else p.fld 16 6) else dropPacket s p 3

/-- A packet bitten on its way to a port of the fabric, where it has not begun to leave by the port. -/
def biteOutbound (s : State) (k : Nat) (p : Fin 6) (n : Nat) : State :=
  let x := s.port p
  match x.txq[n]? with
  | none => s
  | some t =>
    if x.sent.any (fun u => u.1 == t) then s
    else biteCarried (s.setPort p { x with txq := x.txq.eraseIdx n }) k t.pkt

/-- What the issuer of a bitten transfer learns (15 R370); `k` is the arbiter, `q` the request that it had granted. -/
def biteXfer (s : State) (k : Nat) (q : ArbReq) : Transfer → State
  | .fetch c va => issue s c fun s => .exc (biteExc s c.val va) s
  | .load c va => issue s c fun s => .exc (biteExc s c.val va) s
  | .atomic c va => issue s c fun s => .exc (biteExc s c.val va) s
  | .store c va => biteStore s c.val va
  | .cpq _ _ _ _ => s
  | .copy b e =>
    let i := 2 * b.val + e.val
    (match (s.engine i).run with
    | some j => copyStopped s i j 5 0 0
    | none => s)
  | .setter m j => setterBite s (8 * m.val + j.val) k
  | .adder m j b =>
    let i := 8 * m.val + j.val
    if (s.adder i).enable && bucketOpen s i b.toNat then retryUnit (bucketEnd s i b.toNat 4 (biteDetail s k i b.toNat) 0 none) m.val else s
  | .drain c => biteDrain s c.val
  | .scrub => s
  | .signal n =>
    (match s.sigs[n]? with
    | some g => biteMessage { s with sigs := s.sigs.eraseIdx n } k g.pip.toNat
    | none => s)
  | .barrier n =>
    (match s.bmsgs[n]? with
    | some m => biteMessage { s with bmsgs := s.bmsgs.eraseIdx n } k m.pip.toNat
    | none => s)
  | .ready n => if n < s.readies.length then biteMessage { s with readies := s.readies.eraseIdx n } k 0 else s
  | .verdict n => if n < s.vcontribs.length then biteMessage { s with vcontribs := s.vcontribs.eraseIdx n } k 0 else s
  | .packet _ =>
    (match portOfArb k with
    | some p => bitePacket s p q
    | none => s)
  | .inbound n _ =>
    (match s.inbox[n]? with
    | some x => biteCarried { s with inbox := s.inbox.eraseIdx n } k x.pkt
    | none => s)
  | .outbound p n _ => biteOutbound s k p n
  | .snoop w => biteXfer s k q w
  | .wdp r m => request (framesIn s r.iface 1) r m (msgBytes m) fun s _ => (s, .code 6)
  | .roce b n recv idx => biteEntry s (64 * b.val + n.toNat) recv idx

/-- What the issuer of a bitten request learns. -/
def biteOutcome (s : State) (k : Nat) (q : ArbReq) : State := biteXfer s k q q.what

/-- Whether the watchdog of a resource counts (15 R369): an owner holds the grant, and no beat of it waits on the receiver. -/
def biteCounts (s : State) (k : Nat) : Bool :=
  (s.arb k).owner.isSome && (match portOfArb k with
    | some p => decide (0 < (s.port p).room)
    | none => true)

/-- The bite itself (15 R369, steps 1 to 5): the data phase ends, the port's requests are cleared, BITTEN, OWNER and BITES follow, the
record is made, the issuer learns of it (R370), and the arbiter grants anew. -/
def biteNow (s : State) (k : Nat) (q : ArbReq) : State :=
  let x := (s.arb k).endPhase
  let s := s.setArb k { x with
    bitten := true, bitOwner := q.port, bites := BitVec.ofNat 16 (satAdd 65535 x.bites.toNat 1)
    waiting := x.waiting.filter (fun r => r.port != q.port) }
  decideOwner (biteOutcome (arbReport s k 9 (detailWord 0 q.port.toNat 0)) k q) k

/-- A bite (15 R369): `beats` of the transfer have moved when the level's timer reaches the count at which the watchdog expires, which lies
`later` ticks after the one armed at the grant: the watchdog restarts at every beat, and does not count while a beat waits on the
receiver. An owner whose last beat has moved completes. -/
def biteOp (s : State) (k beats later : Nat) : State :=
  match (s.arb k).owner with
  | none => s
  | some q =>
    if biteCounts s k then
      let s := moveFlits (arbTimeTo s k (count48 (s.arb k).due later)) k beats
      if lastBeat s k q beats then grantOp s k [] else biteNow s k q
    else s

/-- ARB_BITE (15 R369, R370). -/
def execArbBite (a : ArbId) (beats later : Nat) (s : State) : Ans := next (biteOp s (arbKey a) beats later)

/-- ARB_FREEZE (15 R367): a write of FREEZE to ARBCTL (R368). -/
def execArbFreeze (hall : Byte) (a : ArbId) (on : Bool) (s : State) : Ans :=
  next (regAccess s hall (arbAddr (arbKey a)) fun s => setFreeze s (arbKey a) on)

/-- The access that caused a transfer: of a snoop the access behind it. -/
def causeOf : Transfer → Transfer
  | .snoop w => causeOf w
  | w => w

/-- COPY_ERROR (10 R227, R228): what stops a copy after data has begun to move. Uncorrectable data stops nothing: the copy goes on and ends
with the error. A bite is that of the arbiter which the copy owns (15 R369, R370). -/
def execCopyError (b : BlockId) (e : Fin 2) (err : CopyStop) (addr : BitVec 48) (s : State) : Ans :=
  next (
    let i := 2 * b.val + e.val
    let a := addr.toNat
    match (s.engine i).run with
    | none => s
    | some j =>
      match err with
      | .hallmark => copyStopped (refusedAtUnit s a) i j 2 0 a
      | .uncorrectable t =>
        if j.desc.srcExt.any (fun x => insideRange a 1 x.1.toNat x.2.1) then
          copyGo s i j fun s =>
            let s := sourceBad s a t
            if j.desc.remote then copySend s i j .clean .clean else copyMove s i j .clean .clean
        else s
      | .bite arb beats later =>
        if (s.arb (arbKey arb)).owner.any (fun q => causeOf q.what == .copy b e) then biteOp s (arbKey arb) beats later else s
      | .remoteRefused => copyStopped s i j 7 0 a
      | .remoteLost => copyStopped s i j 7 1 a)

end Sys2Proof.Machine
end

