-- ==== Sys2Proof/Machine/Fabric.lean ====
section
/-! DEFINITION. The commands of the fabric: flits, packets, NOTICEs, port events, clasps, JOIN and WITHDRAW (14 R337 to R360). -/

namespace Sys2Proof.Machine

/-- Whether flits pass on a link: UP, or RIDE after the partner's LEAVE (14 R341). -/
def Port.linked (x : Port) : Bool := decide (x.st = .up) || (decide (x.st = .ride) && x.rideAt.isNone)

/-- FLIT_RECEIVE (14 R338 to R340). -/
def execFlitReceive (p : PortId) (f : Flit) (s : State) : Ans :=
  next (if (s.port p).linked then receiveFlit s p f else s)

/-- REPLAY_TIMEOUT (14 R340): no ACK advance while flits are unacknowledged. -/
def execReplayTimeout (p : PortId) (s : State) : Ans := next (if (s.port p).linked then resendAll s p else s)

/-- PACKET_RECEIVE (14 R343, R349, R350): the oldest whole packet of a port. -/
def execPacketReceive (p : PortId) (s : State) : Ans :=
  next (match (s.port p).rx with
    | [] => s
    | pkt :: rest => receivePacket (s.setPort p { s.port p with rx := rest }) p pkt)

/-- A NOTICE's peer-loss report (21 R478) from a unit of the region or the hub die. -/
def noticeLog (s : State) (pkt : Packet) (reporter : W32) (own : Option Nat) : State :=
  if pkt.sub = 2 then packetDiscarded s reporter own pkt
  else reportLog s (peerOrigin (pkt.fld 39 18)) reporter 0x10 own (detailWord 0 pkt.sub 0)

/-- The peer-loss report of a cell whose signal met a NOTICE of SUB 0x0, 0x1 or 0x3 (21 R478). -/
def noticeCell (s : State) (pkt : Packet) (c : Nat) : State :=
  if pkt.sub = 2 then s
  else
    let b := blockOfCell c
    reportBlockVia s b (peerOrigin (pkt.fld 39 18)) (originCell s c) 0x10 (ownerOfBlock s b) (detailWord 0 pkt.sub 0)

/-- A NOTICE for a dropped WRITE (14 R345, R346): the issuing engine's copy ends, where it runs a remote one to that module. While an answer
is owed to a copy that has ended, the NOTICE is that one's, and it is that answer where the finish packet (DSUB 0x1) was dropped. -/
def noticeWrite (s : State) (pkt : Packet) : State :=
  let e := pkt.fld 23 7
  let mod := pkt.fld 39 18
  let fin := pkt.fld 19 4 == 1
  let x := s.engine e
  if x.stale.contains mod then
    noticeLog (if fin then s.setEngine e { x with stale := x.stale.erase mod } else s) pkt (originHub s 5) none
  else
    let s := if fin then s.setEngine e { x with fin := false } else s
    match x.run with
    | some j =>
      if j.desc.remote && j.desc.modId == mod then copyEnd s e j 7 (if pkt.sub = 2 then 0 else 1) 0
      else noticeLog s pkt (originHub s 5) none
    | none => noticeLog s pkt (originHub s 5) none

/-- A NOTICE for a dropped reduction packet (14 R346): the bucket ends where it is open. -/
def noticeReduce (s : State) (pkt : Packet) : State :=
  let b := pkt.fld 23 16
  match adderOf s (b % 24) pkt.job.toNat with
  | none => noticeLog s pkt (originHub s 5) none
  | some i =>
    if ((slotOf s i b).isSome || (awaitOf (s.adder i) b).isSome) && decide (pkt.fld 19 4 ≤ 5) then
      let s := if pkt.sub = 2 then bucketEnd s i b 6 0 0 none else bucketEnd s i b 6 1 0 (some (pkt.fld 39 18))
      retryUnit s (i / 8)
    else noticeLog s pkt (originAdder s i) (partOfHall s (s.adder i).hall)

/-- Whether a signal sent may be the dropped SIGNAL that a NOTICE names: the module that dropped it here knows its issuer, another module
only its target and job (14 R345). -/
def noticeNames (pkt : Packet) (g : RSig) : Bool :=
  g.dst.toNat == pkt.fld 39 18 && g.ref.toNat == pkt.fld 23 16 && g.job == pkt.job &&
    (pkt.issuer == 0 || pkt.issuer == g.cell.val + 1)

/-- A NOTICE for a dropped SIGNAL (14 R346): the hallmark-refusal interrupt at its issuer. Which one, where several signals match, is a
free value. -/
def noticeSignal (s : State) (pkt : Packet) : State :=
  let gs := s.rsigs.filter (noticeNames pkt)
  match gs with
  | [] => noticeLog s pkt (originHub s 5) none
  | g0 :: _ =>
    let (d, s) := draw s
    let g := gs.getD ((Config.freeWord d).toNat % gs.length) g0
    let ref := pkt.fld 23 16
    noticeCell (sendRefusal { s with rsigs := s.rsigs.erase g } g.cell.val 1 (BitVec.ofNat 64 (pipAddr (ref / 64) (ref % 64)))) pkt g.cell.val

/-- A NOTICE for a dropped TREE packet (11 R263, 14 R346): a withdrawal counts as accepted; every other one is logged only. -/
def noticeTree (s : State) (pkt : Packet) : State :=
  let ref := pkt.fld 23 16
  if pkt.fld 19 4 = 2 then
    let s := if pkt.sub = 2 then s else withdrawalLost s (ref / 64) (ref % 64) (peerOrigin (pkt.fld 39 18))
    parentAnswer s (ref / 64) (ref % 64) true
  else noticeLog s pkt (originHub s 5) none

/-- The region of the unit that a NOTICE goes to: the engine, the home of the bucket, or the cell of the pip that it names (14 R345). A
NOTICE of a dropped SIGNAL goes to its issuer. -/
def noticeRegion (pkt : Packet) : Nat :=
  let dk : BitVec 3 := BitVec.ofNat 3 (pkt.fld 16 3)
  if dk = kWrite then regionOfBlock (blockOfEngine (pkt.fld 23 7))
  else if dk = kReduce then pkt.fld 23 16 % 24 / 6
  else if dk = kSignal ∧ pkt.issuer ≠ 0 then regionOfCell (pkt.issuer - 1)
  else regionOfCell (pkt.fld 29 9)

/-- NOTICE_RECEIVE (14 R345, R346). It waits at a frozen bridge port (15 R367). -/
def execNoticeReceive (k : Nat) (s0 : State) : Ans :=
  next (match takePacket s0 k (fun p => p.kind == kNotice) with
    | none => s0
    | some (x, s) =>
      let dk : BitVec 3 := BitVec.ofNat 3 (x.pkt.fld 16 3)
      if inHeld s (noticeRegion x.pkt) then s0
      else if dk = kWrite then noticeWrite s x.pkt
      else if dk = kReduce then noticeReduce s x.pkt
      else if dk = kSignal then noticeSignal s x.pkt
      else if dk = kTree then noticeTree s x.pkt
      else noticeLog s x.pkt (originHub s 5) none)

/-- PORT_SIGNAL_LOSS (14 R341). -/
def execPortSignalLoss (p : PortId) (s : State) : Ans := next (signalLossOp s p)

/-- LEAVE_RECEIVE (14 R341, R357). -/
def execLeaveReceive (p : PortId) (s : State) : Ans := next (leaveOp s p)

/-- RIDE_THROUGH_EXPIRE (14 R341, R350). -/
def execRideThroughExpire (p : PortId) (s : State) : Ans := next (rideExpireOp s p)

/-- The size of a pair's dimension (14 R355). -/
def pairDim (s : State) (k : Nat) : Nat := (dimOf s k 0).1

/-- The pairs that a JOIN names and whose dimension is larger than 1, as a mask (14 R355). -/
def joinMask (s : State) (n : Nat) : Nat :=
  ((List.range 3).map fun k => if (s.cmd n).arg 0 / 2 ^ k % 2 = 1 ∧ 1 < pairDim s k then 2 ^ k else 0).sum

/-- Whether both ports of a pair are UP. -/
def pairUp (s : State) (k : Nat) : Bool := decide ((s.port (2 * k)).st = .up) && decide ((s.port (2 * k + 1)).st = .up)

/-- Whether a clasp of a pair is in fault (14 R353). -/
def pairFault (s : State) (k : Nat) : Bool := s.fab.fault.getLsbD (2 * k) || s.fab.fault.getLsbD (2 * k + 1)

/-- A JOIN ends; its result names the pairs joined (14 R355, 18 R436). -/
def joinEnd (s : State) (n : Nat) (st : CmdSt) (err : Byte) : State :=
  let m := joinMask s n
  let up := ((List.range 3).map fun k => if m.testBit k ∧ pairUp s k then 2 ^ k else 0).sum
  cmdEnd (s.setCmd n { s.cmd n with result := [BitVec.ofNat 8 up] }) n st err

/-- PROGRESS of a JOIN: ports UP over ports named (18 R436). -/
def joinProgress (s : State) (n : Nat) : State :=
  let ps := (List.range 6).filter fun p => ((s.cmd n).arg 0).testBit (p / 2)
  setProgress s n (ps.countP (fun p => decide ((s.port p).st = .up)) * 65535 / max 1 ps.length)

/-- A JOIN goes on with the pairs of a mask: a pair whose ports are UP is joined already (14 R355). -/
def joinNext (n : Nat) : Nat → Nat → State → State
  | 0, _, s => joinEnd s n .done 0
  | fuel + 1, rem, s =>
    match [0, 1, 2].find? fun k => rem.testBit k with
    | none => joinEnd s n .done 0
    | some k =>
      let rest := rem - 2 ^ k
      if pairUp s k then joinNext n fuel rest s
      else if pairFault s k then joinEnd s n .failed 0x30
      else (setHold s k true).setCmd n { s.cmd n with aux := 64 + 8 * k + rest }

/-- What an event of a port or a clasp does to the running JOIN (14 R355, 18 R436): its abort point is after each pair. A MISMATCH that an
earlier JOIN left counts no more: the ports train once the clasps are checked. -/
def joinCheck (s : State) : State :=
  match runner s 0x0020 with
  | none => s
  | some n =>
    let a := (s.cmd n).aux
    let k := a / 8 % 4
    if a < 64 then s
    else if pairFault s k then joinEnd s n .failed 0x30
    else if (vget s.fab.checkAt k).isNone ∧ ((s.port (2 * k)).st = .mismatch ∨ (s.port (2 * k + 1)).st = .mismatch) then
      joinEnd s n .failed 0x31
    else
      let s := joinProgress s n
      if !pairUp s k then s
      else if (s.cmd n).abort then joinEnd s n .aborted 0
      else joinNext n 4 (a % 8) s

/-- JOIN (14 R355). -/
def execJoin (n : SlotIx) (s : State) : Ans :=
  next (
    if running s n.val 0x0020 = false ∨ (s.cmd n).aux ≠ 0 then s
    else if (s.cmd n).abort then joinEnd s n .aborted 0
    else joinNext n.val 4 (joinMask s n) (joinProgress s n))

/-- JOIN_TIMEOUT (14 R355, 18 R436): the module timer reaches the join timeout. -/
def execJoinTimeout (n : SlotIx) (s : State) : Ans :=
  next (if running s n.val 0x0020 then joinEnd (moduleTimeTo s (s.cmd n).due) n .failed 2 else s)

/-- Both ports of a pair begin training (14 R355). -/
def trainPair (s : State) (k : Nat) : State :=
  [2 * k, 2 * k + 1].foldl (fun s p =>
    let x := s.port p
    if x.st = .up ∨ x.st = .ride then s else s.setPort p { x with st := .training }) s

/-- A clasp fault (14 R353): the hold removed, the pair's bits set, the record, both ports OFF. A hold that is removed moves the
clasps, and their sensors are read again. -/
def claspFault (s : State) (k : Nat) : State :=
  let s := if s.fab.hold.getLsbD (2 * k) || s.fab.hold.getLsbD (2 * k + 1) then setHold s k false else s
  let s := { s with fab := { s.fab with fault := s.fab.fault ||| (3#6 <<< (2 * k)) } }
  let s := setFlag (reportLog s (originPort s (2 * k)) (originPort s (2 * k)) 0x11 none 0) 1
  [2 * k, 2 * k + 1].foldl (fun s p =>
    let x := s.port p
    dropAll (portIdle (s.setPort p { x.off with freeze := x.freeze }) (Fin.ofNat 6 p)) 1
      (replayWhole x.replay ++ x.txq.map (·.pkt))) s

/-- CLASP_CHECK (14 R353): the two sensors of a pair 10 ms after a command, on the module timer. -/
def execClaspCheck (pair : Fin 3) (openA openB : Bool) (s : State) : Ans :=
  next (
    let k := pair.val
    match vget s.fab.checkAt k with
    | none => s
    | some t =>
      let s := moduleTimeTo s t
      let f := s.fab
      let cmd := f.hold.getLsbD (2 * k)
      let seen : BitVec 6 := BitVec.ofNat 6 ((b2n openA + 2 * b2n openB) * 4 ^ k)
      let s := { s with fab := { f with
        checkAt := f.checkAt.setIfInBounds k none, opened := (f.opened &&& ~~~(3#6 <<< (2 * k))) ||| seen } }
      if openA = cmd ∧ openB = cmd then
        match runner s 0x0020 with
        | some n => if cmd && decide (64 ≤ (s.cmd n).aux) && decide ((s.cmd n).aux / 8 % 4 = k) then joinCheck (trainPair s k) else s
        | none => s
      else joinCheck (claspFault s k))

/-- PORT_TRAINED (14 R341, R342, R355, 17 R413). -/
def execPortTrained (p : PortId) (ident : BitVec 128) (s : State) : Ans :=
  next (
    let x := s.port p
    let t := trainedOp s p ident
    joinCheck (if x.partner ≠ 0xFFFFFFFF ∧ x.partner ≠ (t.port p).partner then setFlag t 2 else t))

/-- WITHDRAW (14 R357): LEAVE on every UP port; the queues drain. -/
def execWithdraw (n : SlotIx) (s : State) : Ans :=
  next (
    if running s n.val 0x0021 = false ∨ s.fab.drain = true then s
    else
      let s := (List.finRange 6).foldl (fun s p =>
        let pkt : Packet := ⟨kLink, 0, mkHdr 1 0 0 s.modId ((s.port p).partner.toNat % 2 ^ 18), [], 0⟩
        if (s.port p).st = .up then (if 0 < (s.port p).room then (sendFrom s p pkt 0 1).1 else queueAt s p 0 pkt) else s) s
      { s.setCmd n { s.cmd n with due := moduleDue s 20 } with fab := { s.fab with drain := true } })

/-- Whether nothing waits at any port (14 R357). -/
def portsEmpty (s : State) : Bool := s.ports.toList.all fun x => x.txq.isEmpty && x.replay.isEmpty && x.rx.isEmpty

/-- WITHDRAW_RELEASE (14 R357): the holds removed and WITHDRAWN entered once the queues are empty, or after 20 ms. A module that a
PART_CREATE has taken out of STANDBY meanwhile withdraws no more (17 R412; log entry 103). -/
def execWithdrawRelease (n : SlotIx) (s : State) : Ans :=
  next (
    if running s n.val 0x0021 = true ∧ s.fab.drain = true then
      let s := if portsEmpty s then s else moduleTimeTo s (s.cmd n).due
      if s.ctl.st ≠ .standby then cmdEnd { s with fab := { s.fab with drain := false } } n .failed 0x0C else
      cmdEnd (setModSt (closeClasps (diesOff s)) .withdrawn) n .done 0
    else s)

end Sys2Proof.Machine
end

