-- ==== Sys2Proof/Machine/HostPort.lean ====
section
/-! DEFINITION. The commands of the host port and its queue pairs (19). -/

namespace Sys2Proof.Machine

/-- Queue pair k of a block. -/
def qpIx (b : BlockId) (k : BitVec 6) : Nat := 64 * b.val + k.toNat
/-- The address of a register of queue pair k (19 R444). -/
def qpReg (b : BlockId) (k : BitVec 6) (off : Nat) : Nat := 0x30010008000 + 0x100000 * b.val + 0x100 * k.toNat + off
/-- The address of MWCFG of window w (19 R449). -/
def mwReg (b : BlockId) (w : Fin 16) : Nat := 0x3001000C010 + 0x100000 * b.val + 0x20 * w.val

/-- QP_ENABLE (19 R445). -/
def execQpEnable (hall : Byte) (b : BlockId) (k : BitVec 6) (s : State) : Ans :=
  next (regAccess s hall (qpReg b k 0) fun s => qpEnableOp s (qpIx b k))

/-- QP_DISABLE (19 R445). -/
def execQpDisable (hall : Byte) (b : BlockId) (k : BitVec 6) (s : State) : Ans :=
  next (regAccess s hall (qpReg b k 0) fun s => if (s.qp (qpIx b k)).enable then qpDisableOp s (qpIx b k) else s)

/-- QP_POST (19 R446): both indices written. -/
def execQpPost (hall : Byte) (b : BlockId) (k : BitVec 6) (sqpi rqpi : BitVec 16) (s : State) : Ans :=
  next (regAccess s hall (qpReg b k 0x38) fun s => qpPostOp s (qpIx b k) (rqpi ++ sqpi) (-1))

/-- SEND_ENTRY_START (19 R447). -/
def execSendEntryStart (b : BlockId) (k : BitVec 6) (s : State) : Ans := next (startEntry s (qpIx b k))

/-- QP_COMPLETION (19 R447): `chk` is what the write of STATUS finds. -/
def execQpCompletion (b : BlockId) (k : BitVec 6) (chk : Check) (s : State) : Ans := next (completionOp s (qpIx b k) chk)

/-- A RoCEv2 message that comes in packets of its own, counted as frames of the host port (18 R433, 19 R441, R443). -/
def roceRow (s : State) (b : BlockId) (k : BitVec 6) (h : RoceHdr) (m : RoceMsg) : State :=
  roceArrive s (qpIx b k) h m fun s => framesIn s .host (roceFrames m)

/-- RDMA_WRITE_RECEIVE (19 R450). -/
def execRdmaWriteReceive (b : BlockId) (k : BitVec 6) (rkey : BitVec 32) (rva : BitVec 64) (data : List Byte) (h : RoceHdr)
    (chk : Check) (s : State) : Ans := next (roceRow s b k h (.write rkey rva data chk))

/-- RDMA_READ_REQUEST (19 R450). -/
def execRdmaReadRequest (b : BlockId) (k : BitVec 6) (rkey : BitVec 32) (rva : BitVec 64) (len : BitVec 32) (h : RoceHdr)
    (s : State) : Ans := next (roceRow s b k h (.readRequest rkey rva len))

/-- SEND_RECEIVE (19 R447). -/
def execSendReceive (b : BlockId) (k : BitVec 6) (data : List Byte) (h : RoceHdr) (chk : Check) (s : State) : Ans :=
  next (roceRow s b k h (.send data chk))

/-- ROCE_ACK_RECEIVE (19 R447, R448). -/
def execRoceAckReceive (b : BlockId) (k : BitVec 6) (ans : RoceAck) (h : RoceHdr) (chk : Check) (s : State) : Ans :=
  next (roceRow s b k h (.answer ans chk))

/-- RETRANSMIT_TIMEOUT (19 R448), once the memory of what is sent again can be reached. -/
def execRetransmitTimeout (b : BlockId) (k : BitVec 6) (s : State) : Ans :=
  next (
    let x := s.qp (qpIx b k)
    if x.st ≠ .rts then s
    else match engineWaits s (x.outstanding.flatMap (sendExtents s (qpIx b k))) with
      | some s => s
      | none => retransmit s (qpIx b k))

/-- CNP_RECEIVE (19 R448): the send rate halves. -/
def execCnpReceive (b : BlockId) (k : BitVec 6) (h : RoceHdr) (s : State) : Ans := next (roceRow s b k h .cnp)

/-- RATE_INCREASE (19 R448): 1/16 of the line rate more, up to the line rate. -/
def execRateIncrease (b : BlockId) (k : BitVec 6) (s : State) : Ans :=
  next (
    let x := s.qp (qpIx b k)
    if x.st = .rts then s.setQp (qpIx b k) { x with rate := if x.rate + 1 / 16 ≤ 1 then x.rate + 1 / 16 else 1 } else s)

/-- MW_VALID_SET (19 R449): MWCFG written with VALID set. -/
def execMwValidSet (hall : Byte) (b : BlockId) (w : Fin 16) (v : BitVec 32) (s : State) : Ans :=
  next (regAccess s hall (mwReg b w) fun s => mwcfgWrite s (16 * b.val + w.val) (v ||| 1) (-1))

/-- FRAME_RECEIVE (19 R439, R441, R442): a datagram at the UDP port of 0x1100.01 is WDP (17 R396); a RoCEv2 packet, at UDP port 4791 of the
host port, goes to its queue pair. -/
def execFrameReceive (f : EthFrame) (s : State) : Ans :=
  next (
    match f.body with
    | .udp i src dst body =>
      let s := frameOp s f
      if tooLong f || !reached s i dst then s else wdpDatagram s i src dst body
    | .roce i h b k m =>
      if i ≠ .host ∨ tooLong f = true then frameOp s f else roceArrive s (qpIx b k) h m fun s => frameOp s f
    | _ => frameOp s f)

/-- PFC_PAUSE (19 R440): a quanta of 0 resumes the priority, and what waited for it leaves. -/
def execPfcPause (prio : Fin 8) (quanta : BitVec 16) (s0 : State) : Ans :=
  next (
    let s := framesIn s0 .host 1
    if powered s then flushEth { s with eth := { s.eth with pause := s.eth.pause.setIfInBounds prio.val quanta } } else s)

end Sys2Proof.Machine
end

