-- ==== Sys2Proof/Machine/Integer.lean ====
section
/-! DEFINITION. The integer, jump and branch families IR, II, UJ and BR (09 R208 to R210): no flag, no exception but illegal
instruction; arithmetic wraps on 64 bits. -/

namespace Sys2Proof.Machine

/-- DIVS (09, IR 0x0D): rounded toward zero, 0 for a zero divisor. -/
def divS (a b : W64) : W64 := if b = 0 then 0 else BitVec.ofInt 64 (a.toInt.tdiv b.toInt)
/-- DIVU (09, IR 0x0E). -/
def divU (a b : W64) : W64 := if b = 0 then 0 else BitVec.ofNat 64 (a.toNat / b.toNat)
/-- MODS (09, IR 0x0F): the dividend's sign, the dividend for a zero divisor. -/
def modS (a b : W64) : W64 := if b = 0 then a else BitVec.ofInt 64 (a.toInt.tmod b.toInt)
/-- MODU (09, IR 0x10). -/
def modU (a b : W64) : W64 := if b = 0 then a else BitVec.ofNat 64 (a.toNat % b.toNat)
/-- MULHS (09, IR 0x0B). -/
def mulHS (a b : W64) : W64 := BitVec.ofInt 64 (a.toInt * b.toInt / 2 ^ 64)
/-- MULHU (09, IR 0x0C). -/
def mulHU (a b : W64) : W64 := BitVec.ofNat 64 (a.toNat * b.toNat / 2 ^ 64)

/-- A comparison's result: 1 or 0. -/
def boolW (b : Bool) : W64 := if b then 1 else 0

/-- What Gd receives from an IR instruction (09, the IR table); none for a reserved FN. -/
def irValue (fn : Nat) (a b : W64) : Option W64 :=
  match fn with
  | 0x00 => some (a + b)
  | 0x01 => some (a - b)
  | 0x02 => some (a &&& b)
  | 0x03 => some (a ||| b)
  | 0x04 => some (a ^^^ b)
  | 0x05 => some (a <<< (b.toNat % 64))
  | 0x06 => some (a >>> (b.toNat % 64))
  | 0x07 => some (a.sshiftRight (b.toNat % 64))
  | 0x08 => some (boolW (decide (a.toInt < b.toInt)))
  | 0x09 => some (boolW (decide (a < b)))
  | 0x0A => some (a * b)
  | 0x0B => some (mulHS a b)
  | 0x0C => some (mulHU a b)
  | 0x0D => some (divS a b)
  | 0x0E => some (divU a b)
  | 0x0F => some (modS a b)
  | 0x10 => some (modU a b)
  | 0x11 => some (if a.toInt < b.toInt then a else b)
  | 0x12 => some (if a.toInt < b.toInt then b else a)
  | 0x13 => some (if a < b then a else b)
  | 0x14 => some (if a < b then b else a)
  | _ => none

/-- INTEGER_REG_OP (09 R208, R210). -/
def execIntegerRegOp (c : CellId) (fn : BitVec 7) (d a b : Reg) (rsv : BitVec 6) (s : State) : Ans :=
  next (issue s c fun s =>
    let k := s.cell c
    match (if rsv = 0 then irValue fn.toNat (k.rdG a) (k.rdG b) else none) with
    | some v => onCell s c fun k => k.wrG d v
    | none => illegal s)

/-- What Gd receives from an II instruction (09, the II table); none for a reserved FN or a reserved shift immediate. -/
def iiValue (fn : Nat) (a : W64) (imm : BitVec 14) : Option W64 :=
  let i : W64 := imm.signExtend 64
  let sh := imm.toNat % 64
  let shOk := decide (imm.toNat < 64)
  match fn with
  | 0x0 => some (a + i)
  | 0x1 => some (a &&& i)
  | 0x2 => some (a ||| i)
  | 0x3 => some (a ^^^ i)
  | 0x4 => some (boolW (decide (a.toInt < i.toInt)))
  | 0x5 => some (boolW (decide (a < i)))
  | 0x6 => if shOk then some (a <<< sh) else none
  | 0x7 => if shOk then some (a >>> sh) else none
  | 0x8 => if shOk then some (a.sshiftRight sh) else none
  | _ => none

/-- INTEGER_IMM_OP (09 R209, R210). -/
def execIntegerImmOp (c : CellId) (fn : BitVec 4) (d a : Reg) (imm : BitVec 14) (s : State) : Ans :=
  next (issue s c fun s =>
    match iiValue fn.toNat ((s.cell c).rdG a) imm with
    | some v => onCell s c fun k => k.wrG d v
    | none => illegal s)

/-- A 21-bit immediate at bit 13, sign-extended (09 R209). -/
def upperImm (imm : BitVec 21) : W64 := imm.signExtend 64 <<< 13

/-- Four times a sign-extended word offset (09 R209). -/
def wordOff {n : Nat} (off : BitVec n) : W64 := off.signExtend 64 <<< 2

/-- MOVHI (09, UJ 0b00). -/
def execMovhi (c : CellId) (d : Reg) (imm : BitVec 21) (s : State) : Ans :=
  next (issue s c fun s => onCell s c fun k => k.wrG d (upperImm imm))

/-- PCREL (09, UJ 0b01). -/
def execPcrel (c : CellId) (d : Reg) (imm : BitVec 21) (s : State) : Ans :=
  next (issue s c fun s => onCell s c fun k => k.wrG d (k.pc + upperImm imm))

/-- CALL (09, UJ 0b10). -/
def execCall (c : CellId) (d : Reg) (imm : BitVec 21) (s : State) : Ans :=
  next (issue s c fun s =>
    let pc := (s.cell c).pc
    .jump (s.updCell c fun k => k.wrG d (pc + 4)) (pc + wordOff imm))

/-- JUMPR (09, UJ 0b11): Ga is read before Gd is written (R208). -/
def execJumpr (c : CellId) (d a : Reg) (imm : BitVec 16) (s : State) : Ans :=
  next (issue s c fun s =>
    let k := s.cell c
    .jump (s.updCell c fun k => k.wrG d (k.pc + 4)) ((k.rdG a + wordOff imm) &&& ~~~3))

/-- The conditions of BR (09, the BR table); none for the reserved condition. -/
def brTaken (cond : BrCond) (a b : W64) : Option Bool :=
  match cond with
  | .eq => some (decide (a = b))
  | .ne => some (decide (a ≠ b))
  | .lt => some (decide (a.toInt < b.toInt))
  | .ge => some (decide (b.toInt ≤ a.toInt))
  | .lo => some (decide (a < b))
  | .hs => some (decide (b ≤ a))
  | .reserved => none

/-- A branch (09 R209): PC + 4 × OFF where it is taken. -/
def branch (s : State) (c : CellId) (taken : Bool) (off : BitVec 15) : Res :=
  if taken then .jump s ((s.cell c).pc + wordOff off) else .done s

/-- BR_COND (09, BR 0b000 to 0b101). -/
def execBrCond (c : CellId) (cond : BrCond) (a b : Reg) (off : BitVec 15) (s : State) : Ans :=
  next (issue s c fun s =>
    let k := s.cell c
    match brTaken cond (k.rdG a) (k.rdG b) with
    | some t => branch s c t off
    | none => illegal s)

/-- BRSOME, BRNONE (09, BR 0b110; 04 R86). DESIGN CHOICE: they only read a predicate register, so they issue while the vector datapaths are
gated and do not wake them (04 R108, R109, log entry 25). -/
def execBrsomeBrnone (c : CellId) (none : Bool) (pa : PReg) (sz : Size) (off : BitVec 15) (s : State) : Ans :=
  next (issue s c fun s =>
    let p := (s.cell c).p[pa]
    let some_ := (List.range (szElems sz)).any (active sz p)
    branch s c (some_ != none) off)

end Sys2Proof.Machine
end

