-- ==== Sys2Proof/Machine/Partitions.lean ====
section
/-! DEFINITION. The commands of partitions, attestation and accounting (16 R372 to R395). -/

namespace Sys2Proof.Machine

/-- PART_CREATE (16 R380, R385): the rest of the command where it has entered CREATING. -/
def execPartCreate (n : SlotIx) (s : State) : Ans :=
  next (
    if !running s n.val 0x0030 then s
    else
      let p := (s.cmd n).arg 0
      if (s.part p).st = .creating then cmdDone (partCreateOp s p) n []
      else match partCreateError s p with
        | some e => cmdEnd s n .failed e
        | none => cmdDone (partCreateOp s p) n [])

/-- PART_START (16 R382, 18 R436): an ABORT is taken between chunks; data that cannot be read ends it with ERROR 0x03. It waits for SRAM
that is being powered (20 R458). -/
def execPartStart (n : SlotIx) (s : State) : Ans :=
  next (
    if !running s n.val 0x0031 then s
    else
      let p := (s.cmd n).arg 0
      if (s.cmd n).abort then cmdEnd s n .aborted 0
      else if imageBad s (s.part p) then cmdEnd (imageReport s (s.part p)) n .failed 3
      else if !imageReady s (s.part p) then imageWake s (s.part p)
      else
        let t := partStartOp s p
        cmdDone t n (t.part p).pmeas)

/-- PART_RESET (16 R383). -/
def execPartReset (n : SlotIx) (s : State) : Ans :=
  next (if running s n.val 0x0032 then cmdDone (partResetOp s ((s.cmd n).arg 0)) n [] else s)

/-- PART_CLOSE (16 R385, step 1): the partition is reset and enters CLOSING. -/
def execPartClose (n : SlotIx) (s : State) : Ans :=
  next (
    let p := (s.cmd n).arg 0
    if running s n.val 0x0033 = true ∧ (s.part p).st ≠ .closing then
      let s := partResetOp s p
      let s := s.setCmd n { s.cmd n with due := moduleDue s 100 }
      setProgress (s.setPart p { s.part p with st := .closing }) n 10922
    else s)

/-- PART_CLOSE_DRAIN_END (16 R385, steps 2 to 6): at once where nothing carries the hallmark, else after 100 ms. -/
def execPartCloseDrainEnd (n : SlotIx) (s : State) : Ans :=
  next (
    let p := (s.cmd n).arg 0
    if running s n.val 0x0033 = true ∧ (s.part p).st = .closing then
      let s := if hallBusy s (s.part p).hall then moduleTimeTo s (s.cmd n).due else s
      cmdDone (partCloseOp s p) n []
    else s)

/-- ATTEST (16 R391, 18 R438). -/
def execAttest (n : SlotIx) (s : State) : Ans :=
  next (
    if !running s n.val 0x0040 then s
    else
      let x := s.cmd n
      let (r, s) := attestReport s (if x.arg 0 < 16 then some (x.arg 0) else none) (x.args.drop 4)
      cmdDone s n r)

/-- EXTEND (16 R388). -/
def execExtend (n : SlotIx) (s : State) : Ans :=
  next (
    if !running s n.val 0x0042 then s
    else
      let x := s.cmd n
      let s := extendMeas s (x.arg 0) (x.args.drop 4)
      cmdDone s n ((s.ctl.meas[x.arg 0]?).getD []))

/-- ACCT_NOW (16 R395). The close record is a partition's last (16 R386): where a close has ended meanwhile the command fails, with the
code of a state conflict, which is the model's choice (log entry 111). -/
def execAcctNow (n : SlotIx) (s : State) : Ans :=
  next (
    if !running s n.val 0x0041 then s
    else
      let p := (s.cmd n).arg 0
      if !(s.part p).held then cmdEnd s n .failed 0x0C
      else
        let (r, s) := emitRecord s p 2
        cmdDone s n r)

/-- ACCT_INTERVAL (16 R395): the module timer reaches the end of a partition's interval. -/
def execAcctInterval (p : PartId) (s : State) : Ans :=
  next (
    if (s.part p).held then
      let s := moduleTimeTo s (s.part p).acctAt
      let s := s.setPart p { s.part p with acctAt := moduleDue s s.ctl.acctMs.toNat }
      (emitRecord s p 0).2
    else s)

/-- ENERGY_CHARGE (16 R393, 20 R463): in WITHDRAWN and FAULTED the region meters read no increase. -/
def execEnergyCharge (meters : List Nat) (moduleMeter : Nat) (act : List BlockActivity) (s : State) : Ans :=
  next (if s.ctl.st = .off then s else energyOp s (if powered s then meters else [0, 0, 0, 0]) moduleMeter act)

end Sys2Proof.Machine
end

