-- ==== Sys2Proof/Machine/Power.lean ====
section
/-! DEFINITION. The commands of power states and operating points (20 R452 to R460, 02 R37 to R47, 18 R430). -/

namespace Sys2Proof.Machine

/-- The cells of a block whose accumulators meet an error in their parity as they are written back: a cell fault each (06 R158). -/
def accFaults (s : State) (b : Nat) (acc : BitVec 8) : State :=
  (List.range 8).foldl (fun s i =>
    let k := s.cell (8 * b + i)
    if acc.getLsbD i && k.res.isSome && k.accDirty then accFault s (8 * b + i) else s) s

/-- BLOCK_DESCEND (20 R455): the dwell passes on the block timer. `bad`: the dirty lines whose check bits fail as they are written back
(03 R67); `acc`: the cells whose accumulators, written back at the entry to Nap, meet an error in their parity. -/
def execBlockDescend (b : BlockId) (acc : BitVec 8) (bad : List Nat) (s : State) : Ans :=
  next (
    if mayDescend s b then
      let d := (s.block b).st.deeper
      let s := dwellTo s b d
      let s := match d with
        | .nap => accFaults s b acc
        | .doze => spoilBlock s bad b
        | .dormant => spoilBlock s bad b
        | _ => s
      enterState s b d
    else s)

/-- Whether a PART_START, PART_RESET or PART_CLOSE of a partition runs (20 R456, R457). -/
def partCommandRuns (s : State) (p : Nat) : Bool :=
  (List.range 16).any fun n => (running s n 0x0031 || running s n 0x0032 || running s n 0x0033) && (s.cmd n).arg 0 == p

/-- Whether an event wakes a block (20 R456, R457): in Dormant only a tolerance that its state exceeds or a command of its partition. -/
def wakes (s : State) (b : Nat) (ev : WakeEvent) : Bool :=
  match ownerOfBlock s b, ev with
  | some p, .tolerance => decide ((s.part p).tol.toNat < (s.block b).st.latency)
  | some p, .partitionCommand => partCommandRuns s p
  | none, .tolerance => false
  | none, .partitionCommand => false
  | _, _ => decide ((s.block b).st ≠ .dormant)

/-- BLOCK_WAKE (20 R456, R457): the exit begins. -/
def execBlockWake (b : BlockId) (ev : WakeEvent) (s : State) : Ans :=
  next (if wakes s b ev then beginExit s b else s)

/-- BLOCK_EXIT_COMPLETE (20 R452, R457). -/
def execBlockExitComplete (b : BlockId) (s : State) : Ans := next (exitOp s b)

/-- SRAM_GROUP_RETENTION (20 R458): 64 steps without access. -/
def execSramGroupRetention (b : BlockId) (s : State) : Ans :=
  next (
    let x := s.block b
    if x.st = .doze ∧ x.group = .on then s.setBlock b { x with group := .retention } else s)

/-- SRAM_GROUP_ZERO_END (20 R458): the group is powered, and every byte of it is zero. -/
def execSramGroupZeroEnd (b : BlockId) (s : State) : Ans :=
  next (
    let x := s.block b
    if x.group = .zeroing then s.setBlock b { x with group := .on } else s)

/-- SELF_REFRESH_ENTER (20 R459): no request for 100 µs, at a controller that is powered (R462). -/
def execSelfRefreshEnter (m : CtlId) (s : State) : Ans :=
  next (
    let r := m.val / 6
    if powered s && regionSleeps s r then
      let x := s.region r
      s.setRegion r { x with selfRef := x.selfRef ||| (1#6 <<< (m.val % 6)) }
    else s)

/-- OP_SLEW_SETTLED (02 R37). -/
def execOpSlewSettled (s : State) : Ans := next { s with ctl := { s.ctl with slew := none } }

/-- THERMAL_CAP_FALL (02 R38). -/
def execThermalCapFall (s : State) : Ans := next (if tooHot s then capFall s else s)

/-- THERMAL_CAP_RISE (02 R38). -/
def execThermalCapRise (s : State) : Ans := next (if coolEnough s && decide (s.ctl.cap ≠ 0xFF) then capRise s else s)

/-- Four values as a vector. -/
def four (l : List W32) : Vector W32 4 := #v[l.getD 0 0, l.getD 1 0, l.getD 2 0, l.getD 3 0]

/-- SENSOR_UPDATE (02 R39). -/
def execSensorUpdate (tj rate : List (BitVec 32)) (mv : BitVec 16) (s : State) : Ans :=
  next { s with ctl := { s.ctl with tj := four tj, rate := four rate, mv := mv } }

/-- A list of factors as a table: 1.0 is not listed. -/
def kTable (l : List W32) : Tab W32 := (l.zipIdx.map fun e => (e.2, e.1)).filter fun e => e.2 != 0x40000000

/-- The factor of a cell's oscillator written to its registers (02 R51); a cell in Dormant has none. -/
def putFactor (s : State) (c : Nat) (k seq : W32) : State :=
  if (s.block (blockOfCell c)).st = .dormant then s else s.updCell c fun x => { x with ctcorr := k, ctcseq := seq }

/-- CALIBRATION_ROUND (02 R47, R49 to R53): the module timer reaches the armed second, every factor is published together, the module's own
once its gate time has passed, and the next second is armed. -/
def execCalibrationRound (kModule : BitVec 32) (kRegion kBlock kCell : List (BitVec 32)) (s : State) : Ans :=
  next (
    if s.ctl.st = .off then s else
    let s := moduleTimeTo s s.ctl.calDue
    let c := s.ctl
    let seq := c.calSeq + 1
    let s := { s with ctl := { c with
      kModule := if 10000 ≤ c.timer then kModule else c.kModule
      kRegion := four kRegion, kBlock := kTable kBlock, kCell := kTable kCell, calSeq := seq, calAt := c.timer } }
    let s := { s with ctl := { s.ctl with calDue := moduleDue s 1000 } }
    (List.range 512).foldl (fun s i => putFactor s i (kCell.getD i 0x40000000) seq) s)

/-- WATCHDOG_RESTART (18 R430): a new timeout applies from here. -/
def execWatchdogRestart (s : State) : Ans :=
  next { s with ctl := { s.ctl with wdNow := s.ctl.wdNew, wdAt := moduleDue s s.ctl.wdNew.toNat } }

/-- MODULE_WATCHDOG_BITE (18 R430, 01 R21, 21 R467): the clasps close and a module reset begins. -/
def execModuleWatchdogBite (s : State) : Ans :=
  next (
    if s.ctl.armed then
      let s := moduleTimeTo s s.ctl.wdAt
      moduleReset { s with ctl := { s.ctl with wdBites := BitVec.ofNat 32 (satAdd max32 s.ctl.wdBites.toNat 1) } } 3
    else s)

end Sys2Proof.Machine
end

