-- ==== Sys2Proof/Machine/ScalarFp.lean ====
section
/-! DEFINITION. Floating-point operations of scalar and vector elements (03 R55, 04 R90) and the scalar family SF (09 R216). -/

namespace Sys2Proof.Machine

/-- An arithmetic operation on values (04 R90, 09 R216): c is the addend of the fused forms. -/
def fpCalc (op : VFpOp) (rm : Rm) (a b c : Fp) : Exact :=
  match op with
  | .add => fpAdd rm a b
  | .sub => fpAdd rm a b.neg
  | .mul => fpMul a b
  | .div => fpDiv a b
  | .sqrt => fpSqrt a
  | .min => fpMin a b
  | .max => fpMax a b
  | .abs => ⟨a.abs, Fl.none⟩
  | .neg => ⟨a.neg, Fl.none⟩
  | .fma => fpFma rm a b c
  | .fms => fpFma rm a b c.neg
  | .fnma => fpFma rm a.neg b c.neg
  | .fnms => fpFma rm a.neg b c

/-- An arithmetic operation on bit patterns: the result's pattern and the flags (03 R55). -/
def fpBits (op : VFpOp) (f : Fmt) (rm : Rm) (a b c : Nat) : Nat × Fl :=
  fpDone f rm (fpCalc op rm (f.decode a) (f.decode b) (f.decode c))

/-- A conversion between formats, rounded once; a signalling NaN is invalid (03 R55). -/
def fpConv (src dst : Fmt) (rm : Rm) (a : Nat) : Nat × Fl :=
  let v := src.decode a
  fpDone dst rm ⟨v, Fl.nvIf v.isSig⟩

/-- The arithmetic functions of SF: FN and the operation (09, the SF table). -/
def sfArith (fn : Nat) : Option VFpOp :=
  match fn with
  | 0x00 => some .add
  | 0x01 => some .sub
  | 0x02 => some .mul
  | 0x03 => some .div
  | 0x04 => some .sqrt
  | 0x05 => some .min
  | 0x06 => some .max
  | 0x07 => some .abs
  | 0x08 => some .neg
  | 0x09 => some .fma
  | 0x0A => some .fms
  | 0x0B => some .fnma
  | 0x0C => some .fnms
  | _ => none

/-- Whether a function of SF reads its B field. -/
def sfReadsB (fn : Nat) : Bool := decide (fn ≤ 0x03) || fn == 0x05 || fn == 0x06 || (decide (0x09 ≤ fn) && decide (fn ≤ 0x0C)) ||
  (decide (0x14 ≤ fn) && decide (fn ≤ 0x16))

/-- Whether a word of SF is legal (09 R210, R216). -/
def sfLegal (fn : Nat) (fmt : BitVec 2) (b x : Reg) : Bool :=
  decide (fn ≤ 0x16) && decide (fmt.toNat ≤ 1) && (sfReadsB fn || b.val == 0) &&
    ((decide (0x09 ≤ fn) && decide (fn ≤ 0x0C)) || x.val == 0)

/-- What a legal SF instruction does to its cell (09 R216). -/
def sfEffect (k : Cell) (fn : Nat) (dbl : Bool) (d a b x : Reg) : Cell :=
  let f := fmtOf dbl
  let g := fmtOf !dbl
  let w := f.width
  let fld (r : Reg) : Nat := (k.rdF r).toNat % 2 ^ w
  let toF (r : Nat × Fl) : Cell := (k.wrF d (BitVec.ofNat 64 r.1)).orFl r.2
  let toG (r : Nat × Fl) : Cell := (k.wrG d (BitVec.ofNat 64 r.1)).orFl r.2
  let va := f.decode (fld a)
  let vb := f.decode (fld b)
  let cmp (r : Bool × Fl) : Cell := toG (b2n r.1, r.2)
  match sfArith fn with
  | some op => toF (fpBits op f k.frm (fld a) (fld b) (fld x))
  | none =>
    match fn with
    | 0x0D => toF (fpConv f g k.frm (fld a))
    | 0x0E => toG (fpToBits k.frm true 64 va)
    | 0x0F => toG (fpToBits k.frm false 64 va)
    | 0x10 => toF (fpDone f k.frm ⟨fpOfInt (k.rdG a).toInt, Fl.none⟩)
    | 0x11 => toF (fpDone f k.frm ⟨fpOfInt ((k.rdG a).toNat : Nat), Fl.none⟩)
    | 0x12 => toG (fld a, Fl.none)
    | 0x13 => toF ((k.rdG a).toNat % 2 ^ w, Fl.none)
    | 0x14 => cmp (fpCmp false Fp.eq false va vb)
    | 0x15 => cmp (fpCmp true Fp.lt false va vb)
    | _ => cmp (fpCmp true (fun p q => Fp.lt p q || Fp.eq p q) false va vb)

/-- SCALAR_FP_OP (09 R216). -/
def execScalarFpOp (c : CellId) (fn : BitVec 6) (fmt : BitVec 2) (d a b x : Reg) (s : State) : Ans :=
  next (issue s c fun s =>
    if sfLegal fn.toNat fmt b x then onCell s c fun k => sfEffect k fn.toNat (fmt == 1) d a b x
    else illegal s)

end Sys2Proof.Machine
end

