-- ==== Sys2Proof/Machine/Slots.lean ====
section
/-! DEFINITION. The commands of the statistic slots (08 R194 to R204). -/

namespace Sys2Proof.Machine

/-- The control-space address of a register of a slot's page (01 R26, 08 R195). -/
def slotReg (r : Nat) (n off : Nat) : Nat := 0x30001800000 + 0x1000000 * r + 0x1000 * n + off

/-- SLOT_CONTRIBUTION (08 R197 to R199). -/
def execSlotContribution (r : RegionId) (n : Byte) (x : Contribution) (s : State) : Ans :=
  next (slotContribute s (256 * r.val + n.toNat) x)

/-- SLOT_CLOSE (08 R195, R200): a write of 1 to SCTL.CLOSE. -/
def execSlotClose (hall : Byte) (r : RegionId) (n : Byte) (s : State) : Ans :=
  let i := 256 * r.val + n.toNat
  next (regAccess s hall (slotReg r.val n.toNat 0x038) fun s => sctlWrite (s.setSlot i { s.slot i with sctl := 1 }) i 1)

/-- SLOT_CLEAR (08 R195, R196): a write of 1 to SCTL.CLEAR. -/
def execSlotClear (hall : Byte) (r : RegionId) (n : Byte) (s : State) : Ans :=
  let i := 256 * r.val + n.toNat
  next (regAccess s hall (slotReg r.val n.toNat 0x038) fun s => sctlWrite (s.setSlot i { s.slot i with sctl := 2 }) i 2)

/-- SCFG_WRITE (08 R195, R196): all of SCFG written. -/
def execScfgWrite (hall : Byte) (r : RegionId) (n : Byte) (v : BitVec 64) (s : State) : Ans :=
  next (regAccess s hall (slotReg r.val n.toNat 0x008) fun s => scfgWriteOp s (256 * r.val + n.toNat) v (-1))

end Sys2Proof.Machine
end

