-- ==== Sys2Proof/Machine/ErrLog.lean ====
section
/-! DEFINITION. Reports on their way (21 R472 to R474) and the module error log (21 R475, R479). -/

namespace Sys2Proof.Machine

/-- The unit kind of an origin word (21 R477). -/
def originKind (w : W32) : Nat := w.toNat / 2 ^ 28

/-- Whether a block collector signals its error pip for a report (21 R474). -/
def errorPip (x : Block) (r : Report) : Bool :=
  x.becfg.getLsbD 15 && decide (fieldN x.becfg.toNat 16 2 ≤ r.sev.toNat) && decide (originKind r.origin ≤ 2)

/-- A report reaches its block's collector: counted, signalled, sent on to the region (21 R472, R474). -/
def collect (s : State) (b : Nat) (r : Report) : State :=
  let x := s.block b
  let s := s.setBlock b { x with becnt := x.becnt + r.count.zeroExtend 64 }
  let s := if errorPip x r then
      sendSig s (640 + b) (fieldN x.becfg.toNat 6 9) (fieldN x.becfg.toNat 0 6) (min r.count.toNat 65535) (hallOfBlock s b)
    else s
  { s with lreps := queueReport { r with block := none } s.lreps }

/-- Whether a report merges into a record (21 R479): the same key, opened no more than 10 ms earlier. DESIGN CHOICE (log
entry 113): a FIRST above the timer's reading, of a record from before a module reset, is not earlier. -/
def LogRec.takes (x : LogRec) (r : Report) (now : Nat) : Bool :=
  x.origin == r.origin && x.cls == r.cls && x.own == r.own && decide (x.first ≤ now) && decide (now ≤ x.first + 10)

/-- A report merged into a record. -/
def LogRec.merge (x : LogRec) (r : Report) (now : Nat) : LogRec :=
  { x with count := BitVec.ofNat 32 (satAdd max32 x.count.toNat r.count.toNat), last := now }

/-- The record that is discarded: the oldest advisory or corrected one, else the oldest (21 R479). -/
def discardIx (recs : List LogRec) : Nat :=
  match recs.findIdx? fun x => decide (x.sev.toNat ≤ 1) with
  | some i => i
  | none => 0

/-- Room made for a record in a log of 1,024 (21 R479). -/
def makeRoom (s : State) : State :=
  if s.log.recs.length < 1024 then s
  else
    let l := { s.log with recs := s.log.recs.eraseIdx (discardIx s.log.recs), lost := BitVec.ofNat 64 (satAdd max64 s.log.lost.toNat 1) }
    setFlag { s with log := l } 9

/-- A report opens a record (21 R475, 18 R435). -/
def openRecord (s : State) (r : Report) : State :=
  let l := s.log
  let n := l.last + 1
  let x : LogRec := ⟨n, s.ctl.timer, s.ctl.timer, r.origin, r.cls, r.sev, r.own, r.count, r.reporter, r.detail⟩
  { s with log := { l with recs := l.recs ++ [x], last := n } }

/-- The status flag of a record class (17 R413): PEERLOSS, UNCORR, BITE. -/
def classFlag (cls : W16) : Option Nat := if cls = 0x10 then some 3 else if cls = 0xA then some 4 else if cls = 9 then some 5 else none

/-- The events of a report of a class: one for each report (17 R413). -/
def flagEvents (s : State) (r : Report) : State :=
  match classFlag r.cls with
  | some f => (List.range r.count.toNat).foldl (fun s _ => setFlag s f) s
  | none => s

/-- A report of a region's unit counted as sent by its collector (18 R432). -/
def countSent (s : State) (r : Report) : State :=
  if originKind r.reporter ≤ 8 then
    let k := fieldN r.reporter.toNat 18 2
    let x := s.region k
    s.setRegion k { x with sent := BitVec.ofNat 64 (satAdd max64 x.sent.toNat 1) }
  else s

/-- A report enters the log (21 R479). -/
def enterLog (s : State) (r : Report) : State :=
  let s := match s.log.recs.findIdx? fun x => x.takes r s.ctl.timer with
    | some i => { s with log := { s.log with recs := modifyNth (fun x => x.merge r s.ctl.timer) i s.log.recs } }
    | none => openRecord (makeRoom s) r
  flagEvents (countSent s r) r

end Sys2Proof.Machine
end

