-- ==== Sys2Proof/Machine/StartOps.lean ====
section
/-! DEFINITION. Power-up (21 R464 to R466), the reset pin (22 R486), supply good (22 R487), the sideband outputs (22 R484, R485). -/

namespace Sys2Proof.Machine

/-- Supply good rises after OFF (17 R412, 21 R464, R467): BOOT, stage 1. -/
def supplyRise (s : State) : State :=
  { s with ctl := { s.ctl with
    st := .boot, prev := .off, supply := true, stage := 1, entryMs := s.ctl.timer, bootAt := s.ctl.timer, bootK := s.ctl.kModule } }

/-- The measurement registers that a stage extends, in order (16 R388, 21 R464). -/
def stageMeas (stage : Nat) : List Nat :=
  if stage = 1 then [0, 8] else if stage = 2 then [1, 2, 3, 4, 5, 6] else if stage = 3 then [7, 9] else []

/-- Measurement registers extended with the digests of a stage. -/
def extendAll (s : State) : List Nat → List (List Byte) → State
  | n :: ns, d :: ds => extendAll (extendMeas s n d) ns ds
  | _, _ => s

/-- A unit that failed its start-up test: one record (21 R464). -/
def testFailure (s : State) (origin : W32) : State := reportLog s origin origin 0x14 none 0

/-- Stage 5: a controller that did not train is out of service (21 R464). -/
def stageControllers (s : State) (bad : BitVec 24) : State :=
  (List.range 24).foldl (fun s m =>
    if bad.getLsbD m then
      let x := s.region (m / 6)
      testFailure (s.setRegion (m / 6) { x with ctlOos := x.ctlOos ||| (1#6 <<< (m % 6)) }) (originCtl s m)
    else s) s

/-- A bank that failed its test (01 R16, 21 R464): failing, the record its own. Banks are numbered 256r + n. -/
def badBank (s : State) (n : Nat) : State :=
  let r := n / 256
  let x := s.region r
  testFailure (s.setRegion r { x with bankFail := x.bankFail ||| (1#256 <<< (n % 256)) }) (originBank s r (n % 256))

/-- A group and the block above it after stage 6 (01 R16, 21 R464): each has its record, that of the group under its first bank (log
entry 69). -/
def stageGroup (t : BootResult) (s : State) (g : Nat) : State :=
  let bank := t.badBanks.any fun n => n / 16 == g
  let grp := t.badGroups.getLsbD g || bank
  let blk := t.badBlocks.getLsbD g || grp
  let s := if grp then testFailure s (originBank s (g / 16) (16 * (g % 16))) else s
  let s := if blk then testFailure s (originBlock s g) else s
  if blk then s.setBlock g { s.block g with oos := true, groupOos := (s.block g).groupOos || grp } else s

/-- Stage 6: banks, groups and blocks that failed are out of service (21 R464). -/
def stageBlocks (s : State) (t : BootResult) : State := (List.range 64).foldl (stageGroup t) (t.badBanks.foldl badBank s)

/-- Whether no block or no controller is in service (21 R464, stage 7). -/
def nothingServes (s : State) : Bool :=
  (List.range 64).all (fun b => (s.block b).oos) || (List.range 24).all (fun m => (s.region (m / 6)).ctlOos.getLsbD (m % 6))

/-- The FAULTED cause of a stage that fails (21 R464): none where the stage's failure only takes units out of service, or has no
effect listed. -/
def stageCause (stage : Nat) (cause : Byte) : Option Byte :=
  if stage = 2 then some (if cause = 2 then 2 else 1)
  else if stage = 3 then some 5
  else if stage = 4 then some (if cause = 6 then 6 else 3)
  else if stage = 7 then some 4
  else none

/-- The effect of a stage that has succeeded (21 R464). -/
def stageDone (s : State) (t : BootResult) : State :=
  let n := s.ctl.stage
  let s := extendAll s (stageMeas n) t.digests
  let s := if n = 3 then { s with ctl := { s.ctl with armed := true, wdNow := s.ctl.wdNew, wdAt := moduleDue s s.ctl.wdNew.toNat } } else s
  let s := if n = 5 then stageControllers s t.badControllers else if n = 6 then stageBlocks s t else s
  let s := { s with ctl := { s.ctl with stage := n + 1 } }
  if n = 7 then (if nothingServes s then faultModule s 4 else setModSt s .standby) else s

/-- Whether a power-up stage is under way: BOOT, the reset pin not held (21 R464, 22 R486). -/
def booting (s : State) : Bool := decide (s.ctl.st = .boot) && !s.ctl.pinHeld

/-- A stage ends (21 R464). -/
def stageEnd (s : State) (t : BootResult) : State :=
  if t.ok ∨ s.ctl.stage = 5 ∨ s.ctl.stage = 6 then stageDone s t
  else match stageCause s.ctl.stage t.cause with
    | some c => faultModule s c
    | none => s

/-- The limit of a stage in ms from supply good, armed there (21 R464, 02 R49). -/
def stageLimit (stage : Nat) : Nat :=
  if stage = 1 then 50 else if stage = 2 then 400 else if stage = 3 then 600 else if stage = 4 then 1000
  else if stage = 5 then 3000 else if stage = 6 then 6000 else 6500

/-- A stage runs past its limit (21 R465): a failure of the stage. -/
def stageOver (s : State) (t : BootResult) : State :=
  stageEnd (moduleTimeTo s (count48 s.ctl.bootAt (ticks s.ctl.bootK (stageLimit s.ctl.stage)))) { t with ok := false }

/-- PWROK pulled low (22 R484, R485): false stands for released, or high impedance. -/
def pwrokLow (s : State) : Bool :=
  match s.ctl.st with
  | .off => false
  | .standby => false
  | .active => false
  | _ => true

/-- PRSNT_N low (22 R484): tied to return on the module, so low whenever the module is mated, whatever its state. -/
def prsntLow (_ : State) : Bool := true

/-- ALERT_N pulled low (22 R484, R485). -/
def alertLow (s : State) : Bool := decide (s.ctl.st ≠ .off) && (decide (s.ctl.flags ≠ 0) || decide (s.ctl.st = .faulted))

end Sys2Proof.Machine
end

