-- ==== Sys2Proof/Machine/Startup.lean ====
section
/-! DEFINITION. The commands of power-up, resets, the error path and plain register writes (21, 22 R486, R487, 00 R4, 18 R433). -/

namespace Sys2Proof.Machine

/-- SUPPLY_GOOD_RISE (22 R487, 21 R464). -/
def execSupplyGoodRise (s : State) : Ans := next (if s.ctl.st = .off then supplyRise s else s)

/-- SUPPLY_GOOD_FALL (22 R487, 17 R412). -/
def execSupplyGoodFall (s : State) : Ans := next (if s.ctl.st = .off then s else powerOff s)

/-- BOOT_STAGE_END (21 R464). -/
def execBootStageEnd (r : BootResult) (s : State) : Ans := next (if booting s then stageEnd s r else s)

/-- BOOT_STAGE_TIMEOUT (21 R465). -/
def execBootStageTimeout (r : BootResult) (s : State) : Ans := next (if booting s then stageOver s r else s)

/-- RESET_PIN_ASSERT (22 R486, 21 R467): in OFF the pin has no effect. -/
def execResetPinAssert (s : State) : Ans :=
  next (
    if s.ctl.st = .off ∨ s.ctl.pinHeld = true then s
    else moduleReset { s with ctl := { s.ctl with pinHeld := true } } 1)

/-- RESET_PIN_RELEASE (22 R486): stage 1 begins. -/
def execResetPinRelease (s : State) : Ans :=
  next (
    if s.ctl.pinHeld then { s with ctl := { s.ctl with pinHeld := false, bootAt := s.ctl.timer, bootK := s.ctl.kModule } }
    else s)

/-- FATAL_MODULE_ERROR (21 R471): causes 0x03 and 0x06. -/
def execFatalModuleError (cause : Byte) (s : State) : Ans :=
  next (if (cause = 3 ∨ cause = 6) ∧ powered s = true then faultModule s cause else s)

/-- BLOCK_COLLECTOR_REPORT (21 R474): report k, or an earlier one of the same collector. -/
def execBlockCollectorReport (k : Nat) (s : State) : Ans :=
  next (
    match takeMsg (fun x y => x.col == y.col) k s.breps with
    | none => s
    | some (r, rest) =>
      match r.block with
      | some b => collect { s with breps := rest } b.val r
      | none => s)

/-- LOG_REPORT (21 R479): report k, or an earlier one of the same collector. -/
def execLogReport (k : Nat) (s : State) : Ans :=
  next (
    match takeMsg (fun x y => x.col == y.col) k s.lreps with
    | none => s
    | some (r, rest) => enterLog { s with lreps := rest } r)

/-- REGISTER_WRITE (00 R4, 01 R26, R27): up to 8 bytes. -/
def execRegisterWrite (hall : Byte) (addr : BitVec 48) (len : Fin 9) (v : BitVec 64) (s : State) : Ans :=
  next (regAccess s hall addr.toNat fun s => ctlPut s hall addr.toNat (leBytes len.val v.toNat))

/-- LINK_STATE_CHANGE (18 R433, 20 R462): the host port needs its die's power. -/
def execLinkStateChange (iface : Iface) (up : Bool) (s : State) : Ans :=
  next (
    match iface with
    | .host => if powered s then { s with eth := { s.eth with host := { s.eth.host with up := up } } } else s
    | .field => if s.ctl.st = .off then s else { s with eth := { s.eth with field := { s.eth.field with up := up } } })

end Sys2Proof.Machine
end

