-- ==== Sys2Proof/Machine/VectorArith.lean ====
section
/-! DEFINITION. The vector arithmetic family VA and VPACKS (04 R84 to R92, 09 R207, R217, R218). Every instruction is predicated:
an inactive element keeps its old value or becomes zero and sets no flag (R87). -/

namespace Sys2Proof.Machine

/-- A vector instruction presented to a cell: illegal where its word is reserved, else once the datapaths are powered (04 R109). -/
def vecIssue (s : State) (c : CellId) (legal : Bool) (f : State → Res) : State :=
  issue s c fun s => if legal then vecReady s c f else illegal s

/-- A predicated result with a flag for each element: `f` gives the element and what it raises (04 R87). -/
def vecMap {α : Type} (z : Size) (g : Gov) (k : Cell) (d : Reg) (e0 : α) (f : Nat → Nat × α) : List (Nat × α) :=
  let p := k.gov g
  let old := k.v[d]
  (List.range (szElems z)).map fun i =>
    if active z p i then f i else (if g.zero then 0 else elemAt z old i, e0)

/-- A predicated integer result. -/
def vecInt (z : Size) (g : Gov) (k : Cell) (d : Reg) (f : Nat → Nat) : Cell :=
  k.wrV d (mergeElems z g (k.gov g) k.v[d] f)

/-- A predicated floating result: FSTAT's flags of the active elements are set (04 R90). -/
def vecFp (z : Size) (g : Gov) (k : Cell) (d : Reg) (f : Nat → Nat × Fl) : Cell :=
  let rs := vecMap z g k d Fl.none f
  (k.wrV d (ofElems z (rs.map (·.1)))).orFl (rs.foldl (fun a r => a.or r.2) Fl.none)

/-- A predicated saturating result: VSTAT.SAT where a clamp of an active element changed its value (04 R92). -/
def vecSat (z : Size) (g : Gov) (k : Cell) (d : Reg) (f : Nat → Nat × Bool) : Cell :=
  let rs := vecMap z g k d false f
  (k.wrV d (ofElems z (rs.map (·.1)))).orSat (rs.any (·.2))

/-- The integer operations on elements of `e` bits (04 R91). -/
def vIntElem (op : VIntOp) (e a b : Nat) : Nat :=
  let sh := b % e
  match op with
  | .add => (a + b) % 2 ^ e
  | .sub => (a + 2 ^ e - b) % 2 ^ e
  | .mul => (a * b) % 2 ^ e
  | .and => a &&& b
  | .orr => a ||| b
  | .xor => a ^^^ b
  | .bic => a &&& (2 ^ e - 1 - b)
  | .sll => (a <<< sh) % 2 ^ e
  | .srl => a >>> sh
  | .sra => ((BitVec.ofNat e a).sshiftRight sh).toNat
  | .reserved _ => 0

/-- Whether an integer function is not reserved. -/
def vIntOk : VIntOp → Bool
  | .reserved _ => false
  | _ => true

/-- VECTOR_INT_OP (04 R91). -/
def execVectorIntOp (c : CellId) (op : VIntOp) (sz : Size) (d a b : Reg) (g : Gov) (s : State) : Ans :=
  next (vecIssue s c (vIntOk op && !g.rsv) fun s => onCell s c fun k =>
    vecInt sz g k d fun i => vIntElem op (szBits sz) (elemAt sz k.v[a] i) (elemAt sz k.v[b] i))

/-- Whether a floating operation has one operand. -/
def vFpUnary : VFpOp → Bool
  | .sqrt => true
  | .abs => true
  | .neg => true
  | _ => false

/-- The format of a size with a floating type. -/
def szFmt (z : Size) : Fmt := fmtOf (decide (z = .d))

/-- VECTOR_FP_OP (04 R90, 09 VA 0x10–0x1C and 0x30–0x3C). -/
def execVectorFpOp (c : CellId) (op : VFpOp) (bc : Bool) (sz : Size) (d a b : Reg) (g : Gov) (s : State) : Ans :=
  next (vecIssue s c (szFp sz && !g.rsv && (!vFpUnary op || (!bc && b.val == 0))) fun s => onCell s c fun k =>
    let vb (i : Nat) : Nat := if bc then elemAt sz k.v[b] 0 else elemAt sz k.v[b] i
    vecFp sz g k d fun i => fpBits op (szFmt sz) k.frm (elemAt sz k.v[a] i) (vb i) (elemAt sz k.v[d] i))

/-- An element of VFXMULHR or VFXMULH (04 R92). -/
def vFxElem (rnd : Bool) (e : Nat) (a b : Int) : Nat × Bool :=
  satBits true e ((2 * a * b + (if rnd then 2 ^ (e - 1) else 0)) / 2 ^ e)

/-- VFXMUL (04 R92). -/
def execVfxmul (c : CellId) (rnd : Bool) (sz : Size) (d a b : Reg) (g : Gov) (s : State) : Ans :=
  next (vecIssue s c (decide (sz = .h ∨ sz = .w) && !g.rsv) fun s => onCell s c fun k =>
    vecSat sz g k d fun i => vFxElem rnd (szBits sz) (sgnElem sz (elemAt sz k.v[a] i)) (sgnElem sz (elemAt sz k.v[b] i)))

/-- An element of VSATADD or VSATSUB (04 R92). -/
def vSatElem (sz : Size) (sub uns : Bool) (a b : Nat) : Nat × Bool :=
  let x : Int := if uns then (a : Int) else sgnElem sz a
  let y : Int := if uns then (b : Int) else sgnElem sz b
  satBits (!uns) (szBits sz) (if sub then x - y else x + y)

/-- VSATADD_VSATSUB (04 R92). -/
def execVsataddVsatsub (c : CellId) (sub uns : Bool) (sz : Size) (d a b : Reg) (g : Gov) (s : State) : Ans :=
  next (vecIssue s c (!g.rsv) fun s => onCell s c fun k =>
    vecSat sz g k d fun i => vSatElem sz sub uns (elemAt sz k.v[a] i) (elemAt sz k.v[b] i))

/-- An element of VCVT (09 R216, R217). -/
def vCvtElem (op : VCvtOp) (sz : Size) (rm : Rm) (a : Nat) : Nat × Fl :=
  let f := szFmt sz
  match op with
  | .fi => fpDone f rm ⟨fpOfInt (sgnElem sz a), Fl.none⟩
  | .fu => fpDone f rm ⟨fpOfInt (a : Nat), Fl.none⟩
  | .toI => fpToBits rm true (szBits sz) (f.decode a)
  | .toU => fpToBits rm false (szBits sz) (f.decode a)

/-- VCVT (09 R217). -/
def execVcvt (c : CellId) (op : VCvtOp) (sz : Size) (d a : Reg) (g : Gov) (s : State) : Ans :=
  next (vecIssue s c (szFp sz && !g.rsv) fun s => onCell s c fun k =>
    vecFp sz g k d fun i => vCvtElem op sz k.frm (elemAt sz k.v[a] i))

/-- The narrow size of VFWIDEN and VFNARROW, and its format (09 R217). -/
def narrowSz (sz : Size) : Size := if sz = .d then .w else .h
/-- The format of the narrow elements (09 R217). -/
def narrowFmt (sz : Size) : Fmt := if sz = .d then fp32 else bf16

/-- VFWIDEN (09 R217). -/
def execVfwiden (c : CellId) (hi : Bool) (sz : Size) (d a : Reg) (g : Gov) (s : State) : Ans :=
  next (vecIssue s c (szFp sz && !g.rsv) fun s => onCell s c fun k =>
    let o := if hi then szElems sz else 0
    vecFp sz g k d fun i => fpConv (narrowFmt sz) (szFmt sz) k.frm (elemAt (narrowSz sz) k.v[a] (o + i)))

/-- VFNARROW (09 R217): Va fills the low half of Vd, Vb the high half; each destination element has its own predicate bit. -/
def execVfnarrow (c : CellId) (sz : Size) (d a b : Reg) (g : Gov) (s : State) : Ans :=
  next (vecIssue s c (szFp sz && !g.rsv) fun s => onCell s c fun k =>
    let n := szElems sz
    vecFp (narrowSz sz) g k d fun i =>
      fpConv (szFmt sz) (narrowFmt sz) k.frm (if i < n then elemAt sz k.v[a] i else elemAt sz k.v[b] (i - n)))

/-- The source size and the shift of SZSH (09 R218); none for a reserved value. -/
def szsh (n : Nat) : Option (Size × Nat) :=
  if n < 64 then some (.d, n) else if n < 96 then some (.w, n - 64) else if n < 112 then some (.h, n - 96) else none

/-- The size of half a size. -/
def halfSz : Size → Size
  | .d => .w
  | .w => .h
  | _ => .b

/-- An element of VPACKS (04 R92). -/
def vPackElem (var : PackVar) (src : Size) (sh : Nat) (rnd : Bool) (a : Nat) : Nat × Bool :=
  let e := szBits (halfSz src)
  let r : Int := if rnd && decide (0 < sh) then 2 ^ (sh - 1) else 0
  match var with
  | .ss => satBits true e ((sgnElem src a + r) / 2 ^ sh)
  | .su => satBits false e ((sgnElem src a + r) / 2 ^ sh)
  | .uu => satBits false e (((a : Int) + r) / 2 ^ sh)
  | .reserved => (0, false)

/-- VPACKS (04 R92, 09 R218). -/
def execVpacks (c : CellId) (var : PackVar) (sh : BitVec 7) (rnd : Bool) (d a b : Reg) (g : Gov) (s : State) : Ans :=
  next (vecIssue s c (decide (var ≠ .reserved) && (szsh sh.toNat).isSome && !g.rsv) fun s =>
    match szsh sh.toNat with
    | none => illegal s
    | some (src, n) => onCell s c fun k =>
      let h := szElems src
      vecSat (halfSz src) g k d fun i =>
        vPackElem var src n rnd (if i < h then elemAt src k.v[a] i else elemAt src k.v[b] (i - h)))

end Sys2Proof.Machine
end

