-- ==== Sys2Proof/Machine/VectorMem.lean ====
section
/-! DEFINITION. The vector memory family VM but SLD (04 R99 to R106, R86): VLD, VST, gathers, scatters, predicate moves. -/

namespace Sys2Proof.Machine

/-- The elements of an active range: each with its address. -/
def elemAddrs (z : Size) (p : BitVec 256) (start : Nat) (addr : Nat → W64) : List (Nat × W64) :=
  ((List.range (szElems z)).filter fun i => decide (start ≤ i) && active z p i).map fun i => (i, addr i)

/-- The lowest of some elements that faults before any data returns (04 R99): its exception, with its address. -/
def firstElemFault (s : State) (c n : Nat) (wr : Bool) : List (Nat × W64) → Option Exc
  | [] => none
  | e :: es =>
    match xlates s c e.2 n with
    | .error x => some { x with addr := e.2 }
    | .ok as =>
      if !wr && (firstRefused s (s.cell c).hall as).isSome then some ⟨4, 0, e.2⟩ else firstElemFault s c n wr es

/-- The record of a refusal of the element that an exception names (03 R82). -/
def refusedElem (s : State) (c n : Nat) (e : Exc) : State :=
  match (if e.cls = 4 then xlates s c e.addr n else .ok []) with
  | .ok as => (match firstRefused s (s.cell c).hall as with
    | some (_, a) => memRefusal s a
    | none => s)
  | .error _ => s

/-- What reading some elements in ascending order meets: every value, a fault at an element after the values of those below it,
or a wait for an SRAM group. -/
inductive Gathered where
  | all (vals : List (Nat × Nat)) (s : State)
  | fault (i : Nat) (e : Exc) (vals : List (Nat × Nat)) (s : State)
  | hold (s : State)

/-- What the check bits show on element `i` of `n` bytes: `byte` counts through the elements from element 0. -/
def elemCheck (chk : Check) (n i : Nat) : Check := if chk.byte / n = i then ⟨chk.ecc, chk.byte % n, chk.out⟩ else .clean

/-- Elements read in ascending order (04 R101); `acc`: the values read, newest first. -/
def gatherElems (c n : Nat) (chk : Check) : List (Nat × W64) → List (Nat × Nat) → State → Gathered
  | [], acc, s => .all acc s
  | e :: es, acc, s =>
    match cellRead s c e.2 n (elemCheck chk n e.1) with
    | .hold s => .hold s
    | .raise x s => .fault e.1 { x with addr := e.2 } acc s
    | .go as s => gatherElems c n chk es ((e.1, leNat (cellBytes s c as)) :: acc) s

/-- What storing some elements in ascending order meets: all performed, a fault at an element, or a wait. -/
inductive Scattered where
  | all (s : State)
  | fault (i : Nat) (e : Exc) (s : State)
  | hold (s : State)

/-- Elements stored in ascending order, so that the higher one's bytes remain on an overlap (04 R101 to R103). -/
def scatterElems (c n : Nat) (val : Nat → Nat) (chk : Check) : List (Nat × W64) → State → Scattered
  | [], s => .all s
  | e :: es, s =>
    match xlates s c e.2 n with
    | .error x => .fault e.1 { x with addr := e.2 } s
    | .ok as => scatterElems c n val chk es (cellStore s c e.2 as (leBytes n (val e.1)) (elemCheck chk n e.1))

/-- The groups behind some elements woken, up to the first that does not translate. -/
def wakeElems (s : State) (c n : Nat) : List (Nat × W64) → State
  | [] => s
  | e :: es =>
    match xlates s c e.2 n with
    | .error _ => s
    | .ok as => wakeElems (wakeAll s (runs as)) c n es

/-- Whether the groups behind some elements are powered and no arbiter on the way is frozen, up to the first that does not translate. -/
def elemsReady (s : State) (c n : Nat) : List (Nat × W64) → Bool
  | [] => true
  | e :: es =>
    match xlates s c e.2 n with
    | .error _ => true
    | .ok as => as.all (fun a => groupReady s a && !cellHeld s c a) && elemsReady s c n es

/-- The value of an element in a list of read values. -/
def valOf (vals : List (Nat × Nat)) (i : Nat) : Nat := ((vals.find? fun e => e.1 == i).map (·.2)).getD 0

/-- Vd after elements [start, stop) of a load: active ones hold the values read, inactive ones follow the mode (04 R87, R101). -/
def loadElems (z : Size) (g : Gov) (p : BitVec 256) (old : BitVec 2048) (start stop : Nat) (vals : List (Nat × Nat)) : BitVec 2048 :=
  ofElems z ((List.range (szElems z)).map fun i =>
    if start ≤ i ∧ i < stop then (if active z p i then valOf vals i else if g.zero then 0 else elemAt z old i)
    else elemAt z old i)

/-- VLD (04 R99). -/
def execVld (c : CellId) (d a : Reg) (sz : Size) (g : Gov) (chk : Check) (s : State) : Ans :=
  next (vecIssue s c (!g.rsv) fun s =>
    let k := s.cell c
    let n := szBytes sz
    let es := elemAddrs sz (k.gov g) 0 fun i => k.rdG a + BitVec.ofNat 64 (n * i)
    match firstElemFault s c n false es with
    | some e => .exc e (refusedElem s c n e)
    | none =>
      match gatherElems c n chk es [] s with
      | .hold s => .stay s
      | .fault _ e _ s => .exc e s
      | .all vals s => onCell s c fun k => k.wrV d (loadElems sz g (k.gov g) k.v[d] 0 (szElems sz) vals))

/-- VST (04 R99): only access faults are precise (03 R82). -/
def execVst (c : CellId) (d a : Reg) (sz : Size) (g : Gov) (chk : Check) (s : State) : Ans :=
  next (vecIssue s c (!g.rsv && !g.zero) fun s =>
    let k := s.cell c
    let n := szBytes sz
    let es := elemAddrs sz (k.gov g) 0 fun i => k.rdG a + BitVec.ofNat 64 (n * i)
    match firstElemFault s c n true es with
    | some e => .exc e s
    | none =>
      let s := wakeElems s c n es
      if !elemsReady s c n es then .stay s
      else match scatterElems c n (elemAt sz k.v[d]) chk es s with
        | .all s => .done s
        | .fault _ e s => .exc e s
        | .hold s => .stay s)

/-- The address of element `i` of a gather or scatter (04 R100). -/
def indexAddr (k : Cell) (a i : Reg) (sz : Size) (ext sc : Bool) (j : Nat) : W64 :=
  let x := elemAt sz k.v[i] j
  let y := if ext then sext64 (szBits sz) x else BitVec.ofNat 64 x
  k.rdG a + y <<< (if sc then Nat.log2 (szBytes sz) else 0)

/-- VRESUME.IDX (04 R88). -/
def Cell.resumeIdx (k : Cell) : Nat := fieldN k.vresume.toNat 0 9

/-- An element fault (04 R101): VRESUME, VFCAUSE and class 0x06. -/
def elemFault (s : State) (c : CellId) (i : Nat) (e : Exc) : Res :=
  .exc ⟨6, BitVec.ofNat 8 i, e.addr⟩ (s.updCell c.val fun k =>
    { k with vresume := BitVec.ofNat 32 i, vfcause := BitVec.ofNat 32 (e.cls.toNat + 256 * e.detail.toNat) })

/-- VGATHER (04 R100, R101). -/
def execVgather (c : CellId) (d a i : Reg) (sz : Size) (g : Gov) (ext sc : Bool) (chk : Check) (s : State) : Ans :=
  next (vecIssue s c (!g.rsv) fun s =>
    let k := s.cell c
    let st := k.resumeIdx
    match gatherElems c (szBytes sz) chk (elemAddrs sz (k.gov g) st (indexAddr k a i sz ext sc)) [] s with
    | .hold s => .stay s
    | .fault j e vals s =>
      elemFault (s.updCell c.val fun k => k.wrV d (loadElems sz g (k.gov g) k.v[d] st j vals)) c j e
    | .all vals s =>
      onCell s c fun k => { k.wrV d (loadElems sz g (k.gov g) k.v[d] st (szElems sz) vals) with vresume := 0 })

/-- VSCATTER (04 R100 to R103). -/
def execVscatter (c : CellId) (d a i : Reg) (sz : Size) (g : Gov) (ext sc : Bool) (chk : Check) (s : State) : Ans :=
  next (vecIssue s c (!g.rsv && !g.zero) fun s =>
    let k := s.cell c
    let n := szBytes sz
    let es := elemAddrs sz (k.gov g) k.resumeIdx (indexAddr k a i sz ext sc)
    let s := wakeElems s c n es
    if !elemsReady s c n es then .stay s
    else match scatterElems c n (elemAt sz k.v[d]) chk es s with
      | .all s => onCell s c fun k => { k with vresume := 0 }
      | .fault j e s => elemFault s c j e
      | .hold s => .stay s)

/-- Pg with every element from `j` on inactive (04 R105). -/
def cutPred (z : Size) (p : BitVec 256) (j : Nat) : BitVec 256 :=
  ofActive z ((List.range (szElems z)).map fun i => decide (i < j) && active z p i)

/-- VGATHERFF (04 R105): a fault above the first active element at or above VRESUME.IDX only cuts the predicate. -/
def execVgatherff (c : CellId) (d a i : Reg) (pd : PReg) (sz : Size) (g : Gov) (ext sc : Bool) (chk : Check) (s : State) : Ans :=
  next (vecIssue s c (!g.rsv) fun s =>
    let k := s.cell c
    let st := k.resumeIdx
    let p := k.gov g
    let es := elemAddrs sz p st (indexAddr k a i sz ext sc)
    let fin (s : State) (j : Nat) (vals : List (Nat × Nat)) : Res :=
      onCell s c fun k =>
        { (k.wrV d (loadElems sz g p k.v[d] st j vals)).wrP pd (if st < szElems sz then cutPred sz p j else 0) with vresume := 0 }
    match gatherElems c (szBytes sz) chk es [] s with
    | .hold s => .stay s
    | .fault j e vals s =>
      if (es.head?.map (·.1)) = some j then elemFault s c j e else fin s j vals
    | .all vals s => fin s (szElems sz) vals)

/-- PLD, PST (04 R86, R89): 32 bytes as they stand. -/
def execPldPst (c : CellId) (store : Bool) (p : PReg) (a : Reg) (chk : Check) (s : State) : Ans :=
  next (vecIssue s c true fun s =>
    let k := s.cell c
    let va := k.rdG a
    if store then memRes (cellWriteCheck s c va 32) fun as s => .done (cellStore s c va as (leBytes 32 k.p[p].toNat) chk)
    else memRes (cellRead s c va 32 chk) fun as s => onCell s c fun k => k.wrP p (BitVec.ofNat 256 (leNat (cellBytes s c as))))

/-- VRESUME_WRITE (04 R104). -/
def execVresumeWrite (c : CellId) (a : Reg) (s : State) : Ans :=
  next (issue s c fun s => swrRes s c 0x041 ((s.cell c).rdG a))

/-- VECTOR_GATE (04 R108): the idle time has passed. -/
def execVectorGate (c : CellId) (s : State) : Ans :=
  next (
    let k := s.cell c
    if k.held || !k.vpwr.getLsbD 0 || k.vwaking then s else s.setCell c { k with vgated := true })

/-- Deferred zeroing: bits above 63 of some registers become zero (04 R110). -/
def Cell.zeroTops (k : Cell) : List Nat → Cell
  | [] => { k with vzero := [] }
  | r :: rs => Cell.zeroTops { k with v := k.v.setIfInBounds r ((vget k.v r).truncate 64 |>.zeroExtend 2048) } rs

/-- The vector datapaths powered again (04 R109, R110). -/
def Cell.vecWake (k : Cell) : Cell := { k.zeroTops k.vzero with vgated := false, vwaking := false, vwait := false }

/-- VECTOR_WAKE_END (04 R109 to R111). -/
def execVectorWakeEnd (c : CellId) (s : State) : Ans :=
  next (if (s.cell c).vwaking then s.updCell c Cell.vecWake else s)

end Sys2Proof.Machine
end

