-- ==== Sys2Proof/Machine/Strands.lean ====
section
/-! DEFINITION. Strands at the cell (05 R119 to R128): SLD, VMAP and STRSTAT. -/

namespace Sys2Proof.Machine

/-- A strand fault (05 R128). -/
def strandFault (s : State) (detail : Byte) : Res := .exc ⟨7, detail, 0⟩ s

/-- SLD (05 R113, R119 to R121): the header first, then exactly the bytes of the image; the slot is written only by a valid one.
DEDUCED (log entry 97): an invalid header ends it before the body is read, so that no fault of the body is met.
DESIGN CHOICE (log entry 116): an address that is misaligned and meets another access fault too is reported as misaligned, DETAIL 0x05
(03 R63 orders classes only). -/
def execSld (c : CellId) (n : Fin 4) (a : Reg) (chk : Check) (s : State) : Ans :=
  next (issue s c fun s =>
    let va := (s.cell c).rdG a
    if va.toNat % 8 ≠ 0 then .exc ⟨3, 5, va⟩ s
    else memRes (cellRead s c va 8 (if chk.byte < 8 then chk else .clean)) fun as s =>
      let h := leNat (cellBytes s c as)
      if !headerOk h then strandFault s 0xF0
      else memRes (cellRead s c va (strandBytes h) (if chk.byte < 8 then .clean else chk)) fun as s =>
        match strandOf (cellBytes s c as) with
        | .error e => strandFault s e
        | .ok x => onCell s c fun k => { k with ss := k.ss.set n (some x) })

/-- The first bead that names OUT2 as its destination or as a source it reads (05 R123, R128). -/
def Strand.namesOut2 (x : Strand) : Option Nat :=
  x.beads.findIdx? fun b =>
    let n := srcCount b.op.toNat
    b.dst.toNat == 14 || b.a.toNat == 14 || (decide (2 ≤ n) && b.b.toNat == 14) || (decide (3 ≤ n) && b.c.toNat == 14)

/-- The inputs of element `i` (05 R123): Va to Va+3, modulo 32. -/
def vmapIns (k : Cell) (a i : Nat) : List W32 :=
  (List.range 4).map fun j => BitVec.ofNat 32 (elemAt .w (vget k.v ((a + j) % 32)) i)

/-- The context scalars X0–X7 (05 R123): F24–F31. -/
def vmapX (k : Cell) : List W32 := (List.range 8).map fun j => (vget k.v (24 + j)).truncate 32

/-- An output register of VMAP (05 R124): written where some bead names the output. -/
def vmapOut (k : Cell) (x : Strand) (g : Gov) (d : Nat) (out : Nat) (rs : List Elem) : Cell :=
  match x.writer (12 + out) with
  | none => k
  | some _ =>
    { k with v := k.v.setIfInBounds d (mergeElems .w g (k.gov g) (vget k.v d) fun i =>
      (((rs[i]?).getD Elem.start).outs.getD out 0).toNat) }

/-- The lowest bead that TRAPNV stops on in some active element (05 R128). -/
def trapBead (rs : List Elem) : Option Nat :=
  rs.foldl (fun m r => match m, r.trap with
    | none, t => t
    | some a, some b => some (min a b)
    | some a, none => some a) none

/-- VMAP (05 R123 to R128). -/
def execVmap (c : CellId) (d a : Reg) (n : Fin 4) (g : Gov) (s : State) : Ans :=
  next (vecIssue s c (!g.rsv) fun s =>
    let k := s.cell c
    match k.ss[n] with
    | none => strandFault s 0xF1
    | some x =>
      match x.namesOut2 with
      | some j => strandFault s (BitVec.ofNat 8 j)
      | none =>
        let rs := (List.range 64).map fun i =>
          if active .w (k.gov g) i then x.run k.frm (vmapIns k a.val i) (vmapX k) else Elem.start
        match trapBead rs with
        | some j => strandFault s (BitVec.ofNat 8 j)
        | none =>
          let k1 := vmapOut k x g d.val 0 rs
          let k2 := vmapOut k1 x g ((d.val + 1) % 32) 1 rs
          .done (s.setCell c (k2.orFl (rs.foldl (fun f r => f.or r.fl) Fl.none))))

/-- STRSTAT_EMPTY (05 R122). -/
def execStrstatEmpty (c : CellId) (a : Reg) (s : State) : Ans :=
  next (issue s c fun s => swrRes s c 0x045 ((s.cell c).rdG a))

end Sys2Proof.Machine
end

