-- ==== Sys2Proof/Machine/Tiles.lean ====
section
/-! DEFINITION. The tile instructions and the tile windows (06 R134 to R161, 01 R24, R25). -/

namespace Sys2Proof.Machine

/-- A tile shape fault (06 R138). -/
def shapeFault (s : State) : Res := .exc ⟨8, 0, 0⟩ s

/-- A tile instruction that passed its checks: accepted, or waiting for the oldest to commit (06 R139). -/
def tileIssue (s : State) (c : CellId) (i : TileOp) : Res :=
  match tileAccept s c.val i with
  | (s, true) => .done s
  | (s, false) => .stay s

/-- The registers of a list whose read by an instruction meets a transient parity error (06 R157): those it reads, in its order. -/
def parHits (k : Cell) (i : TileOp) (par : List TReg) : List Nat :=
  (par.map (·.val)).filter fun t => (k.fileReads i).any fun r => r.1 == t

/-- Whether a list names the resident accumulator that an instruction starts from (06 R158). -/
def accHit (k : Cell) (i : TileOp) (par : List TReg) : Bool := k.readsAcc i && par.any fun t => k.meetsRes t.val 1

/-- An instruction accepted after the parity errors its reads meet: an error in the accumulator, or a third one in a row, is a cell
fault; each of the first two restarts it (06 R157, R158). A stored error is met at every read. -/
def tileIssuePar (s : State) (c : CellId) (i : TileOp) (par : List TReg) : Res :=
  if par.isEmpty then tileIssue s c i
  else
    let s := commitAll s c.val
    let k := s.cell c.val
    if k.faulted || !k.tpend.isEmpty then .stay s
    else if accHit k i par then .stay (accFault s c)
    else match parHits k i par ++ (match k.meetsBad i with | some r => [r, r, r] | none => []) with
      | [] => tileIssue s c i
      | [r] => tileIssue (parityRestart s c.val r) c i
      | [r, q] => tileIssue (parityRestart (parityRestart s c.val r) c.val q) c i
      | r :: q :: _ => .stay (cellFault (parityRestart (parityRestart s c.val r) c.val q) c.val)

/-- TMMA (06 R134 to R142). -/
def execTmma (c : CellId) (cq : Fin 16) (a b x : TReg) (o : BitVec 4) (gsel : BitVec 2) (par : List TReg) (s : State) : Ans :=
  next (issueTile s c fun s =>
    if (s.cell c).mmaLegal cq a b x o gsel then tileIssuePar s c (.mma cq a b x o gsel) par else shapeFault s)

/-- A tile instruction whose only read of the array is a write-back that it forces; `acc`: the accumulator's parity is then bad (06 R144,
R158). -/
def tileIssueAcc (s : State) (c : CellId) (i : TileOp) (acc : Bool) : Res :=
  if !acc then tileIssue s c i
  else
    let s := commitAll s c.val
    let k := s.cell c.val
    if k.faulted || !k.tpend.isEmpty then .stay s
    else if k.readsAcc i then .stay (accFault s c) else tileIssue s c i

/-- Whether a cell has an uncommitted TST. -/
def Cell.storePending (k : Cell) : Bool := k.tpend.any fun i => match i.op with | .store _ _ _ => true | _ => false

/-- TLD (06 R147, R152): the data of the access stands until the commit. It follows the older TST of the cell (03 R69). -/
def execTld (c : CellId) (td : TReg) (ga : Reg) (chk : Check) (acc : Bool) (s : State) : Ans :=
  next (issueTile s c fun s =>
    let s := if (s.cell c).storePending then commitAll s c.val else s
    let k := s.cell c
    if k.faulted || k.storePending then .stay s
    else memRes (cellRead s c (k.rdG ga) 1024 chk) fun as s =>
      tileIssueAcc s c (.load td (BitVec.ofNat 8192 (leNat (cellBytes s c as)))) acc)

/-- TST (06 R147, R152): only the access fault is precise; the store is performed at the commit. -/
def execTst (c : CellId) (ts : TReg) (ga : Reg) (par : List TReg) (chk : Check) (s : State) : Ans :=
  next (issueTile s c fun s =>
    let va := (s.cell c).rdG ga
    memRes (cellWriteCheck s c va 1024) fun _ s => tileIssuePar s c (.store ts va.toNat chk) par)

/-- TZERO (06 R147). -/
def execTzero (c : CellId) (td : TReg) (acc : Bool) (s : State) : Ans := next (issueTile s c fun s => tileIssueAcc s c (.zero td) acc)

/-- TZERO.Q (06 R146, R147). -/
def execTzeroQ (c : CellId) (tc : TReg) (acc : Bool) (s : State) : Ans :=
  next (issueTile s c fun s =>
    if (s.cell c).quadLegal tc then tileIssueAcc s c (.zeroQ (quadOf tc).val) acc else shapeFault s)

/-- F register bits [31:0] (06 R149). -/
def Cell.rdFs (k : Cell) (f : Reg) : W32 := (k.rdF f).truncate 32

/-- TSCALE (06 R147, 07 R184). -/
def execTscale (c : CellId) (tc : TReg) (fs : Reg) (par : List TReg) (s : State) : Ans :=
  next (issueTile s c fun s =>
    let k := s.cell c
    if k.quadLegal tc then tileIssuePar s c (.scale (quadOf tc).val (k.rdFs fs)) par else shapeFault s)

/-- TCVT (06 R147, R148): the tags decide the direction. A refused slot is an access fault, which ranks before a shape fault. -/
def tcvtRes (s : State) (c : CellId) (dst src : TReg) (fs gk : Reg) (par : List TReg) : Res :=
  let k := s.cell c
  let g := k.rdG gk
  let i := 256 * regionOfCell c + fieldN g.toNat 0 8
  if g.getLsbD 8 && (s.slot i).refuses k.hall then .exc ⟨3, 4, BitVec.ofNat 64 (slotPage i)⟩ s
  else if k.cvtNarrowLegal dst src then tileIssuePar s c (.narrow dst (quadOf src).val (k.rdFs fs) g) par
  else if k.cvtWidenLegal dst src then tileIssuePar s c (.widen (quadOf dst).val src (k.rdFs fs)) par
  else shapeFault s

/-- TCVT from an FP32 quad to FP8 or BF16 (06 R147, 07 R185). -/
def execTcvtNarrow (c : CellId) (td tc : TReg) (fs gk : Reg) (par : List TReg) (s : State) : Ans :=
  next (issueTile s c fun s => tcvtRes s c td tc fs gk par)

/-- TCVT from FP8 or BF16 to an FP32 quad (06 R147, 07 R186). -/
def execTcvtWiden (c : CellId) (tc ts : TReg) (fs gk : Reg) (par : List TReg) (s : State) : Ans :=
  next (issueTile s c fun s => tcvtRes s c tc ts fs gk par)

/-- TDRAIN (06 R147, R150, R151). -/
def execTdrain (c : CellId) (tc : TReg) (fs gj : Reg) (par : List TReg) (s : State) : Ans :=
  next (issueTile s c fun s =>
    let k := s.cell c
    let g := k.rdG gj
    if k.quadLegal tc && fieldN g.toNat 44 2 != 3 then tileIssuePar s c (.drain (quadOf tc).val (k.rdFs fs) g) par else shapeFault s)

/-- TILE_COMMIT (06 R139). -/
def execTileCommit (c : CellId) (s : State) : Ans :=
  next (if (s.cell c).held || (s.cell c).faulted then s else commitHead s c)

/-- TCFG_WRITE (06 R131, R132). `acc`: the write-back of the resident accumulator meets an error in its parity (06 R158). -/
def execTcfgWrite (c : CellId) (n : Fin 4) (a : Reg) (acc : Bool) (s : State) : Ans :=
  next (issue s c fun s =>
    let k := s.cell c
    if acc && k.res.isSome && k.accDirty && tagsOk (k.rdG a) then .stay (accFault s c)
    else swrRes s c (0x050 + n.val) (k.rdG a))

/-- TSEED_WRITE (06 R132, R133). -/
def execTseedWrite (c : CellId) (a : Reg) (s : State) : Ans :=
  next (issue s c fun s => swrRes s c 0x055 ((s.cell c).rdG a))

/-- TILE_ARRAY_GATE (06 R159): no tile instruction has been uncommitted for the idle time. `acc`: the write-back meets an error in the
accumulator's parity (06 R158). -/
def execTileArrayGate (c : CellId) (acc : Bool) (s : State) : Ans :=
  next (
    let k := s.cell c
    if k.held || k.faulted || !k.tpwr.getLsbD 0 || k.twaking || !k.tpend.isEmpty then s
    else if acc && k.res.isSome && k.accDirty then accFault s c
    else s.setCell c { k.endRes with tgated := true })

/-- TILE_ARRAY_WAKE_END (06 R160). -/
def execTileArrayWakeEnd (c : CellId) (s : State) : Ans :=
  next (s.updCell c fun k => if k.twaking then { k with tgated := false, twaking := false } else k)

/-- DRAIN_PACKET_SEND (06 R151, 13 R306): the tile leaves for the home adder of its bucket once a local tile buffer is free. -/
def execDrainPacketSend (c : CellId) (s : State) : Ans :=
  next (
    let k := s.cell c
    match k.drain with
    | none => s
    | some t =>
      let m := t.bucket.toNat % 24
      if localUsed s m < localCap s m ∧ pathHeld s (blockOfCell c) (c.val % 8) (regionOfCtl m) = false then
        let s := if regionOfCtl m = regionOfCell c then s else countPart s (ownerOfBlock s (blockOfCell c)) 11 (16 + t.payload.length)
        { s.setCell c { k with drain := none } with tiles := s.tiles ++ [⟨c, k.hall, t⟩] }
      else s)

/-- The hallmark an agent of a window access carries (10 R224, 16 R377). -/
def Agent.hall (s : State) : Agent → Byte
  | .engine b _ => hallOfBlock s b.val
  | .debug p => (s.part p.val).hall

/-- A frozen arbiter holds the access on its way to the cell's tile unit (15 R359, R367). The path is a copy engine's of another block,
or the debug port's bridge arbiter port. -/
def windowPathHeld (s : State) (ag : Agent) (c : CellId) : Bool :=
  match ag with
  | .engine b e => msgHeld s (512 + 2 * b.val + e.val) c.val
  | .debug _ => arbHolds s (1368 + regionOfCell c) 6 || stopInHeld s (blockOfCell c)

/-- A copy engine's descriptor ended by what its access to a tile window meets (01 R25, 03 R82, 10 R227, R228). Debug access has no
descriptor. -/
def windowEnd (s : State) (ag : Agent) (code detail addr : Nat) : State :=
  match ag with
  | .engine b e =>
    let i := 2 * b.val + e.val
    (match (s.engine i).run with
    | some j => copyEnd s i j code detail addr
    | none => s)
  | .debug _ => s

/-- The access itself, once the tile instructions that name its registers have committed (01 R24, R25). `acc`: the write-back it forces
meets an error in the accumulator's parity (06 R158). A read of bytes with a parity error gives none (06 R158). -/
def windowDo (s : State) (ag : Agent) (c : CellId) (off : Nat) (op : WinOp) (acc : Bool) : State :=
  let a := 0x20000000000 + 0x10000 * c.val + off
  let k := s.cell c
  let n := match op with | .rd len => len | .wr data => data.length
  if acc && k.accDirty && (tileRegsOf off n).any (fun t => k.meetsRes t 1) then windowEnd (accFault s c) ag 3 3 a
  else match op with
    | .rd _ =>
      let k := k.windowRead off n
      (match tileReadBad k off n with
      | some i => windowEnd s ag 3 3 (a + i)
      | none => s.setCell c k)
    | .wr data => s.setCell c (k.windowWrite off data)

/-- TILE_WINDOW_ACCESS (01 R24, R25, R27): refused with its record; in Nap or Doze the block first wakes; in Dormant, or out of service,
it fails as at a reserved address; else it follows the commits of the tile instructions that name its registers. A block in Poise wakes
too (20 R456). While a frozen arbiter holds the access nothing changes, and the access is presented again (15 R367). -/
def execTileWindowAccess (ag : Agent) (c : CellId) (off : BitVec 16) (op : WinOp) (acc : Bool) (s : State) : Ans :=
  next (
    let b := blockOfCell c
    let a := 0x20000000000 + 0x10000 * c.val + off.toNat
    let n := match op with | .rd len => len | .wr data => data.length
    if off.toNat + n > 65536 || windowPathHeld s ag c then s
    else if (s.block b).oos then windowEnd s ag 1 0 a
    else if !hallOk (hallOfBlock s b) (Agent.hall s ag) then windowEnd (refusedAtUnit s a) ag 2 0 a
    else match (s.block b).st with
      | .dormant => windowEnd s ag 1 3 a
      | .nap => wakeBlock s b
      | .doze => wakeBlock s b
      | _ =>
        let s := commitAll (wakeBlock s b) c
        if (s.cell c).windowHeld off.toNat n then s else windowDo s ag c off.toNat op acc)

end Sys2Proof.Machine
end

