-- ==== Sys2Proof/Machine/VectorPred.lean ====
section
/-! DEFINITION. The vector family VX and VSCAN: comparisons, reductions, scans, predicates and permutes (04 R86 to R98, 09 R219). -/

namespace Sys2Proof.Machine

/-- Whether a comparison is of floating values. -/
def vCmpFp : VCmpOp → Bool
  | .feq => true
  | .fne => true
  | .flt => true
  | .fle => true
  | .fgt => true
  | .fge => true
  | .fuo => true
  | _ => false

/-- A comparison of two elements (04 R89). -/
def vCmpElem (op : VCmpOp) (sz : Size) (a b : Nat) : Bool × Fl :=
  let x := sgnElem sz a
  let y := sgnElem sz b
  let f := szFmt sz
  let le (p q : Fp) : Bool := Fp.lt p q || Fp.eq p q
  let fc (ordered : Bool) (rel : Fp → Fp → Bool) (nan : Bool) : Bool × Fl := fpCmp ordered rel nan (f.decode a) (f.decode b)
  match op with
  | .eq => (a == b, Fl.none)
  | .ne => (a != b, Fl.none)
  | .lt => (decide (x < y), Fl.none)
  | .le => (decide (x ≤ y), Fl.none)
  | .gt => (decide (y < x), Fl.none)
  | .ge => (decide (y ≤ x), Fl.none)
  | .lo => (decide (a < b), Fl.none)
  | .ls => (decide (a ≤ b), Fl.none)
  | .hi => (decide (b < a), Fl.none)
  | .hs => (decide (b ≤ a), Fl.none)
  | .feq => fc false Fp.eq false
  | .fne => fc false (fun p q => !Fp.eq p q) true
  | .flt => fc true Fp.lt false
  | .fle => fc true le false
  | .fgt => fc true (fun p q => Fp.lt q p) false
  | .fge => fc true (fun p q => le q p) false
  | .fuo => fc false (fun _ _ => false) true

/-- Whether a governing field of VX is legal for a function that takes Z = 0. -/
def govPlain (g : Gov) : Bool := !g.rsv && !g.zero

/-- VCMP (04 R89). -/
def execVcmp (c : CellId) (op : VCmpOp) (sz : Size) (pd : PReg) (a b : Reg) (g : Gov) (s : State) : Ans :=
  next (vecIssue s c (govPlain g && (!vCmpFp op || szFp sz)) fun s => onCell s c fun k =>
    let p := k.gov g
    let rs := (List.range (szElems sz)).map fun i =>
      if active sz p i then vCmpElem op sz (elemAt sz k.v[a] i) (elemAt sz k.v[b] i) else (false, Fl.none)
    (k.wrP pd (ofActive sz (rs.map (·.1)))).orFl (rs.foldl (fun f r => f.or r.2) Fl.none))

/-- The operations of reductions and scans, with the identity of an inactive element (04 R95), on elements of a size. -/
def redIdentity (op : VRedOp) (sz : Size) : Nat :=
  let e := szBits sz
  match op with
  | .add => 0
  | .maxS => 2 ^ (e - 1)
  | .maxU => 0
  | .minS => 2 ^ (e - 1) - 1
  | .minU => 2 ^ e - 1
  | .and => 2 ^ e - 1
  | .or => 0
  | .xor => 0
  | .fadd => 2 ^ (e - 1)
  | .fmax => (szFmt sz).signed true ((szFmt sz).inf.getD 0)
  | .fmin => (szFmt sz).signed false ((szFmt sz).inf.getD 0)

/-- One operation of a reduction or a scan (04 R95, R96). -/
def redOp (op : VRedOp) (sz : Size) (rm : Rm) (a b : Nat) : Nat × Fl :=
  let e := szBits sz
  let f := szFmt sz
  let x := sgnElem sz a
  let y := sgnElem sz b
  match op with
  | .add => ((a + b) % 2 ^ e, Fl.none)
  | .maxS => (if x < y then b else a, Fl.none)
  | .maxU => (if a < b then b else a, Fl.none)
  | .minS => (if y < x then b else a, Fl.none)
  | .minU => (if b < a then b else a, Fl.none)
  | .and => (a &&& b, Fl.none)
  | .or => (a ||| b, Fl.none)
  | .xor => (a ^^^ b, Fl.none)
  | .fadd => fpBits .add f rm a b 0
  | .fmax => fpBits .max f rm a b 0
  | .fmin => fpBits .min f rm a b 0

/-- Whether an operation is of floating values. -/
def redFp : VRedOp → Bool
  | .fadd => true
  | .fmax => true
  | .fmin => true
  | _ => false

/-- One stage of the butterfly of 04 R96: the low half with the high half. -/
def redStage (op : VRedOp) (sz : Size) (rm : Rm) (l : List Nat) : List Nat × Fl :=
  let h := l.length / 2
  let rs := ((l.take h).zip (l.drop h)).map fun e => redOp op sz rm e.1 e.2
  (rs.map (·.1), rs.foldl (fun f r => f.or r.2) Fl.none)

/-- The butterfly of 04 R96, `n` stages left. -/
def redTree (op : VRedOp) (sz : Size) (rm : Rm) : Nat → List Nat → Fl → Nat × Fl
  | 0, l, f => (l.headD 0, f)
  | n + 1, l, f =>
    let r := redStage op sz rm l
    redTree op sz rm n r.1 (f.or r.2)

/-- VRED of a register (04 R95, R96). -/
def reduceVec (op : VRedOp) (sz : Size) (rm : Rm) (p : BitVec 256) (v : BitVec 2048) : Nat × Fl :=
  redTree op sz rm (Nat.log2 (szElems sz))
    ((List.range (szElems sz)).map fun i => if active sz p i then elemAt sz v i else redIdentity op sz) Fl.none

/-- VRED (04 R95, R96). An integer result is zero-extended into Gd. -/
def execVred (c : CellId) (op : VRedOp) (sz : Size) (d a : Reg) (g : Gov) (s : State) : Ans :=
  next (vecIssue s c (govPlain g && (!redFp op || szFp sz)) fun s => onCell s c fun k =>
    let r := reduceVec op sz k.frm (k.gov g) k.v[a]
    let x := BitVec.ofNat 64 r.1
    (if redFp op then k.wrF d x else k.wrG d x).orFl r.2)

/-- The ordered sum of VREDO (04 R97). -/
def orderedSum (f : Fmt) (rm : Rm) : List Nat → Nat × Fl → Nat × Fl
  | [], acc => acc
  | x :: xs, acc =>
    let r := fpBits .add f rm acc.1 x 0
    orderedSum f rm xs (r.1, acc.2.or r.2)

/-- The active elements of a register, in ascending order. -/
def activeElems (sz : Size) (p : BitVec 256) (v : BitVec 2048) : List Nat :=
  ((List.range (szElems sz)).filter (active sz p)).map (elemAt sz v)

/-- VREDO (04 R97). -/
def execVredo (c : CellId) (sz : Size) (d a fc : Reg) (g : Gov) (s : State) : Ans :=
  next (vecIssue s c (govPlain g && szFp sz) fun s => onCell s c fun k =>
    let r := orderedSum (szFmt sz) k.frm (activeElems sz (k.gov g) k.v[a]) (elemAt sz k.v[fc] 0, Fl.none)
    (k.wrF d (BitVec.ofNat 64 r.1)).orFl r.2)

/-- VLAST (04 R94). -/
def execVlast (c : CellId) (toF : Bool) (sz : Size) (d a : Reg) (g : Gov) (s : State) : Ans :=
  next (vecIssue s c (govPlain g && (!toF || szFp sz)) fun s => onCell s c fun k =>
    let x := BitVec.ofNat 64 ((activeElems sz (k.gov g) k.v[a]).getLast?.getD 0)
    if toF then k.wrF d x else k.wrG d x)

/-- The operation of a scan. -/
def scanRed : ScanOp → VRedOp
  | .add => .add
  | .maxS => .maxS
  | .maxU => .maxU
  | .minS => .minS
  | .minU => .minU
  | .fadd => .fadd
  | .fmax => .fmax
  | .fmin => .fmin

/-- The loop of 04 R93 over the elements left: for each, its segment flag, whether it is active, and its value. Each result is the
new element, with the flags so far at the end. -/
def scanLoop (op : VRedOp) (sz : Size) (rm : Rm) (excl : Bool) : List (Bool × Bool × Nat) → Nat → Fl → List Nat × Fl
  | [], _, f => ([], f)
  | (seg, act, v) :: rest, acc, f =>
    let acc := if seg then redIdentity op sz else acc
    let r := redOp op sz rm acc (if act then v else redIdentity op sz)
    let out := scanLoop op sz rm excl rest r.1 (f.or r.2)
    ((if excl then acc else r.1) :: out.1, out.2)

/-- VSCAN, VSCANX (04 R93, 09 R219). -/
def execVscan (c : CellId) (excl : Bool) (op : ScanOp) (sz : Size) (d a cr : Reg) (g : Gov) (ps : PReg) (s : State) : Ans :=
  next (vecIssue s c (!g.rsv && (!redFp (scanRed op) || szFp sz)) fun s => onCell s c fun k =>
    let p := k.gov g
    let seg := k.p[ps]
    let c0 := if redFp (scanRed op) then elemAt sz k.v[cr] 0 else (k.rdG cr).toNat % 2 ^ szBits sz
    let r := scanLoop (scanRed op) sz k.frm excl
      ((List.range (szElems sz)).map fun i => (active sz seg i, active sz p i, elemAt sz k.v[a] i)) c0 Fl.none
    (vecInt sz g k d fun i => r.1.getD i 0).orFl r.2)

/-- PPOP (04 R89). -/
def execPpop (c : CellId) (sz : Size) (d : Reg) (g : Gov) (s : State) : Ans :=
  next (vecIssue s c (govPlain g) fun s => onCell s c fun k =>
    k.wrG d (BitVec.ofNat 64 ((List.range (szElems sz)).countP (active sz (k.gov g)))))

/-- VELEMS (04 R89). -/
def execVelems (c : CellId) (sz : Size) (d : Reg) (s : State) : Ans :=
  next (vecIssue s c true fun s => onCell s c fun k => k.wrG d (BitVec.ofNat 64 (szElems sz)))

/-- PSET (04 R89). -/
def execPset (c : CellId) (pd : PReg) (sz : Size) (s : State) : Ans :=
  next (vecIssue s c true fun s => onCell s c fun k => k.wrP pd (ofActive sz (List.replicate (szElems sz) true)))

/-- PCLR (04 R89). -/
def execPclr (c : CellId) (pd : PReg) (s : State) : Ans :=
  next (vecIssue s c true fun s => onCell s c fun k => k.wrP pd 0)

/-- PTAIL (04 R89). -/
def execPtail (c : CellId) (pd : PReg) (r : Reg) (sz : Size) (s : State) : Ans :=
  next (vecIssue s c true fun s => onCell s c fun k =>
    k.wrP pd (ofActive sz ((List.range (szElems sz)).map fun (i : Nat) => decide ((i : Int) < (k.rdG r).toInt))))

/-- PREDICATE_LOGIC (04 R89): PMINV has one source. -/
def execPredicateLogic (c : CellId) (op : PLogic) (pd pa pb : PReg) (s : State) : Ans :=
  next (vecIssue s c (decide (op ≠ .inv) || pb.val == 0) fun s => onCell s c fun k =>
    let x := k.p[pa]
    let y := k.p[pb]
    k.wrP pd (match op with
      | .and => x &&& y
      | .or => x ||| y
      | .xor => x ^^^ y
      | .andn => x &&& ~~~y
      | .inv => ~~~x))

/-- A permute: element i of the result. -/
def permute (k : Cell) (sz : Size) (d : Reg) (f : Nat → Nat) : Cell :=
  k.wrV d (ofElems sz ((List.range (szElems sz)).map f))

/-- Element `n` of the concatenation Va:Vb, 0 beyond it (04 R98). -/
def pairElem (sz : Size) (va vb : BitVec 2048) (n : Nat) : Nat :=
  if n < szElems sz then elemAt sz va n else if n < 2 * szElems sz then elemAt sz vb (n - szElems sz) else 0

/-- VSHUF, VSHUF2 (04 R98). -/
def execVshuf (c : CellId) (two : Bool) (sz : Size) (d a b i : Reg) (s : State) : Ans :=
  next (vecIssue s c (two || b.val == 0) fun s => onCell s c fun k =>
    permute k sz d fun n =>
      let x := elemAt sz k.v[i] n
      if two then pairElem sz k.v[a] k.v[b] x else if x < szElems sz then elemAt sz k.v[a] x else 0)

/-- The element of a weave or a sift (04 R98). -/
def weaveElem (op : WeaveOp) (sz : Size) (va vb : BitVec 2048) (i : Nat) : Nat :=
  let h := szElems sz / 2
  let w (o : Nat) : Nat := elemAt sz (if i % 2 = 0 then va else vb) (o + i / 2)
  let f (o : Nat) : Nat := if i < h then elemAt sz va (2 * i + o) else elemAt sz vb (2 * (i - h) + o)
  match op with
  | .lo => w 0
  | .hi => w h
  | .ev => f 0
  | .od => f 1

/-- VWEAVE_VSIFT (04 R98). -/
def execVweaveVsift (c : CellId) (op : WeaveOp) (sz : Size) (d a b : Reg) (s : State) : Ans :=
  next (vecIssue s c true fun s => onCell s c fun k => permute k sz d (weaveElem op sz k.v[a] k.v[b]))

/-- VREVERSE (04 R98). -/
def execVreverse (c : CellId) (sz : Size) (d a : Reg) (s : State) : Ans :=
  next (vecIssue s c true fun s => onCell s c fun k =>
    permute k sz d fun i => elemAt sz k.v[a] (szElems sz - 1 - i))

/-- VWINDOW (04 R98). DESIGN CHOICE (log entry 98): Gk is read as an unsigned number. -/
def execVwindow (c : CellId) (sz : Size) (d a b w : Reg) (s : State) : Ans :=
  next (vecIssue s c true fun s => onCell s c fun k =>
    permute k sz d fun i => pairElem sz k.v[a] k.v[b] ((k.rdG w).toNat + i))

/-- VBCAST (04 R98). -/
def execVbcast (c : CellId) (fromF : Bool) (sz : Size) (d a : Reg) (s : State) : Ans :=
  next (vecIssue s c (!fromF || szFp sz) fun s => onCell s c fun k =>
    let x := if fromF then elemAt sz k.v[a] 0 else (k.rdG a).toNat % 2 ^ szBits sz
    permute k sz d fun _ => x)

end Sys2Proof.Machine
end

