-- ==== Sys2Proof/Machine/Wdp.lean ====
section
/-! DEFINITION. The commands of the dictionary protocol and of command slots (17, 18 R429, R435 to R437, 02 R37). -/

namespace Sys2Proof.Machine

/-- READ (17 R408). -/
def execRead (q : Req) (t : ReadTarget) (s : State) : Ans :=
  next (match t with
    | .entry i sub => ask s q (reqMsg q 1 i.toNat sub.toNat 0 0 [])
    | .mem a n chk =>
      (let pay := Config.memExtent false a.toNat n.toNat
      let m := reqMsg q 1 0 0 0 (BitVec.ofNat 16 pay.length) pay
      match memWaits s q m a.toNat n.toNat false with
      | some s => s
      | none => askWith s q m (readMemOp a.toNat n.toNat chk)))

/-- WRITE (17 R409). -/
def execWrite (q : Req) (t : WriteTarget) (v : List Byte) (s : State) : Ans :=
  next (match t with
    | .entry i sub => ask s q (writeMsg q i.toNat sub.toNat v)
    | .mem a chk =>
      (let m := writeMsg q 0 0 (Config.memExtent true a.toNat v.length ++ v)
      match memWaits s q m a.toNat v.length true with
      | some s => s
      | none => askWith s q m (writeMemOp a.toNat v chk)))

/-- READ_SEG (17 R410). -/
def execReadSeg (q : Req) (idx : BitVec 16) (sub : Byte) (off len : BitVec 16) (s : State) : Ans :=
  next (ask s q (reqMsg q 3 idx.toNat sub.toNat off len []))

/-- WRITE_SEG (17 R410). -/
def execWriteSeg (q : Req) (idx : BitVec 16) (sub : Byte) (off : BitVec 16) (v : List Byte) (s : State) : Ans :=
  next (ask s q (reqMsg q 4 idx.toNat sub.toNat off (BitVec.ofNat 16 v.length) v))

/-- COMMIT (17 R410). -/
def execCommit (q : Req) (idx : BitVec 16) (sub : Byte) (s : State) : Ans :=
  next (ask s q (reqMsg q 5 idx.toNat sub.toNat 0 0 []))

/-- HELLO (17 R402, R403). -/
def execHello (m : HelloMsg) (s : State) : Ans := next (helloOp (framesIn s m.iface 1) m)

/-- KEYX (17 R403). -/
def execKeyx (m : KeyxMsg) (s : State) : Ans := next (keyxOp (framesIn s m.iface 1) m)

/-- BYE (17 R405). -/
def execBye (q : Req) (s : State) : Ans := next (ask s q (reqMsg q 0x12 0 0 0 0 []))

/-- SESSION_IDLE_TIMEOUT (17 R405, R413): the module timer reaches the end of the idle time. -/
def execSessionIdleTimeout (i : SessIx) (s : State) : Ans :=
  next (
    if (s.sess i.val).live then
      setFlag (sessEnd (moduleTimeTo s (s.sess i.val).due) i.val) 7
    else s)

/-- SESSION_SETUP_TIMEOUT (17 R403): 10 s after the HELLO response. -/
def execSessionSetupTimeout (i : SessIx) (s : State) : Ans :=
  next (
    match (s.sess i.val).st with
    | .none => s
    | .up => s
    | _ => sessEnd (moduleTimeTo s (s.sess i.val).due) i.val)

/-- COMMAND_START (17 R417). -/
def execCommandStart (n : SlotIx) (s : State) : Ans := next (startCmd s n.val)

/-- COMMAND_ABORT (17 R420): the request that writes 0x01 to .05. `meets`: it falls in the handshake of the command's end, which stands
before it or after it among the commands of the block. -/
def execCommandAbort (q : Req) (n : SlotIx) (meets : Bool) (s : State) : Ans :=
  next (
    let m := writeMsg q (0x8000 + n.val) 5 [1]
    if meets && ((s.cmd n.val).ended || decide ((s.cmd n.val).st = .running)) then askWith s q m (abortMeets n.val) else ask s q m)

/-- COMMAND_RELEASE (17 R415): the request that writes 0x02 to .05. -/
def execCommandRelease (q : Req) (n : SlotIx) (s : State) : Ans :=
  next (ask s q (writeMsg q (0x8000 + n.val) 5 [2]))

/-- SLOT_HOLD_EXPIRE (17 R415): the module timer reaches the end of the hold. -/
def execSlotHoldExpire (n : SlotIx) (s : State) : Ans :=
  next (
    if (s.cmd n.val).ended then
      cmdIdle (moduleTimeTo s (s.cmd n.val).due) n.val
    else s)

/-- COMMAND_TIME_LIMIT (17 R419, 18 R436): JOIN, ATTEST and ACCT_NOW have a limit. -/
def execCommandTimeLimit (n : SlotIx) (s : State) : Ans :=
  next (
    let x := s.cmd n.val
    if running s n.val 0x0020 then joinEnd (moduleTimeTo s x.due) n.val .failed 2
    else if running s n.val 0x0040 || running s n.val 0x0041 then cmdEnd (moduleTimeTo s x.due) n.val .failed 2
    else s)

/-- RESET (18 R437): the delay of 100 ms armed. -/
def execReset (n : SlotIx) (s : State) : Ans :=
  next (
    if running s n.val 0x0001 && s.ctl.resetAt.isNone then
      { s with ctl := { s.ctl with resetAt := some (moduleDue s 100) } }
    else s)

/-- RESET_DELAY_EXPIRE (18 R437): a module reset with cause 0x02. -/
def execResetDelayExpire (s : State) : Ans :=
  next (
    match s.ctl.resetAt with
    | none => s
    | some t => moduleReset (moduleTimeTo s t) 2)

/-- LOG_CLEAR (18 R435): the request that writes 0x01 to 0x7000.05. -/
def execLogClear (q : Req) (s : State) : Ans := next (ask s q (writeMsg q 0x7000 5 [1]))

/-- OP_REQUEST (02 R37): the request that writes 0x2000.01. -/
def execOpRequest (q : Req) (v : Byte) (s : State) : Ans := next (ask s q (writeMsg q 0x2000 1 [v]))

/-- TOLERANCE_WRITE (18 R429): the request that writes 0x2104. -/
def execToleranceWrite (q : Req) (p : PartId) (v : BitVec 32) (s : State) : Ans :=
  next (ask s q (writeMsg q 0x2104 (p.val + 1) (leBytes 4 v.toNat)))

end Sys2Proof.Machine
end

