-- ==== Sys2Proof/Machine/Dispatch.lean ====
section
/-! DEFINITION. Dispatch: one arm for each command, each one direct call of its meaning. -/

namespace Sys2Proof.Machine

/-- What a command does to everything but the queue. -/
def exec (i : Instr) (s : State) : Host.Outcome State Fault Refusal :=
  match i with
  | .integerRegOp c fn d a b rsv => Sys2Proof.Machine.execIntegerRegOp c fn d a b rsv s
  | .integerImmOp c fn d a imm => Sys2Proof.Machine.execIntegerImmOp c fn d a imm s
  | .movhi c d imm => Sys2Proof.Machine.execMovhi c d imm s
  | .pcrel c d imm => Sys2Proof.Machine.execPcrel c d imm s
  | .call c d imm => Sys2Proof.Machine.execCall c d imm s
  | .jumpr c d a imm => Sys2Proof.Machine.execJumpr c d a imm s
  | .brCond c cond a b off => Sys2Proof.Machine.execBrCond c cond a b off s
  | .brsomeBrnone c no pa sz off => Sys2Proof.Machine.execBrsomeBrnone c no pa sz off s
  | .ld c sgn d a sz imm chk => Sys2Proof.Machine.execLd c sgn d a sz imm chk s
  | .st c d a sz imm chk => Sys2Proof.Machine.execSt c d a sz imm chk s
  | .fld c d a dbl imm chk => Sys2Proof.Machine.execFld c d a dbl imm chk s
  | .fst c d a dbl imm chk => Sys2Proof.Machine.execFst c d a dbl imm chk s
  | .ldAq c d a dbl imm chk => Sys2Proof.Machine.execLdAq c d a dbl imm chk s
  | .stRl c d a dbl imm chk => Sys2Proof.Machine.execStRl c d a dbl imm chk s
  | .atmadd c d a b dbl aq rl chk => Sys2Proof.Machine.execAtmadd c d a b dbl aq rl chk s
  | .atmswap c d a b dbl aq rl chk => Sys2Proof.Machine.execAtmswap c d a b dbl aq rl chk s
  | .atmcas c d a b dbl aq rl chk => Sys2Proof.Machine.execAtmcas c d a b dbl aq rl chk s
  | .scalarFpOp c fn fmt d a b x => Sys2Proof.Machine.execScalarFpOp c fn fmt d a b x s
  | .fence c => Sys2Proof.Machine.execFence c s
  | .fetchsync c => Sys2Proof.Machine.execFetchsync c s
  | .srd c d sr => Sys2Proof.Machine.execSrd c d sr s
  | .swr c sr a again => Sys2Proof.Machine.execSwr c sr a again s
  | .trap c imm => Sys2Proof.Machine.execTrap c imm s
  | .brk c => Sys2Proof.Machine.execBrk c s
  | .tret c => Sys2Proof.Machine.execTret c s
  | .interruptTake c => Sys2Proof.Machine.execInterruptTake c s
  | .timerCompare c => Sys2Proof.Machine.execTimerCompare c s
  | .ctcmpWrite c a => Sys2Proof.Machine.execCtcmpWrite c a s
  | .doorbell c n => Sys2Proof.Machine.execDoorbell c n s
  | .hallmarkRefusalReturn k => Sys2Proof.Machine.execHallmarkRefusalReturn k s
  | .cacheDisable c l1i l1d bad => Sys2Proof.Machine.execCacheDisable c l1i l1d bad s
  | .l2Disable hall b bad => Sys2Proof.Machine.execL2Disable hall b bad s
  | .cacheReenable c which => Sys2Proof.Machine.execCacheReenable c which s
  | .vectorIntOp c op sz d a b g => Sys2Proof.Machine.execVectorIntOp c op sz d a b g s
  | .vectorFpOp c op bc sz d a b g => Sys2Proof.Machine.execVectorFpOp c op bc sz d a b g s
  | .vfxmul c rnd sz d a b g => Sys2Proof.Machine.execVfxmul c rnd sz d a b g s
  | .vsataddVsatsub c sub uns sz d a b g => Sys2Proof.Machine.execVsataddVsatsub c sub uns sz d a b g s
  | .vcvt c op sz d a g => Sys2Proof.Machine.execVcvt c op sz d a g s
  | .vfwiden c hi sz d a g => Sys2Proof.Machine.execVfwiden c hi sz d a g s
  | .vfnarrow c sz d a b g => Sys2Proof.Machine.execVfnarrow c sz d a b g s
  | .vpacks c var szsh rnd d a b g => Sys2Proof.Machine.execVpacks c var szsh rnd d a b g s
  | .vcmp c op sz pd a b g => Sys2Proof.Machine.execVcmp c op sz pd a b g s
  | .vred c op sz d a g => Sys2Proof.Machine.execVred c op sz d a g s
  | .vredo c sz d a fc g => Sys2Proof.Machine.execVredo c sz d a fc g s
  | .vlast c toF sz d a g => Sys2Proof.Machine.execVlast c toF sz d a g s
  | .vscan c excl op sz d a cr g ps => Sys2Proof.Machine.execVscan c excl op sz d a cr g ps s
  | .ppop c sz d g => Sys2Proof.Machine.execPpop c sz d g s
  | .velems c sz d => Sys2Proof.Machine.execVelems c sz d s
  | .pset c pd sz => Sys2Proof.Machine.execPset c pd sz s
  | .pclr c pd => Sys2Proof.Machine.execPclr c pd s
  | .ptail c pd r sz => Sys2Proof.Machine.execPtail c pd r sz s
  | .predicateLogic c op pd pa pb => Sys2Proof.Machine.execPredicateLogic c op pd pa pb s
  | .vshuf c two sz d a b ix => Sys2Proof.Machine.execVshuf c two sz d a b ix s
  | .vweaveVsift c op sz d a b => Sys2Proof.Machine.execVweaveVsift c op sz d a b s
  | .vreverse c sz d a => Sys2Proof.Machine.execVreverse c sz d a s
  | .vwindow c sz d a b k => Sys2Proof.Machine.execVwindow c sz d a b k s
  | .vbcast c fromF sz d a => Sys2Proof.Machine.execVbcast c fromF sz d a s
  | .vld c d a sz g chk => Sys2Proof.Machine.execVld c d a sz g chk s
  | .vst c d a sz g chk => Sys2Proof.Machine.execVst c d a sz g chk s
  | .vgather c d a ix sz g ext sc chk => Sys2Proof.Machine.execVgather c d a ix sz g ext sc chk s
  | .vscatter c d a ix sz g ext sc chk => Sys2Proof.Machine.execVscatter c d a ix sz g ext sc chk s
  | .vgatherff c d a ix pd sz g ext sc chk => Sys2Proof.Machine.execVgatherff c d a ix pd sz g ext sc chk s
  | .pldPst c store p a chk => Sys2Proof.Machine.execPldPst c store p a chk s
  | .sld c n a chk => Sys2Proof.Machine.execSld c n a chk s
  | .vmap c d a n g => Sys2Proof.Machine.execVmap c d a n g s
  | .strstatEmpty c a => Sys2Proof.Machine.execStrstatEmpty c a s
  | .vresumeWrite c a => Sys2Proof.Machine.execVresumeWrite c a s
  | .vectorGate c => Sys2Proof.Machine.execVectorGate c s
  | .vectorWakeEnd c => Sys2Proof.Machine.execVectorWakeEnd c s
  | .tmma c cq a b s1 o gsel par => Sys2Proof.Machine.execTmma c cq a b s1 o gsel par s
  | .tld c td ga chk acc => Sys2Proof.Machine.execTld c td ga chk acc s
  | .tst c ts ga par chk => Sys2Proof.Machine.execTst c ts ga par chk s
  | .tzero c td acc => Sys2Proof.Machine.execTzero c td acc s
  | .tzeroQ c tc acc => Sys2Proof.Machine.execTzeroQ c tc acc s
  | .tscale c tc fs par => Sys2Proof.Machine.execTscale c tc fs par s
  | .tcvtNarrow c td tc fs gk par => Sys2Proof.Machine.execTcvtNarrow c td tc fs gk par s
  | .tcvtWiden c tc ts fs gk par => Sys2Proof.Machine.execTcvtWiden c tc ts fs gk par s
  | .tdrain c tc fs gj par => Sys2Proof.Machine.execTdrain c tc fs gj par s
  | .tileCommit c => Sys2Proof.Machine.execTileCommit c s
  | .tcfgWrite c n a acc => Sys2Proof.Machine.execTcfgWrite c n a acc s
  | .tseedWrite c a => Sys2Proof.Machine.execTseedWrite c a s
  | .tileArrayGate c acc => Sys2Proof.Machine.execTileArrayGate c acc s
  | .tileArrayWakeEnd c => Sys2Proof.Machine.execTileArrayWakeEnd c s
  | .drainPacketSend c => Sys2Proof.Machine.execDrainPacketSend c s
  | .tileWindowAccess ag c off op acc => Sys2Proof.Machine.execTileWindowAccess ag c off op acc s
  | .slotContribution r s1 x => Sys2Proof.Machine.execSlotContribution r s1 x s
  | .slotClose hall r s1 => Sys2Proof.Machine.execSlotClose hall r s1 s
  | .slotClear hall r s1 => Sys2Proof.Machine.execSlotClear hall r s1 s
  | .scfgWrite hall r s1 v => Sys2Proof.Machine.execScfgWrite hall r s1 v s
  | .cpq c d a e chk => Sys2Proof.Machine.execCpq c d a e chk s
  | .descriptorStart b e => Sys2Proof.Machine.execDescriptorStart b e s
  | .copyComplete b e src chk => Sys2Proof.Machine.execCopyComplete b e src chk s
  | .copyError b e err addr => Sys2Proof.Machine.execCopyError b e err addr s
  | .copyAbort hall b e => Sys2Proof.Machine.execCopyAbort hall b e s
  | .remoteWriteReceive k chk => Sys2Proof.Machine.execRemoteWriteReceive k chk s
  | .remoteWriteFinish k => Sys2Proof.Machine.execRemoteWriteFinish k s
  | .wackReceive k => Sys2Proof.Machine.execWackReceive k s
  | .sramScrub r w ecc => Sys2Proof.Machine.execSramScrub r w ecc s
  | .lpddrScrub m line ecc => Sys2Proof.Machine.execLpddrScrub m line ecc s
  | .pipsig c a b => Sys2Proof.Machine.execPipsig c a b s
  | .pipSignalArrive k => Sys2Proof.Machine.execPipSignalArrive k s
  | .remoteSignalArrive k => Sys2Proof.Machine.execRemoteSignalArrive k s
  | .pipwait c pip t => Sys2Proof.Machine.execPipwait c pip t s
  | .pipwatch c pip b t => Sys2Proof.Machine.execPipwatch c pip b t s
  | .pipbar c pip t => Sys2Proof.Machine.execPipbar c pip t s
  | .pipWaitTimeout c => Sys2Proof.Machine.execPipWaitTimeout c s
  | .pcfgWrite hall c pip v => Sys2Proof.Machine.execPcfgWrite hall c pip v s
  | .barrierArrival k => Sys2Proof.Machine.execBarrierArrival k s
  | .barrierRelease k => Sys2Proof.Machine.execBarrierRelease k s
  | .barrierWithdrawal k => Sys2Proof.Machine.execBarrierWithdrawal k s
  | .withdrawalAnswer k => Sys2Proof.Machine.execWithdrawalAnswer k s
  | .withdrawalRideExpire c pip => Sys2Proof.Machine.execWithdrawalRideExpire c pip s
  | .setterEnable hall m j => Sys2Proof.Machine.execSetterEnable hall m j s
  | .setterDisable hall m j => Sys2Proof.Machine.execSetterDisable hall m j s
  | .setterArm hall m j => Sys2Proof.Machine.execSetterArm hall m j s
  | .setterLocalVerdict hall m j taint sat => Sys2Proof.Machine.execSetterLocalVerdict hall m j taint sat s
  | .setterStepStart m => Sys2Proof.Machine.execSetterStepStart m s
  | .setterCheckEnd m => Sys2Proof.Machine.execSetterCheckEnd m s
  | .setterPassComplete m chk => Sys2Proof.Machine.execSetterPassComplete m chk s
  | .setterPassError m err => Sys2Proof.Machine.execSetterPassError m err s
  | .setterPassTimeout m => Sys2Proof.Machine.execSetterPassTimeout m s
  | .adderEnable hall m j => Sys2Proof.Machine.execAdderEnable hall m j s
  | .adderDisable hall m j => Sys2Proof.Machine.execAdderDisable hall m j s
  | .ajpub hall m j bucket => Sys2Proof.Machine.execAjpub hall m j bucket s
  | .layerTileRead m j => Sys2Proof.Machine.execLayerTileRead m j s
  | .localTileArrive k => Sys2Proof.Machine.execLocalTileArrive k s
  | .dataArrive k => Sys2Proof.Machine.execDataArrive k s
  | .dataSend m j => Sys2Proof.Machine.execDataSend m j s
  | .creditArrive k => Sys2Proof.Machine.execCreditArrive k s
  | .refuseArrive k => Sys2Proof.Machine.execRefuseArrive k s
  | .bucketDone m n chk => Sys2Proof.Machine.execBucketDone m n chk s
  | .resultArrive k => Sys2Proof.Machine.execResultArrive k s
  | .summaryArrive k chk => Sys2Proof.Machine.execSummaryArrive k chk s
  | .bucketTimeout m j bucket => Sys2Proof.Machine.execBucketTimeout m j bucket s
  | .readyWordArrive k => Sys2Proof.Machine.execReadyWordArrive k s
  | .verdictContributionArrive k => Sys2Proof.Machine.execVerdictContributionArrive k s
  | .vupArrive k => Sys2Proof.Machine.execVupArrive k s
  | .vdownArrive k => Sys2Proof.Machine.execVdownArrive k s
  | .verdictTimeout m j => Sys2Proof.Machine.execVerdictTimeout m j s
  | .flitReceive p f => Sys2Proof.Machine.execFlitReceive p f s
  | .replayTimeout p => Sys2Proof.Machine.execReplayTimeout p s
  | .packetReceive p => Sys2Proof.Machine.execPacketReceive p s
  | .noticeReceive k => Sys2Proof.Machine.execNoticeReceive k s
  | .portSignalLoss p => Sys2Proof.Machine.execPortSignalLoss p s
  | .portTrained p ident => Sys2Proof.Machine.execPortTrained p ident s
  | .rideThroughExpire p => Sys2Proof.Machine.execRideThroughExpire p s
  | .leaveReceive p => Sys2Proof.Machine.execLeaveReceive p s
  | .claspCheck pair openA openB => Sys2Proof.Machine.execClaspCheck pair openA openB s
  | .join n => Sys2Proof.Machine.execJoin n s
  | .joinTimeout n => Sys2Proof.Machine.execJoinTimeout n s
  | .withdraw n => Sys2Proof.Machine.execWithdraw n s
  | .withdrawRelease n => Sys2Proof.Machine.execWithdrawRelease n s
  | .arbGrant a reqs => Sys2Proof.Machine.execArbGrant a reqs s
  | .arbPreempt a req beats => Sys2Proof.Machine.execArbPreempt a req beats s
  | .arbBite a beats later => Sys2Proof.Machine.execArbBite a beats later s
  | .arbFreeze hall a on => Sys2Proof.Machine.execArbFreeze hall a on s
  | .partCreate n => Sys2Proof.Machine.execPartCreate n s
  | .partStart n => Sys2Proof.Machine.execPartStart n s
  | .partReset n => Sys2Proof.Machine.execPartReset n s
  | .partClose n => Sys2Proof.Machine.execPartClose n s
  | .partCloseDrainEnd n => Sys2Proof.Machine.execPartCloseDrainEnd n s
  | .attest n => Sys2Proof.Machine.execAttest n s
  | .extend n => Sys2Proof.Machine.execExtend n s
  | .acctNow n => Sys2Proof.Machine.execAcctNow n s
  | .acctInterval p => Sys2Proof.Machine.execAcctInterval p s
  | .energyCharge meters moduleMeter act => Sys2Proof.Machine.execEnergyCharge meters moduleMeter act s
  | .read q t => Sys2Proof.Machine.execRead q t s
  | .write q t v => Sys2Proof.Machine.execWrite q t v s
  | .readSeg q idx sub off len => Sys2Proof.Machine.execReadSeg q idx sub off len s
  | .writeSeg q idx sub off v => Sys2Proof.Machine.execWriteSeg q idx sub off v s
  | .commit q idx sub => Sys2Proof.Machine.execCommit q idx sub s
  | .hello m => Sys2Proof.Machine.execHello m s
  | .keyx m => Sys2Proof.Machine.execKeyx m s
  | .bye q => Sys2Proof.Machine.execBye q s
  | .sessionIdleTimeout ix => Sys2Proof.Machine.execSessionIdleTimeout ix s
  | .sessionSetupTimeout ix => Sys2Proof.Machine.execSessionSetupTimeout ix s
  | .commandStart n => Sys2Proof.Machine.execCommandStart n s
  | .commandAbort q n meets => Sys2Proof.Machine.execCommandAbort q n meets s
  | .commandRelease q n => Sys2Proof.Machine.execCommandRelease q n s
  | .slotHoldExpire n => Sys2Proof.Machine.execSlotHoldExpire n s
  | .commandTimeLimit n => Sys2Proof.Machine.execCommandTimeLimit n s
  | .reset n => Sys2Proof.Machine.execReset n s
  | .resetDelayExpire => Sys2Proof.Machine.execResetDelayExpire s
  | .logClear q => Sys2Proof.Machine.execLogClear q s
  | .opRequest q v => Sys2Proof.Machine.execOpRequest q v s
  | .opSlewSettled => Sys2Proof.Machine.execOpSlewSettled s
  | .thermalCapFall => Sys2Proof.Machine.execThermalCapFall s
  | .thermalCapRise => Sys2Proof.Machine.execThermalCapRise s
  | .sensorUpdate tj rate mv => Sys2Proof.Machine.execSensorUpdate tj rate mv s
  | .calibrationRound kModule kRegion kBlock kCell => Sys2Proof.Machine.execCalibrationRound kModule kRegion kBlock kCell s
  | .watchdogRestart => Sys2Proof.Machine.execWatchdogRestart s
  | .moduleWatchdogBite => Sys2Proof.Machine.execModuleWatchdogBite s
  | .toleranceWrite q p v => Sys2Proof.Machine.execToleranceWrite q p v s
  | .blockDescend b acc bad => Sys2Proof.Machine.execBlockDescend b acc bad s
  | .blockWake b ev => Sys2Proof.Machine.execBlockWake b ev s
  | .blockExitComplete b => Sys2Proof.Machine.execBlockExitComplete b s
  | .sramGroupRetention b => Sys2Proof.Machine.execSramGroupRetention b s
  | .sramGroupZeroEnd b => Sys2Proof.Machine.execSramGroupZeroEnd b s
  | .selfRefreshEnter m => Sys2Proof.Machine.execSelfRefreshEnter m s
  | .qpEnable hall b k => Sys2Proof.Machine.execQpEnable hall b k s
  | .qpDisable hall b k => Sys2Proof.Machine.execQpDisable hall b k s
  | .qpPost hall b k sqpi rqpi => Sys2Proof.Machine.execQpPost hall b k sqpi rqpi s
  | .sendEntryStart b k => Sys2Proof.Machine.execSendEntryStart b k s
  | .qpCompletion b k chk => Sys2Proof.Machine.execQpCompletion b k chk s
  | .rdmaWriteReceive b k rkey rva data h chk => Sys2Proof.Machine.execRdmaWriteReceive b k rkey rva data h chk s
  | .rdmaReadRequest b k rkey rva len h => Sys2Proof.Machine.execRdmaReadRequest b k rkey rva len h s
  | .sendReceive b k data h chk => Sys2Proof.Machine.execSendReceive b k data h chk s
  | .roceAckReceive b k ans h chk => Sys2Proof.Machine.execRoceAckReceive b k ans h chk s
  | .retransmitTimeout b k => Sys2Proof.Machine.execRetransmitTimeout b k s
  | .cnpReceive b k h => Sys2Proof.Machine.execCnpReceive b k h s
  | .rateIncrease b k => Sys2Proof.Machine.execRateIncrease b k s
  | .mwValidSet hall b w v => Sys2Proof.Machine.execMwValidSet hall b w v s
  | .frameReceive f => Sys2Proof.Machine.execFrameReceive f s
  | .pfcPause prio quanta => Sys2Proof.Machine.execPfcPause prio quanta s
  | .supplyGoodRise => Sys2Proof.Machine.execSupplyGoodRise s
  | .supplyGoodFall => Sys2Proof.Machine.execSupplyGoodFall s
  | .bootStageEnd r => Sys2Proof.Machine.execBootStageEnd r s
  | .bootStageTimeout r => Sys2Proof.Machine.execBootStageTimeout r s
  | .resetPinAssert => Sys2Proof.Machine.execResetPinAssert s
  | .resetPinRelease => Sys2Proof.Machine.execResetPinRelease s
  | .fatalModuleError cause => Sys2Proof.Machine.execFatalModuleError cause s
  | .blockCollectorReport k => Sys2Proof.Machine.execBlockCollectorReport k s
  | .logReport k => Sys2Proof.Machine.execLogReport k s
  | .registerWrite hall addr len v => Sys2Proof.Machine.execRegisterWrite hall addr len v s
  | .linkStateChange iface up => Sys2Proof.Machine.execLinkStateChange iface up s

end Sys2Proof.Machine
end

