-- ==== Sys2Proof/Safety.lean ====
section
/-! DEFINITION. What counts as a safe run, and the conditions in whose terms the statements are made. -/

namespace Sys2Proof

open Sys2Proof.Machine

/-- A step that completes. -/
def Completes (s : State) : Prop := ∃ t, Sys2Proof.Machine.step s = .next t

/-- A cell that executes the instruction presented to it now: it runs (03 R57, R61, 11 R254, 20 R455), no interrupt qualifies
(03 R64), and no tile instruction waits for its commit (06 R139). -/
def Ready (s : State) (c : CellId) : Prop :=
  canIssue s c.val = true ∧ dueInterrupt s c.val = none ∧ (s.cell c.val).tpend = []

/-- `Ready`, and the vector datapaths are not gated (04 R109). -/
def VReady (s : State) (c : CellId) : Prop := Ready s c ∧ (s.cell c.val).vgated = false

/-- The state in which a cell has completed an instruction that changes only that cell: PC moved to the next word. -/
def retired (s : State) (c : CellId) (f : Cell → Cell) : State := s.updCell c.val fun k => (f k).nextPc

/-- The state in which a cell has taken an exception (03 R65), everything else unchanged. -/
def trapped (s : State) (c : CellId) (cls detail : Byte) (addr : W64) : State :=
  s.updCell c.val fun k => k.trapEntry false cls detail addr

/-- No cache holds bytes of its own: none has been disabled (03 R77, R79). Then every agent sees
the one image of memory (03 R69). -/
def Coherent (s : State) : Prop :=
  (∀ c : Nat, ∀ e ∈ (s.cell c).l1d.lines, e.2.data = none) ∧ ∀ b : Nat, ∀ e ∈ (s.block b).l2.lines, e.2.data = none

/-- No arbiter that an access of a cell to a byte of memory may pass is frozen (15 R361, R367): of the L2's crossbar, of the mesh, and of
the bank or controller. -/
def PathOpen (s : State) (c a : Nat) : Prop :=
  arbHolds s (4 * blockOfCell c) (c % 8) = false ∧ pathHeld s (blockOfCell c) 10 (regionOfCell c) = false ∧
    pathHeld s (blockOfCell c) (c % 8) (regionOfCell c) = false ∧ unitHeld s a 0 = false

/-- A cell may read `n` bytes of memory at a partition-relative address, which are the device addresses `as`: each translates
(16 R374), accepts the cell's hallmark (01 R27), waits for no frozen arbiter (15 R367), is powered (20 R458) and free of poison (03 R67). -/
def Reads (s : State) (c : CellId) (va : W64) (n : Nat) (as : List Nat) : Prop :=
  isCtl va = false ∧ xlates s c.val va n = .ok as ∧
    ∀ a ∈ as, memAccepts s (s.cell c.val).hall a 1 = true ∧ PathOpen s c.val a ∧ groupReady s a = true ∧
      viaPoison s c.val a = none

/-- A cell may write `n` bytes of memory at a partition-relative address: different device addresses of memory, each of which accepts
the hallmark, waits for no frozen arbiter and is powered. -/
def Writes (s : State) (c : CellId) (va : W64) (n : Nat) (as : List Nat) : Prop :=
  isCtl va = false ∧ xlates s c.val va n = .ok as ∧ as.Nodup ∧
    ∀ a ∈ as, memAccepts s (s.cell c.val).hall a 1 = true ∧ PathOpen s c.val a ∧ groupReady s a = true

/-- No line of memory or of a cache is poisoned (03 R67). -/
def Unpoisoned (s : State) : Prop :=
  s.poison = [] ∧ (∀ c : Nat, ∀ e ∈ (s.cell c).l1d.lines, e.2.poison = false) ∧
    ∀ b : Nat, ∀ e ∈ (s.block b).l2.lines, e.2.poison = false

/-- A cell `k'` with the caches and the deferred error of another one. -/
def apart (k k' : Cell) : Cell := { k' with l1i := k.l1i, l1d := k.l1d, defErr := k.defErr }

/-- Between two states the cells but one are the same up to their caches and the deferred error that the eviction of a poisoned line
raises, and that one is as a relation says, up to the same; where nothing is poisoned no deferred error is raised; the units outside
the cells that an access does not reach are the same. -/
def onlyCell (s t : State) (c : CellId) (r : Cell → Cell → Prop) : Prop :=
  r (s.cell c.val) (apart (s.cell c.val) (t.cell c.val)) ∧
    (∀ x : CellId, x ≠ c → apart (s.cell x.val) (t.cell x.val) = s.cell x.val) ∧
    (Unpoisoned s → ∀ x : CellId, (t.cell x.val).defErr = (s.cell x.val).defErr) ∧
    t.ctl = s.ctl ∧ t.engines = s.engines ∧ t.qps = s.qps ∧ t.mws = s.mws ∧ t.slots = s.slots ∧ t.setters = s.setters ∧
    t.adders = s.adders ∧ t.aslots = s.aslots ∧ t.ports = s.ports ∧ t.fab = s.fab ∧ t.arbs = s.arbs ∧ t.sessions = s.sessions ∧
    t.cmds = s.cmds ∧ t.eth = s.eth ∧ t.log = s.log ∧ t.sigs = s.sigs ∧ t.out = s.out ∧ t.pending = s.pending

/-- A read left memory as it was, and the bytes it met are those of memory, while no cache holds bytes of its own. -/
def readOnly (s t : State) (c : CellId) (as : List Nat) : Prop :=
  Coherent s → cellBytes t c.val as = as.map (memByte s) ∧ ∀ a, memByte t a = memByte s a

/-- Between two states the bytes `bs` were stored at the addresses `as`, and memory is unchanged elsewhere. -/
def stored (s t : State) (as : List Nat) (bs : List Byte) : Prop :=
  as.map (memByte t) = bs ∧ ∀ a, a ∉ as → memByte t a = memByte s a

/-- Vd after a predicated instruction (04 R87): an active element is `f` of its number, an inactive one is zero or unchanged. -/
def elemsAre (z : Size) (g : Gov) (k : Cell) (d : Reg) (t : State) (c : CellId) (f : Nat → Nat) : Prop :=
  ∀ i < szElems z, elemAt z ((t.cell c.val).v[d]) i =
    if active z (k.gov g) i then f i % 2 ^ szBits z else if g.zero then 0 else elemAt z k.v[d] i

/-- FSTAT has only gained sticky flags, bits 6 to 2 (03 R55, R56). -/
def stickyOnly (old new : W32) : Prop := old &&& new = old ∧ new &&& 3 = old &&& 3 ∧ new &&& ~~~0x7F = old &&& ~~~0x7F

/-- A cell that has accepted a tile instruction (06 R139, R160). -/
def queued (k : Cell) (op : TileOp) : Cell :=
  { k with tpend := k.tpend ++ [⟨k.pc, op⟩], twaking := k.twaking || (op.array && k.tgated), pc := k.pc + 4 }

/-- A request message that the module executes (17 R400, R404, R406): it reaches the module and asks for no more than 1,408 bytes, its
session `j` is established, its TAG is the one that the session's key gives, and its SEQ is the next one. `m` is the message. -/
def Fresh (s : State) (q : Req) (m : WdpMsg) (j : Nat) : Prop :=
  reached s q.iface q.dst = true ∧ m.len.toNat ≤ 1408 ∧ m.pay.length ≤ 1408 ∧ sessOf s q.sess = some j ∧
    q.tag = tagOf (s.sess j).keyIn (msgBytes m) ∧ q.seq = (s.sess j).seq + 1

/-- The state in which a request acts: its session's idle time begins anew, and NOTIFYs go to where it came from (17 R404, R405). -/
def heard (s : State) (q : Req) (j : Nat) : State :=
  s.setSess j { s.sess j with due := moduleDue s (1000 * s.ctl.idle.toNat), peerIf := q.iface, peer := q.src }

/-- The response to a request message as it leaves from its session (17 R399, R400). -/
def answer (s : State) (q : Req) (m : WdpMsg) (j : Nat) (r : Reply) (t : State) : State :=
  sendWdp s t q.iface q.src (respMsg m r) (tagOf (s.sess j).keyOut (msgBytes (respMsg m r)))

/-- The module error log as 21 R475 and R479 describe it: at most 1,024 records, none of which ends before it begins. -/
def LogOk (s : State) : Prop := s.log.recs.length ≤ 1024 ∧ ∀ x ∈ s.log.recs, x.first ≤ x.last

end Sys2Proof
end

