-- ==== Sys2Proof/Certificates/Slice0/Obligations.lean ====
section
/-! DEFINITION. The statements for the provers. Each docstring names the rules of spec/ that its statement follows, or the log
entry of a choice of the model's. -/

open Sys2Proof Sys2Proof.Machine

/-- For every command at the front of the queue, a step is `exec` of that command on the state with the queue's rest
(log entry 1: the model's form of a block). -/
def Obligations.StepRunsFrontCommand : Prop :=
  ∀ (s : State) (c : Instr) (rest : List Instr), s.pending = c :: rest → step s = exec c { s with pending := rest }

/-- 09, the IR, II and UJ tables, R208, R209: the integer instructions write Gd and move PC past themselves; nothing else
changes, no flag among it. A write to G0 is discarded (03 R54): then only PC changes. -/
def Obligations.IntegerInstructionsComplete : Prop :=
  ∀ (s : State) (c : CellId), Ready s c →
    (∀ (fn : BitVec 7) (d a b : Reg) (v : W64), irValue fn.toNat ((s.cell c.val).rdG a) ((s.cell c.val).rdG b) = some v →
      exec (.integerRegOp c fn d a b 0) s = .next (retired s c fun k => k.wrG d v)) ∧
    (∀ (fn : BitVec 4) (d a : Reg) (imm : BitVec 14) (v : W64), iiValue fn.toNat ((s.cell c.val).rdG a) imm = some v →
      exec (.integerImmOp c fn d a imm) s = .next (retired s c fun k => k.wrG d v)) ∧
    (∀ (d : Reg) (imm : BitVec 21),
      exec (.movhi c d imm) s = .next (retired s c fun k => k.wrG d (imm.signExtend 64 * 8192))) ∧
    (∀ (d : Reg) (imm : BitVec 21),
      exec (.pcrel c d imm) s = .next (retired s c fun k => k.wrG d (k.pc + imm.signExtend 64 * 8192))) ∧
    (∀ (k : Cell) (v : W64), (k.wrG 0 v) = k ∧ (k.wrG 0 v).rdG 0 = 0) ∧
    (∀ (k : Cell) (d r : Reg) (v : W64), d ≠ 0 → (k.wrG d v).rdG r = if r = d then v else k.rdG r)

/-- 09, the IR table: quotient × divisor + remainder is the dividend in every case, a zero divisor gives quotient 0 and the
dividend as remainder, the remainder is smaller than the divisor and has the dividend's sign, and the two halves of a product
together are the exact product, signed and unsigned. -/
def Obligations.DivisionAndProducts : Prop :=
  ∀ a b : W64,
    (∃ q r qu ru, irValue 0x0D a b = some q ∧ irValue 0x0F a b = some r ∧ irValue 0x0E a b = some qu ∧
      irValue 0x10 a b = some ru ∧ q * b + r = a ∧ qu * b + ru = a ∧
      (b = 0 → q = 0 ∧ r = a ∧ qu = 0 ∧ ru = a) ∧
      (b ≠ 0 → r.toInt.natAbs < b.toInt.natAbs ∧ ru.toNat < b.toNat ∧ (r ≠ 0 → (r.toInt < 0 ↔ a.toInt < 0)))) ∧
    (∃ lo hs hu, irValue 0x0A a b = some lo ∧ irValue 0x0B a b = some hs ∧ irValue 0x0C a b = some hu ∧
      hs.toInt * 2 ^ 64 + lo.toNat = a.toInt * b.toInt ∧ hu.toNat * 2 ^ 64 + lo.toNat = a.toNat * b.toNat)

/-- 09, the UJ and BR tables, R208, R209: CALL, JUMPR and the branches. JUMPR reads Ga before it writes Gd and clears the low two
bits of its target; a branch that is not taken moves to the next word. That BRSOME and BRNONE complete while the vector datapaths
are gated is the model's choice (log entry 25). -/
def Obligations.JumpsAndBranchesComplete : Prop :=
  ∀ (s : State) (c : CellId), Ready s c →
    let k := s.cell c.val
    (∀ (d : Reg) (imm : BitVec 21),
      exec (.call c d imm) s = .next (s.updCell c.val fun k =>
        { k.wrG d (k.pc + 4) with pc := k.pc + 4 * imm.signExtend 64 })) ∧
    (∀ (d a : Reg) (imm : BitVec 16),
      exec (.jumpr c d a imm) s = .next (s.updCell c.val fun k =>
        { k.wrG d (k.pc + 4) with pc := (k.rdG a + 4 * imm.signExtend 64) &&& ~~~3 })) ∧
    (∀ (cond : BrCond) (a b : Reg) (off : BitVec 15) (t : Bool),
      (match cond with
        | .eq => t = decide (k.rdG a = k.rdG b)
        | .ne => t = decide (k.rdG a ≠ k.rdG b)
        | .lt => t = decide ((k.rdG a).toInt < (k.rdG b).toInt)
        | .ge => t = decide ((k.rdG a).toInt ≥ (k.rdG b).toInt)
        | .lo => t = decide ((k.rdG a).toNat < (k.rdG b).toNat)
        | .hs => t = decide ((k.rdG a).toNat ≥ (k.rdG b).toNat)
        | .reserved => False) →
      exec (.brCond c cond a b off) s = .next (s.updCell c.val fun k =>
        { k with pc := if t then k.pc + 4 * off.signExtend 64 else k.pc + 4 })) ∧
    (∀ (none : Bool) (pa : PReg) (sz : Size) (off : BitVec 15) (t : Bool),
      (t = true ↔ ((∃ i < szElems sz, k.p[pa].getLsbD (i * szBytes sz) = true) ↔ none = false)) →
      exec (.brsomeBrnone c none pa sz off) s = .next (s.updCell c.val fun k =>
        { k with pc := if t then k.pc + 4 * off.signExtend 64 else k.pc + 4 }))

/-- 09 R210, 03 R60, R65, R71: a reserved encoding raises illegal instruction with DETAIL 0x00, a misaligned ordered access or atomic an
access fault with DETAIL 0x05 and the address, and nothing but what trap entry writes changes. With NEST = 1 a reserved encoding makes
the cell fault instead (03 R61). -/
def Obligations.InstructionTraps : Prop :=
  (∀ (s : State) (c : CellId), Ready s c →
     ∀ i : Instr,
       ((∃ fn d a b rsv, i = .integerRegOp c fn d a b rsv ∧ (0x14 < fn.toNat ∨ rsv ≠ 0)) ∨
         (∃ fn d a imm, i = .integerImmOp c fn d a imm ∧
           (8 < fn.toNat ∨ (6 ≤ fn.toNat ∧ 64 ≤ imm.toNat))) ∨
         (∃ a b off, i = .brCond c .reserved a b off) ∨
         (∃ d a imm chk, i = .ld c true d a .d imm chk) ∨
         (∃ fn fmt d a b x, i = .scalarFpOp c fn fmt d a b x ∧ (0x16 < fn.toNat ∨ 1 < fmt.toNat)) ∨
         (∃ op z d a b g, i = .vectorIntOp c op z d a b g ∧ (g.rsv = true ∨ ∃ fn, op = .reserved fn)) ∨
         (∃ op bc z d a b g, i = .vectorFpOp c op bc z d a b g ∧ (g.rsv = true ∨ z = .b ∨ z = .h)) ∨
         (∃ rnd z d a b g, i = .vfxmul c rnd z d a b g ∧ (g.rsv = true ∨ z = .b ∨ z = .d)) ∨
         (∃ var sh rnd d a b g, i = .vpacks c var sh rnd d a b g ∧ (g.rsv = true ∨ var = .reserved ∨ 112 ≤ sh.toNat)) ∨
         (∃ op z pd a b g, i = .vcmp c op z pd a b g ∧ (g.rsv = true ∨ g.zero = true))) →
       ((s.cell c.val).kstate.getLsbD 0 = false → exec i s = .next (trapped s c 0x01 0x00 0)) ∧
       ((s.cell c.val).kstate.getLsbD 0 = true → exec i s = .next (cellFault s c.val))) ∧
  (∀ (s : State) (c : CellId) (d a b : Reg) (dbl aq rl : Bool) (imm : BitVec 13) (chk : Check) (i : Instr) (va : W64), Ready s c →
     (s.cell c.val).kstate.getLsbD 0 = false →
     ((va = (s.cell c.val).rdG a + imm.signExtend 64 ∧ (i = .ldAq c d a dbl imm chk ∨ i = .stRl c d a dbl imm chk)) ∨
       (va = (s.cell c.val).rdG a ∧ isCtl va = false ∧
         (i = .atmadd c d a b dbl aq rl chk ∨ i = .atmswap c d a b dbl aq rl chk ∨ i = .atmcas c d a b dbl aq rl chk))) →
     va.toNat % wdBytes dbl ≠ 0 → exec i s = .next (trapped s c 0x03 0x05 va))

/-- 03 R62, R65: TRAP and BRK take their exception, and TRET at S returns from one. KRPC holds the address after a TRAP, and the
address of a BRK. TRET at U raises privilege with DETAIL 0x00. 03 R70, R73 (log entries 12 and 20): FENCE and FETCHSYNC only move PC in a
model that performs a cell's accesses in order. -/
def Obligations.TrapsReturnsAndFencesComplete : Prop :=
  (∀ (s : State) (c : CellId), Ready s c →
     ((s.cell c.val).kstate.getLsbD 0 = false →
       (∀ imm : BitVec 12, ∃ t, exec (.trap c imm) s = .next t ∧ t = s.updCell c.val fun k =>
         { k with
           krpc := k.pc + 4, kcause := 0x0A + 256 * (imm.truncate 8 : Byte).zeroExtend 32, kaddr := 0
           kstate := 1 + (if k.kstate.getLsbD 1 then 4 else 0) + (if k.sup then 8 else 0)
           sup := true, pc := k.kentry &&& ~~~3 }) ∧
       (∃ t, exec (.brk c) s = .next t ∧ t = s.updCell c.val fun k =>
         { k with
           krpc := k.pc, kcause := 0x0B, kaddr := 0
           kstate := 1 + (if k.kstate.getLsbD 1 then 4 else 0) + (if k.sup then 8 else 0)
           sup := true, pc := k.kentry &&& ~~~3 })) ∧
     ((s.cell c.val).sup = true →
       ∃ t, exec (.tret c) s = .next t ∧
         (t.cell c.val).pc = (s.cell c.val).krpc &&& ~~~3 ∧
         (t.cell c.val).sup = (s.cell c.val).kstate.getLsbD 3 ∧
         (t.cell c.val).kstate.getLsbD 1 = (s.cell c.val).kstate.getLsbD 2 ∧
         (t.cell c.val).kstate.getLsbD 2 = (s.cell c.val).kstate.getLsbD 2 ∧
         (t.cell c.val).kstate.getLsbD 3 = (s.cell c.val).kstate.getLsbD 3 ∧
         (t.cell c.val).kstate.getLsbD 0 = false ∧
         t = s.updCell c.val fun k => { k with
           pc := (t.cell c.val).pc, sup := (t.cell c.val).sup, kstate := (t.cell c.val).kstate }) ∧
     ((s.cell c.val).sup = false → (s.cell c.val).kstate.getLsbD 0 = false →
       exec (.tret c) s = .next (trapped s c 0x02 0x00 0))) ∧
  (∀ (s : State) (c : CellId), Ready s c →
     exec (.fence c) s = .next (retired s c id) ∧ exec (.fetchsync c) s = .next (retired s c id))

/-- 03 R55, 09 R216: a legal scalar floating-point instruction never traps: it completes as its function's effect on its own cell. The
arithmetic functions put the result, rounded under FSTAT.RM, into Fd, the comparisons 1 or 0 into Gd, FMV.GF the bits of Fa into Gd, FMV.FG
those of Ga into Fd. FSTAT[6:2] only gains flags, RM stays, and every G and V register other than number d keeps its value. -/
def Obligations.ScalarFloatingPointCompletes : Prop :=
  ∀ (s : State) (c : CellId) (fn : BitVec 6) (fmt : BitVec 2) (d a b x : Reg), Ready s c →
    sfLegal fn.toNat fmt b x = true →
    let k := s.cell c.val
    let f := fmtOf (fmt == 1)
    let opd (r : Reg) : Nat := (k.rdF r).toNat % 2 ^ f.width
    ∃ t, exec (.scalarFpOp c fn fmt d a b x) s = .next t ∧
      t = retired s c (fun k => sfEffect k fn.toNat (fmt == 1) d a b x) ∧
      (∀ op, sfArith fn.toNat = some op →
        (t.cell c.val).v = (k.wrF d (BitVec.ofNat 64 (fpBits op f k.frm (opd a) (opd b) (opd x)).1)).v) ∧
      (0x14 ≤ fn.toNat → d ≠ 0 → (t.cell c.val).g[d] = 0 ∨ (t.cell c.val).g[d] = 1) ∧
      (fn = 0x14 → d ≠ 0 →
        (t.cell c.val).g[d] = if Fp.eq (f.decode (opd a)) (f.decode (opd b)) = true then 1 else 0) ∧
      (fn = 0x12 → (t.cell c.val).g = (k.wrG d (BitVec.ofNat 64 (opd a))).g) ∧
      (fn = 0x13 → (t.cell c.val).v = (k.wrF d (BitVec.ofNat 64 ((k.rdG a).toNat % 2 ^ f.width))).v) ∧
      k.fstat &&& (t.cell c.val).fstat = k.fstat ∧ (t.cell c.val).fstat &&& 3 = k.fstat &&& 3 ∧
      (∀ r : Reg, r ≠ d → (t.cell c.val).g[r] = k.g[r] ∧ (t.cell c.val).v[r] = k.v[r]) ∧
      t = s.updCell c.val fun k => { k with
        g := (t.cell c.val).g, v := (t.cell c.val).v, vzero := (t.cell c.val).vzero, fstat := (t.cell c.val).fstat, pc := k.pc + 4 }

/-- 09 R215, 03 R54, R85: LD, FLD and LD.AQ of memory that translates, accepts the hallmark, is powered, free of poison and behind no
frozen arbiter read their bytes, least significant first, into Gd (zero- or sign-extended) or Fd (the rest of Vd zero), and change no
other register. While no cache holds bytes of its own, those are the bytes of memory, and memory is unchanged. Where the check bits show an
uncorrectable error on a byte whose line no cache of the cell's answers for, the read raises class 0x05 with that byte's
address (03 R62). 01 R26, R27, 03 R58, R82: a load of control space that the table of R58 allows reads the registers of the addressed
page; one that the table forbids raises an access fault with the first forbidden byte's address, and one whose unit refuses the hallmark a
hallmark fault. The map of R26 and the table of R58 are written out. -/
def Obligations.LoadsComplete : Prop :=
  (∀ (s : State) (c : CellId) (d a : Reg) (imm : BitVec 13) (n : Nat) (as : List Nat), Ready s c →
    Reads s c ((s.cell c.val).rdG a + imm.signExtend 64) n as →
    (∀ (sgn : Bool) (sz : Size), szBytes sz = n → (sgn = true → sz ≠ .d) →
      ∃ t, exec (.ld c sgn d a sz imm .clean) s = .next t ∧
        onlyCell s t c (fun k k' => k' = (k.wrG d (if sgn then (BitVec.ofNat (8 * n) (leNat (cellBytes t c.val as))).signExtend 64
          else BitVec.ofNat 64 (leNat (cellBytes t c.val as)))).nextPc) ∧ readOnly s t c as) ∧
    (∀ dbl : Bool, wdBytes dbl = n →
      ∃ t, exec (.fld c d a dbl imm .clean) s = .next t ∧
        onlyCell s t c (fun k k' => k' = (k.wrF d (BitVec.ofNat 64 (leNat (cellBytes t c.val as)))).nextPc) ∧ readOnly s t c as) ∧
    (∀ dbl : Bool, wdBytes dbl = n → ((s.cell c.val).rdG a + imm.signExtend 64).toNat % n = 0 →
      ∃ t, exec (.ldAq c d a dbl imm .clean) s = .next t ∧
        onlyCell s t c (fun k k' => k' = (k.wrG d (BitVec.ofNat 64 (leNat (cellBytes t c.val as)))).nextPc) ∧ readOnly s t c as) ∧
    (∀ (i x : Nat), as[i]? = some x → i < n → inL1 s c.val (x / 128) = false → l2Holder s c.val (x / 128) = none →
      ∃ t, cellRead s c.val ((s.cell c.val).rdG a + imm.signExtend 64) n ⟨.double, i, false⟩ =
        .raise ⟨5, memDetail x, (s.cell c.val).rdG a + imm.signExtend 64 + BitVec.ofNat 64 i⟩ t)) ∧
  (∀ (s : State) (c : CellId) (d a : Reg) (imm : BitVec 13), Ready s c →
     let k := s.cell c.val
     let va := k.rdG a + imm.signExtend 64
     let x := va.toNat
     let loads (i : Instr) (n : Nat) (w : Nat → Cell → Cell) : Prop :=
       (ctlFault s c.val false va n = none → ctlPathHeld s c.val x = false → ctlRefused s k.hall x n = none →
         exec i s = .next ((countCtl s c.val x n).updCell c.val fun k => (w (leNat (ctlBytes s k.hall x n)) k).nextPc)) ∧
       (k.kstate.getLsbD 0 = false →
         (∀ e, ctlFault s c.val false va n = some e → exec i s = .next (trapped s c 3 e.detail e.addr)) ∧
         (∀ y, ctlFault s c.val false va n = none → ctlPathHeld s c.val x = false → ctlRefused s k.hall x n = some y →
           exec i s = .next (trapped (refusedAtUnit s y) c 4 0 (BitVec.ofNat 64 y))))
     (isCtl va = true →
       (∀ (sgn : Bool) (sz : Size), (sgn = true → sz ≠ .d) → loads (.ld c sgn d a sz imm .clean) (szBytes sz)
         (fun v k => k.wrG d (if sgn then (BitVec.ofNat (szBits sz) v).signExtend 64 else BitVec.ofNat 64 v))) ∧
       (∀ dbl : Bool, loads (.fld c d a dbl imm .clean) (wdBytes dbl) (fun v k => k.wrF d (BitVec.ofNat 64 v))) ∧
       (∀ dbl : Bool, x % wdBytes dbl = 0 →
         loads (.ldAq c d a dbl imm .clean) (wdBytes dbl) (fun v k => k.wrG d (BitVec.ofNat 64 v)))) ∧
     (hallOk (hallOfBlock s (blockOfCell c.val)) k.hall = true → x = 0x30020000000 + 0x10000 * c.val →
       exec (.ld c false d a .d imm .clean) s = .next (retired s c fun k => k.wrG d (BitVec.ofNat 64 (ctime s c.val)))) ∧
     (∀ p < 48, x = 0x30020000000 + 0x10000 * c.val + 0x1000 + 0x40 * p →
       (k.sup = true → hallOk (hallOfBlock s (blockOfCell c.val)) k.hall = true →
         exec (.ld c false d a .w imm .clean) s = .next (retired s c fun k => k.wrG d ((k.pip p).count.zeroExtend 64))) ∧
       (k.sup = false → k.kstate.getLsbD 0 = false → exec (.ld c false d a .w imm .clean) s = .next (trapped s c 3 4 va)))) ∧
  (∀ (s : State) (c : CellId) (wr : Bool) (x : Nat),
     let sup := (s.cell c.val).sup
     let own := ownerOfBlock s (blockOfCell c.val)
     let h := hallOfBlock s (blockOfCell c.val)
     let allowed (p : Prop) : Prop := (p → ctlDetail s c.val wr x = none) ∧ (¬ p → ctlDetail s c.val wr x = some 4)
     (∀ off, placeOf x = .cellCtl c.val off → allowed ((off < 16 ∧ wr = false) ∨ (16 ≤ off ∧ sup = true))) ∧
     (∀ d off, placeOf x = .cellCtl d off → d ≠ c.val →
       allowed (sup = true ∧ own.isSome = true ∧ ownerOfBlock s (blockOfCell d) = own)) ∧
     (∀ b off, placeOf x = .blockCtl b off → allowed (sup = true ∧ own.isSome = true ∧ ownerOfBlock s b = own)) ∧
     (∀ r off, placeOf x = .regionCtl r off → allowed (sup = true ∧ h ≠ 0 ∧
       (regionPageHall s r off = h ∨ (wr = false ∧ ∃ m, aslotUnit r off = some m ∧ holdsAdder s m h = true)))) ∧
     (∀ off, placeOf x = .moduleCtl off → allowed False) ∧
     (placeOf x = .reserved → ctlDetail s c.val wr x = some 0)) ∧
  (∀ i off : Nat,
     (off < 0x1000000 → placeOf (0x30000000000 + off) = .moduleCtl off) ∧
     (i < 4 → off < 0x1000000 → placeOf (0x30001000000 + 0x1000000 * i + off) = .regionCtl i off) ∧
     (i < 64 → off < 0x100000 → placeOf (0x30010000000 + 0x100000 * i + off) = .blockCtl i off) ∧
     (i < 512 → off < 0x10000 → placeOf (0x30020000000 + 0x10000 * i + off) = .cellCtl i off))

/-- 09 R215: ST, FST and ST.RL of memory that translates, accepts the hallmark, is powered and behind no frozen arbiter store their
register's low bytes, least significant first, and change no register. While no cache holds bytes of its own, memory changes at the bytes
stored to and nowhere else. 01 R27, 03 R58, R82: a store to control space that the table of R58 allows writes the registers of the
addressed page; one that the table forbids raises an access fault; one whose unit refuses the hallmark has no effect, is recorded there,
returns to the cell as a refusal, and PC moves on. -/
def Obligations.StoresComplete : Prop :=
  (∀ (s : State) (c : CellId) (d a : Reg) (imm : BitVec 13) (n : Nat) (as : List Nat), Ready s c →
    Writes s c ((s.cell c.val).rdG a + imm.signExtend 64) n as →
    (∀ sz : Size, szBytes sz = n →
      ∃ t, exec (.st c d a sz imm .clean) s = .next t ∧ onlyCell s t c (fun k k' => k' = k.nextPc) ∧
        (Coherent s → stored s t as (leBytes n ((s.cell c.val).rdG d).toNat))) ∧
    (∀ dbl : Bool, wdBytes dbl = n →
      ∃ t, exec (.fst c d a dbl imm .clean) s = .next t ∧ onlyCell s t c (fun k k' => k' = k.nextPc) ∧
        (Coherent s → stored s t as (leBytes n ((s.cell c.val).rdF d).toNat))) ∧
    (∀ dbl : Bool, wdBytes dbl = n → ((s.cell c.val).rdG a + imm.signExtend 64).toNat % n = 0 →
      ∃ t, exec (.stRl c d a dbl imm .clean) s = .next t ∧ onlyCell s t c (fun k k' => k' = k.nextPc) ∧
        (Coherent s → stored s t as (leBytes n ((s.cell c.val).rdG d).toNat)))) ∧
  (∀ (s : State) (c : CellId) (d a : Reg) (imm : BitVec 13), Ready s c →
     let k := s.cell c.val
     let va := k.rdG a + imm.signExtend 64
     let x := va.toNat
     let stores (i : Instr) (bs : List Byte) : Prop :=
       (ctlFault s c.val true va bs.length = none → ctlPathHeld s c.val x = false →
         (ctlAccepts s (placeOf x) k.hall = true →
           exec i s = .next ((ctlPut (countCtl s c.val x bs.length) k.hall x bs).updCell c.val Cell.nextPc)) ∧
         (ctlAccepts s (placeOf x) k.hall = false →
           exec i s = .next ((sendRefusal (refusedAtUnit (countCtl s c.val x bs.length) x) c.val 0 va).updCell c.val Cell.nextPc))) ∧
       (∀ e, k.kstate.getLsbD 0 = false → ctlFault s c.val true va bs.length = some e →
         exec i s = .next (trapped s c 3 e.detail e.addr))
     (isCtl va = true → x % 4096 + 8 ≤ 4096 →
       (∀ sz : Size, stores (.st c d a sz imm .clean) (leBytes (szBytes sz) (k.rdG d).toNat)) ∧
       (∀ dbl : Bool, stores (.fst c d a dbl imm .clean) (leBytes (wdBytes dbl) (k.rdF d).toNat)) ∧
       (∀ dbl : Bool, x % wdBytes dbl = 0 → stores (.stRl c d a dbl imm .clean) (leBytes (wdBytes dbl) (k.rdG d).toNat))) ∧
     (x = 0x30020000000 + 0x10000 * c.val → k.kstate.getLsbD 0 = false →
       exec (.st c d a .d imm .clean) s = .next (trapped s c 3 4 va)) ∧
     (∀ p < 48, x = 0x30020000000 + 0x10000 * c.val + 0x1000 + 0x40 * p →
       (k.sup = true → hallOk (hallOfBlock s (blockOfCell c.val)) k.hall = true → exec (.st c d a .w imm .clean) s = .next
         (retired s c fun k => k.setPip p { k.pip p with count := (k.rdG d).truncate 16 })) ∧
       (k.sup = false → k.kstate.getLsbD 0 = false → exec (.st c d a .w imm .clean) s = .next (trapped s c 3 4 va))))

/-- 09 R215, 03 R71: the atomics on an aligned location leave the old value in Gd, zero-extended, and the new one in memory: old +
Gb, Gb, or Gb where the accessed bits of old equal those of Gd. -/
def Obligations.AtomicsComplete : Prop :=
  ∀ (s : State) (c : CellId) (d a b : Reg) (dbl aq rl : Bool) (as : List Nat) (old : Nat), Ready s c → Coherent s →
    Reads s c ((s.cell c.val).rdG a) (wdBytes dbl) as → Writes s c ((s.cell c.val).rdG a) (wdBytes dbl) as →
    ((s.cell c.val).rdG a).toNat % wdBytes dbl = 0 → old = leNat (as.map (memByte s)) →
    ∀ (i : Instr) (v : Nat),
      ((i = .atmadd c d a b dbl aq rl .clean ∧ v = old + ((s.cell c.val).rdG b).toNat) ∨
        (i = .atmswap c d a b dbl aq rl .clean ∧ v = ((s.cell c.val).rdG b).toNat) ∨
        (i = .atmcas c d a b dbl aq rl .clean ∧
          v = if old = ((s.cell c.val).rdG d).toNat % 2 ^ (8 * wdBytes dbl) then ((s.cell c.val).rdG b).toNat else old)) →
      ∃ t, exec i s = .next t ∧ onlyCell s t c (fun k k' => k' = (k.wrG d (BitVec.ofNat 64 old)).nextPc) ∧
        stored s t as (leBytes (wdBytes dbl) v)

/-- 03 R64, R65, R66, R82: an interrupt that qualifies is taken at S with KRPC the next or the oldest abandoned instruction, and nothing
else changes: a PIPWAIT or PIPWATCH that waits is abandoned and KRPC names it (11 R255), and so is a vector instruction that waits for a
wake (04 R111), while a PIPBAR that has arrived first sends its withdrawal (11 R261); CTIME moved on to CTCMP sets KIPEND.TIMER, and changes that count alone; the first doorbell and the first returned refusal are
the ones pending. -/
def Obligations.InterruptsComplete : Prop :=
  ∀ (s : State) (c : CellId),
    (∀ i : Nat, dueInterrupt s c.val = some i → (s.cell c.val).held = false → (s.cell c.val).faulted = false →
      (s.block (blockOfCell c.val)).st = .run → (s.block (blockOfCell c.val)).oos = false →
      (∀ w, (s.cell c.val).wait = some w → w.kind = .bar → ((s.cell c.val).pip w.pip).arr = true → w.wd = .none →
        ∃ t, exec (.interruptTake c) s = .next t ∧ t.cell c.val = { s.cell c.val with wait := some { w with wd := .sent } } ∧
          t.bmsgs = s.bmsgs ++ [⟨.withdraw, c.val, Fin.ofNat 512 (homeOf c.val ((s.cell c.val).pip w.pip)), BitVec.ofNat 6 w.pip,
            ((s.cell c.val).pip w.pip).gen, (s.cell c.val).hall, 0⟩]) ∧
      ((∀ w, (s.cell c.val).wait = some w → w.kind ≠ .bar ∨ ((s.cell c.val).pip w.pip).arr = false) → ∃ t, exec (.interruptTake c) s = .next t ∧
        (t.cell c.val).krpc = (match (s.cell c.val).tpend with | x :: _ => x.pc | [] => (s.cell c.val).pc) ∧
        (t.cell c.val).kcause = BitVec.ofNat 32 (65536 + 256 * (interruptInfo (s.cell c.val) i).1.toNat + i) ∧
        (t.cell c.val).kaddr = (interruptInfo (s.cell c.val) i).2 ∧
        (t.cell c.val).pc = (s.cell c.val).kentry &&& ~~~3 ∧ (t.cell c.val).sup = true ∧
        (t.cell c.val).kstate.getLsbD 0 = true ∧ (t.cell c.val).kstate.getLsbD 1 = false ∧
        (t.cell c.val).kstate.getLsbD 2 = true ∧ (t.cell c.val).kstate.getLsbD 3 = (s.cell c.val).sup ∧
        t = s.updCell c.val fun k => { k with
          tpend := [], wait := none, vwait := false
          krpc := (t.cell c.val).krpc, kcause := (t.cell c.val).kcause, kaddr := (t.cell c.val).kaddr
          kstate := (t.cell c.val).kstate, sup := true, pc := (t.cell c.val).pc })) ∧
    ((s.block (blockOfCell c.val)).st ≠ .dormant →
      ∃ t, exec (.timerCompare c) s = .next t ∧ (kipend t c.val).getLsbD 1 = true ∧
        (ctime s c.val ≤ (s.cell c.val).ctcmp.toNat → ctime t c.val = (s.cell c.val).ctcmp.toNat) ∧
        t = s.updBlock (blockOfCell c.val) fun x => { x with ctimes := x.ctimes.setIfInBounds (c.val % 8) (ctime t c.val) }) ∧
    (∀ n : BitVec 8, ∃ t, exec (.doorbell c n) s = .next t ∧ (kipend t c.val).getLsbD 4 = true ∧
      t = s.updCell c.val fun k => { k with bell := some (k.bell.getD (n, 0)) }) ∧
    (∀ (k : Nat) (r : HmRefusal), s.hmrefs[k]? = some r → (∀ j < k, ∀ q, s.hmrefs[j]? = some q → q.cell ≠ r.cell) →
      ∃ t, exec (.hallmarkRefusalReturn k) s = .next t ∧ (kipend t r.cell.val).getLsbD 3 = true ∧
        t = { s with hmrefs := s.hmrefs.eraseIdx k }.updCell r.cell.val fun x =>
          { x with hmRef := some (x.hmRef.getD (r.detail, r.addr)) })

/-- 03 R56, R65, R66, 04 R88, 05 R122, 06 R130 to R133: SRD and SWR act under the per-level table, whose rows are written out here; a
forbidden read, an unknown number and a write no level allows raise illegal instruction with DETAIL 0x01, a write at U of a register that
S may write raises privilege with DETAIL 0x01. Then what a register holds after a write: reserved bits read 0, a reserved TSTAT.RM
leaves that field, TSEED never becomes 0, a WC bit is cleared by a 1 only, and a KIPEND bit that a new event sets in the same handshake
stays 1 with the earlier event. That an SWR whose register also holds read-only fields completes for every value, writing the other
fields alone, is the model's choice (log entry 24). -/
def Obligations.SystemRegistersComplete : Prop :=
  (∀ (s : State) (c : CellId) (sr : BitVec 12) (d a : Reg) (again : BitVec 5), Ready s c →
     let sup := (s.cell c.val).sup
     let uRead := [0x010, 0x021, 0x022, 0x040, 0x041, 0x042, 0x045, 0x050, 0x051, 0x052, 0x053, 0x054, 0x055, 0x057]
     let sRead := uRead ++ [0x000, 0x001, 0x002, 0x003, 0x004, 0x005, 0x006, 0x007, 0x020, 0x030, 0x043, 0x044, 0x056]
     let uWrite := [0x010, 0x042, 0x050, 0x051, 0x052, 0x053, 0x054, 0x055]
     let sWrite := uWrite ++ [0x000, 0x001, 0x002, 0x005, 0x006, 0x007, 0x020, 0x030, 0x041, 0x044, 0x045, 0x056, 0x057]
     (sr.toNat ∈ (if sup then sRead else uRead) → exec (.srd c d sr) s = .next (retired s c fun k => k.wrG d (srRead s c.val sr.toNat))) ∧
     (sr.toNat ∉ (if sup then sRead else uRead) → (s.cell c.val).kstate.getLsbD 0 = false →
       exec (.srd c d sr) s = .next (trapped s c 0x01 0x01 0)) ∧
     (sr.toNat ∈ (if sup then sWrite else uWrite) → sr.toNat ∉ [0x007, 0x020, 0x050, 0x051, 0x052, 0x053] →
       exec (.swr c sr a again) s = .next (retired s c fun k => k.srPut sr.toNat (k.rdG a))) ∧
     (sup = true → exec (.swr c 0x007 a again) s = .next (retired s c fun k => k.srPut 0x007 (k.rdG a &&& ~~~(again.zeroExtend 64)))) ∧
     (sup = true → exec (.swr c 0x020 a again) s = .next ((cctlWrite s c.val ((s.cell c.val).rdG a)).updCell c.val Cell.nextPc)) ∧
     (∀ n : Fin 4, exec (.swr c (0x050 + BitVec.ofNat 12 n.val) a again) s = exec (.tcfgWrite c n a false) s) ∧
     (sr.toNat ∉ (if sup then sWrite else uWrite) → (s.cell c.val).kstate.getLsbD 0 = false →
       exec (.swr c sr a again) s = .next (trapped s c (if sup = false ∧ sr.toNat ∈ sWrite then 0x02 else 0x01) 0x01 0))) ∧
  (∀ (k : Cell) (v : W64),
     (k.srPut 0x000 v).kstate = v.truncate 32 &&& 0xF ∧ (k.srPut 0x001 v).kentry = v ∧ (k.srPut 0x002 v).krpc = v ∧
     (k.srPut 0x005 v).kspare = v ∧ (k.srPut 0x006 v).kien = v.truncate 32 &&& 0x1E ∧
     (k.srPut 0x007 v).bell = (if v.getLsbD 4 then none else k.bell) ∧
     (k.srPut 0x007 v).hmRef = (if v.getLsbD 3 then none else k.hmRef) ∧
     (k.srPut 0x007 v).defErr = (if v.getLsbD 2 then none else k.defErr) ∧
     (k.srPut 0x010 v).fstat = v.truncate 32 &&& 0x7F ∧ (k.srPut 0x030 v).ctcmp = v ∧
     (k.srPut 0x041 v).vresume = v.truncate 32 &&& 0x1FF ∧ (k.srPut 0x042 v).vstat = v.truncate 32 &&& 1 ∧
     (k.srPut 0x044 v).vpwr = v.truncate 32 &&& 0x00FFFF01 ∧ (k.srPut 0x056 v).tpwr = v.truncate 32 &&& 0x00FFFF01 ∧
     (k.srPut 0x054 v).tstat &&& 0x1F = v.truncate 32 &&& 0x1F ∧
     (k.srPut 0x054 v).tstat &&& 0x300 = (if v.truncate 32 &&& 0x300 = (0x300 : W32) then k.tstat &&& 0x300 else v.truncate 32 &&& 0x300) ∧
     (k.srPut 0x055 v).tseed = (if (v.truncate 32 : W32) = 0 then 1 else v.truncate 32) ∧
     (k.srPut 0x057 v).terrValid = (k.terrValid && !v.getLsbD 6))

/-- 03 R66, 04 R104, 05 R122, 06 R131 to R133, R144: the writes that are commands of their own. A TCFG write puts the resident quad
back into the file, so every quad keeps its value (of one that is written back already, that of its file copy), and ends its residency. -/
def Obligations.OwnRegisterWritesComplete : Prop :=
  ∀ (s : State) (c : CellId) (a : Reg), Ready s c →
    let v := (s.cell c.val).rdG a
    ((s.cell c.val).sup = true →
      exec (.ctcmpWrite c a) s = .next (retired s c fun k => { k with ctcmp := v }) ∧
      exec (.vresumeWrite c a) s = .next (retired s c fun k => { k with vresume := v.truncate 32 &&& 0x1FF }) ∧
      ∃ t, exec (.strstatEmpty c a) s = .next t ∧
        (∀ n : Fin 4, (t.cell c.val).ss[n] = if v.getLsbD n.val then none else (s.cell c.val).ss[n]) ∧
        t = retired s c fun k => { k with ss := (t.cell c.val).ss }) ∧
    exec (.tseedWrite c a) s = .next (retired s c fun k =>
      { k with tseed := if (v.truncate 32 : W32) = 0 then 1 else v.truncate 32 }) ∧
    (∀ n : Fin 4, (∀ i < 16, fieldN v.toNat (4 * i) 4 ≤ 8) →
      ∃ t, exec (.tcfgWrite c n a false) s = .next t ∧ (t.cell c.val).tcfg = (s.cell c.val).tcfg.set n v ∧
        (t.cell c.val).res = none ∧ (∀ q : Fin 16, (t.cell c.val).quad q =
          if (s.cell c.val).res = some q ∧ (s.cell c.val).accDirty = false then (s.cell c.val).group (4 * q.val) 4
          else (s.cell c.val).quad q) ∧
        t = retired s c fun k => { k with
          tcfg := (t.cell c.val).tcfg, res := none, t := (t.cell c.val).t, tbad := (t.cell c.val).tbad, accDirty := false,
          accBad := (t.cell c.val).accBad }) ∧
    (∀ n : Fin 4, (∀ i < 16, fieldN v.toNat (4 * i) 4 ≤ 8) → (s.cell c.val).res.isSome = true → (s.cell c.val).accDirty = true →
      exec (.tcfgWrite c n a true) s = .next (accFault s c.val))

/-- 03 R77 to R79. CACHE_DISABLE disables the caches it names that are enabled: their EN bits clear and their STALE bits are set, and the
L1 data cache keeps its lines, clean and each with bytes of its own, which are those of memory while no cache held bytes of its own; memory
is then unchanged; the check bits of the lines it writes back may fail (03 R67), which changes no bytes. L2_DISABLE does the same to the L2 and to the enabled L1 caches of the block's eight cells. Re-enabling a cache whose STALE is 1 brings
its lines back as they are, and a record of class stale re-enable (0x0003) goes to the block's collector; while the L2 is disabled an L1
is not enabled. -/
def Obligations.CachesComplete : Prop :=
  (∀ (s : State) (c : CellId) (x y : Bool) (bad : List Nat), Ready s c → (s.cell c.val).sup = true →
     ((x = true → (s.cell c.val).l1i.en = true) ∧ (y = true → (s.cell c.val).l1d.en = true)) →
     ∃ t, exec (.cacheDisable c x y bad) s = .next t ∧
       t = (let s0 := if y then spoilL1 s bad c.val else s
         let s1 := if x then disableL1i s0 c.val else s0
         (if y then disableL1d s1 c.val else s1).updCell c.val Cell.nextPc) ∧
       (t.cell c.val).l1i.en = ((s.cell c.val).l1i.en && !x) ∧ (t.cell c.val).l1d.en = ((s.cell c.val).l1d.en && !y) ∧
       (t.cell c.val).l1i.stale = ((s.cell c.val).l1i.stale || x) ∧ (t.cell c.val).l1d.stale = ((s.cell c.val).l1d.stale || y) ∧
       (t.cell c.val).l1d.lines.map (·.1) = (s.cell c.val).l1d.lines.map (·.1) ∧
       (y = true → ∀ e ∈ (t.cell c.val).l1d.lines, e.2.dirty = false ∧ e.2.data.isSome = true) ∧
       (t.cell c.val).pc = (s.cell c.val).pc + 4 ∧
       (Coherent s → (∀ m, memByte t m = memByte s m) ∧
         (y = true → ∀ e ∈ (t.cell c.val).l1d.lines, e.2.data = some ((List.range 128).map fun i => memByte s (128 * e.1 + i))))) ∧
  (∀ (s : State) (b : BlockId) (h : Byte) (bad : List Nat), hallOk (hallOfBlock s b.val) h = true → (s.block b.val).l2.en = true →
     ∃ t, exec (.l2Disable h b bad) s = .next t ∧ t = disableL2 (spoilBlock s bad b.val) b.val ∧ (t.block b.val).l2.en = false ∧ (t.block b.val).l2.stale = true ∧
       (∀ l, ((t.block b.val).l2.find l).isSome = ((s.block b.val).l2.find l).isSome) ∧
       (∀ e ∈ (t.block b.val).l2.lines, e.2.dirty = false ∧ e.2.data.isSome = true) ∧
       (Coherent s → (∀ m, memByte t m = memByte s m) ∧
         ∀ e ∈ (t.block b.val).l2.lines, e.2.data = some ((List.range 128).map fun i => memByte s (128 * e.1 + i))) ∧
       ∀ i < 8, (t.cell (8 * b.val + i)).l1i.en = false ∧ (t.cell (8 * b.val + i)).l1d.en = false ∧
         ((s.cell (8 * b.val + i)).l1i.en = true → (t.cell (8 * b.val + i)).l1i.stale = true) ∧
         ((s.cell (8 * b.val + i)).l1d.en = true → (t.cell (8 * b.val + i)).l1d.stale = true)) ∧
  (∀ (s : State) (c : CellId), Ready s c → (s.cell c.val).sup = true →
     let b := blockOfCell c.val
     ((s.cell c.val).l1d.en = false → (s.cell c.val).l1d.stale = true → (s.block b).l2.en = true →
       exec (.cacheReenable c .l1d) s = .next
         ((reportBlock (s.updCell c.val fun k => { k with l1d := { k.l1d with en := true } }) b (originCell s c.val) 3 (ownerOfBlock s b)
           0).updCell c.val Cell.nextPc)) ∧
     ((s.cell c.val).l1i.en = false → (s.cell c.val).l1i.stale = true → (s.block b).l2.en = true →
       exec (.cacheReenable c .l1i) s = .next
         ((reportBlock (s.updCell c.val fun k => { k with l1i := { k.l1i with en := true } }) b (originCell s c.val) 3 (ownerOfBlock s b)
           0).updCell c.val Cell.nextPc)) ∧
     ((s.block b).l2.en = false → (s.cell c.val).l1d.en = false → (s.cell c.val).l1i.en = false →
       exec (.cacheReenable c .l1d) s = .next (retired s c id) ∧ exec (.cacheReenable c .l1i) s = .next (retired s c id)) ∧
     ((s.block b).l2.en = false → (s.block b).l2.stale = true → (ownerOfBlock s b).isSome = true →
       (s.cell c.val).hall = hallOfBlock s b → hallOfBlock s b ≠ 0 →
       exec (.cacheReenable c .l2) s = .next
         ((reportBlock (s.setBlock b { s.block b with l2 := { (s.block b).l2 with en := true } }) b (originBlock s b) 3 (ownerOfBlock s b)
           0).updCell c.val Cell.nextPc)))

/-- 04 R87, R90 to R92, 09 R217: the predicated element-wise operations. Active elements of Vd receive the operation on their own
elements, inactive ones keep their value or become zero; FSTAT and VSTAT only gain flags; no other register changes. -/
def Obligations.VectorElementwiseComplete : Prop :=
  ∀ (s : State) (c : CellId) (g : Gov) (sz : Size) (d a b : Reg), VReady s c → g.rsv = false →
    let k := s.cell c.val
    let el (r : Reg) (i : Nat) : Nat := elemAt sz k.v[r] i
    (∀ op : VIntOp, vIntOk op = true → ∃ t, exec (.vectorIntOp c op sz d a b g) s = .next t ∧
      elemsAre sz g k d t c (fun i => vIntElem op (szBits sz) (el a i) (el b i)) ∧
      t = retired s c fun k => { k with v := k.v.set d ((t.cell c.val).v[d]) }) ∧
    (∀ (op : VFpOp) (bc : Bool), szFp sz = true → (vFpUnary op = true → bc = false ∧ b = 0) →
      ∃ t, exec (.vectorFpOp c op bc sz d a b g) s = .next t ∧
      elemsAre sz g k d t c (fun i => (fpBits op (szFmt sz) k.frm (el a i) (if bc then el b 0 else el b i) (el d i)).1) ∧
      stickyOnly k.fstat (t.cell c.val).fstat ∧
      t = retired s c (fun k => vecFp sz g k d fun i => fpBits op (szFmt sz) k.frm (el a i) (if bc then el b 0 else el b i) (el d i))) ∧
    (∀ rnd : Bool, sz = .h ∨ sz = .w → ∃ t, exec (.vfxmul c rnd sz d a b g) s = .next t ∧
      elemsAre sz g k d t c (fun i => (vFxElem rnd (szBits sz) (sgnElem sz (el a i)) (sgnElem sz (el b i))).1) ∧
      ((t.cell c.val).vstat = k.vstat ||| 1 ↔ k.vstat &&& 1 = 1 ∨ ∃ i < szElems sz, active sz (k.gov g) i = true ∧
        (vFxElem rnd (szBits sz) (sgnElem sz (el a i)) (sgnElem sz (el b i))).2 = true) ∧
      ((t.cell c.val).vstat = k.vstat ∨ (t.cell c.val).vstat = k.vstat ||| 1) ∧
      t = retired s c fun k => { k with v := k.v.set d ((t.cell c.val).v[d]), vstat := (t.cell c.val).vstat }) ∧
    (∀ sub uns : Bool, ∃ t, exec (.vsataddVsatsub c sub uns sz d a b g) s = .next t ∧
      elemsAre sz g k d t c (fun i => (vSatElem sz sub uns (el a i) (el b i)).1) ∧
      ((t.cell c.val).vstat = k.vstat ||| 1 ↔
        k.vstat &&& 1 = 1 ∨ ∃ i < szElems sz, active sz (k.gov g) i = true ∧ (vSatElem sz sub uns (el a i) (el b i)).2 = true) ∧
      ((t.cell c.val).vstat = k.vstat ∨ (t.cell c.val).vstat = k.vstat ||| 1) ∧
      t = retired s c fun k => { k with v := k.v.set d ((t.cell c.val).v[d]), vstat := (t.cell c.val).vstat }) ∧
    (∀ op : VCvtOp, szFp sz = true → ∃ t, exec (.vcvt c op sz d a g) s = .next t ∧
      elemsAre sz g k d t c (fun i => (vCvtElem op sz k.frm (el a i)).1) ∧ stickyOnly k.fstat (t.cell c.val).fstat ∧
      t = retired s c (fun k => vecFp sz g k d fun i => vCvtElem op sz k.frm (el a i)))

/-- 04 R91, R92: the element operations. Integer arithmetic wraps, shifts take the amount modulo the element width, and the saturating
forms give the exact value clamped to the element's range, with the flag exactly where the clamp changed it: the sum or difference;
for VFXMULHR and VFXMULH the upper half of the doubled product, with and without rounding; for VPACKS the source shifted right, with
rounding where R is 1 and the shift is not 0, clamped to the destination's signed or unsigned range. -/
def Obligations.VectorElementArithmetic : Prop :=
  ∀ (sz : Size) (a b : Nat), a < 2 ^ szBits sz → b < 2 ^ szBits sz →
    let e := szBits sz
    (vIntElem .add e a b = (a + b) % 2 ^ e) ∧ ((vIntElem .sub e a b + b) % 2 ^ e = a) ∧ (vIntElem .mul e a b = a * b % 2 ^ e) ∧
    (vIntElem .sll e a b = a * 2 ^ (b % e) % 2 ^ e) ∧ (vIntElem .srl e a b = a / 2 ^ (b % e)) ∧
    (sgnElem sz (vIntElem .sra e a b) = sgnElem sz a / 2 ^ (b % e)) ∧
    (∀ sub : Bool,
      let x : Int := if sub then sgnElem sz a - sgnElem sz b else sgnElem sz a + sgnElem sz b
      sgnElem sz (vSatElem sz sub false a b).1 = max (-2 ^ (e - 1)) (min (2 ^ (e - 1) - 1) x) ∧
        ((vSatElem sz sub false a b).2 = true ↔ x < -2 ^ (e - 1) ∨ 2 ^ (e - 1) - 1 < x)) ∧
    (∀ sub : Bool,
      let x : Int := if sub then (a : Int) - b else (a : Int) + b
      ((vSatElem sz sub true a b).1 : Int) = max 0 (min (2 ^ e - 1) x) ∧
        ((vSatElem sz sub true a b).2 = true ↔ x < 0 ∨ 2 ^ e - 1 < x)) ∧
    (∀ rnd : Bool,
      let x : Int := (2 * sgnElem sz a * sgnElem sz b + if rnd then 2 ^ (e - 1) else 0) / 2 ^ e
      let r := vFxElem rnd e (sgnElem sz a) (sgnElem sz b)
      sgnElem sz r.1 = max (-2 ^ (e - 1)) (min (2 ^ (e - 1) - 1) x) ∧ (r.2 = true ↔ x < -2 ^ (e - 1) ∨ 2 ^ (e - 1) - 1 < x)) ∧
    (∀ (sh : Nat) (rnd : Bool), sz ≠ .b → sh < e →
      let w := e / 2
      let r : Int := if rnd = true ∧ 0 < sh then 2 ^ (sh - 1) else 0
      let x : Int := (sgnElem sz a + r) / 2 ^ sh
      let y : Int := ((a : Int) + r) / 2 ^ sh
      let ss := vPackElem .ss sz sh rnd a
      let su := vPackElem .su sz sh rnd a
      let uu := vPackElem .uu sz sh rnd a
      sgnElem (halfSz sz) ss.1 = max (-2 ^ (w - 1)) (min (2 ^ (w - 1) - 1) x) ∧
        (ss.2 = true ↔ x < -2 ^ (w - 1) ∨ 2 ^ (w - 1) - 1 < x) ∧
        (su.1 : Int) = max 0 (min (2 ^ w - 1) x) ∧ (su.2 = true ↔ x < 0 ∨ 2 ^ w - 1 < x) ∧
        (uu.1 : Int) = min (2 ^ w - 1) y ∧ (uu.2 = true ↔ 2 ^ w - 1 < y))

/-- 04 R92, 09 R217, R218: the conversions that change the element width. VFWIDEN reads one half of Va; VFNARROW and VPACKS fill the
low half of Vd from Va and the high half from Vb; each destination element has its own predicate bit. -/
def Obligations.VectorWidthChangesComplete : Prop :=
  ∀ (s : State) (c : CellId) (g : Gov) (sz : Size) (d a b : Reg), VReady s c → g.rsv = false →
    let k := s.cell c.val
    (∀ hi : Bool, szFp sz = true → ∃ t, exec (.vfwiden c hi sz d a g) s = .next t ∧
      elemsAre sz g k d t c (fun i =>
        (fpConv (narrowFmt sz) (szFmt sz) k.frm (elemAt (narrowSz sz) k.v[a] ((if hi then szElems sz else 0) + i))).1) ∧
      stickyOnly k.fstat (t.cell c.val).fstat ∧
      t = retired s c (fun k => vecFp sz g k d fun i =>
        fpConv (narrowFmt sz) (szFmt sz) k.frm (elemAt (narrowSz sz) k.v[a] ((if hi then szElems sz else 0) + i)))) ∧
    (szFp sz = true → ∃ t, exec (.vfnarrow c sz d a b g) s = .next t ∧
      elemsAre (narrowSz sz) g k d t c (fun i => (fpConv (szFmt sz) (narrowFmt sz) k.frm
        (if i < szElems sz then elemAt sz k.v[a] i else elemAt sz k.v[b] (i - szElems sz))).1) ∧
      stickyOnly k.fstat (t.cell c.val).fstat ∧
      t = retired s c (fun k => vecFp (narrowSz sz) g k d fun i => fpConv (szFmt sz) (narrowFmt sz) k.frm
        (if i < szElems sz then elemAt sz k.v[a] i else elemAt sz k.v[b] (i - szElems sz)))) ∧
    (∀ (var : PackVar) (sh : BitVec 7) (rnd : Bool) (src : Size) (n : Nat), var ≠ .reserved → szsh sh.toNat = some (src, n) →
      ∃ t, exec (.vpacks c var sh rnd d a b g) s = .next t ∧
      elemsAre (halfSz src) g k d t c (fun i => (vPackElem var src n rnd
        (if i < szElems src then elemAt src k.v[a] i else elemAt src k.v[b] (i - szElems src))).1) ∧
      ((t.cell c.val).vstat = k.vstat ||| 1 ↔ k.vstat &&& 1 = 1 ∨ ∃ i < szElems (halfSz src), active (halfSz src) (k.gov g) i = true ∧
        (vPackElem var src n rnd
          (if i < szElems src then elemAt src k.v[a] i else elemAt src k.v[b] (i - szElems src))).2 = true) ∧
      ((t.cell c.val).vstat = k.vstat ∨ (t.cell c.val).vstat = k.vstat ||| 1) ∧
      t = retired s c fun k => { k with v := k.v.set d ((t.cell c.val).v[d]), vstat := (t.cell c.val).vstat })

/-- 04 R86, R89: the predicate instructions. PSET activates every element, PCLR clears all 256 bits, PTAIL activates the elements below
the signed count, the logic forms are bitwise, VCMP activates the active elements that compare true, PPOP counts, VELEMS gives N. -/
def Obligations.PredicateInstructionsComplete : Prop :=
  ∀ (s : State) (c : CellId) (sz : Size) (pd pa pb : PReg) (d a b r : Reg) (g : Gov), VReady s c → g.rsv = false → g.zero = false →
    let k := s.cell c.val
    (exec (.pset c pd sz) s = .next (retired s c fun k => k.wrP pd (BitVec.allOnes 256))) ∧
    (exec (.pclr c pd) s = .next (retired s c fun k => k.wrP pd 0)) ∧
    (∃ t, exec (.ptail c pd r sz) s = .next t ∧
      (∀ i < szElems sz, active sz ((t.cell c.val).p[pd]) i = decide ((i : Int) < (k.rdG r).toInt)) ∧
      t = retired s c fun k => k.wrP pd ((t.cell c.val).p[pd])) ∧
    (exec (.predicateLogic c .and pd pa pb) s = .next (retired s c fun k => k.wrP pd (k.p[pa] &&& k.p[pb]))) ∧
    (exec (.predicateLogic c .or pd pa pb) s = .next (retired s c fun k => k.wrP pd (k.p[pa] ||| k.p[pb]))) ∧
    (exec (.predicateLogic c .xor pd pa pb) s = .next (retired s c fun k => k.wrP pd (k.p[pa] ^^^ k.p[pb]))) ∧
    (exec (.predicateLogic c .andn pd pa pb) s = .next (retired s c fun k => k.wrP pd (k.p[pa] &&& ~~~k.p[pb]))) ∧
    (exec (.predicateLogic c .inv pd pa 0) s = .next (retired s c fun k => k.wrP pd (~~~k.p[pa]))) ∧
    (exec (.ppop c sz d g) s = .next (retired s c fun k =>
      k.wrG d (BitVec.ofNat 64 ((List.range (szElems sz)).countP (active sz (k.gov g)))))) ∧
    (exec (.velems c sz d) s = .next (retired s c fun k => k.wrG d (BitVec.ofNat 64 (2048 / (8 * szBytes sz))))) ∧
    (∀ op : VCmpOp, (vCmpFp op = true → szFp sz = true) → ∃ t, exec (.vcmp c op sz pd a b g) s = .next t ∧
      (∀ i < szElems sz, active sz ((t.cell c.val).p[pd]) i =
        (active sz (k.gov g) i && (vCmpElem op sz (elemAt sz k.v[a] i) (elemAt sz k.v[b] i)).1)) ∧
      (vCmpFp op = false → (t.cell c.val).fstat = k.fstat) ∧ stickyOnly k.fstat (t.cell c.val).fstat ∧
      t = retired s c fun k => { k with p := k.p.set pd ((t.cell c.val).p[pd]), fstat := (t.cell c.val).fstat })

/-- 04 R93 to R97: reductions and scans. VRED reduces the active elements, an inactive one counting as the identity: VRED.ADD is their
sum modulo the element width, VRED.MAXU, .OR and .XOR their maximum, or and exclusive or, and with no active element the result is the
identity; VREDO.ADD adds the active elements to Fc in ascending order; VLAST is the last active element, or 0; VSCAN
gives each active element its value in the loop of R93, which for VSCAN.ADD without segments is the running sum from the carry-in. That
a result in Gd is zero-extended is the model's choice (log entry 26). -/
def Obligations.ReductionsAndScansComplete : Prop :=
  ∀ (s : State) (c : CellId) (sz : Size) (d a cr fc : Reg) (g : Gov) (ps : PReg), VReady s c → g.rsv = false →
    let k := s.cell c.val
    let p := k.gov g
    let xs := ((List.range (szElems sz)).filter (active sz p)).map (elemAt sz k.v[a])
    (g.zero = false →
      (∀ op : VRedOp, (redFp op = true → szFp sz = true) → ∃ t, exec (.vred c op sz d a g) s = .next t ∧
        (op = .add → (t.cell c.val).g = (k.wrG d (BitVec.ofNat 64 (xs.sum % 2 ^ szBits sz))).g) ∧
        (op = .maxU → (t.cell c.val).g = (k.wrG d (BitVec.ofNat 64 (xs.foldl max 0))).g) ∧
        (op = .or → (t.cell c.val).g = (k.wrG d (BitVec.ofNat 64 (xs.foldl (· ||| ·) 0))).g) ∧
        (op = .xor → (t.cell c.val).g = (k.wrG d (BitVec.ofNat 64 (xs.foldl (· ^^^ ·) 0))).g) ∧
        (xs = [] → redFp op = false → (t.cell c.val).g = (k.wrG d (BitVec.ofNat 64 (redIdentity op sz))).g) ∧
        (redFp op = false → (t.cell c.val).fstat = k.fstat) ∧ stickyOnly k.fstat (t.cell c.val).fstat ∧
        t = retired s c fun k =>
          let r := reduceVec op sz k.frm (k.gov g) k.v[a]
          (if redFp op then k.wrF d (BitVec.ofNat 64 r.1) else k.wrG d (BitVec.ofNat 64 r.1)).orFl r.2) ∧
      (szFp sz = true → ∃ t, exec (.vredo c sz d a fc g) s = .next t ∧
        (t.cell c.val).v[d] = (BitVec.ofNat 64
          (xs.foldl (fun x y => (fpBits .add (szFmt sz) k.frm x y 0).1) (elemAt sz k.v[fc] 0))).zeroExtend 2048 ∧
        stickyOnly k.fstat (t.cell c.val).fstat ∧
        t = retired s c fun k => { k with v := k.v.set d ((t.cell c.val).v[d]), fstat := (t.cell c.val).fstat }) ∧
      exec (.vlast c false sz d a g) s = .next (retired s c fun k => k.wrG d (BitVec.ofNat 64 (xs.getLastD 0))) ∧
      (szFp sz = true →
        exec (.vlast c true sz d a g) s = .next (retired s c fun k => k.wrF d (BitVec.ofNat 64 (xs.getLastD 0))))) ∧
    (∀ (excl : Bool) (op : ScanOp), (redFp (scanRed op) = true → szFp sz = true) →
      ∃ t, exec (.vscan c excl op sz d a cr g ps) s = .next t ∧
      ((∀ i < szElems sz, active sz k.p[ps] i = false) → op = .add →
        elemsAre sz g k d t c (fun i => (k.rdG cr).toNat +
          (((List.range (if excl then i else i + 1)).filter (active sz p)).map (elemAt sz k.v[a])).sum)) ∧
      (∀ i < szElems sz, active sz p i = false → elemAt sz ((t.cell c.val).v[d]) i = if g.zero then 0 else elemAt sz k.v[d] i) ∧
      (∀ i < szElems sz, active sz p i = true → elemAt sz ((t.cell c.val).v[d]) i =
        (scanLoop (scanRed op) sz k.frm excl
          ((List.range (szElems sz)).map fun j => (active sz k.p[ps] j, active sz p j, elemAt sz k.v[a] j))
          (if redFp (scanRed op) then elemAt sz k.v[cr] 0 else (k.rdG cr).toNat % 2 ^ szBits sz) Fl.none).1.getD i 0 % 2 ^ szBits sz) ∧
      stickyOnly k.fstat (t.cell c.val).fstat ∧
      t = retired s c fun k => { k with v := k.v.set d ((t.cell c.val).v[d]), fstat := (t.cell c.val).fstat })

/-- 04 R98: the permutes. Each element of Vd is the source element that the instruction's rule names, 0 beyond the range. That VWINDOW
reads Gk as an unsigned number is the model's choice (log entry 98). -/
def Obligations.PermutesComplete : Prop :=
  ∀ (s : State) (c : CellId) (sz : Size) (d a b x w : Reg), VReady s c →
    let k := s.cell c.val
    let n := szElems sz
    let el (r : Reg) (i : Nat) : Nat := elemAt sz k.v[r] i
    let pair (i : Nat) : Nat := if i < n then el a i else if i < 2 * n then el b (i - n) else 0
    let is (i : Instr) (f : Nat → Nat) : Prop := ∃ t, exec i s = .next t ∧
      (∀ j < n, elemAt sz ((t.cell c.val).v[d]) j = f j) ∧ t = retired s c fun k => { k with v := k.v.set d ((t.cell c.val).v[d]) }
    is (.vshuf c false sz d a 0 x) (fun j => if el x j < n then el a (el x j) else 0) ∧
    is (.vshuf c true sz d a b x) (fun j => pair (el x j)) ∧
    is (.vweaveVsift c .lo sz d a b) (fun j => if j % 2 = 0 then el a (j / 2) else el b (j / 2)) ∧
    is (.vweaveVsift c .hi sz d a b) (fun j => if j % 2 = 0 then el a (n / 2 + j / 2) else el b (n / 2 + j / 2)) ∧
    is (.vweaveVsift c .ev sz d a b) (fun j => pair (2 * j)) ∧
    is (.vweaveVsift c .od sz d a b) (fun j => pair (2 * j + 1)) ∧
    is (.vreverse c sz d a) (fun j => el a (n - 1 - j)) ∧
    is (.vwindow c sz d a b w) (fun j => pair ((k.rdG w).toNat + j)) ∧
    is (.vbcast c false sz d a) (fun _ => (k.rdG a).toNat % 2 ^ szBits sz) ∧
    (szFp sz = true → is (.vbcast c true sz d a) (fun _ => (k.rdF a).toNat % 2 ^ szBits sz))

/-- 04 R99 to R101, R105: VLD, VGATHER and VGATHERFF of elements that can all be read, while nothing is poisoned and no cache holds bytes
of its own, load the active elements (from VRESUME.IDX
up for the indexed forms), and clear VRESUME; memory is unchanged. A gather whose element j lies outside the windows, all active elements
below it being readable, takes class 0x06 with the element's number and address, VRESUME holds j, and the elements below it are
loaded; a VGATHERFF that has an
active element below j completes, loads the elements below j and leaves Pd with those alone active. What a restarted VGATHERFF leaves in
Pd below VRESUME.IDX is the model's choice (log entry 27). -/
def Obligations.VectorLoadsComplete : Prop :=
  (∀ (s : State) (c : CellId) (sz : Size) (d a x : Reg) (pd : PReg) (g : Gov) (ext sc : Bool) (as : Nat → List Nat),
     VReady s c → g.rsv = false → Coherent s → Unpoisoned s →
     let k := s.cell c.val
     let st := k.resumeIdx
     let val (i : Nat) : Nat := leNat ((as i).map (memByte s))
     let from_ (lo : Nat) (t : State) : Prop := ∀ i < szElems sz, elemAt sz ((t.cell c.val).v[d]) i =
       if lo ≤ i ∧ active sz (k.gov g) i = true then val i
       else if lo ≤ i ∧ g.zero = true then 0 else elemAt sz k.v[d] i
     ((∀ i < szElems sz, active sz (k.gov g) i = true → Reads s c (k.rdG a + BitVec.ofNat 64 (szBytes sz * i)) (szBytes sz) (as i)) →
       ∃ t, exec (.vld c d a sz g .clean) s = .next t ∧ from_ 0 t ∧ (∀ m, memByte t m = memByte s m) ∧
         onlyCell s t c (fun k k' => k' = { k with v := k.v.set d (k'.v[d]), pc := k.pc + 4 })) ∧
     ((∀ i < szElems sz, st ≤ i → active sz (k.gov g) i = true → Reads s c (indexAddr k a x sz ext sc i) (szBytes sz) (as i)) →
       (∃ t, exec (.vgather c d a x sz g ext sc .clean) s = .next t ∧ from_ st t ∧ (∀ m, memByte t m = memByte s m) ∧
         onlyCell s t c (fun k k' => k' = { k with v := k.v.set d (k'.v[d]), vresume := 0, pc := k.pc + 4 })) ∧
       (∃ t, exec (.vgatherff c d a x pd sz g ext sc .clean) s = .next t ∧ from_ st t ∧ (∀ m, memByte t m = memByte s m) ∧
         (∀ i < szElems sz, active sz ((t.cell c.val).p[pd]) i = (active sz (k.gov g) i && decide (st < szElems sz))) ∧
         onlyCell s t c (fun k k' => k' = { k with
           v := k.v.set d (k'.v[d]), p := k.p.set pd (k'.p[pd]), vresume := 0, pc := k.pc + 4 })))) ∧
  (∀ (s : State) (c : CellId) (sz : Size) (d a x : Reg) (pd : PReg) (g : Gov) (ext sc : Bool) (as : Nat → List Nat) (j : Nat) (dt : Byte),
     VReady s c → g.rsv = false → Coherent s → Unpoisoned s →
     let k := s.cell c.val
     k.kstate.getLsbD 0 = false → k.resumeIdx ≤ j → j < szElems sz → active sz (k.gov g) j = true →
     (∀ i < j, k.resumeIdx ≤ i → active sz (k.gov g) i = true → Reads s c (indexAddr k a x sz ext sc i) (szBytes sz) (as i)) →
     xlate s c.val (indexAddr k a x sz ext sc j).toNat = .error dt →
     let below (t : State) : Prop := ∀ i < szElems sz, elemAt sz ((t.cell c.val).v[d]) i =
         if k.resumeIdx ≤ i ∧ i < j ∧ active sz (k.gov g) i = true then leNat ((as i).map (memByte s))
         else if k.resumeIdx ≤ i ∧ i < j ∧ g.zero = true then 0 else elemAt sz k.v[d] i
     ((∃ i < j, k.resumeIdx ≤ i ∧ active sz (k.gov g) i = true) →
       ∃ t, exec (.vgatherff c d a x pd sz g ext sc .clean) s = .next t ∧ below t ∧ (∀ m, memByte t m = memByte s m) ∧
         (∀ i < szElems sz, active sz ((t.cell c.val).p[pd]) i = (active sz (k.gov g) i && decide (i < j))) ∧
         onlyCell s t c (fun k k' => k' = { k with
           v := k.v.set d (k'.v[d]), p := k.p.set pd (k'.p[pd]), vresume := 0, pc := k.pc + 4 })) ∧
     ∃ t, exec (.vgather c d a x sz g ext sc .clean) s = .next t ∧
       (t.cell c.val).kcause = BitVec.ofNat 32 (6 + 256 * (j % 256)) ∧ (t.cell c.val).kaddr = indexAddr k a x sz ext sc j ∧
       (t.cell c.val).krpc = k.pc ∧ (t.cell c.val).vresume = BitVec.ofNat 32 j ∧
       (t.cell c.val).vfcause = BitVec.ofNat 32 (3 + 256 * dt.toNat) ∧ below t ∧ ∀ m, memByte t m = memByte s m)

/-- 04 R99 to R103: VST and VSCATTER of elements that can all be written store each active element's bytes; where elements overlap the
higher one's bytes remain; memory is unchanged elsewhere. No register changes but VRESUME, which a VSCATTER clears. Premises: nothing is
poisoned, and no cache holds bytes of its own. -/
def Obligations.VectorStoresComplete : Prop :=
  ∀ (s : State) (c : CellId) (sz : Size) (d a x : Reg) (g : Gov) (ext sc : Bool) (as : Nat → List Nat),
    VReady s c → g.rsv = false → g.zero = false → Coherent s → Unpoisoned s →
    let k := s.cell c.val
    let n := szBytes sz
    let on (lo i : Nat) : Prop := lo ≤ i ∧ i < szElems sz ∧ active sz (k.gov g) i = true
    let kept (lo : Nat) (t : State) : Prop :=
      (∀ i m, on lo i → m < n → (∀ j, i < j → on lo j → (as i).getD m 0 ∉ as j) →
        memByte t ((as i).getD m 0) = (leBytes n (elemAt sz k.v[d] i)).getD m 0) ∧
      ∀ m, (∀ i, on lo i → m ∉ as i) → memByte t m = memByte s m
    ((∀ i, on 0 i → Writes s c (k.rdG a + BitVec.ofNat 64 (n * i)) n (as i)) →
      ∃ t, exec (.vst c d a sz g .clean) s = .next t ∧ kept 0 t ∧ onlyCell s t c (fun k k' => k' = k.nextPc)) ∧
    ((∀ i, on k.resumeIdx i → Writes s c (indexAddr k a x sz ext sc i) n (as i)) →
      ∃ t, exec (.vscatter c d a x sz g ext sc .clean) s = .next t ∧ kept k.resumeIdx t ∧
        onlyCell s t c (fun k k' => k' = { k with vresume := 0, pc := k.pc + 4 }))

/-- 04 R86, 05 R113, R119 to R124: PLD and PST move the 32 bytes of a predicate, SLD fills a strand slot from a valid image, and VMAP
runs the strand of its slot on every active element and writes the outputs its beads name, whole. 04 R108 to R111: an idle cell's vector
datapaths are gated where VPWR.AUTO allows it; a vector instruction that meets gated datapaths waits and wakes them; at the end of the
wake they are powered, and the registers a scalar write had left to be cleared hold zero above bit 63. That SLD completes while the
datapaths are gated, and when they are gated and wake, are the model's choices (log entries 25 and 32). -/
def Obligations.PredicateMovesStrandsAndPowerComplete : Prop :=
  (∀ (s : State) (c : CellId) (p : PReg) (a d : Reg) (n : Fin 4) (g : Gov) (as bs : List Nat), Coherent s → Unpoisoned s →
     let k := s.cell c.val
     (VReady s c → Reads s c (k.rdG a) 32 as → ∃ t, exec (.pldPst c false p a .clean) s = .next t ∧
       (∀ m, memByte t m = memByte s m) ∧
       onlyCell s t c (fun k k' => k' = (k.wrP p (BitVec.ofNat 256 (leNat (as.map (memByte s))))).nextPc)) ∧
     (VReady s c → Writes s c (k.rdG a) 32 as → ∃ t, exec (.pldPst c true p a .clean) s = .next t ∧
       stored s t as (leBytes 32 k.p[p].toNat) ∧ onlyCell s t c (fun k k' => k' = k.nextPc)) ∧
     (∀ x : Strand, Ready s c → (k.rdG a).toNat % 8 = 0 → Reads s c (k.rdG a) 8 as → headerOk (leNat (as.map (memByte s))) = true →
       Reads s c (k.rdG a) (strandBytes (leNat (as.map (memByte s)))) bs → strandOf (bs.map (memByte s)) = .ok x →
       ∃ t, exec (.sld c n a .clean) s = .next t ∧ (∀ m, memByte t m = memByte s m) ∧
         onlyCell s t c (fun k k' => k' = { k with ss := k.ss.set n (some x), pc := k.pc + 4 })) ∧
     (∀ x : Strand, VReady s c → g.rsv = false → k.ss[n] = some x → x.namesOut2 = none → x.trapnv = false →
       ∃ t, exec (.vmap c d a n g) s = .next t ∧
         (∀ o < 2, ∀ i < 64, elemAt .w (vget (t.cell c.val).v ((d.val + o) % 32)) i =
           if (x.writer (12 + o)).isNone then elemAt .w (vget k.v ((d.val + o) % 32)) i
           else if active .w (k.gov g) i then ((x.run k.frm (vmapIns k a.val i) (vmapX k)).outs.getD o 0).toNat
           else if g.zero then 0 else elemAt .w (vget k.v ((d.val + o) % 32)) i) ∧
         stickyOnly k.fstat (t.cell c.val).fstat ∧
         (∀ r : Reg, r.val ≠ d.val → r.val ≠ (d.val + 1) % 32 → (t.cell c.val).v[r] = k.v[r]) ∧
         t = retired s c fun k => { k with v := (t.cell c.val).v, fstat := (t.cell c.val).fstat })) ∧
  (∀ (s : State) (c : CellId) (pd : PReg) (sz : Size),
     let k := s.cell c.val
     (k.held = false → k.vpwr.getLsbD 0 = true → k.vwaking = false →
       exec (.vectorGate c) s = .next (s.updCell c.val fun k => { k with vgated := true })) ∧
     (Ready s c → k.vgated = true → exec (.pset c pd sz) s = .next (s.updCell c.val fun k => { k with vwaking := true, vwait := true })) ∧
     (k.vwaking = true → ∃ t, exec (.vectorWakeEnd c) s = .next t ∧ (t.cell c.val).vgated = false ∧
       (t.cell c.val).vwaking = false ∧ (t.cell c.val).vwait = false ∧ (t.cell c.val).vzero = [] ∧
       (∀ r : Reg, (t.cell c.val).v[r] = if r.val ∈ k.vzero then (k.v[r].truncate 64).zeroExtend 2048 else k.v[r]) ∧
       t = s.updCell c.val fun k => { k with
         vgated := false, vwaking := false, vwait := false, vzero := [], v := (t.cell c.val).v }))

/-- 06 R139, R146, R147, R152: a legal tile instruction is accepted while fewer than four are uncommitted: it joins the queue with its
address and its operands as they are now, PC moves on, and its effect waits for its commit. -/
def Obligations.TileInstructionsAccepted : Prop :=
  ∀ (s : State) (c : CellId) (a b x td : TReg) (cq : Fin 16) (o : BitVec 4) (gs : BitVec 2) (fs g : Reg) (as : List Nat),
    canIssue s c.val = true → dueInterrupt s c.val = none → (s.cell c.val).tpend.length < 4 →
    let k := s.cell c.val
    let accepts (i : Instr) (op : TileOp) : Prop := exec i s = .next (s.updCell c.val fun k => queued k op)
    (k.mmaLegal cq a b x o gs = true → accepts (.tmma c cq a b x o gs []) (.mma cq a b x o gs)) ∧
    accepts (.tzero c td false) (.zero td) ∧
    (k.quadLegal td = true →
      accepts (.tzeroQ c td false) (.zeroQ (td.val / 4)) ∧
      accepts (.tscale c td fs []) (.scale (td.val / 4) ((k.rdF fs).truncate 32)) ∧
      (fieldN (k.rdG g).toNat 44 2 ≠ 3 →
        accepts (.tdrain c td fs g []) (.drain (td.val / 4) ((k.rdF fs).truncate 32) (k.rdG g)))) ∧
    ((k.rdG g).getLsbD 8 = false ∨ (s.slot (256 * (c.val / 128) + fieldN (k.rdG g).toNat 0 8)).refuses k.hall = false →
      (k.cvtNarrowLegal td x = true →
        accepts (.tcvtNarrow c td x fs g []) (.narrow td (x.val / 4) ((k.rdF fs).truncate 32) (k.rdG g))) ∧
      (k.cvtNarrowLegal td x = false → k.cvtWidenLegal td x = true →
        accepts (.tcvtWiden c td x fs g []) (.widen (td.val / 4) x ((k.rdF fs).truncate 32)))) ∧
    (Coherent s → k.storePending = false → Reads s c (k.rdG g) 1024 as → ∃ t, exec (.tld c td g .clean false) s = .next t ∧
      (∀ m, memByte t m = memByte s m) ∧
      onlyCell s t c (fun k k' => k' = queued k (.load td (BitVec.ofNat 8192 (leNat (as.map (memByte s))))))) ∧
    (Writes s c (k.rdG g) 1024 as → ∃ t, exec (.tst c x g [] .clean) s = .next t ∧ (∀ m, memByte t m = memByte s m) ∧
      onlyCell s t c (fun k k' => k' = queued k (.store x (k.rdG g).toNat .clean)))

/-- 06 R138, with the conditions of R136, R137 and R147: an illegal shape, alignment or tag raises a tile shape fault with DETAIL 0x00 and
KADDR 0. Nothing changes but what trap entry writes: no register, quad, flag, random bit or slot; KRPC names the instruction. -/
def Obligations.IllegalTileShapesTrap : Prop :=
  ∀ (s : State) (c : CellId) (a b x td : TReg) (cq : Fin 16) (o : BitVec 4) (gs : BitVec 2) (fs g : Reg) (par : List TReg) (acc : Bool),
    Ready s c → (s.cell c.val).kstate.getLsbD 0 = false →
    let k := s.cell c.val
    let faults (i : Instr) : Prop := exec i s = .next (trapped s c 0x08 0x00 0) ∧ (k.trapEntry false 0x08 0x00 0).krpc = k.pc
    (k.mmaLegal cq a b x o gs = false → faults (.tmma c cq a b x o gs par)) ∧
    (k.quadLegal td = false → faults (.tzeroQ c td acc) ∧ faults (.tscale c td fs par)) ∧
    (k.quadLegal td = false ∨ fieldN (k.rdG g).toNat 44 2 = 3 → faults (.tdrain c td fs g par)) ∧
    ((k.rdG g).getLsbD 8 = false ∨ (s.slot (256 * (c.val / 128) + fieldN (k.rdG g).toNat 0 8)).refuses k.hall = false →
      k.cvtNarrowLegal td x = false → k.cvtWidenLegal td x = false →
      faults (.tcvtNarrow c td x fs g par) ∧ faults (.tcvtWiden c td x fs g par))

/-- 06 R139, R142 to R152: the oldest tile instruction commits, once nothing holds it and no word it reads has wrong parity. TZERO, TLD and
a narrowing TCVT write their registers; TZERO.Q, TMMA, TSCALE and a widening TCVT make their quad resident with their result; TST stores
its register's 1,024 bytes; TDRAIN fills the drain buffer, and zeroes its quad where ZERO is set. The committed value of every quad that the
instruction does not write is kept; G, V and P registers, tags, PC and the younger instructions are untouched. A resident quad that is
written back already is not written back again: when another becomes resident, its value is that of its file copy. -/
def Obligations.TileCommitCompletes : Prop :=
  ∀ (s : State) (c : CellId) (pc : W64) (op : TileOp) (rest : List TileIns),
    let k := s.cell c.val
    k.held = false → k.faulted = false → k.tpend = ⟨pc, op⟩ :: rest → k.commitHeld op = false → storeHeld s c.val op = false →
    k.accBad = false → k.meetsBad op = none →
    ∃ t, exec (.tileCommit c) s = .next t ∧ t = tileEffect (s.setCell c.val { k with tpend := rest }) c.val op ∧
      let k' := t.cell c.val
      let kept (p : Fin 16 → Prop) : Prop := ∀ r : Fin 16, p r → k'.quad r =
        if k.res = some r ∧ k.accDirty = false ∧ k'.res ≠ some r then k.group (4 * r.val) 4 else k.quad r
      let seed : Rng := ⟨k.tseed.toNat, TFl.none⟩
      k'.tpend = rest ∧ k'.pc = k.pc ∧ k'.g = k.g ∧ k'.v = k.v ∧ k'.p = k.p ∧ k'.tcfg = k.tcfg ∧ k'.faulted = false ∧
      (∀ td, op = .zero td → vget k'.t td.val = 0 ∧ kept (fun q => q.val ≠ td.val / 4)) ∧
      (∀ td d, op = .load td d → vget k'.t td.val = d ∧ kept (fun q => q.val ≠ td.val / 4)) ∧
      (∀ q : Fin 16, op = .zeroQ q.val → k'.res = some q ∧ k'.quad q = 0 ∧ kept (· ≠ q)) ∧
      (∀ cq a b x o gs sh, op = .mma cq a b x o gs → k.shape a b = some sh →
        let kr := (k.forRead a.val sh.na).forRead b.val sh.nb
        k'.res = some cq ∧ kept (· ≠ cq) ∧ k.tstat &&& k'.tstat = k.tstat ∧
          k'.quad cq = packN 32 (mma sh (k.tag a.val) (k.tag b.val) k.trm k.tseed.toNat (unpackN 32 1024 (k.quad cq))
            (kr.group a.val sh.na) (kr.group b.val sh.nb) (kr.group x.val 1) o.toNat gs.toNat).quad % 2 ^ 32768) ∧
      (∀ (q : Fin 16) fs, op = .scale q.val fs → k'.res = some q ∧ kept (· ≠ q) ∧ k.tstat &&& k'.tstat = k.tstat ∧
        k'.quad q = packN 32 (scaleConv fp32 false k.trm (v32 fs) (quadValues (k.quad q)) seed).out % 2 ^ 32768) ∧
      (∀ (q : Fin 16) ts fs, op = .widen q.val ts fs →
        let f := tagFmt (k.tag ts.val)
        let n := narrowRegs (k.tag ts.val)
        let xs := (unpackN f.width 1024 ((k.forRead ts.val n).group ts.val n)).map f.decode
        k'.res = some q ∧ kept (· ≠ q) ∧ k.tstat &&& k'.tstat = k.tstat ∧
          k'.quad q = packN 32 (scaleConv fp32 false k.trm (v32 fs) xs seed).out % 2 ^ 32768) ∧
      (∀ td (q : Fin 16) fs gk, op = .narrow td q.val fs gk → td.val % narrowRegs (k.tag td.val) = 0 →
        let f := tagFmt (k.tag td.val)
        let n := narrowRegs (k.tag td.val)
        kept (fun r => r.val ≠ td.val / 4) ∧ k.tstat &&& k'.tstat = k.tstat ∧
          k'.group td.val n = packN f.width (scaleConv f true k.trm (v32 fs) (quadValues (k.quad q)) seed).out % 2 ^ (8192 * n)) ∧
      (∀ (q : Fin 16) fs gj, op = .drain q.val fs gj →
        k'.drain = some (drainTile k.trm (v32 fs) gj (quadValues (k.quad q)) seed).1 ∧ kept (· ≠ q) ∧
          k'.quad q = (if gj.getLsbD 46 then 0 else k.quad q)) ∧
      (∀ ts va as, op = .store ts va .clean → Coherent s → Writes s c (BitVec.ofNat 64 va) 1024 as →
        kept (fun _ => True) ∧ stored s t as (leBytes 1024 ((k.forRead ts.val 1).group ts.val 1)))

/-- 06 R144, R151, R158 to R160, 13 R306: gating writes the resident quad back where it is not yet, so every quad keeps its value, and
ends its residency, or
finds the accumulator's parity bad and faults the cell; the end of a wake powers the array; a drained tile leaves for its home adder once a
local buffer is free there and no arbiter on the way is frozen. 01 R24, R25, R27: a tile-window write by an agent whose hallmark the cell
accepts puts its bytes into the tile file, and a read leaves every quad's value; a block in Nap or Doze wakes first; a refused access is
recorded, and one at a Dormant block fails, and a copy engine's descriptor ends with it. While a frozen arbiter holds an access on its way
it waits (15 R367). -/
def Obligations.TileFileComplete : Prop :=
  (∀ (s : State) (c : CellId),
     let k := s.cell c.val
     (k.held = false → k.faulted = false → k.tpwr.getLsbD 0 = true → k.twaking = false → k.tpend = [] →
       (∃ t, exec (.tileArrayGate c false) s = .next t ∧
         (t.cell c.val).tgated = true ∧ (t.cell c.val).res = none ∧ (∀ q : Fin 16, (t.cell c.val).quad q =
           if k.res = some q ∧ k.accDirty = false then k.group (4 * q.val) 4 else k.quad q) ∧
         t = s.updCell c.val fun k => { k with
           tgated := true, res := none, accDirty := false, accBad := (t.cell c.val).accBad, t := (t.cell c.val).t,
           tbad := (t.cell c.val).tbad }) ∧
       (k.res.isSome = true → k.accDirty = true → exec (.tileArrayGate c true) s = .next (accFault s c.val))) ∧
     (k.twaking = true → exec (.tileArrayWakeEnd c) s = .next (s.updCell c.val fun k => { k with tgated := false, twaking := false })) ∧
     (∀ x : Tile, k.drain = some x →
       let m := x.bucket.toNat % 24
       localUsed s m < localCap s m → pathHeld s (blockOfCell c.val) (c.val % 8) (regionOfCtl m) = false →
       ∃ t, exec (.drainPacketSend c) s = .next t ∧ t.tiles = s.tiles ++ [⟨c, k.hall, x⟩] ∧
         t.cell c.val = { k with drain := none } ∧ (∀ y : Nat, y ≠ c.val → t.cell y = s.cell y) ∧
         (regionOfCtl m = regionOfCell c.val → t.parts = s.parts) ∧
         t = { s with cells := t.cells, tiles := t.tiles, parts := t.parts })) ∧
  (∀ (s : State) (ag : Agent) (c : CellId) (off : BitVec 16) (data : List Byte) (n : Nat) (op : WinOp) (acc : Bool),
     let k := s.cell c.val
     let b := blockOfCell c.val
     let adr := 0x20000000000 + 0x10000 * c.val + off.toNat
     (windowPathHeld s ag c = true → exec (.tileWindowAccess ag c off op acc) s = .next s) ∧
     ((s.block b).oos = false → windowPathHeld s ag c = false →
     (hallOk (hallOfBlock s b) (Agent.hall s ag) = true →
       (((s.block b).st = .run ∨ (s.block b).st = .poise) → k.tpend = [] →
         (off.toNat + data.length ≤ 65536 → ∃ t, exec (.tileWindowAccess ag c off (.wr data) false) s = .next t ∧
           tileBytes (t.cell c.val) off.toNat data.length = data ∧
           t = (wakeBlock s b).updCell c.val fun k => { k with
             t := (t.cell c.val).t, tbad := (t.cell c.val).tbad, res := (t.cell c.val).res, accDirty := (t.cell c.val).accDirty,
             accBad := (t.cell c.val).accBad }) ∧
         (off.toNat + n ≤ 65536 → tileReadBad (k.windowRead off.toNat n) off.toNat n = none →
           ∃ t, exec (.tileWindowAccess ag c off (.rd n) false) s = .next t ∧ (t.cell c.val).res = k.res ∧
           (∀ q : Fin 16, (t.cell c.val).quad q = k.quad q) ∧
           t = (wakeBlock s b).updCell c.val fun k => { k with
             t := (t.cell c.val).t, tbad := (t.cell c.val).tbad, accDirty := (t.cell c.val).accDirty })) ∧
       (off.toNat + (match op with | .rd len => len | .wr bs => bs.length) ≤ 65536 →
         ((s.block b).st = .nap ∨ (s.block b).st = .doze → exec (.tileWindowAccess ag c off op acc) s = .next (wakeBlock s b)) ∧
         ((s.block b).st = .dormant → exec (.tileWindowAccess ag c off op acc) s = .next (windowEnd s ag 1 3 adr)))) ∧
     (hallOk (hallOfBlock s b) (Agent.hall s ag) = false →
       off.toNat + (match op with | .rd len => len | .wr bs => bs.length) ≤ 65536 →
       exec (.tileWindowAccess ag c off op acc) s = .next (windowEnd (refusedAtUnit s adr) ag 2 0 adr))))

/-- 08 R195 to R204: a contribution with the slot's hallmark and format adds its counts, saturating, to the step counters and the totals
and joins its amax; one without a format adds its INVC and BUMPC; one with another format only adds 1 to MIXC; one with another hallmark
leaves the slot, and is recorded. Closing a slot zeroes its step counters and AMAXV, keeps the totals and pushes the step's entry where the
step has data, whose history value gives AMAXH and, while SCUR is positive, SNEXT; clearing zeroes counters and history and copies SCUR to
SNEXT; a change of SCFG's FMT, POLICY or WIN clears. The record of class 0x0004 for a contribution refused by its hallmark is the model's choice
(log entry 71). -/
def Obligations.SlotsComplete : Prop :=
  (∀ (s : State) (r : RegionId) (n : Byte) (x : Contribution),
     let i := 256 * r.val + n.toNat
     let sl := s.slot i
     let up (v : W64) (d : Nat) : W64 := BitVec.ofNat 64 (min (2 ^ 64 - 1) (v.toNat + d))
     (∀ f, x.fmt = some f → sl.assigned = true → sl.hall = x.hall → f.toNat = sl.fmt →
       ∃ t, exec (.slotContribution r n x) s = .next t ∧
       (t.slot i).step = #v[up sl.step[0] x.conv, up sl.step[1] x.satc, up sl.step[2] x.vanc, up sl.step[3] x.invc,
         up sl.step[4] x.degc, up sl.step[5] x.nfc, up sl.step[6] x.bumpc, sl.step[7]] ∧
       (t.slot i).total = #v[up sl.total[0] x.conv, up sl.total[1] x.satc, up sl.total[2] x.vanc, up sl.total[3] x.invc,
         up sl.total[4] x.degc, up sl.total[5] x.nfc, up sl.total[6] x.bumpc, sl.total[7]] ∧
       (t.slot i).amaxv = amaxJoin sl.amaxv x.amax ∧ (t.slot i).sbmax.toNat = max sl.sbmax.toNat x.bump.toNat ∧
       (∀ j, j ≠ i → t.slot j = s.slot j) ∧ t = { s with slots := t.slots }) ∧
     (x.fmt = none → sl.assigned = true → sl.hall = x.hall → ∃ t, exec (.slotContribution r n x) s = .next t ∧
       (t.slot i).step = (sl.step.set 3 (up sl.step[3] x.invc)).set 6 (up sl.step[6] x.bumpc) ∧
       (t.slot i).total = (sl.total.set 3 (up sl.total[3] x.invc)).set 6 (up sl.total[6] x.bumpc) ∧
       (t.slot i).amaxv = sl.amaxv ∧ (t.slot i).sbmax.toNat = max sl.sbmax.toNat x.bump.toNat ∧
       (∀ j, j ≠ i → t.slot j = s.slot j) ∧ t = { s with slots := t.slots }) ∧
     (∀ f, x.fmt = some f → sl.assigned = true → sl.hall = x.hall → f.toNat ≠ sl.fmt →
       ∃ t, exec (.slotContribution r n x) s = .next t ∧
       (t.slot i).step = sl.step.set 7 (up sl.step[7] 1) ∧ (t.slot i).total = sl.total.set 7 (up sl.total[7] 1) ∧
       (t.slot i).amaxv = sl.amaxv ∧ (t.slot i).sevt.getLsbD 5 = true ∧ (∀ j, j ≠ i → t.slot j = s.slot j) ∧
       t = { s with slots := t.slots, sigs := t.sigs, parts := t.parts }) ∧
     (sl.assigned = false ∨ sl.hall ≠ x.hall → exec (.slotContribution r n x) s =
       .next (reportLog s (originSlot s i) (originSlot s i) 4 (partOfHall s sl.hall) 0))) ∧
  (∀ (s : State) (h : Byte) (r : RegionId) (n : Byte) (v : W64),
     let i := 256 * r.val + n.toNat
     let x := s.slot i
     x.assigned = true → x.hall = h → h ≠ 0 →
     (∃ t, exec (.slotClose h r n) s = .next t ∧ (t.slot i).step = Vector.replicate 8 0 ∧ (t.slot i).amaxv = 0 ∧
       (t.slot i).sbmax = 0 ∧ (t.slot i).total = x.total ∧ (t.slot i).cfg = x.cfg ∧ (t.slot i).own = x.own ∧
       (t.slot i).scur = x.scur ∧
       (x.pushes = true → (t.slot i).hist = (slotEntry x :: x.hist).take 16 ∧
         (t.slot i).sstep.toNat = min (2 ^ 32 - 1) (x.sstep.toNat + 1) ∧
         (t.slot i).amaxh = slotPolicy x ((slotEntry x :: x.hist).take 16) ∧
         ((v32 x.scur).sign = false → (v32 x.scur).isZero = false →
           (t.slot i).snext = slotScale x (slotPolicy x ((slotEntry x :: x.hist).take 16)))) ∧
       (x.pushes = false → (t.slot i).hist = x.hist ∧ (t.slot i).sstep = x.sstep ∧ (t.slot i).snext = x.snext) ∧
       (∀ j, j ≠ i → t.slot j = s.slot j) ∧
       t = { s with slots := t.slots, sigs := t.sigs, parts := t.parts, regions := t.regions, draws := t.draws }) ∧
     (∃ t, exec (.slotClear h r n) s = .next t ∧ (t.slot i).step = Vector.replicate 8 0 ∧
       (t.slot i).total = Vector.replicate 8 0 ∧ (t.slot i).hist = [] ∧ (t.slot i).sstep = 0 ∧ (t.slot i).sevt = 0 ∧
       (t.slot i).sevcnt = 0 ∧ (t.slot i).snext = x.scur ∧ (t.slot i).scur = x.scur ∧ (t.slot i).own = x.own ∧
       (t.slot i).cfg = x.cfg ∧ (∀ j, j ≠ i → t.slot j = s.slot j) ∧ t = { s with slots := t.slots, draws := t.draws }) ∧
     (∃ t, exec (.scfgWrite h r n v) s = .next t ∧
       (slotFmtOk (fieldN v.toNat 0 4) = true → (t.slot i).fmt = fieldN v.toNat 0 4) ∧
       (slotFmtOk (fieldN v.toNat 0 4) = false → (t.slot i).fmt = x.fmt) ∧
       (fieldN (t.slot i).cfg.toNat 0 10 ≠ fieldN x.cfg.toNat 0 10 → (t.slot i).step = Vector.replicate 8 0 ∧
         (t.slot i).hist = [] ∧ (t.slot i).snext = x.scur) ∧
       (fieldN (t.slot i).cfg.toNat 0 10 = fieldN x.cfg.toNat 0 10 → t.slot i = { x with cfg := (t.slot i).cfg }) ∧
       (∀ j, j ≠ i → t.slot j = s.slot j) ∧ t = { s with slots := t.slots, draws := t.draws }))

/-- 09 R214, 10 R224, R225: CPQ queues the descriptor of the 64 bytes at Ga with the engine's acceptance number and gives 0, or gives 1
with no other effect where 16 are queued; while its queue's arbiter is frozen it waits (15 R367). The engine starts its next descriptor, which runs if its checks pass and else ends with their
code, without counting into CEDONE; a copy to a module that cannot be reached ends with code 0x7. -/
def Obligations.CopyQueueComplete : Prop :=
  ∀ (s : State) (c : CellId) (d a : Reg) (b : BlockId) (e : Fin 2) (chk : Check) (as : List Nat),
    (Ready s c → ((s.cell c.val).rdG a).toNat % 64 = 0 →
      let i := 2 * blockOfCell c.val + e.val
      let x := s.engine i
      (arbFrozen s (4 * blockOfCell c.val + 2 + e.val) = true → exec (.cpq c d a e chk) s = .next s) ∧
      (16 ≤ x.queue.length → arbFrozen s (4 * blockOfCell c.val + 2 + e.val) = false →
        exec (.cpq c d a e chk) s = .next (retired s c fun k => k.wrG d 1)) ∧
      (x.queue.length < 16 → Coherent s → Reads s c ((s.cell c.val).rdG a) 64 as →
        arbFrozen s (4 * blockOfCell c.val + 2 + e.val) = false →
        ∃ t, exec (.cpq c d a e .clean) s = .next t ∧ (∀ m, memByte t m = memByte s m) ∧
          t.engine i = { x with queue := x.queue ++ [⟨descOf (as.map (memByte s)), c.val, x.acc⟩], acc := x.acc + 1 } ∧
          (∀ n, n ≠ i → t.engine n = s.engine n) ∧
          apart (s.cell c.val) (t.cell c.val) = ((s.cell c.val).wrG d 0).nextPc ∧
          (∀ y : CellId, y ≠ c → apart (s.cell y.val) (t.cell y.val) = s.cell y.val) ∧
          t.slots = s.slots ∧ t.setters = s.setters ∧ t.adders = s.adders ∧ t.log = s.log ∧ t.sigs = s.sigs)) ∧
    (∀ (j : Job) (rest : List Job),
      let i := 2 * b.val + e.val
      let x := s.engine i
      x.queue = j :: rest → x.run = none → (s.block b.val).oos = false →
      ((s.block b.val).st = .run ∨ (s.block b.val).st = .poise) →
      let ended (code dt adr : Nat) : Prop :=
        ∃ t, exec (.descriptorStart b e) s = .next t ∧ (t.engine i).run = none ∧ (t.engine i).queue = rest ∧
          (t.engine i).err = true ∧ (t.engine i).done = x.done ∧ (t.engine i).acc = x.acc ∧
          (x.err = false → (t.engine i).ceerr = BitVec.ofNat 64 (code + dt * 256 + j.num.toNat % 2 ^ 48 * 65536) ∧
            (t.engine i).ceaddr = (if code = 4 then 0 else BitVec.ofNat 64 (adr % 2 ^ 48))) ∧
          (∀ m, memByte t m = memByte s m) ∧ t.cells = s.cells
      (descErr s b.val j.desc = none → (j.desc.remote = false ∨ fabReachable s j.desc.modId = true) →
        exec (.descriptorStart b e) s = .next (s.setEngine i { x with queue := rest, run := some j })) ∧
      (descErr s b.val j.desc = none → j.desc.remote = true → fabReachable s j.desc.modId = false → ended 7 0 j.desc.dstA) ∧
      (∀ code dt adr, descErr s b.val j.desc = some (code, dt, adr) → ended code dt adr))

/-- 10 R222, R223, R226 to R230: a copy of accepted memory to ranges that its source does not meet completes, whatever its rows, planes,
strides and conversion: a byte copy puts each source byte at its place; a narrowing or widening copy puts each element, multiplied exactly
and rounded once, at its; a weight copy puts the codes of each group at their bits of the row and its scale at the address of R222. Memory
is unchanged elsewhere, CEDONE counts the copy and its completion pip is signalled once. A copy that a unit
refuses ends with code 0x2, one that meets uncorrectable data with 0x3, a bite of the arbiter that it owns with 0x5, an abort with 0x6 and
its queue discarded, a loss of the other module with 0x7. Each sets CESTAT.ERR, keeps an error already held, does not count into CEDONE,
and signals the error pip where the descriptor enables it. That CEEADDR of codes 0x2 and 0x3 names the first bad byte is the model's
choice (log entry 23). -/
def Obligations.CopiesComplete : Prop :=
  ∀ (s : State) (b : BlockId) (e : Fin 2) (j : Job) (adr : BitVec 48) (h : Byte) (src chk : Check),
    let i := 2 * b.val + e.val
    let x := s.engine i
    let d := j.desc
    let own := hallOfBlock s b.val
    let ended (t : State) (code detail ea : Nat) : Prop := (t.engine i).run = none ∧ (t.engine i).err = true ∧
      (t.engine i).done = x.done ∧ (t.engine i).acc = x.acc ∧
      (t.engine i).ceerr = (if x.err then x.ceerr else BitVec.ofNat 64 (code + detail * 256 + j.num.toNat % 2 ^ 48 * 65536)) ∧
      (t.engine i).ceaddr = (if x.err then x.ceaddr else BitVec.ofNat 64 ea) ∧
      t.sigs = s.sigs ++ (if d.epipen then [⟨512 + i, Fin.ofNat 512 j.cell, BitVec.ofNat 6 (d.doneF 48 6), 1, own, none⟩] else [])
    let sa (p r n : Nat) : Nat := ((d.srcA : Int) + p * strideHi d.sstr + r * strideLo d.sstr + n).toNat
    let da (p r n : Nat) : Nat := ((d.dstA : Int) + p * strideHi d.dstr + r * strideLo d.dstr + n).toNat
    let holds (t : State) (a n v : Nat) : Prop := (List.range n).map (fun m => memByte t (a + m)) = leBytes n v
    let value (p r n : Nat) : Fp :=
      Fp.mul ((tagFmt d.sfmt).decode (leNat ((List.range d.es).map fun m => memByte s (sa p r (d.es * n + m))))) d.mult |>.1
    let rm : Rm := if d.cv 9 2 = 1 then .rtz else .rne
    x.run = some j →
    (d.remote = false → d.kind ≠ .invalid → 0 < d.n0 → 0 < d.n1 → 0 < d.n2 → d.cv 9 2 < 2 → (d.kind = .weight → d.n0 % d.gsz = 0) →
      copyHeld s i d = false → extsReady (wakeExts s d) d = true → Coherent s →
      (∀ y ∈ d.exts, 0 ≤ y.1 ∧ ∀ m < y.2.1, isMem (y.1.toNat + m) = true ∧ memAccepts s own (y.1.toNat + m) 1 = true) →
      d.exts.Pairwise (fun y z => y.2.2 = true ∨ z.2.2 = true → y.1 + (y.2.1 : Int) ≤ z.1 ∨ z.1 + (z.2.1 : Int) ≤ y.1) →
      let else_ (t : State) : Prop := ∀ a : Nat,
        (∀ y ∈ d.exts, y.2.2 = true → (a : Int) < y.1 ∨ y.1 + y.2.1 ≤ (a : Int)) → memByte t a = memByte s a
      ((∀ p < d.n2, ∀ r < d.n1, ∀ m < d.srcRow, memBad s (sa p r m) = none) → ∃ t, exec (.copyComplete b e .clean .clean) s = .next t ∧
        else_ t ∧ t.engine i = { x with run := none, done := x.done + 1, contrib := none, fin := false } ∧
        (∀ n, n ≠ i → t.engine n = s.engine n) ∧ (d.cnt = false → t.slots = s.slots) ∧
        t.sigs = s.sigs ++
          (if d.pipen then [⟨512 + i, Fin.ofNat 512 (d.doneF 6 9), BitVec.ofNat 6 (d.doneF 0 6), 1, own, none⟩] else []) ∧
        ∀ p < d.n2, ∀ r < d.n1,
          (d.kind = .bytes → ∀ n < d.n0, memByte t (da p r n) = memByte s (sa p r n)) ∧
          (d.kind = .narrow ∨ d.kind = .widen → ∀ n < d.n0, holds t (da p r (tagBytes d.dfmt * n)) (tagBytes d.dfmt)
            (tileOut (tagFmt d.dfmt) true rm (value p r n)).bits) ∧
          (d.kind = .weight → ∀ g < d.n0 / d.gsz,
            let o := emitGroup d.dfmt (d.conv.getLsbD 22) ((List.range d.gsz).map fun n =>
              fp32.decode (tileOut fp32 false rm (value p r (d.gsz * g + n))).bits)
            holds t (da p r (d.edBits * d.gsz * g / 8)) (d.edBits * d.gsz / 8) (packN d.edBits o.codes) ∧
              holds t (d.scaleA + 2 * (r + d.n1 * (g + d.n0 / d.gsz * p))) 2 o.scale)) ∧
      (∀ p r m dt, p < d.n2 → r < d.n1 → m < d.srcRow → memBad s (sa p r m) = some (sa p r m, dt) →
        (∀ p' < d.n2, ∀ r' < d.n1, ∀ m' < d.srcRow, (p' * d.n1 + r') * d.srcRow + m' < (p * d.n1 + r) * d.srcRow + m →
          memBad s (sa p' r' m') = none) →
        ∃ t, exec (.copyComplete b e .clean .clean) s = .next t ∧ ended t 3 dt.toNat (sa p r m) ∧ else_ t ∧
          (d.kind = .bytes → t.poison.contains (da p r m / 128) = true)) ∧
      (∀ p r m (dt : Byte), p < d.n2 → r < d.n1 → m < d.srcRow → adr.toNat = sa p r m → dt = 0 ∨ l2Of s adr.toNat = none →
        (∀ g, placeOf adr.toNat = .sram g → (ownerOfBlock s g).isSome = true) →
        ∃ t, exec (.copyError b e (.uncorrectable dt) adr) s = .next t ∧
        (t.engine i).run = none ∧ (t.engine i).err = true ∧ (t.engine i).done = x.done ∧
        (x.err = false → (t.engine i).ceerr.toNat % 256 = 3))) ∧
    (∀ a, copyHeld s i d = false → extsReady (wakeExts s d) d = true → tileGate (extTiles d.exts) (wakeExts s d) = .ready (wakeExts s d) →
      (d.remote = false ∨ x.fin = false) → firstInExts (fun a _ => unitAccepts s own a) d.exts = some a → a < 2 ^ 48 →
      ∃ t, exec (.copyComplete b e src chk) s = .next t ∧ ended t 2 0 a) ∧
    (copyHeld s i d = true → exec (.copyComplete b e src chk) s = .next s) ∧
    (copyHeld s i d = false → extsReady (wakeExts s d) d = false → exec (.copyComplete b e src chk) s = .next (wakeExts s d)) ∧
    (∃ t, exec (.copyError b e .hallmark adr) s = .next t ∧ ended t 2 0 adr.toNat) ∧
    (∀ (k : ArbId) (q : ArbReq) (beats later : Nat), (s.arb (arbKey k)).owner = some q → portOfArb (arbKey k) = none →
      (causeOf q.what ≠ .copy b e → exec (.copyError b e (.bite k beats later) adr) s = .next s) ∧
      (causeOf q.what = .copy b e → beats < q.beats →
        ∃ t, exec (.copyError b e (.bite k beats later) adr) s = .next t ∧ ended t 5 0 0 ∧ (t.engine i).queue = x.queue)) ∧
    (∃ t, exec (.copyError b e .remoteRefused adr) s = .next t ∧ ended t 7 0 adr.toNat) ∧
    (∃ t, exec (.copyError b e .remoteLost adr) s = .next t ∧ ended t 7 1 adr.toNat) ∧
    (ctlAccepts s (placeOf (engineReg b.val e.val 0x28)) h = true →
      ∃ t, exec (.copyAbort h b e) s = .next t ∧ ended t 6 0 0 ∧ (t.engine i).queue = []) ∧
    (ctlAccepts s (placeOf (engineReg b.val e.val 0x28)) h = false →
      exec (.copyAbort h b e) s = .next (refusedAtUnit s (engineReg b.val e.val 0x28)))

/-- 10 R226, R231, 14 R344, R345, 16 R375: a one-row byte copy to another module sends its data packets and its finish packet, and waits
for their WACK. A WRITE data packet that a receive window of its job accepts is written, once no frozen arbiter holds it and its SRAM group
is powered, and memory is unchanged elsewhere; another is
answered with a refusal, and no later packet of its descriptor is written. The finish packet signals the completion pip with the hallmark
of the partition that took the writes and is answered; the WACK completes the running descriptor, or ends it with code 0x7. That the later
packets of a refused copy are dropped, that its finish packet gets no second WACK, and that a WACK owed to a copy that has ended completes
none are the model's choices (log entry 48). -/
def Obligations.RemoteCopiesComplete : Prop :=
  ∀ (s u : State) (k : Nat) (x : Inbox) (p : Nat) (b : BlockId) (e : Fin 2) (j : Job) (chk : Check),
    (let i := 2 * b.val + e.val
     let d := j.desc
     (s.engine i).run = some j → (s.engine i).fin = false → d.remote = true → d.cvt = false → d.sfmt = 0 → d.dfmt = 0 → d.n1 = 1 →
     d.n2 = 1 → 0 < d.n0 → copyHeld s i d = false → extsReady (wakeExts s d) d = true →
     (∀ m < d.n0, isMem (d.srcA + m) = true ∧ memAccepts s (hallOfBlock s b.val) (d.srcA + m) 1 = true ∧ memBad s (d.srcA + m) = none) →
     exec (.copyComplete b e .clean chk) s = .next (sendCopy ((countCopy (wakeExts s d) b.val d).setEngine i
       { s.engine i with contrib := none, fin := true }) i d
       [(d.dstA, (List.range d.n0).map fun m => (memByte s (d.srcA + m), none))] false)) ∧
    (takePacket s k (fun q => q.kind == kWrite && q.sub == 0) = some (x, u) →
      let a := x.pkt.fld 16 48
      let n := x.pkt.pay.length
      let key := remoteKey x.pkt
      let held : Prop := inHeld s (regionOfPlace (placeOf a)) = true ∨ unitsHeld s a n 0 = true
      (held → exec (.remoteWriteReceive k chk) s = .next s) ∧
      (¬ held → u.wrefused.contains key = true → exec (.remoteWriteReceive k chk) s = .next u) ∧
      (¬ held → u.wrefused.contains key = false → acceptsWrite u x.pkt.job.toNat a n = none →
        exec (.remoteWriteReceive k chk) s = .next (sendWack { u with wrefused := insertNat key u.wrefused } none x.pkt true)) ∧
      (¬ held → u.wrefused.contains key = false → acceptsWrite u x.pkt.job.toNat a n = some p → (∀ m < n, isMem (a + m) = true) →
        (extentReady (wakeExtent s a n) a n = false → exec (.remoteWriteReceive k chk) s = .next (wakeExtent s a n)) ∧
        (extentReady (wakeExtent s a n) a n = true →
          (∃ t, exec (.remoteWriteReceive k chk) s = .next t ∧ t.inbox = u.inbox) ∧
          (Coherent s → ∃ t, exec (.remoteWriteReceive k .clean) s = .next t ∧ t.inbox = u.inbox ∧
            (∀ m, (h : m < n) → memByte t (a + m) = x.pkt.pay[m]) ∧ (∀ y, y < a ∨ a + n ≤ y → memByte t y = memByte s y) ∧
            t.wtaken = Tab.put s.wtaken key (s.part p).hall ∧ t.engines = s.engines ∧ t.sigs = s.sigs)))) ∧
    (takePacket s k (fun q => q.kind == kWrite && q.sub == 1) = some (x, u) →
      let key := remoteKey x.pkt
      let u' := { u with wtaken := Tab.erase u.wtaken key }
      (u.wrefused.contains key = true →
        exec (.remoteWriteFinish k) s = .next { u' with wrefused := u.wrefused.filter (· ≠ key) }) ∧
      (u.wrefused.contains key = false → finishOwner u x.pkt = none → exec (.remoteWriteFinish k) s = .next (sendWack u' none x.pkt true)) ∧
      (u.wrefused.contains key = false → finishOwner u x.pkt = some p → x.pkt.hdr.getLsbD 31 = true →
        x.pkt.fld 16 6 < 48 →
        let g : Sig := ⟨8192, Fin.ofNat 512 (x.pkt.fld 22 9), BitVec.ofNat 6 (x.pkt.fld 16 6), 1, (s.part p).hall, none⟩
        ∃ t v, exec (.remoteWriteFinish k) s = .next t ∧ t.sigs = v ++ [g] ∧ t.wtaken = u'.wtaken ∧
          (x.pkt.src ≠ s.modId ∨ (s.engine (x.pkt.fld 76 7)).contrib = none → t.sigs = s.sigs ++ [g]) ∧
          ∀ m, memByte t m = memByte s m)) ∧
    (∀ v : Byte, s.wtaken.find? (fun y => y.1 == remoteKey x.pkt) = some (remoteKey x.pkt, v) → finishOwner s x.pkt = partOfHall s v) ∧
    (takePacket s k (fun q => q.kind == kWack) = some (x, u) →
      let i := x.pkt.fld 76 7
      let y := s.engine i
      (inHeld s (regionOfBlock (blockOfEngine i)) = true → exec (.wackReceive k) s = .next s) ∧
      (inHeld s (regionOfBlock (blockOfEngine i)) = false →
      (y.stale.contains x.pkt.src = true → ∃ t, exec (.wackReceive k) s = .next t ∧
        t.engine i = { y with stale := y.stale.erase x.pkt.src } ∧ ∀ n, n ≠ i → t.engine n = s.engine n) ∧
      (y.stale.contains x.pkt.src = false → y.run = some j → j.desc.remote = true → j.desc.modId = x.pkt.src → y.fin = true →
        (x.pkt.sub = 0 → ∃ t, exec (.wackReceive k) s = .next t ∧
          t.engine i = { y with run := none, done := y.done + 1, contrib := none, fin := false } ∧
          ∀ n, n ≠ i → t.engine n = s.engine n) ∧
        (x.pkt.sub ≠ 0 → ∃ t, exec (.wackReceive k) s = .next t ∧ (t.engine i).run = none ∧ (t.engine i).err = true ∧
          (t.engine i).done = y.done ∧
          (y.err = false → (t.engine i).ceerr = BitVec.ofNat 64 (7 + j.num.toNat % 2 ^ 48 * 65536))))))

/-- 10 R234 to R236, R239, R240, R243, 20 R459: a patrol scrubber counts a corrected error of its memory; an uncorrectable one is counted,
marks its bank or controller failing, and, where a partition holds the unit, leaves its line poisoned with a record of class 0x000A; a
clean word changes nothing. It waits for a frozen arbiter, and reads nothing without power or in self-refresh. -/
def Obligations.ScrubbersComplete : Prop :=
  ∀ (s : State) (r : RegionId) (w : BitVec 27) (m : CtlId) (line : BitVec 28) (ecc : Ecc),
    (let a := 0x10000000000 + 0x40000000 * r.val + 8 * w.toNat
     let g := 16 * r.val + w.toNat / 2 ^ 23
     let n := 16 * (g % 16) + a / 128 % 16
     let x := s.region r.val
     (powered s = false ∨ groupReady s a = false ∨ unitHeld s a 3 = true → exec (.sramScrub r w ecc) s = .next s) ∧
     (powered s = true → groupReady s a = true → unitHeld s a 3 = false → (s.block g).groupOos = false → a / 128 ∉ s.poison →
       exec (.sramScrub r w .clean) s = .next (wakeGroup s a) ∧
       (∃ t, exec (.sramScrub r w .single) s = .next t ∧
         (t.region r.val).corr.toNat = min (2 ^ 64 - 1) (x.corr.toNat + 1) ∧
         Tab.get 0 (t.region r.val).bankCorr n = Tab.get 0 x.bankCorr n + 1 ∧ (t.region r.val).unc = x.unc ∧
         ((ownerOfBlock s g).isSome = true → t.poison = s.poison)) ∧
       ∃ t, exec (.sramScrub r w .double) s = .next t ∧
         (t.region r.val).unc.toNat = min (2 ^ 64 - 1) (x.unc.toNat + 1) ∧ (t.region r.val).bankFail.getLsbD n = true ∧
         (t.region r.val).corr = x.corr ∧
         ((ownerOfBlock s g).isSome = true → t.poison = insertNat (a / 128) s.poison ∧
           t.lreps = queueReport ⟨none, originBank s r.val n, originBank s r.val n, 0xA, 2, ownByte (ownerOfMem s a),
             detailWord 0 1 (a % 2 ^ 48), 1⟩ s.lreps))) ∧
    (let a := ctlRangeBase m.val + 128 * line.toNat
     let x := s.region (m.val / 6)
     let i := m.val % 6
     (powered s = false ∨ x.selfRef.getLsbD i = true ∨ unitHeld s a 3 = true → exec (.lpddrScrub m line ecc) s = .next s) ∧
     (powered s = true → x.selfRef.getLsbD i = false → unitHeld s a 3 = false → x.ctlOos.getLsbD i = false → a / 128 ∉ s.poison →
       exec (.lpddrScrub m line .clean) s = .next s ∧
       (∃ t, exec (.lpddrScrub m line .single) s = .next t ∧ t.poison = s.poison ∧
         (vget (t.region (m.val / 6)).ctlCorr i).toNat = min (2 ^ 64 - 1) ((vget x.ctlCorr i).toNat + 1) ∧
         (t.region (m.val / 6)).ctlUnc = x.ctlUnc) ∧
       ∃ t, exec (.lpddrScrub m line .double) s = .next t ∧ t.poison = insertNat (a / 128) s.poison ∧
         (vget (t.region (m.val / 6)).ctlUnc i).toNat = min (2 ^ 64 - 1) ((vget x.ctlUnc i).toNat + 1) ∧
         (t.region (m.val / 6)).ctlFail.getLsbD i = true ∧
         (ctlHeld s m.val = true → t.lreps = queueReport ⟨none, originCtl s m.val, originCtl s m.val, 0xA, 2, ownByte (ownerOfMem s a),
           detailWord 0 2 (a % 2 ^ 48), 1⟩ s.lreps)))

/-- 09 R213, 11 R247 to R253, R264: PIPSIG puts one signal of Gb[15:0] with the cell's hallmark on its way, to another module as a SIGNAL
packet, or has it refused where no such module can be reached. A signal that arrives at a count pip with the target's hallmark raises COUNT,
clamped at 65,535, and sets OVF where the clamp changed it; another hallmark is refused; at a cell in Dormant it is lost. A signal that
meets the condition of the cell's waiting PIPWAIT or PIPWATCH completes it: PIPWAIT consumes 1, PIPWATCH nothing. A SIGNAL packet whose
pip accepts remote signals for its job is counted; another changes no pip. A signal with REMOTE = 1 that names this module stays in the
order of its cell's other signals to the pip and meets the same check (14 R336). A frozen arbiter on the way holds a signal back
(15 R367). -/
def Obligations.SignalsComplete : Prop :=
  (∀ (s : State) (c : CellId) (a b : Reg), Ready s c →
     let k := s.cell c.val
     let w := k.rdG a
     let p := fieldN w.toNat 0 6
     let cell := fieldN w.toNat 6 9
     let dst := fieldN w.toNat 16 18
     let n := fieldN (k.rdG b).toNat 0 16
     (p < 48 → w.getLsbD 15 = false → ∃ t, exec (.pipsig c a b) s = .next t ∧ t = sendSig (retired s c id) c.val cell p n k.hall ∧
       t.sigs = s.sigs ++ [⟨c.val, Fin.ofNat 512 cell, BitVec.ofNat 6 p, BitVec.ofNat 16 n, k.hall, none⟩]) ∧
     (p < 48 → w.getLsbD 15 = true → fabReachable s dst = true → dst = s.modId →
       ∃ t, exec (.pipsig c a b) s = .next t ∧ t = remoteSignal (retired s c id) c cell p n dst ∧ t.rsigs = s.rsigs ∧
         t.sigs = s.sigs ++ [⟨c.val, Fin.ofNat 512 cell, BitVec.ofNat 6 p, BitVec.ofNat 16 n, 0, some (fjobOf s c.val)⟩]) ∧
     (p < 48 → w.getLsbD 15 = true → fabReachable s dst = true → dst ≠ s.modId →
       ∃ t, exec (.pipsig c a b) s = .next t ∧ t = remoteSignal (retired s c id) c cell p n dst ∧ t.sigs = s.sigs ∧
         t.rsigs = s.rsigs ++ [⟨c, BitVec.ofNat 18 dst, BitVec.ofNat 16 (64 * cell + p), fjobOf s c.val⟩]) ∧
     (p < 48 → w.getLsbD 15 = true → fabReachable s dst = false →
       exec (.pipsig c a b) s = .next (sendRefusal (retired s c id) c.val 1 (BitVec.ofNat 64 (pipAddr cell p)))) ∧
     (48 ≤ p → k.kstate.getLsbD 0 = false → exec (.pipsig c a b) s = .next (trapped s c 0x03 0x00 w))) ∧
  (∀ (s : State) (n : Nat) (g : Sig),
     let c := g.cell.val
     let p := g.pip.toNat
     let k := s.cell c
     let x := k.pip p
     let b := blockOfCell c
     -- the check of a signal: its hallmark, or, where it names this module by its identifier, RSIG and the job tag
     let passes : Prop := (g.job = none ∧ hallOk (hallOfBlock s b) g.hall = true) ∨
       (∃ job, g.job = some job ∧ p < 48 ∧ x.mode = 0 ∧ x.rsig = true ∧ x.rjob = job)
     let fails : Prop := (g.job = none ∧ hallOk (hallOfBlock s b) g.hall = false) ∨
       (∃ job, g.job = some job ∧ (s.block b).st ≠ .dormant ∧ (48 ≤ p ∨ x.mode ≠ 0 ∨ x.rsig = false ∨ x.rjob ≠ job))
     s.sigs[n]? = some g → (∀ j < n, ∀ y, s.sigs[j]? = some y → sameSig g y = false) →
     (sigHeld s g = true → exec (.pipSignalArrive n) s = .next s) ∧
     (sigHeld s g = false → passes → (s.block b).st ≠ .dormant → x.mode = 0 →
       (k.wait = none ∨ (∃ w, k.wait = some w ∧ (w.pip ≠ p ∨ w.ok (x.add g.amount) = false)) →
         ∃ t, exec (.pipSignalArrive n) s = .next t ∧ ((t.cell c).pip p).count.toNat = min 65535 (x.count.toNat + g.amount.toNat) ∧
           (((t.cell c).pip p).ovf = true ↔ x.ovf = true ∨ 65535 < x.count.toNat + g.amount.toNat) ∧
           (∀ q, q ≠ p → (t.cell c).pip q = k.pip q) ∧ t.cell c = { k with pips := (t.cell c).pips } ∧
           (∀ d, d ≠ c → t.cell d = s.cell d) ∧
           t = { s with cells := t.cells, sigs := s.sigs.eraseIdx n, breps := t.breps, parts := t.parts } ∧
           (g.job = none → t.parts = s.parts)) ∧
       (∀ w, k.wait = some w → w.pip = p →
         (w.kind = .wait → 1 ≤ x.count.toNat + g.amount.toNat → ∃ t, exec (.pipSignalArrive n) s = .next t ∧
           t.cell c = { k with wait := none, pc := k.pc + 4, pips := (t.cell c).pips } ∧
           ((t.cell c).pip p).count.toNat = min 65535 (x.count.toNat + g.amount.toNat) - 1 ∧
           (∀ q, q ≠ p → (t.cell c).pip q = k.pip q) ∧ t.sigs = s.sigs.eraseIdx n) ∧
         (∀ m : W16, w.kind = .watch m → m.toNat ≤ min 65535 (x.count.toNat + g.amount.toNat) →
           ∃ t, exec (.pipSignalArrive n) s = .next t ∧ t.cell c = { k with wait := none, pc := k.pc + 4, pips := (t.cell c).pips } ∧
           ((t.cell c).pip p).count.toNat = min 65535 (x.count.toNat + g.amount.toNat) ∧
           (∀ q, q ≠ p → (t.cell c).pip q = k.pip q) ∧ t.sigs = s.sigs.eraseIdx n))) ∧
     (sigHeld s g = false → g.job = none → hallOk (hallOfBlock s b) g.hall = true → (s.block b).st = .dormant →
       exec (.pipSignalArrive n) s = .next (cellReport { s with sigs := s.sigs.eraseIdx n } c 7 (detailWord 0 p 0))) ∧
     (sigHeld s g = false → fails →
       ∃ t, exec (.pipSignalArrive n) s = .next t ∧ t.cells = s.cells ∧ t.sigs = s.sigs.eraseIdx n ∧
         t.hmrefs = s.hmrefs ++ (if g.src < 512 then [⟨Fin.ofNat 512 g.src, 1, BitVec.ofNat 64 (pipAddr c p)⟩] else []))) ∧
  (∀ (s u : State) (n : Nat) (y : Inbox), takePacket s n (fun p => p.kind == kSignal) = some (y, u) →
     let c := y.pkt.fld 22 9
     let p := y.pkt.fld 16 6
     let x := (s.cell c).pip p
     (msgHeld s 8192 c = true → exec (.remoteSignalArrive n) s = .next s) ∧
     ((s.block (blockOfCell c)).st ≠ .dormant → msgHeld s 8192 c = false →
     (p < 48 → x.mode = 0 → x.rsig = true → x.rjob = y.pkt.job → (s.cell c).wait = none →
       ∃ t, exec (.remoteSignalArrive n) s = .next t ∧ t.inbox = u.inbox ∧
         ((t.cell c).pip p).count.toNat = min 65535 (x.count.toNat + y.pkt.fld 31 16) ∧
         t.cell c = { s.cell c with pips := (t.cell c).pips } ∧ (∀ d, d ≠ c → t.cell d = s.cell d)) ∧
     (48 ≤ p ∨ x.mode ≠ 0 ∨ x.rsig = false ∨ x.rjob ≠ y.pkt.job →
       ∃ t, exec (.remoteSignalArrive n) s = .next t ∧ t.cells = s.cells ∧ t.sigs = s.sigs)))

/-- 09 R212, 11 R246, R253 to R258, R261: PIPWAIT takes 1 from a count of at least 1, PIPWATCH passes a count that has reached its
threshold, and either waits where its condition does not hold; PIPBAR sends one arrival per generation and waits for it. A pip in the
other mode raises an access fault. A wait that reaches its expiry, at once where Gt is 0, takes class 0x09 with the pip's number, consuming
nothing and with KRPC its instruction; a PIPBAR first withdraws its arrival. A write to PCFG returns the pip to a fresh state with the
fields written, and ends a wait on it. -/
def Obligations.PipWaitsComplete : Prop :=
  (∀ (s : State) (c : CellId) (pip : BitVec 6) (b t : Reg), Ready s c → pip.toNat < 48 →
     let k := s.cell c.val
     let p := pip.toNat
     let x := k.pip p
     let th : W16 := (k.rdG b).truncate 16
     let n := fieldN (k.rdG t).toNat 0 32
     let expiry : Option Nat := if t = 0 then none else some ((ctime s c.val + n) % 2 ^ 64)
     let waits (kd : WaitKind) : State := s.updCell c.val fun k => { k with wait := some ⟨p, kd, expiry, .none⟩ }
     let arrival : List BMsg := if x.arr then [] else
       [⟨.arrival, c.val, Fin.ofNat 512 (homeOf c.val x), BitVec.ofNat 6 p, x.gen, k.hall, 0⟩]
     (x.mode = 0 →
       (1 ≤ x.count.toNat → exec (.pipwait c pip t) s =
         .next (s.updCell c.val fun k => (k.setPip p { x with count := x.count - 1 }).nextPc)) ∧
       (x.count = 0 → (t = 0 ∨ n ≠ 0) → exec (.pipwait c pip t) s = .next (waits .wait)) ∧
       (th.toNat ≤ x.count.toNat → exec (.pipwatch c pip b t) s = .next (s.updCell c.val fun k => (k.setPip p x).nextPc)) ∧
       (x.count.toNat < th.toNat → (t = 0 ∨ n ≠ 0) → exec (.pipwatch c pip b t) s = .next (waits (.watch th))) ∧
       (t ≠ 0 → n = 0 → k.kstate.getLsbD 0 = false →
         (x.count = 0 → exec (.pipwait c pip t) s = .next (trapped s c 0x09 (BitVec.ofNat 8 p) 0)) ∧
         (x.count.toNat < th.toNat → exec (.pipwatch c pip b t) s = .next (trapped s c 0x09 (BitVec.ofNat 8 p) 0)))) ∧
     (x.mode ≠ 0 → x.barDone = false → ∃ u, exec (.pipbar c pip t) s = .next u ∧
       (u.cell c.val).pc = k.pc ∧ ((u.cell c.val).pip p) = { x with arr := true } ∧
       ((t = 0 ∨ n ≠ 0) → (u.cell c.val).wait = some ⟨p, .bar, expiry, .none⟩ ∧ u.bmsgs = s.bmsgs ++ arrival) ∧
       (t ≠ 0 → n = 0 → (u.cell c.val).wait = some ⟨p, .bar, expiry, .sent⟩ ∧ u.bmsgs = s.bmsgs ++ arrival ++
         [⟨.withdraw, c.val, Fin.ofNat 512 (homeOf c.val x), BitVec.ofNat 6 p, x.gen, k.hall, 0⟩])) ∧
     (x.mode ≠ 0 → x.barDone = true → ∃ u, exec (.pipbar c pip t) s = .next u ∧ u.bmsgs = s.bmsgs ++ arrival ∧
       u.cell c.val = { k with pc := k.pc + 4, pips := (u.cell c.val).pips } ∧
       (u.cell c.val).pip p = { x with gen := x.gen + 1, arr := false } ∧ ∀ q, q ≠ p → (u.cell c.val).pip q = k.pip q) ∧
     (k.kstate.getLsbD 0 = false →
       (x.mode ≠ 0 → exec (.pipwait c pip t) s = .next (trapped s c 0x03 0x00 (BitVec.ofNat 64 (pipAddr c.val p + 0x10))) ∧
         exec (.pipwatch c pip b t) s = .next (trapped s c 0x03 0x00 (BitVec.ofNat 64 (pipAddr c.val p + 0x10)))) ∧
       (x.mode = 0 → exec (.pipbar c pip t) s = .next (trapped s c 0x03 0x00 (BitVec.ofNat 64 (pipAddr c.val p + 0x10)))))) ∧
  (∀ (s : State) (c : CellId) (w : Wait) (e : Nat) (h : Byte) (p : Fin 48) (v : W64),
     let k := s.cell c.val
     (k.wait = some w → w.expiry = some e → k.held = false → k.faulted = false →
       ((w.kind ≠ .bar ∨ (k.pip w.pip).arr = false) → k.kstate.getLsbD 0 = false →
         ∃ t, exec (.pipWaitTimeout c) s = .next t ∧
           t.cell c.val = ({ k with wait := none } : Cell).trapEntry false 0x09 (BitVec.ofNat 8 w.pip) 0 ∧
           (∀ d : Nat, d ≠ c.val → t.cell d = s.cell d) ∧ t.bmsgs = s.bmsgs) ∧
       (w.kind = .bar → (k.pip w.pip).arr = true → w.wd = .none → ∃ t, exec (.pipWaitTimeout c) s = .next t ∧
         t.cell c.val = { k with wait := some { w with wd := .sent } } ∧
         t.bmsgs = s.bmsgs ++ [⟨.withdraw, c.val, Fin.ofNat 512 (homeOf c.val (k.pip w.pip)), BitVec.ofNat 6 w.pip, (k.pip w.pip).gen,
           k.hall, 0⟩])) ∧
     (hallOk (hallOfBlock s (blockOfCell c.val)) h = true →
       let fresh (t : State) : Prop :=
         let x := (t.cell c.val).pip p.val
         let f (lo n : Nat) : Nat := fieldN v.toNat lo n
         let old (lo n : Nat) : Nat := fieldN (k.pip p.val).cfg.toNat lo n
         x.count = 0 ∧ x.ovf = false ∧ x.misuse = false ∧ x.arr = false ∧ x.gen = 0 ∧ x.cmpl = 0 ∧ x.a0 = 0 ∧ x.a1 = 0 ∧
         x.mode = (if f 0 2 < 3 then f 0 2 else old 0 2) ∧ x.split = v.getLsbD 2 ∧ x.rsig = v.getLsbD 3 ∧
         x.rjob = BitVec.ofNat 12 (f 4 12) ∧ x.hcell = f 16 9 ∧ (1 ≤ f 32 10 → f 32 10 ≤ 518 → x.npart = f 32 10) ∧
         (f 32 10 = 0 → x.npart = old 32 10) ∧ fieldN x.cfg.toNat 42 3 = (if f 42 3 < 7 then f 42 3 else old 42 3) ∧
         (∀ q < 6, x.child q = v.getLsbD (45 + q)) ∧ x.bmask = (k.pip p.val).bmask ∧ x.cmask = (k.pip p.val).cmask ∧
         ∀ q, q ≠ p.val → (t.cell c.val).pip q = k.pip q
       ((∀ w, k.wait = some w → w.pip ≠ p.val) → ∃ t, exec (.pcfgWrite h c p v) s = .next t ∧ fresh t ∧
         t = s.updCell c.val fun k => { k with pips := (t.cell c.val).pips }) ∧
       (∀ w, k.wait = some w → w.pip = p.val → k.kstate.getLsbD 0 = false → ∃ t, exec (.pcfgWrite h c p v) s = .next t ∧ fresh t ∧
         t.cell c.val = ({ k with wait := none, pips := (t.cell c.val).pips } : Cell).trapEntry false 0x09 (BitVec.ofNat 8 p.val) 0)) ∧
     (hallOk (hallOfBlock s (blockOfCell c.val)) h = false →
       exec (.pcfgWrite h c p v) s = .next (refusedAtUnit s (pipAddr c.val p.val + 0x10))))

/-- 11 R259 to R263, 21 R478: an arrival at a home counts in A0 or, for the next generation, in A1, and the last one of a root's
generation completes it; a release moves CMPL at a member; a withdrawal that the home still holds is taken back and accepted, one of the
generation before is refused, and one whose arrivals have been passed on waits for the parent's answer. A barrier message of another module
acts alike at a home that names its port, and is discarded elsewhere. Withdrawals passed up a link that get no answer count as accepted, and
one record of class peer loss (0x0010) that names the port goes to the block's collector; the module timer reaches the count armed when
they were passed up. That one message carries all withdrawals waiting at a home and one answer of the parent settles them all, an accepted
one taking each from A0, and that a release answers those still waiting as refused, are the model's choices (log entry 35). -/
def Obligations.BarriersComplete : Prop :=
  (∀ (s : State) (n : Nat) (m : BMsg),
     let c := m.cell.val
     let p := m.pip.toNat
     let k := s.cell c
     let x := k.pip p
     let rest := s.bmsgs.eraseIdx n
     let becomes (i : Instr) (y : Pip) (more : List BMsg) : Prop := ∃ t, exec i s = .next t ∧ (t.cell c).pip p = y ∧
       t.cell c = { k with pips := (t.cell c).pips } ∧ (∀ d : Nat, d ≠ c → t.cell d = s.cell d) ∧ t.bmsgs = rest ++ more
     let reply (kd : BKind) : List BMsg := [⟨kd, c, Fin.ofNat 512 m.src, BitVec.ofNat 6 p, m.gen, k.hall, 0⟩]
     s.bmsgs[n]? = some m → (∀ j < n, ∀ y, s.bmsgs[j]? = some y → sameBar m y = false) → m.src < 512 → barHeld s m = false →
     hallOk (hallOfBlock s (blockOfCell c)) m.hall = true → (s.block (blockOfCell c)).st ≠ .dormant →
     (m.kind = .arrival →
       (x.mode = 2 → m.gen = x.cmpl → (x.a0.toNat + 1 < x.npart ∨ (x.a0.toNat + 1 = x.npart ∧ x.npart < 1024 ∧ x.parent ≠ none)) →
         becomes (.barrierArrival n) { x with a0 := x.a0 + 1 } []) ∧
       (x.mode = 2 → m.gen = x.cmpl → x.a0.toNat + 1 = x.npart → x.npart < 1024 → x.parent = none → x.a1.toNat ≠ x.npart →
         x.wd = [] → ∃ t, exec (.barrierArrival n) s = .next t ∧ ((t.cell c).pip p).cmpl = x.cmpl + 1 ∧ ((t.cell c).pip p).a0 = x.a1 ∧
           ((t.cell c).pip p).a1 = 0 ∧
           t.bmsgs = rest ++ ((releaseTargets x c).filter (· < 512)).map fun d =>
             ⟨.release, c, Fin.ofNat 512 d, BitVec.ofNat 6 p, x.cmpl, k.hall, 0⟩) ∧
       (x.mode = 2 → m.gen = x.cmpl + 1 → becomes (.barrierArrival n) { x with a1 := x.a1 + 1 } []) ∧
       (x.mode ≠ 2 ∨ (m.gen ≠ x.cmpl ∧ m.gen ≠ x.cmpl + 1) → becomes (.barrierArrival n) { x with misuse := true } [])) ∧
     (m.kind = .release →
       (x.mode = 1 → m.gen = x.cmpl → ∃ t, exec (.barrierRelease n) s = .next t ∧ ((t.cell c).pip p).cmpl = x.cmpl + 1 ∧
         t.bmsgs = rest ∧ (k.wait = none → (t.cell c).pip p = { x with cmpl := x.cmpl + 1 } ∧ (t.cell c).pc = k.pc) ∧
         (∀ w, k.wait = some w → w.pip = p → w.kind = .bar → w.wd = .none → x.split = false → x.gen = x.cmpl →
           (t.cell c).wait = none ∧ (t.cell c).pc = k.pc + 4 ∧ ((t.cell c).pip p).gen = x.gen + 1 ∧
           ((t.cell c).pip p).arr = false)) ∧
       (x.mode ≠ 1 ∨ m.gen ≠ x.cmpl → becomes (.barrierRelease n) { x with misuse := true } [])) ∧
     (m.kind = .withdraw → x.mode = 2 →
       (m.gen = x.cmpl → (x.parent = none ∨ x.a0.toNat < x.npart) →
         becomes (.barrierWithdrawal n) { x with a0 := x.a0 - 1 } (reply .accepted)) ∧
       (m.gen = x.cmpl → x.parent ≠ none → x.npart ≤ x.a0.toNat →
         becomes (.barrierWithdrawal n) { x with
           wd := x.wd ++ [(m.gen, m.src)], wdDue := if x.wd = [] then moduleDue s 20 else x.wdDue } []) ∧
       (m.gen = x.cmpl + 1 → becomes (.barrierWithdrawal n) { x with a1 := x.a1 - 1 } (reply .accepted)) ∧
       (m.gen = x.cmpl - 1 → becomes (.barrierWithdrawal n) x (reply .refused))) ∧
     (∀ w, k.wait = some w → w.pip = p → w.kind = .bar → w.wd = .sent →
       (m.kind = .accepted → dueInterrupt s c = none → k.kstate.getLsbD 0 = false →
         ∃ t, exec (.withdrawalAnswer n) s = .next t ∧ (t.cell c).wait = none ∧ (t.cell c).krpc = k.pc ∧
           (t.cell c).kcause = 9 + 256 * (BitVec.ofNat 8 p).zeroExtend 32 ∧ (t.cell c).pip p = { x with arr := false } ∧
           t.bmsgs = rest) ∧
       (m.kind = .refused → x.barDone = false → ∃ t, exec (.withdrawalAnswer n) s = .next t ∧
         t.cell c = { k with wait := some { w with wd := .refused } } ∧ t.bmsgs = rest))) ∧
  (∀ (s u : State) (n : Nat) (y : Inbox) (i : Instr) (want : BKind → Bool),
     let m := treeMsg y.pkt y.via
     let c := m.cell.val
     let p := m.pip.toNat
     let x := (s.cell c).pip p
     ((i = .barrierArrival n ∧ want = fun k => k == .arrival) ∨ (i = .barrierRelease n ∧ want = fun k => k == .release) ∨
       (i = .barrierWithdrawal n ∧ want = fun k => k == .withdraw) ∨
       (i = .withdrawalAnswer n ∧ want = fun k => k == .accepted || k == .refused)) →
     s.bmsgs.length ≤ n → takePacket s (n - s.bmsgs.length) (fun q => q.kind == kTree && want (treeKind q.sub)) = some (y, u) →
     (msgHeld s 8192 c = true → exec i s = .next s) ∧
     ((s.block (blockOfCell c)).st ≠ .dormant → msgHeld s 8192 c = false →
     (treeOk x m = false → ∃ t, exec i s = .next t ∧ (t.cell c).pip p = { x with misuse := true } ∧ t.inbox = u.inbox ∧
       t.cell c = { s.cell c with pips := (t.cell c).pips }) ∧
     (treeOk x m = true → m.kind = .arrival → m.gen = x.cmpl → x.a0.toNat + 1 < x.npart →
       ∃ t, exec i s = .next t ∧ (t.cell c).pip p = { x with a0 := x.a0 + 1 } ∧ t.inbox = u.inbox) ∧
     (treeOk x m = true → m.kind = .release → m.gen = x.cmpl → x.a1.toNat ≠ x.npart → (∀ e ∈ x.wd, e.2 < 512) →
       ∃ t, exec i s = .next t ∧ ((t.cell c).pip p).cmpl = x.cmpl + 1 ∧ ((t.cell c).pip p).a0 = x.a1 ∧ ((t.cell c).pip p).wd = [] ∧
         t.bmsgs = s.bmsgs ++ ((releaseTargets x c).filter (· < 512)).map (fun d =>
           ⟨.release, c, Fin.ofNat 512 d, BitVec.ofNat 6 p, x.cmpl, (s.cell c).hall, 0⟩) ++ x.wd.map (fun e =>
           ⟨.refused, c, Fin.ofNat 512 e.2, BitVec.ofNat 6 p, e.1, (s.cell c).hall, 0⟩)) ∧
     (treeOk x m = true → m.kind = .accepted → m.gen = x.cmpl → ∃ t, exec i s = .next t ∧
       (t.cell c).pip p = { x with wd := [], a0 := BitVec.ofNat 10 (x.a0.toNat - x.wd.length) }))) ∧
  (∀ (s : State) (c : CellId) (p : Fin 48) (q : Nat),
     let x := (s.cell c.val).pip p.val
     (x.wd = [] ∨ x.parent = none → exec (.withdrawalRideExpire c p) s = .next s) ∧
     (x.wd ≠ [] → x.parent = some q → (∀ e ∈ x.wd, e.2 < 512) → x.wd.length ≤ x.a0.toNat →
       ∃ t, exec (.withdrawalRideExpire c p) s = .next t ∧ ((t.cell c.val).pip p.val).wd = [] ∧
         t.ctl.timer = timeTo s.ctl.timer x.wdDue ∧
         ((t.cell c.val).pip p.val).a0.toNat = x.a0.toNat - x.wd.length ∧
         t.bmsgs = s.bmsgs ++ x.wd.map (fun e =>
           ⟨.accepted, c.val, Fin.ofNat 512 e.2, BitVec.ofNat 6 p.val, e.1, (s.cell c.val).hall, 0⟩) ∧
         ∃ r, t.breps = queueReport r s.breps ∧ r.cls = 0x10 ∧ r.origin = peerOrigin (s.port q).partner.toNat ∧
           r.detail = detailWord 0 q 0))

/-- 11 R248: a signal to a pip in member or home mode, whose hallmark the cell accepts, is discarded. The target sets MISUSE and its
block's collector gets one advisory record of class pip misuse (0x0006); no count, wait or refusal changes. -/
def Obligations.PipMisuseDiscardsSignal : Prop :=
  ∀ (s : State) (n : Nat) (g : Sig),
    let c := g.cell.val
    let p := g.pip.toNat
    let x := (s.cell c).pip p
    s.sigs[n]? = some g → (∀ j < n, ∀ y, s.sigs[j]? = some y → sameSig g y = false) → g.job = none → sigHeld s g = false →
    hallOk (hallOfBlock s (blockOfCell c)) g.hall = true → (s.block (blockOfCell c)).st ≠ .dormant → x.mode ≠ 0 →
    ∃ t r, exec (.pipSignalArrive n) s = .next t ∧ (t.cell c).pip p = { x with misuse := true } ∧
      (∀ q, q ≠ p → (t.cell c).pip q = (s.cell c).pip q) ∧ (∀ d, d ≠ c → t.cell d = s.cell d) ∧
      t.cell c = { s.cell c with pips := (t.cell c).pips } ∧ t.sigs = s.sigs.eraseIdx n ∧ t.hmrefs = s.hmrefs ∧
      t.breps = queueReport r s.breps ∧ r.cls = 6 ∧ r.sev = 0 ∧ r.count = 1 ∧ r.origin = originCell s c

/-- 12 R269, R279, R280, R291: the writes that control a Setter context, accepted with its owner's hallmark and refused with another. An
enable that passes its checks takes the context to WAIT with its strand, and one that fails them leaves it OFF with the error; a disable
of a waiting context takes it to OFF and drops its verdicts; ARM arms it; a local verdict joins its queue only where VSRC and ENABLE are 1,
and a third one is an overrun. -/
def Obligations.SetterControlsComplete : Prop :=
  ∀ (s : State) (h : Byte) (m : CtlId) (j : CtxId),
    let i := ctxIx m j
    let x := s.setter i
    let u := wakeExtent s (x.strandA.toNat % 2 ^ 48) 8
    (hallOk (x.own.truncate 8) h = true →
      (∀ st, x.enable = false → ctlRetired s m.val = false → setterCheck1 s i x = none → setterStrand u i x = .ok st → 1 ≤ x.ngrp →
        x.ngrp ≤ 4096 →
        exec (.setterEnable h m j) s = .next (u.setSetter i { x with enable := true, st := .wait, strand := some st })) ∧
      (∀ code dt, x.enable = false → ctlRetired s m.val = false → setterCheck1 s i x = some (code, dt) →
        ∃ t, exec (.setterEnable h m j) s = .next t ∧ (t.setter i).enable = false ∧ (t.setter i).st = .off ∧ (t.setter i).err = true ∧
          (x.err = false → (t.setter i).sjerr = BitVec.ofNat 64 (code + dt * 256 + x.step.toNat * 2 ^ 28))) ∧
      (x.enable = true → x.st = .wait →
        exec (.setterDisable h m j) s = .next (s.setSetter i { x with enable := false, st := .off, verdicts := [], armed := false })) ∧
      exec (.setterArm h m j) s = .next (s.setSetter i { x with ctlArm := true, armed := true }) ∧
      (∀ taint sat : Bool,
        let w : BitVec 2 := BitVec.ofNat 2 (b2n taint + 2 * b2n sat)
        (x.vsrc = true → x.enable = true → x.st ≠ .off → x.st ≠ .fault → x.verdicts.length < 2 →
          exec (.setterLocalVerdict h m j taint sat) s =
            .next (s.setSetter i { x with lverd := w, verdicts := x.verdicts ++ [w.zeroExtend 16] })) ∧
        (x.vsrc = true → x.enable = true → x.st = .wait → 2 ≤ x.verdicts.length →
          ∃ t, exec (.setterLocalVerdict h m j taint sat) s = .next t ∧ (t.setter i).st = .fault ∧ (t.setter i).err = true ∧
            (t.setter i).verdicts = x.verdicts ∧ (x.err = false → (t.setter i).sjerr.toNat % 65536 = 8)) ∧
        (x.vsrc = false ∨ x.enable = false →
          exec (.setterLocalVerdict h m j taint sat) s = .next (s.setSetter i { x with lverd := w })))) ∧
    (hallOk (x.own.truncate 8) h = false → ∀ taint sat : Bool,
      exec (.setterEnable h m j) s = .next (refusedAtUnit s (setterPage i 0x38)) ∧
      exec (.setterDisable h m j) s = .next (refusedAtUnit s (setterPage i 0x38)) ∧
      exec (.setterArm h m j) s = .next (refusedAtUnit s (setterPage i 0x38)) ∧
      exec (.setterLocalVerdict h m j taint sat) s = .next (refusedAtUnit s (setterPage i 0x40)))

/-- 12 R274, R276, R281 to R290: the lowest-numbered context that may go consumes its oldest verdict; TAINT, and SAT with SATSKIP, skip the
step, even beside a running pass; else CHECK begins with the timeout armed. A check that passes begins the pass; a pass that ends counts
the step; an error puts the context into FAULT and keeps the first error. A pass over groups whose extents do not meet leaves in the
parameter and the states of each element that is not frozen what the strand gives on that element's own words, in each code group's codes
and scale what the emitted values give, and changes no other byte of memory. A pass that is aborted, refused or timed out names the group in
which it stopped, and writes nothing of the groups after it. -/
def Obligations.SetterPassesComplete : Prop :=
  (∀ (s : State) (m : CtlId) (j : CtxId) (st : Strand),
     let i := ctxIx m j
     let x := s.setter i
     let pip (t : State) : Prop := t.sigs = s.sigs ++ (if x.pip.getLsbD 15 then
       [⟨2048 + i, Fin.ofNat 512 (fieldN x.pip.toNat 6 9), BitVec.ofNat 6 (fieldN x.pip.toNat 0 6), 1, x.own.truncate 8, none⟩] else [])
     let fails (k : Instr) (code : Nat) : Prop := ∃ t, exec k s = .next t ∧ (t.setter i).st = .fault ∧ (t.setter i).err = true ∧
       (t.setter i).step = x.step ∧ (x.err = true → (t.setter i).sjerr = x.sjerr) ∧
       (x.err = false → (t.setter i).sjerr.toNat % 256 = code)
     ((∀ k < j.val, (s.setter (8 * m.val + k)).due = false) → x.due = true →
       ∀ (w : W16) (rest : List W16), x.verdicts = w :: rest →
       let y := { x with verdicts := rest, armed := false }
       (w.getLsbD 0 = true → ∃ t, exec (.setterStepStart m) s = .next t ∧ pip t ∧
         t.setter i = { y with last := 2, skip := y.skip + 1 }) ∧
       (w.getLsbD 0 = false → w.getLsbD 1 = true → x.satskip = true → ∃ t, exec (.setterStepStart m) s = .next t ∧ pip t ∧
         t.setter i = { y with last := 3, skip := y.skip + 1 }) ∧
       (w.getLsbD 0 = false → (w.getLsbD 1 = false ∨ x.satskip = false) → passOf s m.val = none → exec (.setterStepStart m) s =
         .next (s.setSetter i { y with st := .check, prog := 0, deadline :=
           if x.tmo = 0 then none else some (regionDue s (regionOfCtx i) x.tmo.toNat) }))) ∧
     (passOf s m.val = some i → x.strand = some st →
       let es := checkExtents s x
       let u := countBulk (wakeExtents s es) (partOfHall s x.hall) ((es.map (·.2)).sum)
       (x.st = .check → setterHeld s es = false → allReady (wakeExtents s es) es = true →
         (∀ ps, setterGroups u i x st 0 x.ngrp = .ok ps →
           exec (.setterCheckEnd m) s = .next (u.setSetter i { x with st := .run, flg := 0, groups := ps })) ∧
         (∀ c d n a, setterGroups u i x st 0 x.ngrp = .error (c, d, n, a) → x.err = false →
           ∃ t, exec (.setterCheckEnd m) s = .next t ∧ (t.setter i).st = .fault ∧ (t.setter i).err = true ∧
             (t.setter i).sjerr = BitVec.ofNat 64 (c + d * 256 + n % 4096 * 65536 + x.step.toNat * 2 ^ 28))) ∧
       (x.st = .run → setterHeld s (runExtents x) = false → allReady (wakePass s x) (runExtents x) = true →
         let r := runGroups x st none 0 x.groups (wakePass s x)
         (r.2.2 = none → firstBadInput r.2.1 = none →
           ∃ t, exec (.setterPassComplete m .clean) s = .next t ∧ (x.cnt = false → pip t) ∧ t.setter i = { x with
             st := .wait, last := 1, step := x.step + 1, appl := x.appl + 1, deadline := none, groups := [],
             flg := sjFlags (groupFlags r.2.1), prog := BitVec.ofNat 64 (x.groups.map PGroup.count).sum }) ∧
         (r.2.2 = none → (firstBadInput r.2.1).isSome = true → fails (.setterPassComplete m .clean) 5) ∧
         (r.2.2.isSome = true → fails (.setterPassComplete m .clean) 2 ∧
           (passTraps s i = true → fails (.setterPassError m .strand) 2)) ∧
         (passTraps s i = false → exec (.setterPassError m .strand) s = .next s)) ∧
       (x.st = .check ∨ x.st = .run →
         (x.enable = true → fails (.setterPassError m .abort) 7) ∧
         (fails (.setterPassError m .hallmark) 4 ∨ (x.st = .run ∧ passTraps s i = true ∧ fails (.setterPassError m .hallmark) 2)) ∧
         (∀ dl, x.deadline = some dl → fails (.setterPassTimeout m) 6 ∧ ∃ t, exec (.setterPassTimeout m) s = .next t ∧
           (t.region (regionOfCtl m)).timer = timeTo (s.region (regionOfCtl m)).timer dl)) ∧
       (∀ a : Addr, x.st = .run → (runExtents x).any (fun e => insideRange a.toNat 1 e.1 e.2) = true →
         exec (.setterPassError m (.uncorrectable a)) s = .next (
           let u := wakePass (foundAt s a.toNat .double) x
           if allReady u (runExtents x) then passRun u i none else u)))) ∧
  (∀ (s : State) (m : CtlId) (i : Nat) (st : Strand),
     let x := s.setter i
     let word (y : Nat) : W32 := BitVec.ofNat 32 (leNat (memBytes s y 4))
     let frozen (p : PGroup) (e : Nat) : Bool := p.frz && (memByte s (p.addr 4 + e / 8)).getLsbD (e % 8)
     let grad (p : PGroup) (e : Nat) : W32 :=
       if p.gbf16 then BitVec.ofNat 32 (65536 * leNat (memBytes s (p.addr 1 + 2 * e) 2)) else word (p.addr 1 + 4 * e)
     let res (p : PGroup) (e : Nat) : Elem :=
       st.run .rne [word (p.addr 0 + 4 * e), grad p e, word (p.addr 2 + 4 * e), word (p.addr 3 + 4 * e)] (passScalars x p)
     let emitted (p : PGroup) (e : Nat) : W32 :=
       if (st.writer 12).isSome ∧ frozen p e = false then (res p e).outs.getD 0 0 else word (p.addr 0 + 4 * e)
     passOf s m.val = some i → x.st = .run → x.strand = some st →
     (Coherent s → Unpoisoned s → setterHeld s (runExtents x) = false → allReady (wakePass s x) (runExtents x) = true →
       (runExtents x).Pairwise (fun a b => rangesMeet a.1 a.2 b.1 b.2 = false) →
       (∀ a ∈ runExtents x, ∀ n < a.2, isMem (a.1 + n) = true) →
       (∀ p ∈ x.groups, (p.cfmt ≠ 0 → p.count % p.g = 0) ∧ ∀ e < p.count, frozen p e = false → (res p e).trap = none) →
       ∃ t, exec (.setterPassComplete m .clean) s = .next t ∧
         (∀ p ∈ x.groups, ∀ e < p.count, ∀ q ∈ [(12, 0, 0), (13, 2, 1), (14, 3, 2)], (st.writer q.1).isSome = true →
           memBytes t (p.addr q.2.1 + 4 * e) 4 =
             if frozen p e then memBytes s (p.addr q.2.1 + 4 * e) 4 else leBytes 4 ((res p e).outs.getD q.2.2 0).toNat) ∧
         (∀ p ∈ x.groups, p.cfmt ≠ 0 → ∀ k < p.count / p.g,
           let w := cfmtBits p.cfmt
           let o := emitGroup p.cfmt p.srule ((List.range p.g).map fun e => v32 (emitted p (p.g * k + e)))
           memBytes t (p.addr 5 + w * p.g * k / 8) (w * p.g / 8) = leBytes (w * p.g / 8) (packN w o.codes) ∧
             memBytes t (p.addr 6 + 2 * k) 2 = leBytes 2 o.scale) ∧
         ∀ y, (∀ a ∈ runExtents x, y < a.1 ∨ a.1 + a.2 ≤ y) → memByte t y = memByte s y) ∧
     (∀ k : Instr, (k = .setterPassError m .abort ∧ x.enable = true) ∨ k = .setterPassError m .hallmark ∨
         (k = .setterPassTimeout m ∧ x.deadline.isSome = true) →
       Coherent s → x.err = false → x.groups.length ≤ 4096 →
       ∃ t, exec k s = .next t ∧ ∀ y, (∀ n p, x.groups[n]? = some p → n ≤ fieldN (t.setter i).sjerr.toNat 16 12 →
         ∀ e ∈ p.extents st, y < e.2.1 ∨ e.2.1 + e.2.2.1 ≤ y) → memByte t y = memByte s y))

/-- 13 R298, R305, R307, R319, R332: the writes that control an adder context, where nothing waits at its unit, accepted with its owner's
hallmark and refused with another. An enable that passes its checks opens round 0 with its credits, and one that fails them records the
error; a disable turns the context off, and ends its open buckets with code 0x7; AJPUB queues a bucket of layer mode, and ends one of tile
mode or without a readable descriptor; a layer tile on a ring of one module is written to DST. AJERR.SEQ of a publish overrun is the open
round's, and AJPUB of a bucket summed elsewhere has no effect: both are the model's choice (log entries 39, 105). -/
def Obligations.AdderControlsComplete : Prop :=
  ∀ (s : State) (h : Byte) (m : CtlId) (j : CtxId) (b : W16),
    let i := ctxIx m j
    let x := s.adder i
    (hallOk (x.own.truncate 8) h = true → (∀ k < 8, (s.adder (8 * m.val + k)).inq = [] ∧ (s.adder (8 * m.val + k)).localQ = []) →
      (x.enable = false → ctlRetired s m.val = false → adderCheck s i x = none → ∃ t, exec (.adderEnable h m j) s = .next t ∧
        (let z := fieldN x.rnd.toNat 0 12 = 0
         t.adder i = { x with
           enable := true, st := .active, seq := 0, ready := decide z, cur := RoundAcc.zero, nxt := RoundAcc.zero,
           credits := fieldN x.cfg.toNat 24 8, inbuf := 0, outq := [], inq := [], localQ := [], pubq := [], await := [],
           unread := [], vhome := VHome.zero } ∧
         t.readies = s.readies ++ (if z then [⟨m, j, BitVec.ofNat 12 x.job, 0⟩] else []))) ∧
      (∀ k, x.enable = false → ctlRetired s m.val = false → adderCheck s i x = some k → ∃ t, exec (.adderEnable h m j) s = .next t ∧
        (t.adder i).enable = false ∧ (t.adder i).err = true ∧
        (x.err = false → (t.adder i).ajerr = BitVec.ofNat 64 (1 + k * 256 + x.seq.toNat * 2 ^ 32))) ∧
      (x.enable = true → slotsHeld s i = [] → x.await = [] → ∃ t, exec (.adderDisable h m j) s = .next t ∧
        t.adder i = { x with
          enable := false, st := .off, pubq := [], localQ := [], inq := [], outq := [], inbuf := 0, unread := []
          vhome := VHome.zero } ∧
        ∀ k, k ≠ i → t.adder k = s.adder k) ∧
      (x.enable = true → (slotsHeld s i ≠ [] ∨ x.await ≠ []) → ∃ t, exec (.adderDisable h m j) s = .next t ∧
        (t.adder i).enable = false ∧ (t.adder i).st = .off ∧ (t.adder i).err = true ∧
        (x.err = false → (t.adder i).ajerr.toNat % 65536 = 7)) ∧
      (x.enable = true → b.toNat % 24 = m.val →
        (∀ d, x.pubq.length < 32 → bucketDesc s i b.toNat = .ok d → d.tileMode = false →
          exec (.ajpub h m j b) s = .next ((descRead s i d).setAdder i { x with pub := b, pubq := x.pubq ++ [b] })) ∧
        (∀ d, x.pubq.length < 32 → bucketDesc s i b.toNat = .ok d → d.tileMode = true → x.err = false →
          ∃ t, exec (.ajpub h m j b) s = .next t ∧ (t.adder i).err = true ∧ (t.adder i).ajerr.toNat % 65536 = 2 + 256 * 4) ∧
        (∀ e, x.pubq.length < 32 → bucketDesc s i b.toNat = .error e → unreadWaits s i b.toNat e = false → x.err = false →
          ∃ t, exec (.ajpub h m j b) s = .next t ∧ (t.adder i).err = true ∧ (t.adder i).ajerr.toNat % 65536 = e.1 + 256 * e.2) ∧
        (32 ≤ x.pubq.length → x.err = false → ∃ t, exec (.ajpub h m j b) s = .next t ∧ (t.adder i).err = true ∧
          (t.adder i).pubq = x.pubq ∧
          (t.adder i).ajerr = BitVec.ofNat 64 (8 + b.toNat * 2 ^ 16 + x.seq.toNat * 2 ^ 32))) ∧
      (x.enable = false ∨ b.toNat % 24 ≠ m.val → exec (.ajpub h m j b) s = .next (s.setAdder i { x with pub := b }))) ∧
    (hallOk (x.own.truncate 8) h = false →
      exec (.adderEnable h m j) s = .next (refusedAtUnit s (adderPage i + 0x40)) ∧
      exec (.adderDisable h m j) s = .next (refusedAtUnit s (adderPage i + 0x40)) ∧
      exec (.ajpub h m j b) s = .next (refusedAtUnit s (adderPage i + 0x48))) ∧
    (x.enable = false → exec (.layerTileRead m j) s = .next s) ∧
    (∀ d : BDesc, (∀ k < 8, (s.adder (8 * m.val + k)).inq = [] ∧ (s.adder (8 * m.val + k)).localQ = []) →
      x.enable = true → (∀ n ∈ slotsHeld s i, (s.aslot n).pubNext = none) → x.pubq = [b] →
      bucketDesc s i b.toNat = .ok d → slotOf s i b.toNat = none → awaitOf x b.toNat = none → (freeSlot s m.val).isSome = true →
      adderHeld s i b.toNat = false → localUsed s m.val < localCap s m.val →
      bucketCheck s i x d = none → d.nrnd % 256 ≠ (x.seq.toNat + 2) % 256 → d.tileMode = false → d.wire = 0 → d.rbf16 = false →
      x.rlast = 0 → x.rpos = 0 → d.owner = 0 → Coherent s → Unpoisoned s →
      firstBadPage (fun y => memAccepts s x.hall y 1) d.src 4096 = none →
      firstBadPage (fun y => memAccepts s x.hall y 1) d.dst 4096 = none → (∀ n < 4096, isMem (d.dst + n) = true) →
      ∃ t, exec (.layerTileRead m j) s = .next t ∧ (t.adder i).pubq = [] ∧
        (∀ n < 4096, memByte t (d.dst + n) = memByte s (d.src + n)) ∧
        (∀ y, y < d.dst ∨ d.dst + 4096 ≤ y → memByte t y = memByte s y) ∧
        ∃ n, slotOf t i b.toNat = some n ∧ (t.aslot n).st = 1 ∧ (t.aslot n).tiles = [0] ∧
          (t.aslot n).pubNext = if 1 < d.ntile then some 1 else none)

/-- 13 R301, R303, R306, R307, R310 to R317, R319: contributions where nothing else waits at the unit. A tile of the open round joins its
bucket's slot; at START it leaves at once as DATA; one whose bucket waits (a frozen arbiter, unpowered SRAM, round SEQ + 2) waits; one with
another hallmark, or of no context, is refused. A partial sum takes a buffer and joins its slot, or is refused where none is free; with its
local tile present the sum leaves as DATA, and at OWNER is written to DST. A sum in F32 or B16 is the exact sum of each element rounded
once; one in BS8 takes for each block the smallest bump that fits, and clamps and marks SAT where none does. Sending DATA or RESULT takes a
credit and the last DATA packet frees the slot; a SUMMARY leaves at once and takes none (that it does not wait behind another bucket's
tiles is the model's choice, log entry 41); CREDIT gives credits; REFUSE ends an open bucket with code 0x6 and is otherwise without effect;
a packet of no context is discarded. -/
def Obligations.AdderTilesComplete : Prop :=
  (∀ (s u : State) (k i n : Nat) (d : BDesc),
    let m := i / 8
    let a := s.adder i
    let y := s.aslot n
    let start := (d.owner + 1) % (a.rlast + 1)
    (∀ q < 8, (s.adder (8 * m + q)).inq = [] ∧ (s.adder (8 * m + q)).localQ = []) →
    (∀ (t : LocalTile) (rest : List LocalTile), takeMsg (fun x y => x.cell == y.cell) k s.tiles = some (t, rest) →
      let b := t.tile.bucket.toNat
      let w := t.tile.tile
      let u : State := { s with tiles := rest }
      let held := pathHeld s (blockOfCell t.cell.val) (t.cell.val % 8) (regionOfCtl (b % 24))
      (held = true → exec (.localTileArrive k) s = .next s) ∧
      (held = false → adderOf s (b % 24) t.tile.job.toNat = some i → m = b % 24 → a.hall = t.hall → adderHeld s i b = false →
        bucketDesc s i b = .ok d → d.nrnd % 256 ≠ (a.seq.toNat + 2) % 256 → d.tileMode = true →
        t.tile.wire.toNat = d.wire → w.toNat < d.ntile → slotOf s i b = some n → awaitOf a b = none → w.toNat ∉ y.got →
        (a.rpos ≠ start → (∀ q ∈ y.datas, q.tile ≠ w) →
          let z := { y with got := w.toNat :: y.got, locals := y.locals ++ [t.tile] }
          (t.tile.taint = false → exec (.localTileArrive k) s = .next (u.setASlot n z)) ∧
          (t.tile.taint = true → ∃ t', exec (.localTileArrive k) s = .next t' ∧ t'.aslot n = z ∧
            t'.adder i = { a with nf := BitVec.ofNat 64 (satAdd max64 a.nf.toNat 1) })) ∧
        (a.rpos = start → a.rpos ≠ d.owner → (∀ q ∈ y.locals, q.tile ≠ w) → (∀ q ∈ a.outq, q.sub ≠ 3) → t.tile.taint = false →
          ∃ t', exec (.localTileArrive k) s = .next t' ∧
            t'.aslot n = { y with
              got := w.toNat :: y.got, sat := y.sat || t.tile.sat
              bumps := y.bumps + if d.wire = 2 then (bs8Bumps t.tile.payload).sum else 0 } ∧
            t'.adder i = { a with outq := a.outq ++
              [mkReduce s 1 a.job (tileFields a d t.tile y.seq.toNat true) a.nextMod t.tile.payload] })) ∧
      (held = false → adderOf s (b % 24) t.tile.job.toNat = some i → a.hall = t.hall →
        (adderHeld s i b = true ∨ (bucketDesc s i b = .ok d ∧ d.nrnd % 256 = (a.seq.toNat + 2) % 256)) →
        exec (.localTileArrive k) s = .next ((adderWait u i b).setAdder i { a with localQ := a.localQ ++ [t.tile] })) ∧
      (held = false →
        (adderOf s (b % 24) t.tile.job.toNat = none ∨ (adderOf s (b % 24) t.tile.job.toNat = some i ∧ a.hall ≠ t.hall)) →
        ∃ t', exec (.localTileArrive k) s = .next t' ∧ t'.adders = s.adders ∧ t'.aslots = s.aslots ∧ t'.tiles = rest ∧
          t'.hmrefs = s.hmrefs ++ [⟨t.cell, 0, BitVec.ofNat 64 (adderPage (8 * (b % 24)))⟩])) ∧
    (∀ (x : Inbox) (ty : Nat) (c : Instr),
      (ty = 1 ∧ c = .dataArrive k) ∨ (ty = 4 ∧ c = .creditArrive k) ∨ (ty = 5 ∧ c = .refuseArrive k) →
      takePacket s k (isReduce ty) = some (x, u) →
      let p := x.pkt
      let b := p.fld 16 16
      let v := countRx u (partOfHall s a.hall) p
      (adderOf s (b % 24) p.job.toNat = none →
        exec c s = .next (if inHeld s (b % 24 / 6) then s else reduceDiscard u p)) ∧
      (adderOf s (b % 24) p.job.toNat = some i → m = b % 24 →
        (inHeld s (regionOfCtx i) = true → exec c s = .next s) ∧
        (inHeld s (regionOfCtx i) = false → adderHeld s i b = true → exec c s = .next (adderWait s i b)) ∧
        (inHeld s (regionOfCtx i) = false → adderHeld s i b = false →
          (ty = 1 → a.inbuf < a.cred → bucketDesc s i b = .ok d → p.fld 57 8 = d.nrnd →
            pktVet s i d p true = none → awaitOf a b = none → slotOf s i b = some n → (∀ q ∈ y.datas, q.tile.toNat ≠ p.fld 32 16) →
            ((∀ l ∈ y.locals, l.tile.toNat ≠ p.fld 32 16) →
              exec c s = .next (((descRead v i d).setAdder i { a with inbuf := a.inbuf + 1 }).setASlot n
                { y with datas := y.datas ++ [pktTile p] })) ∧
            (∀ l, y.locals.find? (fun l => l.tile.toNat == p.fld 32 16) = some l → fabReachable s a.prevMod = true → a.rpos ≠ start →
              let r := sumTiles d (pktTile p) l
              let lo := y.locals.filter fun l => l.tile.toNat != p.fld 32 16
              (a.rpos ≠ d.owner → (∀ q ∈ a.outq, q.sub ≠ 3) → ∃ t', exec c s = .next t' ∧
                (t'.adder i).inbuf = a.inbuf ∧ (t'.aslot n).locals = lo ∧ (t'.aslot n).datas = y.datas ∧
                (t'.aslot n).taint = (y.taint || r.1.taint) ∧ (t'.aslot n).sat = (y.sat || r.1.sat) ∧
                (t'.adder i).outq = a.outq ++ [mkReduce s 1 a.job (tileFields a d r.1 y.seq.toNat true) a.nextMod r.1.payload]) ∧
              (a.rpos = d.owner → let to_ := d.dst + d.rsize * r.1.tile.toNat
                firstBadPage (fun y => memAccepts s a.hall y 1) to_ d.rsize = none → (∀ o < d.rsize, isMem (to_ + o) = true) →
                p.pay.length = wireBytes d.wire → l.payload.length = wireBytes d.wire →
                ∃ t', exec c s = .next t' ∧ (t'.adder i).inbuf = a.inbuf ∧ (t'.aslot n).tiles = r.1.tile.toNat :: y.tiles ∧
                  memBytes t' to_ d.rsize = resultBytes d r.1))) ∧
          (ty = 1 → a.cred ≤ a.inbuf → exec c s = .next (refusePacket v p 2)) ∧
          (ty = 4 → exec c s = .next (v.setAdder i { a with credits := a.credits + p.fld 32 8 })) ∧
          (ty = 5 → openIn s i b (p.fld 57 8) = false → exec c s = .next v) ∧
          (ty = 5 → openIn s i b (p.fld 57 8) = true → a.err = false →
            ∃ t, exec c s = .next t ∧ (t.adder i).err = true ∧
              (t.adder i).ajerr.toNat % 65536 = 6 + 256 * (if p.fld 32 8 = 2 then 2 else 0))))) ∧
    (∀ (p : Packet), p.sub = 3 → (∀ q ∈ a.outq, q.sub ≠ 3 ∧ q.fld 16 16 ≠ p.fld 16 16) →
      (adderQueue s i p).adder i = a ∧ (adderQueue s i p).out = (adderSend s i p).out ∧
        (adderQueue s i p).inbox = (adderSend s i p).inbox) ∧
    (∀ (c : CtlId) (j : CtxId) (p : Packet) (ps : List Packet), i = ctxIx c j → a.enable = true →
      (a.outq = [] → (∀ q ∈ slotsHeld s i, (s.aslot q).results = []) → exec (.dataSend c j) s = .next s) ∧
      (a.outq = [] → (slotsHeld s i).find? (fun q => !(s.aslot q).results.isEmpty) = some n → y.results = p :: ps →
        fabReachable s p.dst = true → 0 < a.credits → ∃ t, exec (.dataSend c j) s = .next t ∧
          t.adder i = { a with credits := a.credits - 1 } ∧ t.aslot n = { y with results := ps }) ∧
      (a.outq = p :: ps → (∀ q ∈ ps, q.sub ≠ 3) →
        let b := p.fld 16 16
        let z := { a with outq := ps, credits := a.credits - 1 }
        (p.sub = 1 → fabReachable s p.dst = true → 0 < a.credits → slotOf s i b = some n → bucketDesc s i b = .ok d →
          (y.tiles.length + 1 < d.ntile → ∃ t, exec (.dataSend c j) s = .next t ∧
            t.adder i = z ∧ t.aslot n = { y with tiles := p.fld 32 16 :: y.tiles }) ∧
          (d.ntile ≤ y.tiles.length + 1 → ∃ t, exec (.dataSend c j) s = .next t ∧ t.aslot n = ASlot.reset ∧
            t.adder i = { z with await := a.await ++ [⟨y.bucket, y.taint, y.sat, y.bumps, y.deadline⟩] })) ∧
        (p.sub = 2 → fabReachable s p.dst = true → 0 < a.credits →
          (passedOn s i b = true → (fabReachable s a.prevMod = true ∨ bucketOpen s i b = false) →
            ∃ t, exec (.dataSend c j) s = .next t ∧ t.adder i = { z with inbuf := a.inbuf - 1 } ∧ t.aslots = s.aslots) ∧
          (slotOf s i b = some n → y.st = 2 → y.bucket.toNat = b → resultsLeft z b = true →
            ∃ t, exec (.dataSend c j) s = .next t ∧ t.adder i = z ∧ t.aslots = s.aslots) ∧
          (slotOf s i b = some n → y.st = 2 → y.bucket.toNat = b → resultsLeft z b = false → bucketDesc s i b = .ok d →
            fabReachable s a.nextMod = true → ∃ t, exec (.dataSend c j) s = .next t ∧ t.aslot n = ASlot.reset)) ∧
        (fabReachable s p.dst = false → a.err = false → ∃ t, exec (.dataSend c j) s = .next t ∧ (t.adder i).err = true ∧
          (t.adder i).ajerr.toNat % 65536 = 6) ∧
        (fabReachable s p.dst = true → a.credits = 0 → exec (.dataSend c j) s = .next s)))) ∧
  ∀ (d : BDesc) (inn loc : Tile),
    let r := (sumTiles d inn loc).1
    (inn.payload.length = wireBytes d.wire → loc.payload.length = wireBytes d.wire → d.wire < 2 → ∀ k < 1024,
      let f := wireFmt d.wire
      let w := f.width / 8
      let el (x : Tile) : Nat := leNat ((x.payload.drop (w * k)).take w)
      ((∃ q, f.decode (el inn) = .nan q ∨ f.decode (el loc) = .nan q) → el r = f.nan ∧ r.taint = true) ∧
      (∀ a b, f.decode (el inn) = .inf a → f.decode (el loc) = .inf b → r.taint = true ∧ el r = if a = b then el loc else f.nan) ∧
      (∀ a b m e, f.decode (el inn) = .inf a → f.decode (el loc) = .fin b m e → r.taint = true ∧ el r = el inn) ∧
      (∀ a b m e, f.decode (el loc) = .inf a → f.decode (el inn) = .fin b m e → r.taint = true ∧ el r = el loc) ∧
      (∀ sa ma ea sb mb eb, f.decode (el inn) = .fin sa ma ea → f.decode (el loc) = .fin sb mb eb →
        let e := min ea eb
        let v (s : Bool) (m : Nat) (g : Int) : Int := (if s then -1 else 1) * m * 2 ^ (g - e).toNat
        let x := v sa ma ea + v sb mb eb
        (x ≠ 0 → el r = (tileOut f false d.round (.fin (decide (x < 0)) x.natAbs e)).bits) ∧
        (x = 0 → el r = if sa && sb then 2 ^ (f.width - 1) else 0))) ∧
    (inn.payload.length = 1040 → loc.payload.length = 1040 → d.wire = 2 →
      let code (x : Tile) (e : Nat) : Int := (x.payload.getD e 0).toInt
      let bump (x : Tile) (k : Nat) : Nat := (x.payload.getD (1024 + k / 2) 0).toNat / 16 ^ (k % 2) % 16
      let sum (e : Nat) : Int := code inn e * 2 ^ bump inn (e / 32) + code loc e * 2 ^ bump loc (e / 32)
      let rd (b : Nat) (x : Int) : Int :=
        if d.rm = 1 then Int.tdiv x (2 ^ b)
        else if 2 ^ b < 2 * (x % 2 ^ b) ∨ (2 * (x % 2 ^ b) = 2 ^ b ∧ x / 2 ^ b % 2 = 1) then x / 2 ^ b + 1 else x / 2 ^ b
      let fits (k b : Nat) : Prop := max (bump inn k) (bump loc k) ≤ b ∧ b ≤ 15 ∧ ∀ e < 1024, e / 32 = k → (rd b (sum e)).natAbs ≤ 127
      r.payload.length = 1040 ∧ r.taint = (inn.taint || loc.taint) ∧
        (r.sat = true ↔ inn.sat = true ∨ loc.sat = true ∨ ∃ k < 32, ∀ b, ¬ fits k b) ∧
        ∀ k < 32,
          (∀ b, fits k b → (∀ b' < b, ¬ fits k b') → bump r k = b ∧ ∀ e < 1024, e / 32 = k → code r e = rd b (sum e)) ∧
          ((∀ b, ¬ fits k b) → bump r k = 15 ∧ ∀ e < 1024, e / 32 = k → code r e = max (-127) (min 127 (rd 15 (sum e)))))

/-- 13 R300, R316, R317, R319 to R322, R331: the end of a bucket, where nothing else waits at the unit. At OWNER a bucket whose tiles are
written and sent is released and its slot freed, and one with RESULT tiles first sends them; a RESULT is written to DST, changes no other
byte, and keeps its buffer where it is to be forwarded; a
SUMMARY of the open round releases the bucket, with code 0x6 where it carries a peer's error; each release counts in AJNDONE and writes
the descriptor's status word; a timeout ends the bucket with code 0x5. -/
def Obligations.BucketsComplete : Prop :=
  ∀ (s u : State) (k : Nat) (c : CtlId) (j : CtxId) (d : BDesc),
    let i := ctxIx c j
    let a := s.adder i
    let word (taint sat : Bool) (bmax : BitVec 4) : List Byte :=
      leBytes 8 ((d.nrnd + 1) % 256 + 256 * b2n taint + 512 * b2n sat + 2048 * bmax.toNat)
    (∀ q < 8, (s.adder (8 * c.val + q)).inq = [] ∧ (s.adder (8 * c.val + q)).localQ = []) →
    (∀ n : Fin 64,
      let q := 64 * c.val + n.val
      let y := s.aslot q
      let b := y.bucket.toNat
      (y.st ≠ 1 → ∀ chk, exec (.bucketDone c n chk) s = .next s) ∧
      (y.st = 1 → y.ctx = j → bucketDesc s i b = .ok d → (a.rpos ≠ d.owner ∨ y.tiles.length < d.ntile) →
        ∀ chk, exec (.bucketDone c n chk) s = .next s) ∧
      (y.st = 1 → y.ctx = j → bucketDesc s i b = .ok d → a.rpos = d.owner → d.ntile ≤ y.tiles.length → ∀ chk,
        (adderHeld s i b = true → exec (.bucketDone c n chk) s = .next (adderWait s i b)) ∧
        (adderHeld s i b = false →
          (y.results = [] → resultsLeft a b = true → exec (.bucketDone c n chk) s = .next (s.setASlot q { y with st := 2 })) ∧
          ((∃ r ∈ y.results, r.sub = 2 ∧ r.fld 16 16 = b) → ∃ t, exec (.bucketDone c n chk) s = .next t ∧
            t.aslot q = { y with st := 2, results := [] } ∧ (t.adder i).cur = a.cur) ∧
          (y.results = [] → resultsLeft a b = false → (a.rlast = 0 ∨ fabReachable s a.nextMod = true) →
            d.nrnd % 256 ≠ (a.seq.toNat + 1) % 256 → (∀ o < 8, isMem (d.addr + 0x20 + o) = true) →
            chk = .clean → ∃ t, exec (.bucketDone c n chk) s = .next t ∧ t.aslot q = ASlot.reset ∧
              (t.adder i).cur = a.cur.count y.taint y.sat false y.bmax ∧
              memBytes t (d.addr + 0x20) 8 = word y.taint y.sat y.bmax)))) ∧
    (∀ (x : Inbox),
      let p := x.pkt
      let b := p.fld 16 16
      let to_ := d.dst + d.rsize * p.fld 32 16
      let v := countRx u (partOfHall s a.hall) p
      adderOf s (b % 24) p.job.toNat = some i → c.val = b % 24 → inHeld s (regionOfCtx i) = false →
      (adderHeld s i b = true →
        (takePacket s k (isReduce 2) = some (x, u) → exec (.resultArrive k) s = .next (adderWait s i b)) ∧
        (takePacket s k (isReduce 3) = some (x, u) → ∀ chk, exec (.summaryArrive k chk) s = .next (adderWait s i b))) ∧
      (adderHeld s i b = false → bucketDesc s i b = .ok d → takePacket s k (isReduce 2) = some (x, u) →
        (a.inbuf < a.cred → p.fld 57 8 = d.nrnd → pktVet s i d p false = none → d.wire = 0 → d.rbf16 = false →
          p.pay.length = 4096 → firstBadPage (fun y => memAccepts s a.hall y 1) to_ 4096 = none →
          (∀ o < 4096, isMem (to_ + o) = true) →
          (a.succPos ≠ d.owner ∨ fabReachable s a.prevMod = true ∨ bucketOpen s i b = false) →
          ∃ t, exec (.resultArrive k) s = .next t ∧ (t.adder i).inbuf = (if a.succPos = d.owner then a.inbuf else a.inbuf + 1) ∧
            (∀ o, (h : o < p.pay.length) → memByte t (to_ + o) = p.pay[o]) ∧
            (Coherent s → ∀ o, o < to_ ∨ to_ + 4096 ≤ o → memByte t o = memByte s o) ∧
            (a.succPos ≠ d.owner → (∀ q ∈ a.outq, q.sub ≠ 3) → (t.adder i).outq = a.outq ++
              [mkReduce s 2 a.job (tileFields a d (pktTile p) (p.fld 57 8) false) a.nextMod p.pay])) ∧
        (a.cred ≤ a.inbuf → exec (.resultArrive k) s = .next (refusePacket v p 2))) ∧
      (adderHeld s i b = false → bucketDesc s i b = .ok d → takePacket s k (isReduce 3) = some (x, u) → ∀ chk,
        (p.fld 57 8 = d.nrnd → p.hdr.getLsbD 52 = false → (a.succPos = p.fld 65 14 ∨ fabReachable s a.nextMod = true) →
          d.nrnd % 256 ≠ (a.seq.toNat + 1) % 256 → (∀ o < 8, isMem (d.addr + 0x20 + o) = true) →
          chk = .clean → ∃ t, exec (.summaryArrive k chk) s = .next t ∧
            (t.adder i).cur = a.cur.count (p.hdr.getLsbD 50) (p.hdr.getLsbD 51) false (BitVec.ofNat 4 (p.fld 53 4)) ∧
            memBytes t (d.addr + 0x20) 8 = word (p.hdr.getLsbD 50) (p.hdr.getLsbD 51) (BitVec.ofNat 4 (p.fld 53 4))) ∧
        (p.fld 57 8 = d.nrnd → p.hdr.getLsbD 52 = true → a.err = false → chk = .clean →
          ∃ t, exec (.summaryArrive k chk) s = .next t ∧ (t.adder i).err = true ∧ (t.adder i).ajerr.toNat % 65536 = 6 + 256 * 4) ∧
        (p.fld 57 8 ≠ d.nrnd → seqBelow (p.fld 57 8) d.nrnd = true →
          exec (.summaryArrive k chk) s = .next (descRead v i d)) ∧
        (p.fld 57 8 ≠ d.nrnd → seqBelow (p.fld 57 8) d.nrnd = false → a.err = false →
          ∃ t, exec (.summaryArrive k chk) s = .next t ∧ (t.adder i).err = true ∧ (t.adder i).ajerr.toNat % 65536 = 6 + 256 * 5))) ∧
    (∀ (b : W16),
      (deadlineOf s i b.toNat = none → exec (.bucketTimeout c j b) s = .next s) ∧
      (∀ dl, deadlineOf s i b.toNat = some dl → adderHeld s i b.toNat = true →
        exec (.bucketTimeout c j b) s = .next (adderWait s i b.toNat)) ∧
      (∀ dl, deadlineOf s i b.toNat = some dl → adderHeld s i b.toNat = false → a.err = false →
        ∃ t, exec (.bucketTimeout c j b) s = .next t ∧ (t.adder i).err = true ∧ (t.adder i).ajerr.toNat % 65536 = 5 ∧
          (t.region (regionOfCtl c)).timer = timeTo (s.region (regionOfCtl c)).timer dl))

/-- 13 R323 to R327, R330, R331, 12 R279: the verdict. A region's last ready word sends its contribution, with the SAT and BUMP marks of
a gating slot, and a word of another round is discarded; the home gathers words until it has heard every region and child, then sends VUP
to its parent with the timeout armed; a VDOWN from the parent closes the round at the home's context and reaches the Setters of the job; a
word from elsewhere changes no context; a home that hears nothing in time enters FAULT. What crosses a frozen mesh stop or bridge port waits.
Words outside RMASK, CHILD or PARENT or of another SEQ being discarded, the ready words' part of it too, is the model's choice (log entry
43). -/
def Obligations.VerdictsComplete : Prop :=
  ∀ (s u : State) (k i : Nat) (c : CtlId) (j : CtxId),
    let a := s.adder i
    (∀ (w : ReadyWord) (rest : List ReadyWord),
      let r := w.unit.val / 6
      takeMsg (fun x y => x.unit == y.unit && x.ctx == y.ctx) k s.readies = some (w, rest) →
      let held := unitPathHeld s w.unit.val r r
      (held = true → exec (.readyWordArrive k) s = .next s) ∧
      (held = false → (∀ v ∈ s.gathered, v.unit.val / 6 = r → v.job ≠ w.job) →
        ((∀ q ∈ regionAdders s r w.job.toNat, q = 8 * w.unit.val + w.ctx.val) → ∃ t, exec (.readyWordArrive k) s = .next t ∧
          t.readies = rest ∧ t.gathered = s.gathered ∧
          t.vcontribs = s.vcontribs ++ [⟨⟨r, by have := w.unit.isLt; omega⟩, w.job,
            if (s.region r).marks.contains w.job.toNat then w.word ||| 0xA else w.word⟩]) ∧
        ((∃ q ∈ regionAdders s r w.job.toNat, q ≠ 8 * w.unit.val + w.ctx.val) →
          exec (.readyWordArrive k) s = .next { s with readies := rest, gathered := s.gathered ++ [w] })) ∧
      (held = false → (∃ v ∈ s.gathered, v.unit.val / 6 = r ∧ v.job = w.job ∧ v.word >>> 8 ≠ w.word >>> 8) →
        ∃ t, exec (.readyWordArrive k) s = .next t ∧ t.readies = rest ∧ t.gathered = s.gathered ∧ t.vcontribs = s.vcontribs)) ∧
    (∀ (v : VContrib) (rest : List VContrib), takeMsg (fun x y => x.region == y.region) k s.vcontribs = some (v, rest) →
      verdictHome s v.job.toNat = some i →
      let held := unitPathHeld s (24 + v.region.val) v.region.val (regionOfCtx i)
      let h := { a.vhome with
        regions := insertNat v.region.val a.vhome.regions, word := some (combineWords (a.vhome.word.getD 0) v.word) }
      let heard (q : Nat) : Prop := q = v.region.val ∨ q ∈ a.vhome.regions
      let tmo := fieldN a.vcfg.toNat 0 26
      (held = true → exec (.verdictContributionArrive k) s = .next s) ∧
      (held = false → a.rmask v.region.val = true → v.word >>> 8 = a.seq.zeroExtend 16 →
        ((∃ q < 4, a.rmask q = true ∧ ¬ heard q) → exec (.verdictContributionArrive k) s =
          .next ((countBridge { s with vcontribs := rest } (partOfHall s a.hall) (decide (v.region.val ≠ regionOfCtx i))).setAdder i
            { a with vhome := h })) ∧
        (∀ q, (∀ r < 4, a.rmask r = true → heard r) → (∀ r < 6, a.child r = true → r ∈ a.vhome.ports) → a.vhome.sent = false →
          a.parent = some q → ∃ t, exec (.verdictContributionArrive k) s = .next t ∧
            t.adder i = { a with vhome := { h with
              sent := true
              deadline := if tmo = 0 then none else some (regionDue s (regionOfCtx i) tmo) } })) ∧
      (held = false → a.rmask v.region.val = false ∨ v.word >>> 8 ≠ a.seq.zeroExtend 16 →
        ∃ t, exec (.verdictContributionArrive k) s = .next t ∧ t.adders = s.adders ∧ t.vcontribs = rest)) ∧
    (∀ x : Inbox,
      let p := x.pkt
      let w : W16 := BitVec.ofNat 16 (p.fld 32 16)
      let v := countRx u (partOfHall s a.hall) p
      verdictHome s p.job.toNat = some i →
      (inHeld s (regionOfCtx i) = true →
        (takePacket s k (isReduce 6) = some (x, u) → exec (.vupArrive k) s = .next s) ∧
        (takePacket s k (isReduce 7) = some (x, u) → exec (.vdownArrive k) s = .next s)) ∧
      (inHeld s (regionOfCtx i) = false → takePacket s k (isReduce 6) = some (x, u) →
        (w >>> 8 = a.seq.zeroExtend 16 → a.child x.via = true → (∃ q < 4, a.rmask q = true ∧ q ∉ a.vhome.regions) →
          exec (.vupArrive k) s = .next (v.setAdder i { a with vhome :=
            { a.vhome with ports := insertNat x.via a.vhome.ports, word := some (combineWords (a.vhome.word.getD 0) w) } })) ∧
        (w >>> 8 ≠ a.seq.zeroExtend 16 ∨ a.child x.via = false → exec (.vupArrive k) s = .next (verdictDropped v i p))) ∧
      (inHeld s (regionOfCtx i) = false → takePacket s k (isReduce 7) = some (x, u) →
        (a.parent ≠ some x.via → exec (.vdownArrive k) s = .next (verdictDropped v i p)) ∧
        (w >>> 8 = a.seq.zeroExtend 16 → a.parent = some x.via → (∀ q < 192, (s.adder q).inq = [] ∧ (s.adder q).localQ = []) →
          ∃ t, exec (.vdownArrive k) s = .next t ∧ (t.adder i).seq = a.seq + 1 ∧ (t.adder i).verd = w ∧
            (t.adder i).rounds = a.rounds + 1 ∧ (t.adder i).cur = a.nxt ∧ (t.adder i).nxt = RoundAcc.zero ∧
            ∀ q < 192, (s.setter q).enable = true → (s.setter q).vsrc = false → (s.setter q).job = p.job.toNat →
              (s.setter q).hall = a.hall → (s.setter q).st = .wait → (s.setter q).verdicts.length < 2 →
              t.setter q = { s.setter q with verdicts := (s.setter q).verdicts ++ [w] }))) ∧
    (let y := s.adder (ctxIx c j)
     (y.vhome.deadline = none → exec (.verdictTimeout c j) s = .next s) ∧
     (∀ dl, y.vhome.deadline = some dl → ∃ t, exec (.verdictTimeout c j) s = .next t ∧ (t.adder (ctxIx c j)).st = .fault ∧
       (t.adder (ctxIx c j)).err = true ∧ (y.err = false → (t.adder (ctxIx c j)).ajerr.toNat % 65536 = 5 + 256) ∧
       (t.region (regionOfCtl c)).timer = timeTo (s.region (regionOfCtl c)).timer dl))

/-- 14 R338 to R341, R343 to R346, R349, R350: flits, packets and NOTICEs. A good flit in order is taken, acknowledged, and completes its
packet at EOP; a bad one, or one out of order, is discarded and answered with NAK once; a null flit only acknowledges; the replay timeout
resends what is unacknowledged; a whole packet is delivered here, queued at the port of its route, or dropped; a NOTICE ends the copy or the
bucket that it names, refuses the signal, or accepts the withdrawals, and changes nothing else; it waits at a frozen bridge port. The
model's choices: the ACK that leaves at once in a null flit (log entry 47), a NOTICE of no bucket, copy or signal here that is only logged
(log entry 54), and the matching of a NOTICE to the cell that it names (log entry 36) and to an answer that a copy is owed (log entry
48). -/
def Obligations.FlitsAndPacketsComplete : Prop :=
  ∀ (s : State) (p : PortId),
    let x := s.port p.val
    (∀ f : Flit,
      let cls := fieldN f.hdr.toNat 24 2
      let acked := ackFlits x.replay (BitVec.ofNat 12 (fieldN f.hdr.toNat 12 12))
      let nak (t : State) : Prop := (t.port p.val).rxNext = x.rxNext ∧ (t.port p.val).rx = x.rx ∧ (t.port p.val).part = x.part ∧
        (t.port p.val).discard = true ∧ (x.discard = true → t.out = s.out) ∧
        (x.discard = false → ∃ n : Flit, t.out = s.out ++ [.flit p n] ∧ n.hdr.getLsbD 31 = true ∧ flitGood n = true)
      (x.linked = false → exec (.flitReceive p f) s = .next s) ∧
      (x.linked = true →
        (flitGood f = false ∨ f.fecOk = false → ∃ t, exec (.flitReceive p f) s = .next t ∧ nak t ∧ (t.port p.val).replay = x.replay) ∧
        (flitGood f = true → f.fecOk = true → f.hdr.getLsbD 31 = false →
          (cls < 3 → fieldN f.hdr.toNat 0 12 = x.rxNext.toNat → ∃ t, exec (.flitReceive p f) s = .next t ∧
            (t.port p.val).rxNext = x.rxNext + 1 ∧ (t.port p.val).replay = acked ∧ (t.port p.val).discard = false ∧
            (∀ bs, (f.hdr.getLsbD 29 = true ∧ bs = f.payload) ∨
                (f.hdr.getLsbD 29 = false ∧ ∃ old, vget x.part cls = some old ∧ bs = old ++ f.payload) →
              (f.hdr.getLsbD 30 = true → (t.port p.val).rx = x.rx ++
                [parsePacket (BitVec.ofNat 3 (fieldN f.hdr.toNat 26 3)) (BitVec.ofNat 2 cls) bs]) ∧
              (f.hdr.getLsbD 30 = false → (t.port p.val).rx = x.rx ∧ vget (t.port p.val).part cls = some bs)) ∧
            ∃ n : Flit, t.out = s.out ++ [.flit p n] ∧ fieldN n.hdr.toNat 12 12 = x.rxNext.toNat ∧ fieldN n.hdr.toNat 24 2 = 3 ∧
              flitGood n = true) ∧
          (cls < 3 → fieldN f.hdr.toNat 0 12 ≠ x.rxNext.toNat → ∃ t, exec (.flitReceive p f) s = .next t ∧ nak t ∧
            (t.port p.val).replay = acked) ∧
          (cls = 3 → ∃ t, exec (.flitReceive p f) s = .next t ∧ (t.port p.val).replay = acked ∧
            (t.port p.val).rxNext = x.rxNext ∧ (t.port p.val).rx = x.rx ∧ t.out = s.out)))) ∧
    (x.linked = false ∨ x.replay = [] → exec (.replayTimeout p) s = .next s) ∧
    (x.linked = true → x.replay ≠ [] → ∃ t, exec (.replayTimeout p) s = .next t ∧ (t.port p.val).replay = x.replay ∧
      t.out.length = s.out.length + x.replay.length ∧ (vget (t.port p.val).cnt 3).toNat = min (2 ^ 64 - 1) ((vget x.cnt 3).toNat + 1)) ∧
    (x.rx = [] → exec (.packetReceive p) s = .next s) ∧
    (∀ (k : Packet) (rest : List Packet), x.rx = k :: rest →
      let u := s.setPort p.val { x with rx := rest }
      (k.kind = kLink → k.sub = 1 → exec (.packetReceive p) s = .next (leaveOp u p)) ∧
      (k.kind = kLink → k.sub ≠ 1 → exec (.packetReceive p) s = .next u) ∧
      (k.kind ≠ kLink →
        (k.dst = s.modId → packetReserved k = false → exec (.packetReceive p) s = .next { u with inbox := s.inbox ++ [⟨k, p.val⟩] }) ∧
        (k.dst = s.modId → packetReserved k = true → ∃ t, exec (.packetReceive p) s = .next t ∧ (t.port p.val).rx = rest ∧
          ∃ r ∈ t.lreps, r.cls = 0xE) ∧
        (k.dst ≠ s.modId →
          (∀ q : Fin 6, routeOf s k.dst = .port q.val → ∃ t, exec (.packetReceive p) s = .next t ∧
            (t.port q.val).txq = (s.port q.val).txq ++ [⟨k, BitVec.ofNat 8 (p.val + 1), secondChannel s q.val k⟩] ∧
            (t.port p.val).rx = rest ∧ t.inbox = s.inbox) ∧
          (∀ sub, routeOf s k.dst = .drop sub → exec (.packetReceive p) s = .next (dropPacket u k sub))))) ∧
    (∀ (k : Nat) (y : Inbox) (u : State), takePacket s k (fun q => q.kind == kNotice) = some (y, u) →
      let kind := y.pkt.fld 16 3
      let ref := y.pkt.fld 23 16
      let e := y.pkt.fld 23 7
      let z := s.engine e
      (inHeld s (noticeRegion y.pkt) = true → exec (.noticeReceive k) s = .next s) ∧ (inHeld s (noticeRegion y.pkt) = false →
      (kind = 2 →
        (z.stale.contains (y.pkt.fld 39 18) = true → ∃ t, exec (.noticeReceive k) s = .next t ∧
          t.engine e = (if y.pkt.fld 19 4 = 1 then { z with stale := z.stale.erase (y.pkt.fld 39 18) } else z) ∧ t.sigs = s.sigs) ∧
        (∀ j : Job, z.run = some j → j.desc.remote = true → j.desc.modId = y.pkt.fld 39 18 →
          z.stale.contains (y.pkt.fld 39 18) = false → ∃ t, exec (.noticeReceive k) s = .next t ∧
          (t.engine e).run = none ∧ (t.engine e).err = true ∧ (t.engine e).done = z.done ∧ (t.engine e).queue = z.queue ∧
          (z.err = false → (t.engine e).ceerr.toNat % 65536 = 7 + 256 * (if y.pkt.sub = 2 then 0 else 1))) ∧
        ((z.run = none ∨ ∃ j, z.run = some j ∧ (j.desc.remote = false ∨ j.desc.modId ≠ y.pkt.fld 39 18)) →
          z.stale.contains (y.pkt.fld 39 18) = false → ∃ t, exec (.noticeReceive k) s = .next t ∧ (t.engine e).run = z.run ∧ (t.engine e).err = z.err ∧
            (t.engine e).done = z.done ∧ t.sigs = s.sigs)) ∧
      (kind = 1 →
        (adderOf s (ref % 24) y.pkt.job.toNat = none → ∃ t, exec (.noticeReceive k) s = .next t ∧ t.adders = s.adders) ∧
        (∀ i, adderOf s (ref % 24) y.pkt.job.toNat = some i → bucketOpen s i ref = true → y.pkt.fld 19 4 ≤ 5 →
          (s.adder i).err = false → ∃ t, exec (.noticeReceive k) s = .next t ∧ (t.adder i).err = true ∧
            (t.adder i).ajerr.toNat % 65536 = 6 + 256 * (if y.pkt.sub = 2 then 0 else 1))) ∧
      (kind = 4 →
        let hits := s.rsigs.filter fun g => g.dst.toNat == y.pkt.fld 39 18 && g.ref.toNat == ref && g.job == y.pkt.job &&
          (y.pkt.issuer == 0 || y.pkt.issuer == g.cell.val + 1)
        (∀ g : RSig, hits = [g] → ∃ t, exec (.noticeReceive k) s = .next t ∧ t.rsigs = s.rsigs.erase g ∧
          t.hmrefs = s.hmrefs ++ [⟨g.cell, 1, BitVec.ofNat 64 (pipAddr (ref / 64) (ref % 64))⟩]) ∧
        (hits = [] → ∃ t, exec (.noticeReceive k) s = .next t ∧ t.rsigs = s.rsigs ∧ t.hmrefs = s.hmrefs)) ∧
      (kind = 5 →
        (y.pkt.fld 19 4 = 2 → ∃ t, exec (.noticeReceive k) s = .next t ∧ ((t.cell (ref / 64)).pip (ref % 64)).wd = []) ∧
        (y.pkt.fld 19 4 ≠ 2 → ∃ t, exec (.noticeReceive k) s = .next t ∧ t.cells = s.cells ∧ t.bmsgs = s.bmsgs)) ∧
      (kind = 0 ∨ kind = 3 ∨ 6 ≤ kind → ∃ t, exec (.noticeReceive k) s = .next t ∧ t.cells = s.cells ∧ t.engines = s.engines ∧
        t.adders = s.adders)))

/-- 14 R341, R342, R350, R353, R355: the events of a port and of its clasps. Loss of signal arms the ride-through, a LEAVE does not; its end
takes the port DOWN and empties it; training for a JOIN brings a port UP with the partner its checks accept, and to MISMATCH with another; a
port that trains again after a loss of signal comes UP with whatever partner it finds, and keeps its sequence where that is the one it had.
Each side sends IDENT, which takes the next SEQ. Flit numbers that restart on a fresh training (log entry 47), with the partner's IDENT as
flit 0, and MISMATCH dropping the queue (log entry 102) are the model's choices. While no JOIN runs, the clasp sensors must show what was commanded, and else
the pair faults: its hold is removed, its ports go OFF. -/
def Obligations.PortEventsComplete : Prop :=
  ∀ (s : State) (p : PortId) (id : BitVec 128) (pair : Fin 3) (oa ob : Bool),
    let x := s.port p.val
    let k := pair.val
    let new : W32 := BitVec.ofNat 32 (identId id)
    (x.st = .up ∨ x.st = .ride → exec (.portSignalLoss p) s =
      .next (s.setPort p.val { x with st := .ride, rideAt := some (x.rideAt.getD (moduleDue s 20)) })) ∧
    (x.st ≠ .up → x.st ≠ .ride → exec (.portSignalLoss p) s = .next s) ∧
    (x.st = .up → exec (.leaveReceive p) s = .next (s.setPort p.val { x with st := .ride, rideAt := none })) ∧
    (x.st ≠ .up → exec (.leaveReceive p) s = .next s) ∧
    (∀ due, x.st = .ride → x.rideAt = some due → ∃ t, exec (.rideThroughExpire p) s = .next t ∧ (t.port p.val).st = .down ∧
      (t.port p.val).replay = [] ∧ (t.port p.val).txq = [] ∧ (t.port p.val).rideAt = none ∧ (t.port p.val).rx = x.rx ∧
      t.ctl.timer = timeTo s.ctl.timer due ∧ ∃ r ∈ t.lreps, r.cls = 0x13 ∧ r.origin = originPort s p.val) ∧
    (x.st ≠ .ride ∨ x.rideAt = none → exec (.rideThroughExpire p) s = .next s) ∧
    (x.trains = false → exec (.portTrained p id) s = .next s) ∧
    (x.trains = true → (x.st ≠ .ride ∨ x.partner ≠ new) →
      (x.st ≠ .training ∨ partnerOk s p id = true → ∃ t f, exec (.portTrained p id) s = .next t ∧ (t.port p.val).st = .up ∧
        (t.port p.val).partner = new ∧ (t.port p.val).txSeq = 1 ∧ (t.port p.val).replay = [f] ∧ f.seq = 0 ∧ f.pkt.kind = kLink ∧
        f.pkt.sub = 0 ∧ identId f.pkt.hdr = s.modId ∧ (t.port p.val).rxNext = 1 ∧ (t.port p.val).rideAt = none) ∧
      (x.st = .training → partnerOk s p id = false → ∃ t, exec (.portTrained p id) s = .next t ∧ (t.port p.val).st = .mismatch ∧
        (t.port p.val).partner = new ∧ (t.port p.val).txq = [] ∧ ∃ r ∈ t.lreps, r.cls = 0x12 ∧ r.origin = originPort s p.val)) ∧
    (x.trains = true → x.st = .ride → x.partner = new → ∃ t l, exec (.portTrained p id) s = .next t ∧ (t.port p.val).st = .up ∧
      (t.port p.val).replay = x.replay ++ l ∧ l.length = (if x.replay.length < 4095 then 1 else 0) ∧
      (t.port p.val).txSeq = x.txSeq + BitVec.ofNat 12 l.length ∧ (t.port p.val).rxNext = x.rxNext ∧
      (t.port p.val).txq = x.txq ∧ (t.port p.val).rideAt = none ∧
      (vget (t.port p.val).cnt 6).toNat = min (2 ^ 64 - 1) ((vget x.cnt 6).toNat + 1)) ∧
    (vget s.fab.checkAt k = none → exec (.claspCheck pair oa ob) s = .next s) ∧
    (∀ due, vget s.fab.checkAt k = some due → runner s 0x0020 = none →
      (oa = s.fab.hold.getLsbD (2 * k) → ob = s.fab.hold.getLsbD (2 * k) →
        ∃ t, exec (.claspCheck pair oa ob) s = .next t ∧ vget t.fab.checkAt k = none ∧ t.fab.hold = s.fab.hold ∧
          t.fab.fault = s.fab.fault ∧ (∀ b < 6, t.fab.opened.getLsbD b =
            if b = 2 * k then oa else if b = 2 * k + 1 then ob else s.fab.opened.getLsbD b) ∧
          t = { s with fab := t.fab, ctl := { s.ctl with timer := timeTo s.ctl.timer due } }) ∧
      (oa ≠ s.fab.hold.getLsbD (2 * k) ∨ ob ≠ s.fab.hold.getLsbD (2 * k) → ∃ t, exec (.claspCheck pair oa ob) s = .next t ∧
        (∀ b < 6, t.fab.fault.getLsbD b = (s.fab.fault.getLsbD b || decide (b / 2 = k)) ∧
          t.fab.hold.getLsbD b = (s.fab.hold.getLsbD b && decide (b / 2 ≠ k))) ∧
        (t.port (2 * k)).st = .off ∧ (t.port (2 * k + 1)).st = .off ∧ ∃ r ∈ t.lreps, r.cls = 0x11))

/-- 14 R353 to R357, 17 R412, 18 R436: JOIN holds the clasps of the first pair that it names, once they are open trains its ports, fails
with 0x30 where one is in fault, and is DONE where every pair that it names is UP; past its timeout it FAILS with ERROR 0x02. WITHDRAW sends
LEAVE on every UP port and drains; its end in STANDBY removes the holds, takes the dies' power and enters WITHDRAWN. JOIN taking its pairs
one after the other (log entry 53) and a release outside STANDBY failing with 0x0C (log entry 103) are the model's choices. -/
def Obligations.JoinAndWithdrawComplete : Prop :=
  ∀ (s : State) (n : SlotIx) (k : Nat), k < 3 →
    let x := s.cmd n.val
    let mask := joinMask s n.val
    (running s n.val 0x0020 = false ∨ x.aux ≠ 0 → exec (.join n) s = .next s) ∧
    (running s n.val 0x0020 = true → x.aux = 0 →
      (x.abort = true → ∃ t, exec (.join n) s = .next t ∧ (t.cmd n.val).st = .aborted ∧ t.fab = s.fab) ∧
      (x.abort = false →
        (mask.testBit k = true → (∀ i < k, mask.testBit i = false) → pairUp s k = false →
          (pairFault s k = false → ∃ t, exec (.join n) s = .next t ∧ (vget t.fab.checkAt k).isSome = true ∧
            (t.cmd n.val).st = .running ∧ ∀ b < 6, t.fab.hold.getLsbD b = (s.fab.hold.getLsbD b || decide (b / 2 = k))) ∧
          (pairFault s k = true → ∃ t, exec (.join n) s = .next t ∧ (t.cmd n.val).st = .failed ∧ (t.cmd n.val).error = 0x30 ∧
            t.fab = s.fab)) ∧
        ((∀ i < 3, mask.testBit i = true → pairUp s i = true) → ∃ t, exec (.join n) s = .next t ∧ (t.cmd n.val).st = .done ∧
          (t.cmd n.val).error = 0 ∧ (t.cmd n.val).result = [BitVec.ofNat 8 mask] ∧ t.fab = s.fab))) ∧
    (∀ due, vget s.fab.checkAt k = some due → runner s 0x0020 = some n.val → s.fab.hold.getLsbD (2 * k) = true → 64 ≤ x.aux →
      x.aux / 8 % 4 = k → (s.port (2 * k)).st = .off → (s.port (2 * k + 1)).st = .off → pairFault s k = false →
      ∃ t, exec (.claspCheck (Fin.ofNat 3 k) true true) s = .next t ∧ (t.port (2 * k)).st = .training ∧
        (t.port (2 * k + 1)).st = .training ∧ (t.cmd n.val).st = .running) ∧
    (running s n.val 0x0020 = false → exec (.joinTimeout n) s = .next s) ∧
    (running s n.val 0x0020 = true → ∃ t, exec (.joinTimeout n) s = .next t ∧ (t.cmd n.val).st = .failed ∧
      (t.cmd n.val).error = 2 ∧ t.ctl.timer = timeTo s.ctl.timer x.due) ∧
    (running s n.val 0x0021 = true → s.fab.drain = false → ∃ t, exec (.withdraw n) s = .next t ∧
      t.fab = { s.fab with drain := true } ∧ (t.cmd n.val).due = moduleDue s 20 ∧ ∀ p : Fin 6,
        let y := s.port p.val
        (t.port p.val).replay.length = y.replay.length + (if y.st = .up ∧ 0 < y.room then 1 else 0) ∧
        (t.port p.val).txq.length = y.txq.length + (if y.st = .up ∧ y.room = 0 then 1 else 0)) ∧
    (running s n.val 0x0021 = false ∨ s.fab.drain = true → exec (.withdraw n) s = .next s) ∧
    (running s n.val 0x0021 = true → s.fab.drain = true →
      (s.ctl.st = .standby → ∃ t, exec (.withdrawRelease n) s = .next t ∧ (t.cmd n.val).st = .done ∧ t.ctl.st = .withdrawn ∧
        t.fab.hold = 0 ∧ t.fab.drain = false ∧ t.cells = [] ∧ t.sram = []) ∧
      (s.ctl.st ≠ .standby → ∃ t, exec (.withdrawRelease n) s = .next t ∧ (t.cmd n.val).st = .failed ∧ (t.cmd n.val).error = 0x0C ∧
        t.ctl.st = s.ctl.st ∧ t.fab.hold = s.fab.hold ∧ t.cells = s.cells)) ∧
    (running s n.val 0x0021 = false ∨ s.fab.drain = false → exec (.withdrawRelease n) s = .next s)

/-- 15 R361 to R370: an arbiter without an owner grants a request that its requester may make, of the highest class present and, in it,
of the next port, a masked Urgent request after the others; it counts the grant in its window and arms the watchdog. The CPQs at the queue
of a copy engine are taken in ascending cell order. An unmasked Urgent request preempts a Bulk owner, whose request stays, unless the last
beat has moved; a bite moves the level's timer to the armed count, ends the owner's transfer, clears its port's requests and names the port,
unless the last beat has moved; FREEZE, accepted with the unit's hallmark, holds new grants. -/
def Obligations.ArbitersComplete : Prop :=
  ∀ (s : State) (a : ArbId) (reqs : List ArbReq) (o q : ArbReq) (beats later : Nat) (h : Byte) (on : Bool),
    let k := arbKey a
    let x := s.arb k
    let ok := ((x.waiting ++ reqs).filter (reqOk s k)).eraseDups
    let going : Prop := (portOfArb k = none ∧ beats < o.beats) ∨ ∃ p t0 n0, portOfArb k = some p ∧ (s.port p.val).sent = some (t0, n0) ∧
      n0 + beats < (flitPays t0.pkt).length
    (∀ i, queueOfArb k = some i →
      (mayGrant s k = true → ∃ l : List ArbReq, l.Perm ok ∧ l.Pairwise (fun r r' => r.port ≤ r'.port) ∧
        exec (.arbGrant a reqs) s = .next (acceptCpqs k (Fin.ofNat 2 i) l (s.setArb k { x with waiting := ok }))) ∧
      (mayGrant s k = false → exec (.arbGrant a reqs) s = .next (s.setArb k { x with waiting := ok }))) ∧
    (queueOfArb k = none → x.owner = none → unfinished s k = false →
      (mayGrant s k = true → ok ≠ [] → ∃ t g, exec (.arbGrant a reqs) s = .next t ∧ g ∈ ok ∧ (t.arb k).owner = some g ∧
        (t.arb k).wcnt = x.wcnt + 1 ∧ (t.arb k).due = arbDue s k ∧ (t.arb k).waiting = ok.erase g ∧
        (∀ r ∈ ok, (x.masked = false → clsOf r.what = .urgent → clsOf g.what = .urgent) ∧
          (x.masked = true → clsOf r.what ≠ .urgent → clsOf g.what ≠ .urgent) ∧ (clsOf r.what = .reduce → clsOf g.what ≠ .bulk)) ∧
        some g.port = portAfter (vget x.last (clsIx (clsOf g.what)))
          ((ok.filter fun r => clsOf r.what == clsOf g.what).map (·.port)) ∧
        (portOfArb k = none → t = s.setArb k (t.arb k))) ∧
      (mayGrant s k = false ∨ ok = [] → exec (.arbGrant a reqs) s = .next (s.setArb k { x with waiting := ok }))) ∧
    (queueOfArb k = none → x.owner = some o → portOfArb k = none → x.waiting = [] → exec (.arbGrant a []) s = .next (s.setArb k x.endPhase)) ∧
    (x.owner = some o →
      (clsOf o.what = .bulk → clsOf q.what = .urgent → reqOk s k q = true → mayGrant s k = true → x.masked = false → going →
        ∃ t, exec (.arbPreempt a q beats) s = .next t ∧ (t.arb k).owner = some q ∧ o ∈ (t.arb k).waiting ∧
          (t.arb k).preempt.toNat = min 65535 (x.preempt.toNat + 1) ∧ (∀ p < 6, (t.port p).txq = (s.port p).txq) ∧
          (portOfArb k = none → t = s.setArb k (t.arb k))) ∧
      (clsOf o.what = .bulk → clsOf q.what = .urgent → reqOk s k q = true → mayGrant s k = true → x.masked = false →
        portOfArb k = none → o.beats ≤ beats → ∃ t, exec (.arbPreempt a q beats) s = .next t ∧ (t.arb k).preempt = x.preempt) ∧
      (clsOf o.what ≠ .bulk ∨ clsOf q.what ≠ .urgent ∨ reqOk s k q = false ∨ mayGrant s k = false ∨ x.masked = true →
        exec (.arbPreempt a q beats) s = .next s) ∧
      (biteCounts s k = true → portOfArb k = none → o.beats ≤ beats → ∃ t, exec (.arbBite a beats later) s = .next t ∧
        (t.arb k).bitten = x.bitten ∧ (t.arb k).bites = x.bites) ∧
      (biteCounts s k = true → going → ∃ t, exec (.arbBite a beats later) s = .next t ∧
        (k < 256 → (s.block (k / 4)).st ≠ .dormant → (t.block (k / 4)).timer = timeTo (s.block (k / 4)).timer (count48 x.due later)) ∧
        (t.arb k).bitten = true ∧
        (t.arb k).bitOwner = o.port ∧ (t.arb k).bites.toNat = min 65535 (x.bites.toNat + 1) ∧
        (∀ r ∈ (t.arb k).waiting, r.port ≠ o.port) ∧ ∀ r, (t.arb k).owner = some r → r.port ≠ o.port) ∧
      (biteCounts s k = false → exec (.arbBite a beats later) s = .next s)) ∧
    (x.owner = none → exec (.arbBite a beats later) s = .next s ∧ exec (.arbPreempt a q beats) s = .next s) ∧
    (ctlAccepts s (placeOf (arbAddr k)) h = true → ∃ t, exec (.arbFreeze h a on) s = .next t ∧ arbFrozen t k = on ∧
      (t.arb k).owner = x.owner ∧ (t.arb k).waiting = x.waiting ∧ t.cells = s.cells ∧ t.engines = s.engines) ∧
    (ctlAccepts s (placeOf (arbAddr k)) h = false → exec (.arbFreeze h a on) s = .next (refusedAtUnit s (arbAddr k)))

/-- 16 R376, R379 to R386, 18 R436: the partition commands where they run. PART_CREATE takes the next free hallmark (at once where the
command has not entered CREATING yet), brings the blocks to Run with their cells held, and leaves the partition LOADING; a check that fails
ends it with that check's ERROR. PART_START measures the image and releases the cells at ENTRY; it waits for memory that is being powered;
an ABORT, or data that cannot be read, ends it. PART_RESET leaves LOADING with PMEAS zero. PART_CLOSE enters CLOSING and its end, after the drain limit where something still carries
the hallmark, emits the close record and frees the partition, whose hallmark becomes the most recently released one. ERROR 0x03 for an
image that cannot be read (log entry 57), a drain that ends at once where nothing carries the hallmark (log entry 59) and CREATING entered
when the command starts (log entry 70) are the model's choices. -/
def Obligations.PartitionCommandsComplete : Prop :=
  ∀ (s : State) (n : SlotIx) (p : Nat), p < 16 → (s.cmd n.val).arg 0 = p →
    let y := s.cmd n.val
    let x := s.part p
    let done (t : State) : Prop := (t.cmd n.val).st = .done ∧ (t.cmd n.val).error = 0 ∧ (t.cmd n.val).progress = 0xFFFF
    let made (t : State) (h : Byte) : Prop := done t ∧ (t.part p).st = .loading ∧ (t.part p).hall = h ∧ (t.part p).keyed = true ∧
      (s.ctl.st = .standby → t.ctl.st = .active) ∧
      ∀ b < 64, x.blocks.getLsbD b = true → (t.block b).st = .run ∧
        ∀ i < 8, (t.cell (8 * b + i)).held = true ∧ (t.cell (8 * b + i)).chall = h.zeroExtend 32
    (running s n.val 0x0030 = false → exec (.partCreate n) s = .next s) ∧
    (running s n.val 0x0030 = true →
      (x.st = .creating → ∃ t, exec (.partCreate n) s = .next t ∧ made t x.hall ∧ t.ctl.hallOrder = s.ctl.hallOrder) ∧
      (x.st ≠ .creating →
        (partCreateError s p = none → ∃ t, exec (.partCreate n) s = .next t ∧ made t (nextHall s) ∧
          (t.part p).cnt = Vector.replicate 17 0 ∧ (t.part p).pcfgd = partDigest x ∧ t.ctl.hallOrder = s.ctl.hallOrder.tail) ∧
        (∀ e, partCreateError s p = some e → ∃ t, exec (.partCreate n) s = .next t ∧ (t.cmd n.val).st = .failed ∧
          (t.cmd n.val).error = e ∧ t.parts = s.parts))) ∧
    (running s n.val 0x0031 = false → exec (.partStart n) s = .next s) ∧
    (running s n.val 0x0031 = true →
      (y.abort = true → ∃ t, exec (.partStart n) s = .next t ∧ (t.cmd n.val).st = .aborted ∧ (t.cmd n.val).error = 0 ∧
        t.parts = s.parts) ∧
      (y.abort = false → imageBad s x = true → ∃ t, exec (.partStart n) s = .next t ∧ (t.cmd n.val).st = .failed ∧
        (t.cmd n.val).error = 3 ∧ t.parts = s.parts) ∧
      (y.abort = false → imageBad s x = false → imageReady s x = false → exec (.partStart n) s = .next (imageWake s x)) ∧
      (y.abort = false → imageBad s x = false → imageReady s x = true → ∃ t, exec (.partStart n) s = .next t ∧ done t ∧ (t.part p).st = .active ∧
        (t.part p).pmeas = imageMeasure s x ∧ (t.cmd n.val).result = imageMeasure s x ∧
        ∀ b < 64, x.blocks.getLsbD b = true → (s.block b).oos = false →
          ((s.block b).st = .dormant → (t.block b).waking = true) ∧
          ((s.block b).st ≠ .dormant → ∀ i < 8, (t.cell (8 * b + i)).held = false ∧ (t.cell (8 * b + i)).pc = x.entry))) ∧
    (running s n.val 0x0032 = false → exec (.partReset n) s = .next s) ∧
    (running s n.val 0x0032 = true → ∃ t, exec (.partReset n) s = .next t ∧ done t ∧ (t.part p).st = .loading ∧
      (t.part p).pmeas = List.replicate 32 0 ∧ (t.part p).hall = x.hall ∧
      ∀ b < 64, x.blocks.getLsbD b = true → (s.block b).st ≠ .dormant → ∀ i < 8, (t.cell (8 * b + i)).held = true) ∧
    (running s n.val 0x0033 = false → exec (.partClose n) s = .next s ∧ exec (.partCloseDrainEnd n) s = .next s) ∧
    (running s n.val 0x0033 = true →
      (x.st ≠ .closing → exec (.partCloseDrainEnd n) s = .next s ∧ ∃ t, exec (.partClose n) s = .next t ∧
        (t.part p).st = .closing ∧ (t.cmd n.val).st = .running ∧ (t.cmd n.val).due = moduleDue s 100 ∧ (t.part p).hall = x.hall ∧
        (t.part p).pmeas = List.replicate 32 0) ∧
      (x.st = .closing → exec (.partClose n) s = .next s ∧ ∃ t, exec (.partCloseDrainEnd n) s = .next t ∧ done t ∧
        (t.part p).st = .free ∧ (t.part p).hall = 0 ∧ (t.part p).keyed = false ∧
        (x.hall ≠ 0 → t.ctl.hallOrder = s.ctl.hallOrder ++ [x.hall.toNat]) ∧
        t.ctl.timer = (if hallBusy s x.hall then timeTo s.ctl.timer y.due else s.ctl.timer) ∧
        (∃ r, (t.part p).records = (x.records ++ [r]).drop (x.records.length + 1 - 64) ∧ (r.drop 6).take 2 = [1, BitVec.ofNat 8 p]) ∧
        ∀ b < 64, x.blocks.getLsbD b = true → (t.block b).st = .dormant))

/-- 16 R388, R391 to R395: measurement, attestation and accounting. EXTEND hashes the old value and the digest into a user register; a
report carries the nonce; a record numbers itself one after the last, is kept among the 64 latest, and carries its reason; the energy of a
period is charged to the partitions, with its carry, and added to the meters. An ACCT_NOW whose partition is gone fails (log entry 111). -/
def Obligations.MeasurementAndAccountingComplete : Prop :=
  ∀ (s : State) (n : SlotIx) (p : PartId) (meters : List Nat) (mm : Nat) (act : List BlockActivity),
    let y := s.cmd n.val
    let x := s.part p.val
    (running s n.val 0x0040 = false → exec (.attest n) s = .next s) ∧
    (running s n.val 0x0040 = true → y.args.length = 36 → ∃ t, exec (.attest n) s = .next t ∧ (t.cmd n.val).st = .done ∧
      ((t.cmd n.val).result.drop 32).take 32 = y.args.drop 4 ∧ (t.cmd n.val).result.take 4 = [1, 0, 0, 0] ∧ t.parts = s.parts) ∧
    (running s n.val 0x0042 = false → exec (.extend n) s = .next s) ∧
    (∀ r : Fin 16, running s n.val 0x0042 = true → y.arg 0 = r.val → ∃ t, exec (.extend n) s = .next t ∧
      (t.cmd n.val).st = .done ∧
      (∀ k : Fin 16, t.ctl.meas[k] = if k = r then sm3 (s.ctl.meas[k] ++ y.args.drop 4) else s.ctl.meas[k]) ∧
      (t.cmd n.val).result = t.ctl.meas[r]) ∧
    (running s n.val 0x0041 = false → exec (.acctNow n) s = .next s) ∧
    (running s n.val 0x0041 = true → y.arg 0 = p.val →
      (x.held = true → ∃ t, exec (.acctNow n) s = .next t ∧ (t.cmd n.val).st = .done ∧
        t.ctl.acctSeq = s.ctl.acctSeq + 1 ∧ (t.part p.val).pseq = x.pseq + 1 ∧
        (t.part p.val).records = (x.records ++ [(t.cmd n.val).result]).drop (x.records.length + 1 - 64) ∧
        ((t.cmd n.val).result.drop 6).take 2 = [2, BitVec.ofNat 8 p.val]) ∧
      (x.held = false → ∃ t, exec (.acctNow n) s = .next t ∧ (t.cmd n.val).st = .failed ∧ (t.cmd n.val).error = 0x0C ∧
        t.parts = s.parts ∧ t.ctl.acctSeq = s.ctl.acctSeq)) ∧
    (x.held = false → exec (.acctInterval p) s = .next s) ∧
    (x.held = true → ∃ t, exec (.acctInterval p) s = .next t ∧ t.ctl.acctSeq = s.ctl.acctSeq + 1 ∧
      (t.part p.val).pseq = x.pseq + 1 ∧ t.ctl.timer = timeTo s.ctl.timer x.acctAt ∧
      (t.part p.val).acctAt = count48 t.ctl.timer (ticks s.ctl.kModule s.ctl.acctMs.toNat) ∧
      ∃ r, (t.part p.val).records = (x.records ++ [r]).drop (x.records.length + 1 - 64) ∧
        (r.drop 6).take 2 = [0, BitVec.ofNat 8 p.val]) ∧
    (s.ctl.st = .off → exec (.energyCharge meters mm act) s = .next s) ∧
    (s.ctl.st ≠ .off →
      let ms := if powered s then meters else [0, 0, 0, 0]
      let total := (((List.range 16).filter fun q => decide ((s.part q).hall ≠ 0)).map (partCharge s act ms)).sum
      let mine := partCharge s act ms p.val
      ∃ t, exec (.energyCharge meters mm act) s = .next t ∧
        (∀ r < 4, vget t.ctl.meters r = vget s.ctl.meters r + BitVec.ofNat 64 (ms.getD r 0)) ∧
        vget t.ctl.meters 4 = vget s.ctl.meters 4 + BitVec.ofNat 64 mm ∧
        (x.hall = 0 → t.part p.val = x) ∧
        (x.hall ≠ 0 → 0 ≤ x.carry → 0 ≤ (t.part p.val).carry ∧ (t.part p.val).carry < 1 ∧
          ((vget (t.part p.val).cnt 16 : Nat) : Rat) + (t.part p.val).carry =
            ((vget x.cnt 16 : Nat) : Rat) + x.carry + (if total = 0 then mine else mine + (mm : Rat) * mine / total)))

/-- 01 R23, R24, 17 R397, R400, R404, R406 to R410: requests. One that does not reach the module has no effect; without an established
session or with a wrong TAG it fails with AUTH; with the last SEQ the response is sent again, with another than the next it fails. Where
these checks pass the request acts, its response leaves and is kept, and its SEQ becomes the session's. READ returns the entry, or the bytes
of memory; WRITE acts and stores its bytes; READ_SEG begins with a snapshot of the entry and WRITE_SEG with the staging; COMMIT writes what
was staged and discards it; a check that fails gives its status. At the host port each is a frame received (18 R433). COMMIT discarding the
staging whatever its outcome, with RANGE for another entry (log entry 62), and the payload and the statuses of device memory (log entry 67)
are the model's choices. -/
def Obligations.RequestsComplete : Prop :=
  ∀ (s : State) (q : Req) (j : Nat) (i : W16) (sub : Byte) (off len : W16) (v : List Byte) (n : SlotIx) (p : PartId) (b : Byte) (w : W32)
    (meets : Bool),
    let fs := framesIn s q.iface 1
    let u := heard fs q j
    let z := u.sess j
    let reply (m : WdpMsg) (r : Reply) (t : State) : State :=
      answer fs q m j r (t.setSess j { t.sess j with
        seq := q.seq
        cached := some (respMsg m r) })
    let mRead := reqMsg q 1 i.toNat sub.toNat 0 0 []
    let mWrite := writeMsg q i.toNat sub.toNat v
    let mReadSeg := reqMsg q 3 i.toNat sub.toNat off len []
    let mWriteSeg := reqMsg q 4 i.toNat sub.toNat off (BitVec.ofNat 16 v.length) v
    let mCommit := reqMsg q 5 i.toNat sub.toNat 0 0 []
    (∀ (c : Instr) (m : WdpMsg), (c, m) ∈ [(.read q (.entry i sub), mRead), (.write q (.entry i sub) v, mWrite),
        (.readSeg q i sub off len, mReadSeg), (.writeSeg q i sub off v, mWriteSeg), (.commit q i sub, mCommit),
        (.bye q, reqMsg q 0x12 0 0 0 0 []), (.commandAbort q n meets, writeMsg q (0x8000 + n.val) 5 [1]),
        (.commandRelease q n, writeMsg q (0x8000 + n.val) 5 [2]), (.logClear q, writeMsg q 0x7000 5 [1]),
        (.opRequest q b, writeMsg q 0x2000 1 [b]), (.toleranceWrite q p w, writeMsg q 0x2104 (p.val + 1) (leBytes 4 w.toNat))] →
      (reached s q.iface q.dst = false ∨ 1408 < m.len.toNat ∨ 1408 < m.pay.length → exec c s = .next fs) ∧
      (reached s q.iface q.dst = true → m.len.toNat ≤ 1408 → m.pay.length ≤ 1408 →
        (sessOf s q.sess = none → exec c s = .next (authBad fs q.iface q.src m)) ∧
        (sessOf s q.sess = some j → q.tag ≠ tagOf (s.sess j).keyIn (msgBytes m) → exec c s = .next (authBad fs q.iface q.src m)) ∧
        (sessOf s q.sess = some j → q.tag = tagOf (s.sess j).keyIn (msgBytes m) → q.seq ≠ (s.sess j).seq + 1 →
          (∀ r, q.seq = (s.sess j).seq → (s.sess j).cached = some r →
            exec c s = .next (sendWdp fs u q.iface q.src r (tagOf (s.sess j).keyOut (msgBytes r)))) ∧
          (q.seq ≠ (s.sess j).seq ∨ (s.sess j).cached = none → exec c s = .next (seqBad u q m (s.sess j).keyOut))))) ∧
    (Fresh s q mRead j →
      (∀ e, reachCheck u z i.toNat sub.toNat false = some e →
        exec (.read q (.entry i sub)) s = .next (reply mRead (.code e) u)) ∧
      (reachCheck u z i.toNat sub.toNat false = none →
        ((entVal u j i.toNat sub.toNat).length ≤ 1408 → exec (.read q (.entry i sub)) s =
          .next (reply mRead ⟨0, 0, entVal u j i.toNat sub.toNat⟩ (afterRead u i.toNat))) ∧
        (1408 < (entVal u j i.toNat sub.toNat).length → exec (.read q (.entry i sub)) s = .next (reply mRead (.code 5) u)))) ∧
    (∀ (a : Addr) (k : BitVec 11) (chk : Check) (m : WdpMsg),
      m = (let pay := Config.memExtent false a.toNat k.toNat; reqMsg q 1 0 0 0 (BitVec.ofNat 16 pay.length) pay) →
      Fresh s q m j →
      (∀ t, memWaits s q m a.toNat k.toNat false = some t → exec (.read q (.mem a k chk)) s = .next t) ∧
      (1408 < k.toNat → memWaits s q m a.toNat k.toNat false = none → exec (.read q (.mem a k chk)) s = .next (reply m (.code 5) u)) ∧
      (∀ t e, k.toNat ≤ 1408 → memCheck u z a.toNat k.toNat = .error (t, e) →
        exec (.read q (.mem a k chk)) s = .next (reply m (.code e) t)) ∧
      (∀ h, k.toNat ≤ 1408 → memCheck u z a.toNat k.toNat = .ok h →
        (wdpHeld s a.toNat k.toNat = true → exec (.read q (.mem a k chk)) s = .next s) ∧
        (wdpHeld s a.toNat k.toNat = false → extentReady s a.toNat k.toNat = false →
          exec (.read q (.mem a k chk)) s = .next (wakeExtent s a.toNat k.toNat)) ∧
        (wdpHeld s a.toNat k.toNat = false → extentReady s a.toNat k.toNat = true → chk.ecc = .clean →
          (∀ d < k.toNat, isMem (a.toNat + d) = true ∧ memBad s (a.toNat + d) = none) →
          ∃ t, exec (.read q (.mem a k chk)) s = .next (reply m ⟨0, 0, memBytes s a.toNat k.toNat⟩ t) ∧
            (∀ d, memByte t d = memByte s d) ∧ t.cells = s.cells ∧ t.ctl = s.ctl ∧ t.sess j = z))) ∧
    (∀ (a : Addr) (chk : Check) (m : WdpMsg),
      m = writeMsg q 0 0 (Config.memExtent true a.toNat v.length ++ v) → Fresh s q m j →
      (∀ t, memWaits s q m a.toNat v.length true = some t → exec (.write q (.mem a chk) v) s = .next t) ∧
      (∀ t e, memCheck u z a.toNat v.length = .error (t, e) →
        exec (.write q (.mem a chk) v) s = .next (reply m (.code e) t)) ∧
      (∀ h, memCheck u z a.toNat v.length = .ok h →
        (wdpHeld s a.toNat v.length = true → exec (.write q (.mem a chk) v) s = .next s) ∧
        (wdpHeld s a.toNat v.length = false → extentReady s a.toNat v.length = false →
          exec (.write q (.mem a chk) v) s = .next (wakeExtent s a.toNat v.length)) ∧
        (wdpHeld s a.toNat v.length = false → extentReady s a.toNat v.length = true → v ≠ [] → chk = .clean →
          (∀ d < v.length, isMem (a.toNat + d) = true) →
          ∃ t, exec (.write q (.mem a chk) v) s = .next (reply m (.code 0) t) ∧ memBytes t a.toNat v.length = v ∧ t.sess j = z ∧
            (Coherent s → ∀ d, d < a.toNat ∨ a.toNat + v.length ≤ d → memByte t d = memByte s d) ∧
            t.ctl = s.ctl))) ∧
    (Fresh s q mWrite j →
      (∀ e, reachCheck u z i.toNat sub.toNat true = some e →
        exec (.write q (.entry i sub) v) s = .next (reply mWrite (.code e) u)) ∧
      (reachCheck u z i.toNat sub.toNat true = none →
        (putType i.toNat sub.toNat v.length = false → exec (.write q (.entry i sub) v) s = .next (reply mWrite (.code 4) u)) ∧
        (putType i.toNat sub.toNat v.length = true → isSlotObj i.toNat = true → sub = 1 →
          let r := slotCommand u z (i.toNat - 0x8000) v
          exec (.write q (.entry i sub) v) s = .next (reply mWrite (.code r.2) r.1)) ∧
        (putType i.toNat sub.toNat v.length = true → isSlotObj i.toNat = false →
          (putRange z i.toNat sub.toNat v = false → exec (.write q (.entry i sub) v) s = .next (reply mWrite (.code 5) u)) ∧
          (putRange z i.toNat sub.toNat v = true →
            (putLegal u q.iface i.toNat sub.toNat v = false →
              exec (.write q (.entry i sub) v) s = .next (reply mWrite (.code 0x0C) (conflict u z i.toNat sub.toNat).1)) ∧
            (putLegal u q.iface i.toNat sub.toNat v = true →
              exec (.write q (.entry i sub) v) s = .next (reply mWrite (.code 0) (putDo u j i.toNat sub.toNat v))))))) ∧
    (Fresh s q mReadSeg j →
      (∀ e, reachCheck u z i.toNat sub.toNat false = some e →
        exec (.readSeg q i sub off len) s = .next (reply mReadSeg (.code e) u)) ∧
      (reachCheck u z i.toNat sub.toNat false = none →
        let e := (entVal u j i.toNat sub.toNat).take 65535
        (off = 0 → exec (.readSeg q i sub off len) s =
          .next (reply mReadSeg ⟨0, e.length, e.take len.toNat⟩ ((afterRead u i.toNat).setSess j { z with snap := some e }))) ∧
        (off ≠ 0 → z.snap = none → exec (.readSeg q i sub off len) s = .next (reply mReadSeg (.code 5) u)) ∧
        (∀ g, off ≠ 0 → z.snap = some g → exec (.readSeg q i sub off len) s =
          .next (reply mReadSeg ⟨0, g.length, (g.drop off.toNat).take len.toNat⟩ u)))) ∧
    (Fresh s q mWriteSeg j →
      (∀ e, reachCheck u z i.toNat sub.toNat true = some e →
        exec (.writeSeg q i sub off v) s = .next (reply mWriteSeg (.code e) u)) ∧
      (reachCheck u z i.toNat sub.toNat true = none →
        (off = 0 → exec (.writeSeg q i sub off v) s =
          .next (reply mWriteSeg (.code 0) (u.setSess j { z with staging := some (i, sub, v) }))) ∧
        (∀ g, off ≠ 0 → z.staging = some (i, sub, g) → off.toNat = g.length → g.length + v.length ≤ 65535 →
          exec (.writeSeg q i sub off v) s =
            .next (reply mWriteSeg (.code 0) (u.setSess j { z with staging := some (i, sub, g ++ v) }))) ∧
        (off ≠ 0 → (∀ g, z.staging = some (i, sub, g) → off.toNat ≠ g.length ∨ 65535 < g.length + v.length) →
          exec (.writeSeg q i sub off v) s = .next (reply mWriteSeg (.code 5) u)))) ∧
    (Fresh s q mCommit j →
      let t := u.setSess j { z with staging := none }
      (∀ e, reachCheck u z i.toNat sub.toNat true = some e → exec (.commit q i sub) s = .next (reply mCommit (.code e) t)) ∧
      (reachCheck u z i.toNat sub.toNat true = none →
        ((∀ g, z.staging ≠ some (i, sub, g)) → exec (.commit q i sub) s = .next (reply mCommit (.code 5) t)) ∧
        (∀ g, z.staging = some (i, sub, g) →
          let r := writeEntry q.iface i.toNat sub.toNat g t j
          exec (.commit q i sub) s = .next (reply mCommit (.code r.2) r.1))))

/-- 17 R401 to R406, R413: establishment and end of a session. HELLO by an enrolled key, or by one that claims ownership, opens the lowest
free entry and answers with the module's nonce; any other fails with AUTH. KEYX with RA derives the keys and answers with RB, SB and a
signature; with the SA that the module expects it establishes the session, with another it ends it. BYE, the idle time without a request and
10 s without establishment end it, the second with status flag 7. At the host port each message is a frame received (18 R433). Session
ids that ascend from sessNext (log entry 30), the order and the answers of HELLO and KEYX (log entry 64), and AUTH with the session discarded
where the exchange fails (log entry 127) are the model's choices. -/
def Obligations.SessionsComplete : Prop :=
  ∀ (s : State) (q : Req) (j : Nat) (ix : SessIx) (m : HelloMsg) (k : KeyxMsg),
    let fm := framesIn s m.iface 1
    let fk := framesIn s k.iface 1
    let fq := framesIn s q.iface 1
    (reached s m.iface m.dst = false → exec (.hello m) s = .next fm) ∧
    (reached s m.iface m.dst = true →
      (m.sess ≠ 0 ∨ m.seq ≠ 0 ∨ (enrolled s m.role m.part m.key = false ∧ claims s m = false) →
        exec (.hello m) s = .next (authBad fm m.iface m.src (helloBytes m))) ∧
      (m.sess = 0 → m.seq = 0 → (enrolled s m.role m.part m.key = true ∨ claims s m = true) →
        ((∀ i < 16, (s.sess i).st ≠ .none) → exec (.hello m) s =
          .next (sendWdp fm fm m.iface m.src (respMsg (helloBytes m) (.code 6)) zeroTag)) ∧
        (j < 16 → (s.sess j).st = .none → (∀ i < j, (s.sess i).st ≠ .none) →
          let id := s.ctl.sessNext
          exec (.hello m) s = .next (sendWdp fm { fm.setSess j { Sess.reset with
              st := .hello
              role := m.role
              part := m.part
              iface := m.iface
              id := id
              due := moduleDue s 10000
              key := m.key
              nonce := m.nonce
              peerIf := m.iface
              peer := m.src } with
            ctl := { s.ctl with
              ownerKeys := if claims s m then s.ctl.ownerKeys.setIfInBounds 0 m.key else s.ctl.ownerKeys
              sessNext := id + 1 } }
            m.iface m.src (respMsg { helloBytes m with sess := id } ⟨0, 0, moduleNonce id⟩) zeroTag)))) ∧
    (reached s k.iface k.dst = false → exec (.keyx k) s = .next fk) ∧
    (reached s k.iface k.dst = true →
      ((k.seq ≠ 0 ∨ ∀ i < 16, ((s.sess i).st ≠ .hello ∧ (s.sess i).st ≠ .keyed) ∨ (s.sess i).id ≠ k.sess) →
        exec (.keyx k) s = .next (authBad fk k.iface k.src (keyxBytes k))) ∧
      (k.seq = 0 → j < 16 → ((s.sess j).st = .hello ∨ (s.sess j).st = .keyed) → (s.sess j).id = k.sess →
        (∀ i < j, ((s.sess i).st ≠ .hello ∧ (s.sess i).st ≠ .keyed) ∨ (s.sess i).id ≠ k.sess) →
        let x := s.sess j
        (∀ ra, k.body = .ra ra → sm2OnCurve (sm2Point ra) = false →
          exec (.keyx k) s = .next (authBad (sessEnd fk j) k.iface k.src (keyxBytes k))) ∧
        (∀ ra, k.body = .ra ra →
          let ks := sessKeys x.key ra x.id
          ∃ t b, exec (.keyx k) s = .next (
              if sm2Shared x.key ra x.id = none then authBad (sessEnd fk j) k.iface k.src (keyxBytes k)
              else sendWdp fk t k.iface k.src (respMsg (keyxBytes k) ⟨0, 0, b⟩)
                (tagOf (ks.drop 32) (msgBytes (respMsg (keyxBytes k) ⟨0, 0, b⟩)))) ∧
            b.length = 160 ∧ b.take 96 = ephemeral x.id ++ confirmB x.key ra x.id ∧ t.out = s.out ∧ t.ctl = s.ctl ∧
            t.sessions = (s.setSess j { x with
              st := .keyed
              ra := ra
              keyIn := ks.take 32
              keyOut := ks.drop 32 }).sessions) ∧
        (∀ conf, k.body = .sa conf →
          (x.st = .keyed → conf = confirmA x.key x.ra x.id → exec (.keyx k) s = .next (sendWdp fk (fk.setSess j { x with
              st := .up
              estMs := s.ctl.timer
              due := moduleDue s (1000 * s.ctl.idle.toNat)
              peerIf := k.iface
              peer := k.src }) k.iface k.src (respMsg (keyxBytes k) (.code 0))
            (tagOf x.keyOut (msgBytes (respMsg (keyxBytes k) (.code 0)))))) ∧
          (x.st ≠ .keyed ∨ conf ≠ confirmA x.key x.ra x.id →
            exec (.keyx k) s = .next (authBad (sessEnd fk j) k.iface k.src (keyxBytes k)))))) ∧
    (Fresh s q (reqMsg q 0x12 0 0 0 0 []) j → exec (.bye q) s =
      .next (answer fq q (reqMsg q 0x12 0 0 0 0 []) j (.code 0) (sessEnd (heard fq q j) j))) ∧
    ((s.sess ix.val).st = .up → ∃ t, exec (.sessionIdleTimeout ix) s = .next t ∧ t.sess ix.val = Sess.reset ∧
      t.ctl.flags.getLsbD 7 = true ∧ t.ctl.timer = timeTo s.ctl.timer (s.sess ix.val).due) ∧
    ((s.sess ix.val).st ≠ .up → exec (.sessionIdleTimeout ix) s = .next s) ∧
    ((s.sess ix.val).st = .hello ∨ (s.sess ix.val).st = .keyed → exec (.sessionSetupTimeout ix) s =
      .next (sessEnd (moduleTimeTo s (s.sess ix.val).due) ix.val)) ∧
    ((s.sess ix.val).st = .none ∨ (s.sess ix.val).st = .up → exec (.sessionSetupTimeout ix) s = .next s)

/-- 17 R414 to R420, 18 R436, R437: command slots. A queued command whose turn has come runs where the present state admits it, a
PART_CREATE entering CREATING where its checks pass, and else FAILS with ERROR 0x0C; an ABORT ends a queued command at once and waits in a
running JOIN or PART_START, is BUSY for another that runs, and answers OK without effect where it meets the command's end; a release and the end of the hold return an ended slot to IDLE; JOIN,
ATTEST and ACCT_NOW end at their time limit; RESET arms its 100 ms, whose end resets the module. BUSY for ABORT of another running command, ACCESS for an idle slot and
the cases of STATE_CONFLICT are the model's choice (log entry 61). -/
def Obligations.CommandSlotsComplete : Prop :=
  ∀ (s : State) (q : Req) (j : Nat) (n : SlotIx) (meets : Bool),
    let fs := framesIn s q.iface 1
    let y := s.cmd n.val
    let p := y.arg 0
    let u := heard fs q j
    let reply (m : WdpMsg) (r : Reply) (t : State) : State :=
      answer fs q m j r (t.setSess j { t.sess j with
        seq := q.seq
        cached := some (respMsg m r) })
    let run := s.setCmd n.val { y with
      st := .running
      due := moduleDue s (cmdLimit s y.code) }
    let mAbort := writeMsg q (0x8000 + n.val) 5 [1]
    let mRelease := writeMsg q (0x8000 + n.val) 5 [2]
    (mayStart s n.val = false → exec (.commandStart n) s = .next s) ∧
    (mayStart s n.val = true →
      (cmdLegal s y.code y.args = true →
        (y.code ≠ 0x0030 ∨ (p < 16 ∧ partCreateError s p ≠ none) → exec (.commandStart n) s = .next run) ∧
        (y.code = 0x0030 → p < 16 → partCreateError s p = none → ∃ t, exec (.commandStart n) s = .next t ∧
          t.cmds = run.cmds ∧ (t.part p).st = .creating ∧ (t.part p).hall = nextHall s ∧
          t.ctl.hallOrder = s.ctl.hallOrder.tail)) ∧
      (cmdLegal s y.code y.args = false → ∃ t, exec (.commandStart n) s = .next t ∧ (t.cmd n.val).st = .failed ∧
        (t.cmd n.val).error = 0x0C ∧ t.parts = s.parts ∧ t.ctl.rej.take 4 = [BitVec.ofNat 64 s.ctl.timer,
          BitVec.ofNat 64 (0x8000 + n.val), 1, BitVec.ofNat 64 y.code.toNat])) ∧
    (Fresh s q mAbort j →
      (holderIs (s.sess j) y.holder = false → exec (.commandAbort q n meets) s = .next (reply mAbort (.code 3) u)) ∧
      (holderIs (s.sess j) y.holder = true →
        (meets = true → y.ended = true ∨ y.st = .running → exec (.commandAbort q n meets) s = .next (reply mAbort (.code 0) u)) ∧
        (y.st = .queued → exec (.commandAbort q n meets) s =
          .next (reply mAbort (.code 0) (cmdEnd (u.setCmd n.val { y with ctl := 1 }) n.val .aborted 0))) ∧
        (y.st = .running → abortable y.code = true → exec (.commandAbort q n false) s =
          .next (reply mAbort (.code 0) (u.setCmd n.val { y with
            ctl := 1
            abort := true }))) ∧
        (y.st = .running → abortable y.code = false → exec (.commandAbort q n false) s = .next (reply mAbort (.code 6) u)) ∧
        (y.st ≠ .queued → y.st ≠ .running → meets = false ∨ y.ended = false → exec (.commandAbort q n meets) s =
          .next (reply mAbort (.code 0x0C) (conflict u (u.sess j) (0x8000 + n.val) 5).1)))) ∧
    (Fresh s q mRelease j →
      (holderIs (s.sess j) y.holder = false → exec (.commandRelease q n) s = .next (reply mRelease (.code 3) u)) ∧
      (holderIs (s.sess j) y.holder = true →
        (y.ended = true → exec (.commandRelease q n) s =
          .next (reply mRelease (.code 0) (cmdIdle (u.setCmd n.val { y with ctl := 2 }) n.val))) ∧
        (y.ended = false → exec (.commandRelease q n) s =
          .next (reply mRelease (.code 0x0C) (conflict u (u.sess j) (0x8000 + n.val) 5).1)))) ∧
    (y.ended = true → ∃ t, exec (.slotHoldExpire n) s = .next t ∧ (t.cmd n.val).st = .idle ∧ (t.cmd n.val).holder = none ∧
      (t.cmd n.val).result = [] ∧ (t.cmd n.val).error = 0 ∧ (t.cmd n.val).progress = 0 ∧ (t.cmd n.val).code = y.code ∧
      t.ctl = { s.ctl with timer := timeTo s.ctl.timer y.due }) ∧
    (y.ended = false → exec (.slotHoldExpire n) s = .next s) ∧
    (y.st = .running → (y.code = 0x0020 ∨ y.code = 0x0040 ∨ y.code = 0x0041) → ∃ t, exec (.commandTimeLimit n) s = .next t ∧
      (t.cmd n.val).st = .failed ∧ (t.cmd n.val).error = 2 ∧ t.ctl.timer = timeTo s.ctl.timer y.due) ∧
    (y.st ≠ .running ∨ (y.code ≠ 0x0020 ∧ y.code ≠ 0x0040 ∧ y.code ≠ 0x0041) → exec (.commandTimeLimit n) s = .next s) ∧
    (running s n.val 0x0001 = true → s.ctl.resetAt = none →
      exec (.reset n) s = .next { s with ctl := { s.ctl with resetAt := some (moduleDue s 100) } }) ∧
    (running s n.val 0x0001 = false ∨ s.ctl.resetAt ≠ none → exec (.reset n) s = .next s) ∧
    (s.ctl.resetAt = none → exec .resetDelayExpire s = .next s) ∧
    (∀ d, s.ctl.resetAt = some d → ∃ t, exec .resetDelayExpire s = .next t ∧ t.ctl.st = .boot ∧ t.ctl.stage = 1 ∧
      t.ctl.resetCause = 2 ∧ t.ctl.resetCount.toNat = min (2 ^ 32 - 1) (s.ctl.resetCount.toNat + 1) ∧ t.log = s.log ∧
      t.cells = [] ∧ (∀ k, (t.cmd k).st = .idle) ∧ (∀ k, (t.sess k).st = .none) ∧ (∀ p, (t.part p).st = .free) ∧
      t.ctl.ownerKeys = s.ctl.ownerKeys ∧ t.ctl.acctSeq = s.ctl.acctSeq)

/-- 02 R37 to R39, R47, R50 to R53, 18 R429, R430, R435, 20 R456, 21 R467: the module controller's own commands. The Owner's requests clear
the log, set the operating point and a tolerance, and fail from another role, out of range or in a state that does not admit them; the cap
falls one point below the present one and rises again; the sensors are stored; a calibration round, at the armed second of the module timer,
writes every powered cell's factor with the next number and arms the next second; a watchdog bite resets the module with cause 0x03. -/
def Obligations.ModuleControlComplete : Prop :=
  ∀ (s : State) (q : Req) (j : Nat) (p : PartId) (v : W32) (b : Byte) (tj rate kr kb kc : List W32) (mv : W16) (km : W32),
    let eff (c : Ctl) : Prop := c.opNow = if c.cap < c.opReq then c.cap else c.opReq
    let fs := framesIn s q.iface 1
    let u := heard fs q j
    let z := u.sess j
    let reply (m : WdpMsg) (r : Reply) (t : State) : State :=
      answer fs q m j r (t.setSess j { t.sess j with
        seq := q.seq
        cached := some (respMsg m r) })
    let mClear := writeMsg q 0x7000 5 [1]
    let mOp := writeMsg q 0x2000 1 [b]
    let mTol := writeMsg q 0x2104 (p.val + 1) (leBytes 4 v.toNat)
    (Fresh s q mClear j →
      (z.role = 1 → exec (.logClear q) s = .next (reply mClear (.code 0) { u with log := { u.log with recs := [] } })) ∧
      (z.role ≠ 1 → exec (.logClear q) s = .next (reply mClear (.code 3) u))) ∧
    (Fresh s q mOp j →
      (z.role ≠ 1 → exec (.opRequest q b) s = .next (reply mOp (.code 3) u)) ∧
      (z.role = 1 →
        (2 < b.toNat → exec (.opRequest q b) s = .next (reply mOp (.code 5) u)) ∧
        (b.toNat ≤ 2 → working s.ctl.st = false → exec (.opRequest q b) s =
          .next (reply mOp (.code 0x0C) (conflict u z 0x2000 1).1)) ∧
        (b.toNat ≤ 2 → working s.ctl.st = true → ∃ t, exec (.opRequest q b) s = .next (reply mOp (.code 0) t) ∧
          t.ctl.opReq = b ∧ t.ctl.cap = s.ctl.cap ∧ eff t.ctl ∧ (t.ctl.opNow ≠ s.ctl.opNow → t.ctl.slew = some t.ctl.opNow) ∧
          t = { u with ctl := t.ctl }))) ∧
    (Fresh s q mTol j →
      (z.role ≠ 1 → (z.role ≠ 2 ∨ z.part.toNat ≠ p.val) → exec (.toleranceWrite q p v) s = .next (reply mTol (.code 3) u)) ∧
      ((z.role = 1 ∨ (z.role = 2 ∧ z.part.toNat = p.val)) →
        ((s.part p.val).st = .free → exec (.toleranceWrite q p v) s =
          .next (reply mTol (.code 0x0C) (conflict u z 0x2104 (p.val + 1)).1)) ∧
        ((s.part p.val).st ≠ .free → ∃ t, exec (.toleranceWrite q p v) s = .next (reply mTol (.code 0) t) ∧
          (t.part p.val).tol = v ∧ (∀ r : PartId, r ≠ p → t.part r.val = s.part r.val) ∧
          (∀ k < 64, (t.block k).waking = ((s.block k).waking || ((s.part p.val).blocks.getLsbD k && !(s.block k).oos &&
            decide (v.toNat < (s.block k).st.latency)))) ∧ t.cells = s.cells ∧ t.ctl = s.ctl))) ∧
    (exec .opSlewSettled s = .next { s with ctl := { s.ctl with slew := none } }) ∧
    (tooHot s = false → exec .thermalCapFall s = .next s) ∧
    (tooHot s = true → ∃ t, exec .thermalCapFall s = .next t ∧ t.ctl.cap.toNat = min s.ctl.cap.toNat (s.ctl.opNow.toNat - 1) ∧
      t.ctl.opReq = s.ctl.opReq ∧ eff t.ctl ∧ (s.ctl.opNow.toNat - 1 < s.ctl.cap.toNat → t.ctl.flags.getLsbD 0 = true)) ∧
    (coolEnough s = false ∨ s.ctl.cap = 0xFF → exec .thermalCapRise s = .next s) ∧
    (coolEnough s = true → s.ctl.cap ≠ 0xFF → ∃ t, exec .thermalCapRise s = .next t ∧
      t.ctl.cap = (if s.ctl.cap.toNat < 2 then s.ctl.cap + 1 else 0xFF) ∧ t.ctl.opReq = s.ctl.opReq ∧ eff t.ctl ∧
      t = { s with ctl := t.ctl }) ∧
    (∃ t, exec (.sensorUpdate tj rate mv) s = .next t ∧
      (∀ k < 4, vget t.ctl.tj k = tj.getD k 0 ∧ vget t.ctl.rate k = rate.getD k 0) ∧ t.ctl.mv = mv ∧
      t = { s with ctl := { s.ctl with
        tj := t.ctl.tj
        rate := t.ctl.rate
        mv := mv } }) ∧
    (s.ctl.st = .off → exec (.calibrationRound km kr kb kc) s = .next s) ∧
    (s.ctl.st ≠ .off → ∃ t, exec (.calibrationRound km kr kb kc) s = .next t ∧ t.ctl.calSeq = s.ctl.calSeq + 1 ∧
      t.ctl.timer = timeTo s.ctl.timer s.ctl.calDue ∧ t.ctl.calAt = t.ctl.timer ∧ t.ctl.calDue = moduleDue t 1000 ∧
      (∀ r < 4, vget t.ctl.kRegion r = kr.getD r 0) ∧ t.ctl.kModule = (if 10000 ≤ t.ctl.timer then km else s.ctl.kModule) ∧
      (∀ k, Tab.get 0x40000000#32 t.ctl.kBlock k = kb.getD k 0x40000000) ∧
      (∀ k, Tab.get 0x40000000#32 t.ctl.kCell k = kc.getD k 0x40000000) ∧
      (∀ c < 512, t.cell c = if (s.block (blockOfCell c)).st = .dormant then s.cell c
        else { s.cell c with
          ctcorr := kc.getD c 0x40000000
          ctcseq := s.ctl.calSeq + 1 }) ∧
      t = { s with
        ctl := t.ctl
        cells := t.cells }) ∧
    (exec .watchdogRestart s = .next { s with ctl := { s.ctl with
      wdNow := s.ctl.wdNew
      wdAt := moduleDue s s.ctl.wdNew.toNat } }) ∧
    (s.ctl.armed = false → exec .moduleWatchdogBite s = .next s) ∧
    (s.ctl.armed = true → ∃ t, exec .moduleWatchdogBite s = .next t ∧ t.ctl.st = .boot ∧ t.ctl.resetCause = 3 ∧
      t.ctl.wdBites.toNat = min (2 ^ 32 - 1) (s.ctl.wdBites.toNat + 1) ∧
      t.ctl.resetCount.toNat = min (2 ^ 32 - 1) (s.ctl.resetCount.toNat + 1) ∧ t.fab.hold = 0 ∧ t.log = s.log ∧ t.cells = [])

/-- 20 R452 to R459, 04 R112, 06 R158, R161: an idle block enters its next deeper state, wakes on an event that reaches it, and returns to
Run; the dwells of Nap and Doze pass on its timer from the entry to Poise (the model's choice, log entry 128); at the entry to Nap a bad
accumulator that is written back faults its cell; out of Dormant the cells start at ENTRY where the partition
is ACTIVE, their vector datapaths gated; an SRAM group keeps its data in retention and is powered again after it is zeroed; the controllers of a
sleeping region that is powered enter self-refresh. -/
def Obligations.PowerStatesComplete : Prop :=
  ∀ (s : State) (b : BlockId) (acc : BitVec 8) (bad : List Nat) (ev : WakeEvent) (m : CtlId),
    let x := s.block b.val
    let dwelt (t : State) (us : Nat) : Prop := (t.block b.val).timer = timeTo x.timer (count48 x.idleAt (ticks x.idleK us))
    (mayDescend s b.val = false → exec (.blockDescend b acc bad) s = .next s) ∧
    (mayDescend s b.val = true →
      (x.st = .run → exec (.blockDescend b acc bad) s = .next (s.setBlock b.val { x with
          st := .poise
          idleAt := x.timer
          idleK := Tab.get 0x40000000#32 s.ctl.kBlock b.val })) ∧
      (x.st = .poise → ∃ t, exec (.blockDescend b acc bad) s = .next t ∧ (t.block b.val).st = .nap ∧ dwelt t 100 ∧
        ∀ i < 8, (t.cell (8 * b.val + i)).vgated = true ∧ (t.cell (8 * b.val + i)).tgated = true ∧
          (acc.getLsbD i = true → (s.cell (8 * b.val + i)).res.isSome = true → (s.cell (8 * b.val + i)).accDirty = true →
            (t.cell (8 * b.val + i)).faulted = true)) ∧
      (x.st = .nap → ∃ t, exec (.blockDescend b acc bad) s = .next t ∧ (t.block b.val).st = .doze ∧ dwelt t 20000 ∧
        (t.block b.val).group = .retention) ∧
      (x.st = .doze → ∃ t, exec (.blockDescend b acc bad) s = .next t ∧ (t.block b.val).st = .dormant ∧ (t.block b.val).group = .off ∧
        ∀ i < 8, (t.cell (8 * b.val + i)).held = true)) ∧
    (wakes s b.val ev = true → x.st ≠ .run → x.oos = false →
      exec (.blockWake b ev) s = .next (s.setBlock b.val { x with waking := true })) ∧
    (wakes s b.val ev = false ∨ x.st = .run ∨ x.oos = true → exec (.blockWake b ev) s = .next s) ∧
    (x.waking = false ∨ (x.st = .dormant ∧ ownerOfBlock s b.val = none) → exec (.blockExitComplete b) s = .next s) ∧
    (x.waking = true → x.st ≠ .dormant → exec (.blockExitComplete b) s = .next (s.setBlock b.val { x with
        st := .run
        waking := false
        group := .on })) ∧
    (∀ p, x.waking = true → x.st = .dormant → x.oos = false → ownerOfBlock s b.val = some p →
      ∃ t, exec (.blockExitComplete b) s = .next t ∧
      (t.block b.val).st = .run ∧ (t.block b.val).waking = false ∧ ∀ i < 8,
        let k := t.cell (8 * b.val + i)
        k.chall = (s.part p).hall.zeroExtend 32 ∧ k.vgated = true ∧
        ((s.part p).st = .active → k.held = false ∧ k.pc = (s.part p).entry) ∧ ((s.part p).st ≠ .active → k.held = true)) ∧
    (x.st = .doze → x.group = .on → exec (.sramGroupRetention b) s = .next (s.setBlock b.val { x with group := .retention })) ∧
    (x.st ≠ .doze ∨ x.group ≠ .on → exec (.sramGroupRetention b) s = .next s) ∧
    (x.group = .zeroing → exec (.sramGroupZeroEnd b) s = .next (s.setBlock b.val { x with group := .on })) ∧
    (x.group ≠ .zeroing → exec (.sramGroupZeroEnd b) s = .next s) ∧
    (powered s = false ∨ regionSleeps s (m.val / 6) = false → exec (.selfRefreshEnter m) s = .next s) ∧
    (powered s = true → regionSleeps s (m.val / 6) = true → ∃ t, exec (.selfRefreshEnter m) s = .next t ∧
      (∀ k < 6, (t.region (m.val / 6)).selfRef.getLsbD k = ((s.region (m.val / 6)).selfRef.getLsbD k || decide (k = m.val % 6))) ∧
      t = s.setRegion (m.val / 6) { s.region (m.val / 6) with selfRef := (t.region (m.val / 6)).selfRef })

/-- 01 R27, 19 R444 to R450: the registers of queue pairs and memory windows, and the send side. A write that carries another hallmark than
the block's is refused. An enable that passes its checks enters RTS, one that does not ERROR with code 0x01; a disable returns to RESET; a
post writes both indices; a send entry leaves with its data, or ends with its error; an acknowledgement to the module's address and port
gives its outcome, seven timeouts or RNRs status 0x04; the data of a READ goes to memory and ends the entry with its last byte; a completion
writes the entry's status where the ring passed its checks, moves its index and signals; a CNP halves the rate; what needs memory that is
held or not powered waits. QPIDX kept over a disable, the advance of the PSN, the resend and the ring left alone after a configuration error
(log entry 45), and a rate that halves without a lower bound (log entry 74) are the model's choices. -/
def Obligations.QueuePairsComplete : Prop :=
  ∀ (s : State) (h : Byte) (b : BlockId) (k : BitVec 6) (w : Fin 16) (v : W32) (sqpi rqpi : W16) (hd : RoceHdr) (chk : Check)
    (d : List Byte) (ans : RoceAck),
    let i := 64 * b.val + k.toNat
    let x := s.qp i
    let y := s.mw (16 * b.val + w.val)
    let p := ownerOfBlock s b.val
    let cnp (t : State) : State := if hd.ce then roceOut t i roceCnp 0 0 [] else t
    let waits (es : List (Nat × Nat)) : Option State := engineWaits s es
    let u := framesIn s .host (roceFrames (.answer ans chk))
    (hallOk (hallOfBlock s b.val) h = false →
      exec (.qpEnable h b k) s = .next (refusedAtUnit s (qpReg b k 0)) ∧
      exec (.qpDisable h b k) s = .next (refusedAtUnit s (qpReg b k 0)) ∧
      exec (.qpPost h b k sqpi rqpi) s = .next (refusedAtUnit s (qpReg b k 0x38)) ∧
      exec (.mwValidSet h b w v) s = .next (refusedAtUnit s (mwReg b w))) ∧
    (hallOk (hallOfBlock s b.val) h = true →
      (x.cfg.getLsbD 0 = false → ringOk s p x.sq = true → ringOk s p x.rq = true →
        exec (.qpEnable h b k) s = .next (s.setQp i { x with
          cfg := x.cfg ||| 1
          st := .rts })) ∧
      (x.cfg.getLsbD 0 = false → (ringOk s p x.sq = false ∨ ringOk s p x.rq = false) →
        exec (.qpEnable h b k) s = .next (s.setQp i { x with
          cfg := x.cfg ||| 1
          st := .error
          err := 1 })) ∧
      (x.cfg.getLsbD 0 = true → exec (.qpEnable h b k) s = .next s ∧
        ∃ t, exec (.qpDisable h b k) s = .next t ∧ (t.qp i).st = .reset ∧ (t.qp i).cfg = x.cfg &&& ~~~1#64 ∧
          (t.qp i).err = 0 ∧ (t.qp i).sqci = 0 ∧ (t.qp i).rqci = 0 ∧ (t.qp i).comps = [] ∧ (t.qp i).idx = x.idx ∧
          t = s.setQp i (t.qp i)) ∧
      (x.cfg.getLsbD 0 = false → exec (.qpDisable h b k) s = .next s) ∧
      exec (.qpPost h b k sqpi rqpi) s = .next (s.setQp i { x with idx := rqpi ++ sqpi }) ∧
      (y.cfg.getLsbD 0 = true → exec (.mwValidSet h b w v) s = .next (s.setMw (16 * b.val + w.val) y)) ∧
      (y.cfg.getLsbD 0 = false →
        let ok := 0 < fieldN y.len.toNat 0 40 ∧
          (localErr s p (fieldN y.base.toNat 0 48) (fieldN y.len.toNat 0 40) false).isNone = true
        (ok → exec (.mwValidSet h b w v) s =
          .next (s.setMw (16 * b.val + w.val) { y with cfg := (v &&& 0x03FFFFF6) ||| 1 })) ∧
        (¬ok → exec (.mwValidSet h b w v) s =
          .next (s.setMw (16 * b.val + w.val) { y with cfg := (v &&& 0x03FFFFF6) ||| 0x80000000 })))) ∧
    (∀ (c : Instr) (m : RoceMsg), (c, m) ∈ [(.roceAckReceive b k ans hd chk, .answer ans chk), (.cnpReceive b k hd, .cnp)] →
      (roceReached s hd = false → exec c s = .next (framesIn s .host (roceFrames m))) ∧
      (roceReached s hd = true →
        (∀ t, waits (roceExtents s i m) = some t → exec c s = .next t) ∧
        (x.st = .reset → exec c s = .next (framesIn s .host (roceFrames m))) ∧
        (x.st = .error → exec c s = .next (cnp (framesIn s .host (roceFrames m)))))) ∧
    (x.st ≠ .rts → exec (.sendEntryStart b k) s = .next s ∧ exec (.retransmitTimeout b k) s = .next s ∧
      exec (.rateIncrease b k) s = .next s) ∧
    (x.due? = none → exec (.qpCompletion b k chk) s = .next s) ∧
    (x.st = .reset → x.due? = none) ∧
    (x.st = .error → x.sqci = x.sqpi → x.rqci = x.rqpi → x.due? = none) ∧
    (∀ c : Comp, x.due? = some c →
      let r := if c.send then x.sq else x.rq
      let a := entryAddr r c.idx
      let es := if ringOpen s i r a then [(a, 32)] else []
      c.idx = (if c.send then x.sqci else x.rqci) ∧ (x.st = .error → c.status = 8) ∧
      (∀ t, waits es = some t → exec (.qpCompletion b k chk) s = .next t) ∧
      (waits es = none → chk = .clean → ∃ t, exec (.qpCompletion b k chk) s = .next t ∧
        (t.qp i).sqci = (if c.send then x.sqci + 1 else x.sqci) ∧ (t.qp i).rqci = (if c.send then x.rqci else x.rqci + 1) ∧
        (ringOpen s i r a = true → isMem (a + 0x1C) = true → memByte t (a + 0x1C) = c.status) ∧
        (ringOpen s i r a = true → c.send = false → c.status = 1 → (∀ m < 8, isMem (a + 0x10 + m) = true) →
          memBytes t (a + 0x10) 8 = leBytes 8 c.bytes.toNat) ∧
        (ringOpen s i r a = false → ∀ m, memByte t m = memByte s m) ∧
        (Coherent s → ∀ m, m < a + 0x10 ∨ a + 0x20 ≤ m → memByte t m = memByte s m) ∧
        (x.st = .error → (t.qp i).st = .error ∧ (t.qp i).err = x.err) ∧
        (x.st = .rts → c.status = 1 → (t.qp i).st = .rts ∧ (t.qp i).comps = x.comps.erase c) ∧
        (x.st = .rts → c.status ≠ 1 → (t.qp i).st = .error ∧ (t.qp i).err = c.status) ∧
        t.sigs = s.sigs ++ (if x.cfg.getLsbD 17 then [⟨4096 + i, Fin.ofNat 512 (x.cfgF 8 9), BitVec.ofNat 6 (x.cfgF 2 6), 1,
          hallOfBlock s b.val, none⟩] else []))) ∧
    (x.st = .rts →
      (x.started = x.sqpi → exec (.sendEntryStart b k) s = .next s) ∧
      (∀ t, x.started ≠ x.sqpi → waits (sendExtents s i x.started) = some t → exec (.sendEntryStart b k) s = .next t) ∧
      (let e := readEntry s x.sq x.started
       x.started ≠ x.sqpi → waits (sendExtents s i x.started) = none →
        (e.op ≠ 3 → localErr s p e.laddr e.len (e.op != 1) = none →
          ∃ t, exec (.sendEntryStart b k) s = .next (roceOut t i
              (if e.op = 0 then roceWrite else if e.op = 1 then roceRead else roceSend) e.rva e.rkey
              (if e.op = 1 then leBytes 4 e.len else memBytes s e.laddr e.len)) ∧
            (t.qp i).started = x.started + 1 ∧ (t.qp i).comps = x.comps ∧ (t.qp i).due = moduleDue s 134 ∧
            fieldN (t.qp i).psn.toNat 0 24 = (fieldN x.psn.toNat 0 24 + max 1 ((e.len + 4095) / 4096)) % 2 ^ 24 ∧
            (∀ m, memByte t m = memByte s m) ∧ t.out = s.out ∧ t.eth = s.eth ∧ t.ethq = s.ethq ∧ t.arbs = s.arbs) ∧
        (∀ c, e.op ≠ 3 → localErr s p e.laddr e.len (e.op != 1) = some c → ∃ t, exec (.sendEntryStart b k) s = .next t ∧
          (t.qp i).started = x.started + 1 ∧ (t.qp i).comps = x.comps ++ [⟨true, x.started, c, 0⟩] ∧ t.out = s.out) ∧
        (e.op = 3 → ∃ t c, exec (.sendEntryStart b k) s = .next t ∧
          (t.qp i).started = x.started + 1 ∧ (t.qp i).comps = x.comps ++ [⟨true, x.started, c, 0⟩] ∧ t.out = s.out)) ∧
      (roceReached s hd = true →
        exec (.cnpReceive b k hd) s = .next (cnp ((framesIn s .host 1).setQp i { x with rate := x.rate / 2 }))) ∧
      (x.oldest = none → roceReached s hd = true → exec (.roceAckReceive b k ans hd chk) s = .next (cnp u)) ∧
      (x.oldest = none → waits (x.outstanding.flatMap (sendExtents s i)) = none → exec (.retransmitTimeout b k) s = .next s) ∧
      (∀ j, x.oldest = some j → roceReached s hd = true → waits (roceExtents s i (.answer ans chk)) = none →
        let e := readEntry s x.sq j
        let v := entryRead u i x.sq j
        let ends (status : Byte) : Prop := ∃ t, exec (.roceAckReceive b k ans hd chk) s = .next (cnp t) ∧
          t = { v with qps := t.qps } ∧ (∀ n, n ≠ i → t.qp n = s.qp n) ∧ t.qp i = { x with
            comps := x.comps ++ [⟨true, j, status, 0⟩]
            retries := 0
            rnrs := 0
            got := 0
            due := moduleDue s 134 }
        (ans = .ack → e.op ≠ 1 → ends 1) ∧
        (ans = .ack → e.op = 1 → exec (.roceAckReceive b k ans hd chk) s = .next (cnp v)) ∧
        (ans = .nakAccess → ends 3) ∧
        (ans = .rnr → 7 ≤ x.rnrs + 1 → ends 4) ∧
        (ans = .rnr → x.rnrs + 1 < 7 → ∃ t, exec (.roceAckReceive b k ans hd chk) s = .next t ∧ (t.qp i).rnrs = x.rnrs + 1 ∧
          (t.qp i).comps = x.comps ∧ (t.qp i).got = 0) ∧
        (ans = .readData d →
          let bs := d.take (e.len - x.got)
          (e.op ≠ 1 → exec (.roceAckReceive b k ans hd chk) s = .next (cnp v)) ∧
          (∀ c, e.op = 1 → localErr s p (e.laddr + x.got) bs.length false = some c → ends c) ∧
          (e.op = 1 → localErr s p (e.laddr + x.got) bs.length false = none → chk = .clean →
            (∀ m < bs.length, isMem (e.laddr + x.got + m) = true) →
            ∃ t, exec (.roceAckReceive b k ans hd chk) s = .next (cnp t) ∧
              memBytes t (e.laddr + x.got) bs.length = bs ∧
              (Coherent s → ∀ m, m < e.laddr + x.got ∨ e.laddr + x.got + bs.length ≤ m → memByte t m = memByte s m) ∧
              (e.len ≤ x.got + bs.length → (t.qp i).comps = x.comps ++ [⟨true, j, 1, 0⟩] ∧ (t.qp i).got = 0) ∧
              (x.got + bs.length < e.len → (t.qp i).comps = x.comps ∧ (t.qp i).got = x.got + bs.length)))) ∧
      (∀ t, waits (x.outstanding.flatMap (sendExtents s i)) = some t → exec (.retransmitTimeout b k) s = .next t) ∧
      (∀ j, x.oldest = some j → waits (x.outstanding.flatMap (sendExtents s i)) = none →
        (7 ≤ x.retries → ∃ t, exec (.retransmitTimeout b k) s = .next t ∧ (t.qp i).comps = x.comps ++ [⟨true, j, 4, 0⟩] ∧
          (t.qp i).retries = 0 ∧ t.ctl = { s.ctl with timer := timeTo s.ctl.timer x.due }) ∧
        (x.retries < 7 → ∃ t, exec (.retransmitTimeout b k) s = .next t ∧ (t.qp i).retries = x.retries + 1 ∧
          (t.qp i).comps = x.comps ∧ t.ctl = { s.ctl with timer := timeTo s.ctl.timer x.due })) ∧
      exec (.rateIncrease b k) s = .next (s.setQp i { x with rate := min (x.rate + 1 / 16) 1 }))

/-- 17 R396, R400, 18 R433, 19 R439 to R442, R447, R448, R450: what the peer and the Ethernet send. A packet that is not to an address of the
port and to its UDP port, or in RESET, is discarded; one that is marked CE is answered with a CNP; one whose memory is held or not powered
waits. An access that a window of the queue pair's partition admits is performed and acknowledged, another is
refused; a SEND fills the next receive entry, ends it with its error, or is answered RNR. A request for the port's own address is answered,
a datagram at the UDP port is taken as WDP, every other frame and one that is too long is discarded, and every frame of the host port is
counted; a pause holds its priority, and what waits no more leaves; the link state is stored. The PSN's advance by MTUs and packets in
ERROR that are discarded (log entry 45), a count of every frame, with a bad FCS too (log entry 46), the answer's frame (log entry 93) and
the priorities in which frames wait (log entry 101) are the model's choices. -/
def Obligations.HostPortComplete : Prop :=
  ∀ (s : State) (b : BlockId) (k : BitVec 6) (key : W32) (rva : W64) (data : List Byte) (len : W32) (a : Nat) (hd : RoceHdr) (chk : Check),
    let i := 64 * b.val + k.toNat
    let x := s.qp i
    let p := ownerOfBlock s b.val
    let cnp (t : State) : State := if hd.ce then roceOut t i roceCnp 0 0 [] else t
    let epsn (t : State) (n : Nat) : Prop :=
      fieldN (t.qp i).psn.toNat 32 24 = (fieldN x.psn.toNat 32 24 + max 1 ((n + 4095) / 4096)) % 2 ^ 24
    let mW : RoceMsg := .write key rva data chk
    let mR : RoceMsg := .readRequest key rva len
    let mS : RoceMsg := .send data chk
    let fr (m : RoceMsg) : State := framesIn s .host (roceFrames m)
    let quiet (m : RoceMsg) (t : State) : Prop :=
      t.out = s.out ∧ t.eth = (fr m).eth ∧ t.ethq = s.ethq ∧ t.arbs = s.arbs ∧ t.ctl = s.ctl
    (∀ (c : Instr) (m : RoceMsg), (c, m) ∈ [(.rdmaWriteReceive b k key rva data hd chk, mW), (.rdmaReadRequest b k key rva len hd, mR),
        (.sendReceive b k data hd chk, mS)] →
      (roceReached s hd = false → exec c s = .next (fr m)) ∧
      (roceReached s hd = true →
        (∀ t, engineWaits s (roceExtents s i m) = some t → exec c s = .next t) ∧
        (x.st = .reset → exec c s = .next (fr m)) ∧ (x.st = .error → exec c s = .next (cnp (fr m))))) ∧
    (x.st = .rts → roceReached s hd = true →
      (engineWaits s (roceExtents s i mW) = none →
        (mwAccess s i key rva.toNat data.length true = some a → chk = .clean → (∀ m < data.length, isMem (a + m) = true) →
          ∃ t, exec (.rdmaWriteReceive b k key rva data hd chk) s = .next (cnp (roceOut t i roceAck 0 0 [])) ∧
            memBytes t a data.length = data ∧
            (Coherent s → ∀ m, m < a ∨ a + data.length ≤ m → memByte t m = memByte s m) ∧ epsn t 1 ∧ quiet mW t) ∧
        (mwAccess s i key rva.toNat data.length true = none →
          exec (.rdmaWriteReceive b k key rva data hd chk) s = .next (cnp (roceOut (fr mW) i roceNakAccess 0 0 [])))) ∧
      (engineWaits s (roceExtents s i mR) = none →
        (mwAccess s i key rva.toNat len.toNat false = some a → ∃ t, exec (.rdmaReadRequest b k key rva len hd) s =
          .next (cnp (roceOut t i roceReadData rva key (memBytes s a len.toNat))) ∧ (∀ m, memByte t m = memByte s m) ∧
          epsn t len.toNat ∧ quiet mR t) ∧
        (mwAccess s i key rva.toNat len.toNat false = none →
          exec (.rdmaReadRequest b k key rva len hd) s = .next (cnp (roceOut (fr mR) i roceNakAccess 0 0 [])))) ∧
      (x.nextRecv = none → exec (.sendReceive b k data hd chk) s = .next (cnp (roceOut (fr mS) i roceRnr 0 0 []))) ∧
      (∀ j, x.nextRecv = some j → engineWaits s (roceExtents s i mS) = none →
        let e := readEntry s x.rq j
        let bad (c : Byte) : Prop := ∃ t, exec (.sendReceive b k data hd chk) s =
          .next (cnp (roceOut t i roceNakInvalid 0 0 [])) ∧ (t.qp i).comps = x.comps ++ [⟨false, j, c, 0⟩] ∧ epsn t data.length ∧
          (∀ m, memByte t m = memByte s m) ∧ quiet mS t
        (e.len < data.length → bad 5) ∧
        (∀ c, data.length ≤ e.len → localErr s p e.laddr data.length false = some c → bad c) ∧
        (data.length ≤ e.len → localErr s p e.laddr data.length false = none → chk = .clean →
          (∀ m < data.length, isMem (e.laddr + m) = true) →
          ∃ t, exec (.sendReceive b k data hd chk) s = .next (cnp (roceOut t i roceAck 0 0 [])) ∧
            memBytes t e.laddr data.length = data ∧
            (Coherent s → ∀ m, m < e.laddr ∨ e.laddr + data.length ≤ m → memByte t m = memByte s m) ∧
            (t.qp i).comps = x.comps ++ [⟨false, j, 1, BitVec.ofNat 64 data.length⟩] ∧ epsn t data.length ∧ quiet mS t))) ∧
    (∀ f : EthFrame,
      let u := countFrame s f
      let takes := answers s.ctl.st (frameIface f.body) = true ∧ tooLong f = false
      (powered s = true → frameIface f.body = .host → u.eth.rx.toNat = min (2 ^ 64 - 1) (s.eth.rx.toNat + 1) ∧
        u = { s with eth := u.eth }) ∧
      (powered s = false ∨ frameIface f.body = .field → u = s) ∧
      (¬takes → exec (.frameReceive f) s = .next u) ∧
      (takes →
        (∀ c ip w, f.body = .arp c ip w → exec (.frameReceive f) s =
          .next (if ip4Mine s c ip.toNat then emit u (.frame c w 0 (beBytes 4 ip.toNat) w []) else u)) ∧
        (∀ c ip w, f.body = .neighbour c ip w → exec (.frameReceive f) s =
          .next (if ip6Mine s c ip then emit u (.frame c w 1 ip w []) else u)) ∧
        (∀ c v6 ip w bs, f.body = .echo c v6 ip w bs →
          (∀ hop, addrMine s c v6 ip = true → nextHop s c v6 w = some hop →
            exec (.frameReceive f) s = .next (emit u (.frame c hop 2 ip w bs))) ∧
          (addrMine s c v6 ip = false ∨ nextHop s c v6 w = none → exec (.frameReceive f) s = .next u)) ∧
        (∀ c src dst bs, f.body = .udp c src dst bs → exec (.frameReceive f) s =
          .next (if reached s c dst then wdpDatagram u c src dst bs else u)) ∧
        (∀ c h' b' k' m, f.body = .roce c h' b' k' m →
          (c = .field ∨ roceReached s h' = false → exec (.frameReceive f) s = .next u) ∧
          (c = .host → roceReached s h' = true →
            (∀ t, engineWaits s (roceExtents s (qpIx b' k') m) = some t → exec (.frameReceive f) s = .next t) ∧
            (engineWaits s (roceExtents s (qpIx b' k') m) = none →
              exec (.frameReceive f) s = .next (roceTake u (qpIx b' k') h' m)))) ∧
        (∀ c, f.body = .pause8023x c ∨ f.body = .other c ∨ f.body = .badFcs c → exec (.frameReceive f) s = .next u))) ∧
    (∀ (pr : Fin 8) (qu : W16), (powered s = false → exec (.pfcPause pr qu) s = .next s) ∧
      (powered s = true → ∃ t, exec (.pfcPause pr qu) s = .next t ∧
        (∀ r : Fin 8, t.eth.pause[r] = if r = pr then qu else s.eth.pause[r]) ∧
        t.out = s.out ++ s.ethq.filter (fun o => !ethWaits t o) ∧ t.ethq = s.ethq.filter (ethWaits t) ∧
        t.eth.rx.toNat = min (2 ^ 64 - 1) (s.eth.rx.toNat + 1) ∧ t = { s with
          eth := t.eth
          out := t.out
          ethq := t.ethq })) ∧
    (∀ up : Bool,
      (powered s = true → exec (.linkStateChange .host up) s =
        .next { s with eth := { s.eth with host := { s.eth.host with up := up } } }) ∧
      (powered s = false → exec (.linkStateChange .host up) s = .next s) ∧
      (s.ctl.st ≠ .off → exec (.linkStateChange .field up) s =
        .next { s with eth := { s.eth with field := { s.eth.field with up := up } } }) ∧
      (s.ctl.st = .off → exec (.linkStateChange .field up) s = .next s))

/-- 16 R388, 17 R412, 21 R464 to R471, 22 R486, R487: power-up and resets. The supply's rise begins stage 1, its fall takes the module to
OFF, where only flash and the accounting number stay; a stage that succeeds extends its measurement registers and begins the next, stages 5
and 6 take the units that failed out of service, stage 7 enters STANDBY; a failure and a fatal error enter FAULTED with their cause; the pin
resets the module with cause 0x01. The model's choice is that a failure or a timeout of stage 1, for which 21 R464 lists none, has no
effect (log entry 69). -/
def Obligations.StartAndResetComplete : Prop :=
  ∀ (s : State) (r : BootResult) (cause : Byte),
    let n := s.ctl.stage
    let limit := timeTo s.ctl.timer (count48 s.ctl.bootAt (ticks s.ctl.bootK (stageLimit n)))
    (s.ctl.st = .off → ∃ t, exec .supplyGoodRise s = .next t ∧ t.ctl.st = .boot ∧ t.ctl.stage = 1 ∧ t.ctl.supply = true ∧
      t = { s with ctl := t.ctl }) ∧
    (s.ctl.st ≠ .off → exec .supplyGoodRise s = .next s) ∧
    (s.ctl.st ≠ .off → ∃ t, exec .supplyGoodFall s = .next t ∧ t.ctl.st = .off ∧ t.ctl.prev = s.ctl.st ∧
      t.cells = [] ∧ t.sram = [] ∧ t.log = ⟨[], 0, 0⟩ ∧ t.ctl.ownerKeys = s.ctl.ownerKeys ∧
      t.ctl.acctSeq = s.ctl.acctSeq ∧ t.fab.id = s.fab.id) ∧
    (s.ctl.st = .off → exec .supplyGoodFall s = .next s) ∧
    (booting s = false → exec (.bootStageEnd r) s = .next s ∧ exec (.bootStageTimeout r) s = .next s) ∧
    (booting s = true →
      (r.ok = true → n < 5 → r.digests.length = (stageMeas n).length → ∃ t, exec (.bootStageEnd r) s = .next t ∧
        t.ctl.stage = n + 1 ∧ t.ctl.st = .boot ∧
        (n = 3 → t.ctl.armed = true ∧ t.ctl.wdNow = s.ctl.wdNew ∧ t.ctl.wdAt = moduleDue s s.ctl.wdNew.toNat) ∧
        (n ≠ 3 → t.ctl.armed = s.ctl.armed) ∧
        (∀ k : Fin 16, (k.val ∉ stageMeas n → t.ctl.meas[k] = s.ctl.meas[k]) ∧
          ∀ e < (stageMeas n).length, (stageMeas n).getD e 0 = k.val →
            t.ctl.meas[k] = sm3 (s.ctl.meas[k] ++ r.digests.getD e [])) ∧
        t = { s with ctl := t.ctl }) ∧
      (n = 5 → ∃ t, exec (.bootStageEnd r) s = .next t ∧ t.ctl.stage = 6 ∧ ∀ m < 24,
        (t.region (m / 6)).ctlOos.getLsbD (m % 6) = ((s.region (m / 6)).ctlOos.getLsbD (m % 6) || r.badControllers.getLsbD m) ∧
        (r.badControllers.getLsbD m = true → ∃ x ∈ t.lreps, x.cls = 0x14 ∧ x.origin = originCtl s m)) ∧
      (n = 6 → ∃ t, exec (.bootStageEnd r) s = .next t ∧ t.ctl.stage = 7 ∧ ∀ g < 64,
        let grp := r.badGroups.getLsbD g || r.badBanks.any fun k => k / 16 == g
        (t.block g).oos = ((s.block g).oos || r.badBlocks.getLsbD g || grp) ∧
          (t.block g).groupOos = ((s.block g).groupOos || grp) ∧
          ((r.badBlocks.getLsbD g || grp) = true → ∃ x ∈ t.lreps, x.cls = 0x14 ∧ x.origin = originBlock s g)) ∧
      (r.ok = true → n = 7 →
        (nothingServes s = false → ∃ t, exec (.bootStageEnd r) s = .next t ∧ t.ctl.st = .standby ∧ t.ctl.prev = .boot ∧
          t.ctl.entryMs = s.ctl.timer) ∧
        (nothingServes s = true → ∃ t, exec (.bootStageEnd r) s = .next t ∧ t.ctl.st = .faulted ∧ t.ctl.cause = 4)) ∧
      (r.ok = false → stageCause n r.cause = none → n ≠ 5 → n ≠ 6 → exec (.bootStageEnd r) s = .next s) ∧
      (∀ c, stageCause n r.cause = some c →
        (r.ok = false → ∃ t, exec (.bootStageEnd r) s = .next t ∧ t.ctl.st = .faulted ∧ t.ctl.cause = c) ∧
        (∃ t, exec (.bootStageTimeout r) s = .next t ∧ t.ctl.st = .faulted ∧ t.ctl.cause = c ∧ t.ctl.timer = limit)) ∧
      (n = 5 ∨ n = 6 → ∃ t, exec (.bootStageTimeout r) s = .next t ∧ t.ctl.stage = n + 1 ∧ t.ctl.timer = limit) ∧
      (n = 1 → exec (.bootStageTimeout r) s = .next { s with ctl := { s.ctl with timer := limit } })) ∧
    (s.ctl.st = .off ∨ s.ctl.pinHeld = true → exec .resetPinAssert s = .next s) ∧
    (s.ctl.st ≠ .off → s.ctl.pinHeld = false → ∃ t, exec .resetPinAssert s = .next t ∧ t.ctl.st = .boot ∧ t.ctl.stage = 1 ∧
      t.ctl.pinHeld = true ∧ t.ctl.resetCause = 1 ∧ t.ctl.resetCount.toNat = min (2 ^ 32 - 1) (s.ctl.resetCount.toNat + 1) ∧
      t.log = s.log ∧ t.cells = [] ∧ t.fab.hold = 0) ∧
    (s.ctl.pinHeld = true → exec .resetPinRelease s = .next { s with ctl := { s.ctl with
      pinHeld := false
      bootAt := s.ctl.timer
      bootK := s.ctl.kModule } }) ∧
    (s.ctl.pinHeld = false → exec .resetPinRelease s = .next s) ∧
    ((cause ≠ 3 ∧ cause ≠ 6) ∨ powered s = false → exec (.fatalModuleError cause) s = .next s) ∧
    ((cause = 3 ∨ cause = 6) → powered s = true → ∃ t, exec (.fatalModuleError cause) s = .next t ∧ t.ctl.st = .faulted ∧
      t.ctl.cause = cause ∧ t.cells = [] ∧ t.fab.hold = 0 ∧ ∃ x ∈ t.lreps, x.cls = 0x16)

/-- 00 R4, 01 R27, 17 R413, 21 R472 to R479: the path of a report and plain register writes. A report at its block's collector adds its
count to BECNT, signals the error pip where that is enabled, and goes on; one that no record takes opens a record with the next number, in a
full log in the place of the oldest advisory or corrected one, and one that a record takes is merged into the first such record; some
classes set their status flag. A write to a register of a unit that accepts the hallmark is performed, another is refused and recorded. -/
def Obligations.ReportsAndRegistersComplete : Prop :=
  ∀ (s : State) (k : Nat) (r : Report) (rest : List Report) (h : Byte) (m : CtlId) (j : CtxId) (addr : BitVec 48) (len : Fin 9) (v : W64),
    let take := takeMsg (fun (x y : Report) => x.col == y.col) k
    let new : LogRec :=
      ⟨s.log.last + 1, s.ctl.timer, s.ctl.timer, r.origin, r.cls, r.sev, r.own, r.count, r.reporter, r.detail⟩
    (take s.breps = none → exec (.blockCollectorReport k) s = .next s) ∧
    (take s.breps = some (r, rest) → r.block = none → exec (.blockCollectorReport k) s = .next s) ∧
    (∀ b : BlockId, take s.breps = some (r, rest) → r.block = some b →
      let x := s.block b.val
      ∃ t, exec (.blockCollectorReport k) s = .next t ∧ t.breps = rest ∧
        (t.block b.val).becnt = x.becnt + r.count.zeroExtend 64 ∧ t.lreps = queueReport { r with block := none } s.lreps ∧
        t.sigs = s.sigs ++ (if errorPip x r then [⟨640 + b.val, Fin.ofNat 512 (fieldN x.becfg.toNat 6 9),
          BitVec.ofNat 6 (fieldN x.becfg.toNat 0 6), BitVec.ofNat 16 (min r.count.toNat 65535), hallOfBlock s b.val, none⟩] else [])) ∧
    (take s.lreps = none → exec (.logReport k) s = .next s) ∧
    (take s.lreps = some (r, rest) →
      ((∀ x ∈ s.log.recs, x.takes r s.ctl.timer = false) →
        (s.log.recs.length < 1024 → ∃ t, exec (.logReport k) s = .next t ∧ t.lreps = rest ∧ t.log = { s.log with
          last := s.log.last + 1
          recs := s.log.recs ++ [new] }) ∧
        (1024 ≤ s.log.recs.length → ∃ t, exec (.logReport k) s = .next t ∧ t.lreps = rest ∧
          t.log.recs = s.log.recs.eraseIdx (discardIx s.log.recs) ++ [new] ∧ t.log.last = s.log.last + 1 ∧
          t.log.lost.toNat = min (2 ^ 64 - 1) (s.log.lost.toNat + 1) ∧ t.ctl.flags.getLsbD 9 = true)) ∧
      (∀ pre x l, s.log.recs = pre ++ x :: l → (∀ y ∈ pre, y.takes r s.ctl.timer = false) → x.takes r s.ctl.timer = true →
        ∃ t, exec (.logReport k) s = .next t ∧ t.lreps = rest ∧ t.log = { s.log with recs := pre ++ { x with
          last := s.ctl.timer
          count := BitVec.ofNat 32 (min (2 ^ 32 - 1) (x.count.toNat + r.count.toNat)) } :: l }) ∧
      (∀ f, classFlag r.cls = some f → r.count ≠ 0 → ∃ t, exec (.logReport k) s = .next t ∧ t.ctl.flags.getLsbD f = true)) ∧
    (let i := ctxIx m j
     let x := s.setter i
     hallOk (x.own.truncate 8) h = true → x.enable = false →
       exec (.registerWrite h (BitVec.ofNat 48 (setterPage i 0x48)) 4 v) s = .next (s.setSetter i { x with step := v.truncate 32 })) ∧
    (ctlAccepts s (placeOf addr.toNat) h = false →
      exec (.registerWrite h addr len v) s = .next (refusedAtUnit s addr.toNat)) ∧
    (ctlAccepts s (placeOf addr.toNat) h = true →
      exec (.registerWrite h addr len v) s = .next (ctlPut s h addr.toNat (leBytes len.val v.toNat)))

/-- 00 R3, 03 R67, log entry 11 (the form of memory is the model's): writing bytes of memory keeps its canonical form, a byte reads as it
was last written, and every other byte is unchanged. -/
def Obligations.MemoryReadsAsWritten : Prop :=
  ∀ (s : State) (a : Nat) (v : Byte) (bs : List Byte), Memory.wf s = true →
    Memory.wf (setMemByte s a v) = true ∧ Memory.wf (memWrite s a bs) = true ∧
      (isMem a = true → memByte (setMemByte s a v) a = v) ∧ (∀ b, b ≠ a → memByte (setMemByte s a v) b = memByte s b) ∧
      ((∀ m < bs.length, isMem (a + m) = true) → memBytes (memWrite s a bs) a bs.length = bs) ∧
      ∀ b, b < a ∨ a + bs.length ≤ b → memByte (memWrite s a bs) b = memByte s b

/-- 02 R37, 08 R195, 14 R341, R360, 15 R368, 16 R372, 17 R411 to R414, 18 R430, R433, 20 R461, 21 R464, R467: what power-on leaves where the
manual gives it. -/
def Obligations.ResetState : Prop :=
  let s := State.reset
  s.pending = [] ∧ s.ctl.st = .boot ∧ s.ctl.stage = 1 ∧ s.ctl.resetCause = 0 ∧ s.ctl.opReq = 1 ∧ s.ctl.wdNow = 2000 ∧ s.ctl.flags = 0 ∧
    (∀ p, (s.part p).st = .free ∧ (s.part p).hall = 0) ∧ (∀ k, (s.cmd k).st = .idle) ∧ (∀ j, (s.sess j).st = .none) ∧
    (∀ b, (s.block b).st = .dormant) ∧ (∀ p, (s.port p).st = .off ∧ (s.port p).partner = 0xFFFFFFFF) ∧
    (∀ k, (s.arb k).quotaNew = 48) ∧ (∀ i, (s.slot i).scur = 0x3F800000 ∧ (s.slot i).snext = 0x3F800000 ∧ (s.slot i).own = 0) ∧
    s.fab.dx = 1 ∧ s.fab.dy = 1 ∧ s.fab.dz = 1 ∧ s.fab.hold = 0 ∧ (∀ c, (s.cell c).held = true) ∧ s.log.recs = [] ∧
    s.log.last = 0 ∧ LogOk s ∧ Memory.wf s = true

/-- 21 R475, R479: whatever the module does, its error log holds at most 1,024 records and none ends before it begins. -/
def Obligations.LogKept : Prop :=
  ∀ s t : State, LogOk s → step s = .next t → LogOk t
end

