-- ==== Sys2Proof/Laws/State.lean ====
section
/-! SUPPORT. What the updates of the state leave alone: one lemma for each update and field, and for each unit read by number. -/

namespace Sys2Proof.Machine

@[simp] theorem State.setCell_pending (s : State) (c : Nat) (x : Cell) : (s.setCell c x).pending = s.pending := rfl
@[simp] theorem State.setCell_ctl (s : State) (c : Nat) (x : Cell) : (s.setCell c x).ctl = s.ctl := rfl
@[simp] theorem State.setCell_blocks (s : State) (c : Nat) (x : Cell) : (s.setCell c x).blocks = s.blocks := rfl
@[simp] theorem State.setCell_engines (s : State) (c : Nat) (x : Cell) : (s.setCell c x).engines = s.engines := rfl
@[simp] theorem State.setCell_qps (s : State) (c : Nat) (x : Cell) : (s.setCell c x).qps = s.qps := rfl
@[simp] theorem State.setCell_mws (s : State) (c : Nat) (x : Cell) : (s.setCell c x).mws = s.mws := rfl
@[simp] theorem State.setCell_regions (s : State) (c : Nat) (x : Cell) : (s.setCell c x).regions = s.regions := rfl
@[simp] theorem State.setCell_slots (s : State) (c : Nat) (x : Cell) : (s.setCell c x).slots = s.slots := rfl
@[simp] theorem State.setCell_setters (s : State) (c : Nat) (x : Cell) : (s.setCell c x).setters = s.setters := rfl
@[simp] theorem State.setCell_adders (s : State) (c : Nat) (x : Cell) : (s.setCell c x).adders = s.adders := rfl
@[simp] theorem State.setCell_aslots (s : State) (c : Nat) (x : Cell) : (s.setCell c x).aslots = s.aslots := rfl
@[simp] theorem State.setCell_ports (s : State) (c : Nat) (x : Cell) : (s.setCell c x).ports = s.ports := rfl
@[simp] theorem State.setCell_fab (s : State) (c : Nat) (x : Cell) : (s.setCell c x).fab = s.fab := rfl
@[simp] theorem State.setCell_arbs (s : State) (c : Nat) (x : Cell) : (s.setCell c x).arbs = s.arbs := rfl
@[simp] theorem State.setCell_parts (s : State) (c : Nat) (x : Cell) : (s.setCell c x).parts = s.parts := rfl
@[simp] theorem State.setCell_sessions (s : State) (c : Nat) (x : Cell) : (s.setCell c x).sessions = s.sessions := rfl
@[simp] theorem State.setCell_cmds (s : State) (c : Nat) (x : Cell) : (s.setCell c x).cmds = s.cmds := rfl
@[simp] theorem State.setCell_eth (s : State) (c : Nat) (x : Cell) : (s.setCell c x).eth = s.eth := rfl
@[simp] theorem State.setCell_log (s : State) (c : Nat) (x : Cell) : (s.setCell c x).log = s.log := rfl
@[simp] theorem State.setCell_sram (s : State) (c : Nat) (x : Cell) : (s.setCell c x).sram = s.sram := rfl
@[simp] theorem State.setCell_lpddr (s : State) (c : Nat) (x : Cell) : (s.setCell c x).lpddr = s.lpddr := rfl
@[simp] theorem State.setCell_poison (s : State) (c : Nat) (x : Cell) : (s.setCell c x).poison = s.poison := rfl
@[simp] theorem State.setCell_sigs (s : State) (c : Nat) (x : Cell) : (s.setCell c x).sigs = s.sigs := rfl
@[simp] theorem State.setCell_rsigs (s : State) (c : Nat) (x : Cell) : (s.setCell c x).rsigs = s.rsigs := rfl
@[simp] theorem State.setCell_bmsgs (s : State) (c : Nat) (x : Cell) : (s.setCell c x).bmsgs = s.bmsgs := rfl
@[simp] theorem State.setCell_hmrefs (s : State) (c : Nat) (x : Cell) : (s.setCell c x).hmrefs = s.hmrefs := rfl
@[simp] theorem State.setCell_tiles (s : State) (c : Nat) (x : Cell) : (s.setCell c x).tiles = s.tiles := rfl
@[simp] theorem State.setCell_readies (s : State) (c : Nat) (x : Cell) : (s.setCell c x).readies = s.readies := rfl
@[simp] theorem State.setCell_gathered (s : State) (c : Nat) (x : Cell) : (s.setCell c x).gathered = s.gathered := rfl
@[simp] theorem State.setCell_vcontribs (s : State) (c : Nat) (x : Cell) : (s.setCell c x).vcontribs = s.vcontribs := rfl
@[simp] theorem State.setCell_inbox (s : State) (c : Nat) (x : Cell) : (s.setCell c x).inbox = s.inbox := rfl
@[simp] theorem State.setCell_bridgeq (s : State) (c : Nat) (x : Cell) : (s.setCell c x).bridgeq = s.bridgeq := rfl
@[simp] theorem State.setCell_wrefused (s : State) (c : Nat) (x : Cell) : (s.setCell c x).wrefused = s.wrefused := rfl
@[simp] theorem State.setCell_wtaken (s : State) (c : Nat) (x : Cell) : (s.setCell c x).wtaken = s.wtaken := rfl
@[simp] theorem State.setCell_breps (s : State) (c : Nat) (x : Cell) : (s.setCell c x).breps = s.breps := rfl
@[simp] theorem State.setCell_lreps (s : State) (c : Nat) (x : Cell) : (s.setCell c x).lreps = s.lreps := rfl
@[simp] theorem State.setCell_ethq (s : State) (c : Nat) (x : Cell) : (s.setCell c x).ethq = s.ethq := rfl
@[simp] theorem State.setCell_out (s : State) (c : Nat) (x : Cell) : (s.setCell c x).out = s.out := rfl
@[simp] theorem State.setCell_draws (s : State) (c : Nat) (x : Cell) : (s.setCell c x).draws = s.draws := rfl
@[simp] theorem State.setCell_block (s : State) (c : Nat) (x : Cell) (n : Nat) : (s.setCell c x).block n = s.block n := rfl
@[simp] theorem State.setCell_engine (s : State) (c : Nat) (x : Cell) (n : Nat) : (s.setCell c x).engine n = s.engine n := rfl
@[simp] theorem State.setCell_qp (s : State) (c : Nat) (x : Cell) (n : Nat) : (s.setCell c x).qp n = s.qp n := rfl
@[simp] theorem State.setCell_mw (s : State) (c : Nat) (x : Cell) (n : Nat) : (s.setCell c x).mw n = s.mw n := rfl
@[simp] theorem State.setCell_slot (s : State) (c : Nat) (x : Cell) (n : Nat) : (s.setCell c x).slot n = s.slot n := rfl
@[simp] theorem State.setCell_setter (s : State) (c : Nat) (x : Cell) (n : Nat) : (s.setCell c x).setter n = s.setter n := rfl
@[simp] theorem State.setCell_adder (s : State) (c : Nat) (x : Cell) (n : Nat) : (s.setCell c x).adder n = s.adder n := rfl
@[simp] theorem State.setCell_aslot (s : State) (c : Nat) (x : Cell) (n : Nat) : (s.setCell c x).aslot n = s.aslot n := rfl
@[simp] theorem State.setCell_region (s : State) (c : Nat) (x : Cell) (n : Nat) : (s.setCell c x).region n = s.region n := rfl
@[simp] theorem State.setCell_port (s : State) (c : Nat) (x : Cell) (n : Nat) : (s.setCell c x).port n = s.port n := rfl
@[simp] theorem State.setCell_part (s : State) (c : Nat) (x : Cell) (n : Nat) : (s.setCell c x).part n = s.part n := rfl
@[simp] theorem State.setCell_sess (s : State) (c : Nat) (x : Cell) (n : Nat) : (s.setCell c x).sess n = s.sess n := rfl
@[simp] theorem State.setCell_cmd (s : State) (c : Nat) (x : Cell) (n : Nat) : (s.setCell c x).cmd n = s.cmd n := rfl
@[simp] theorem State.setCell_arb (s : State) (c : Nat) (x : Cell) (n : Nat) : (s.setCell c x).arb n = s.arb n := rfl

@[simp] theorem State.updCell_pending (s : State) (c : Nat) (f : Cell → Cell) : (s.updCell c f).pending = s.pending := rfl
@[simp] theorem State.updCell_ctl (s : State) (c : Nat) (f : Cell → Cell) : (s.updCell c f).ctl = s.ctl := rfl
@[simp] theorem State.updCell_blocks (s : State) (c : Nat) (f : Cell → Cell) : (s.updCell c f).blocks = s.blocks := rfl
@[simp] theorem State.updCell_engines (s : State) (c : Nat) (f : Cell → Cell) : (s.updCell c f).engines = s.engines := rfl
@[simp] theorem State.updCell_qps (s : State) (c : Nat) (f : Cell → Cell) : (s.updCell c f).qps = s.qps := rfl
@[simp] theorem State.updCell_mws (s : State) (c : Nat) (f : Cell → Cell) : (s.updCell c f).mws = s.mws := rfl
@[simp] theorem State.updCell_regions (s : State) (c : Nat) (f : Cell → Cell) : (s.updCell c f).regions = s.regions := rfl
@[simp] theorem State.updCell_slots (s : State) (c : Nat) (f : Cell → Cell) : (s.updCell c f).slots = s.slots := rfl
@[simp] theorem State.updCell_setters (s : State) (c : Nat) (f : Cell → Cell) : (s.updCell c f).setters = s.setters := rfl
@[simp] theorem State.updCell_adders (s : State) (c : Nat) (f : Cell → Cell) : (s.updCell c f).adders = s.adders := rfl
@[simp] theorem State.updCell_aslots (s : State) (c : Nat) (f : Cell → Cell) : (s.updCell c f).aslots = s.aslots := rfl
@[simp] theorem State.updCell_ports (s : State) (c : Nat) (f : Cell → Cell) : (s.updCell c f).ports = s.ports := rfl
@[simp] theorem State.updCell_fab (s : State) (c : Nat) (f : Cell → Cell) : (s.updCell c f).fab = s.fab := rfl
@[simp] theorem State.updCell_arbs (s : State) (c : Nat) (f : Cell → Cell) : (s.updCell c f).arbs = s.arbs := rfl
@[simp] theorem State.updCell_parts (s : State) (c : Nat) (f : Cell → Cell) : (s.updCell c f).parts = s.parts := rfl
@[simp] theorem State.updCell_sessions (s : State) (c : Nat) (f : Cell → Cell) : (s.updCell c f).sessions = s.sessions := rfl
@[simp] theorem State.updCell_cmds (s : State) (c : Nat) (f : Cell → Cell) : (s.updCell c f).cmds = s.cmds := rfl
@[simp] theorem State.updCell_eth (s : State) (c : Nat) (f : Cell → Cell) : (s.updCell c f).eth = s.eth := rfl
@[simp] theorem State.updCell_log (s : State) (c : Nat) (f : Cell → Cell) : (s.updCell c f).log = s.log := rfl
@[simp] theorem State.updCell_sram (s : State) (c : Nat) (f : Cell → Cell) : (s.updCell c f).sram = s.sram := rfl
@[simp] theorem State.updCell_lpddr (s : State) (c : Nat) (f : Cell → Cell) : (s.updCell c f).lpddr = s.lpddr := rfl
@[simp] theorem State.updCell_poison (s : State) (c : Nat) (f : Cell → Cell) : (s.updCell c f).poison = s.poison := rfl
@[simp] theorem State.updCell_sigs (s : State) (c : Nat) (f : Cell → Cell) : (s.updCell c f).sigs = s.sigs := rfl
@[simp] theorem State.updCell_rsigs (s : State) (c : Nat) (f : Cell → Cell) : (s.updCell c f).rsigs = s.rsigs := rfl
@[simp] theorem State.updCell_bmsgs (s : State) (c : Nat) (f : Cell → Cell) : (s.updCell c f).bmsgs = s.bmsgs := rfl
@[simp] theorem State.updCell_hmrefs (s : State) (c : Nat) (f : Cell → Cell) : (s.updCell c f).hmrefs = s.hmrefs := rfl
@[simp] theorem State.updCell_tiles (s : State) (c : Nat) (f : Cell → Cell) : (s.updCell c f).tiles = s.tiles := rfl
@[simp] theorem State.updCell_readies (s : State) (c : Nat) (f : Cell → Cell) : (s.updCell c f).readies = s.readies := rfl
@[simp] theorem State.updCell_gathered (s : State) (c : Nat) (f : Cell → Cell) : (s.updCell c f).gathered = s.gathered := rfl
@[simp] theorem State.updCell_vcontribs (s : State) (c : Nat) (f : Cell → Cell) : (s.updCell c f).vcontribs = s.vcontribs := rfl
@[simp] theorem State.updCell_inbox (s : State) (c : Nat) (f : Cell → Cell) : (s.updCell c f).inbox = s.inbox := rfl
@[simp] theorem State.updCell_bridgeq (s : State) (c : Nat) (f : Cell → Cell) : (s.updCell c f).bridgeq = s.bridgeq := rfl
@[simp] theorem State.updCell_wrefused (s : State) (c : Nat) (f : Cell → Cell) : (s.updCell c f).wrefused = s.wrefused := rfl
@[simp] theorem State.updCell_wtaken (s : State) (c : Nat) (f : Cell → Cell) : (s.updCell c f).wtaken = s.wtaken := rfl
@[simp] theorem State.updCell_breps (s : State) (c : Nat) (f : Cell → Cell) : (s.updCell c f).breps = s.breps := rfl
@[simp] theorem State.updCell_lreps (s : State) (c : Nat) (f : Cell → Cell) : (s.updCell c f).lreps = s.lreps := rfl
@[simp] theorem State.updCell_ethq (s : State) (c : Nat) (f : Cell → Cell) : (s.updCell c f).ethq = s.ethq := rfl
@[simp] theorem State.updCell_out (s : State) (c : Nat) (f : Cell → Cell) : (s.updCell c f).out = s.out := rfl
@[simp] theorem State.updCell_draws (s : State) (c : Nat) (f : Cell → Cell) : (s.updCell c f).draws = s.draws := rfl
@[simp] theorem State.updCell_block (s : State) (c : Nat) (f : Cell → Cell) (n : Nat) : (s.updCell c f).block n = s.block n := rfl
@[simp] theorem State.updCell_engine (s : State) (c : Nat) (f : Cell → Cell) (n : Nat) : (s.updCell c f).engine n = s.engine n := rfl
@[simp] theorem State.updCell_qp (s : State) (c : Nat) (f : Cell → Cell) (n : Nat) : (s.updCell c f).qp n = s.qp n := rfl
@[simp] theorem State.updCell_mw (s : State) (c : Nat) (f : Cell → Cell) (n : Nat) : (s.updCell c f).mw n = s.mw n := rfl
@[simp] theorem State.updCell_slot (s : State) (c : Nat) (f : Cell → Cell) (n : Nat) : (s.updCell c f).slot n = s.slot n := rfl
@[simp] theorem State.updCell_setter (s : State) (c : Nat) (f : Cell → Cell) (n : Nat) : (s.updCell c f).setter n = s.setter n := rfl
@[simp] theorem State.updCell_adder (s : State) (c : Nat) (f : Cell → Cell) (n : Nat) : (s.updCell c f).adder n = s.adder n := rfl
@[simp] theorem State.updCell_aslot (s : State) (c : Nat) (f : Cell → Cell) (n : Nat) : (s.updCell c f).aslot n = s.aslot n := rfl
@[simp] theorem State.updCell_region (s : State) (c : Nat) (f : Cell → Cell) (n : Nat) : (s.updCell c f).region n = s.region n := rfl
@[simp] theorem State.updCell_port (s : State) (c : Nat) (f : Cell → Cell) (n : Nat) : (s.updCell c f).port n = s.port n := rfl
@[simp] theorem State.updCell_part (s : State) (c : Nat) (f : Cell → Cell) (n : Nat) : (s.updCell c f).part n = s.part n := rfl
@[simp] theorem State.updCell_sess (s : State) (c : Nat) (f : Cell → Cell) (n : Nat) : (s.updCell c f).sess n = s.sess n := rfl
@[simp] theorem State.updCell_cmd (s : State) (c : Nat) (f : Cell → Cell) (n : Nat) : (s.updCell c f).cmd n = s.cmd n := rfl
@[simp] theorem State.updCell_arb (s : State) (c : Nat) (f : Cell → Cell) (n : Nat) : (s.updCell c f).arb n = s.arb n := rfl

@[simp] theorem State.setBlock_pending (s : State) (b : Nat) (x : Block) : (s.setBlock b x).pending = s.pending := rfl
@[simp] theorem State.setBlock_ctl (s : State) (b : Nat) (x : Block) : (s.setBlock b x).ctl = s.ctl := rfl
@[simp] theorem State.setBlock_cells (s : State) (b : Nat) (x : Block) : (s.setBlock b x).cells = s.cells := rfl
@[simp] theorem State.setBlock_engines (s : State) (b : Nat) (x : Block) : (s.setBlock b x).engines = s.engines := rfl
@[simp] theorem State.setBlock_qps (s : State) (b : Nat) (x : Block) : (s.setBlock b x).qps = s.qps := rfl
@[simp] theorem State.setBlock_mws (s : State) (b : Nat) (x : Block) : (s.setBlock b x).mws = s.mws := rfl
@[simp] theorem State.setBlock_regions (s : State) (b : Nat) (x : Block) : (s.setBlock b x).regions = s.regions := rfl
@[simp] theorem State.setBlock_slots (s : State) (b : Nat) (x : Block) : (s.setBlock b x).slots = s.slots := rfl
@[simp] theorem State.setBlock_setters (s : State) (b : Nat) (x : Block) : (s.setBlock b x).setters = s.setters := rfl
@[simp] theorem State.setBlock_adders (s : State) (b : Nat) (x : Block) : (s.setBlock b x).adders = s.adders := rfl
@[simp] theorem State.setBlock_aslots (s : State) (b : Nat) (x : Block) : (s.setBlock b x).aslots = s.aslots := rfl
@[simp] theorem State.setBlock_ports (s : State) (b : Nat) (x : Block) : (s.setBlock b x).ports = s.ports := rfl
@[simp] theorem State.setBlock_fab (s : State) (b : Nat) (x : Block) : (s.setBlock b x).fab = s.fab := rfl
@[simp] theorem State.setBlock_arbs (s : State) (b : Nat) (x : Block) : (s.setBlock b x).arbs = s.arbs := rfl
@[simp] theorem State.setBlock_parts (s : State) (b : Nat) (x : Block) : (s.setBlock b x).parts = s.parts := rfl
@[simp] theorem State.setBlock_sessions (s : State) (b : Nat) (x : Block) : (s.setBlock b x).sessions = s.sessions := rfl
@[simp] theorem State.setBlock_cmds (s : State) (b : Nat) (x : Block) : (s.setBlock b x).cmds = s.cmds := rfl
@[simp] theorem State.setBlock_eth (s : State) (b : Nat) (x : Block) : (s.setBlock b x).eth = s.eth := rfl
@[simp] theorem State.setBlock_log (s : State) (b : Nat) (x : Block) : (s.setBlock b x).log = s.log := rfl
@[simp] theorem State.setBlock_sram (s : State) (b : Nat) (x : Block) : (s.setBlock b x).sram = s.sram := rfl
@[simp] theorem State.setBlock_lpddr (s : State) (b : Nat) (x : Block) : (s.setBlock b x).lpddr = s.lpddr := rfl
@[simp] theorem State.setBlock_poison (s : State) (b : Nat) (x : Block) : (s.setBlock b x).poison = s.poison := rfl
@[simp] theorem State.setBlock_sigs (s : State) (b : Nat) (x : Block) : (s.setBlock b x).sigs = s.sigs := rfl
@[simp] theorem State.setBlock_rsigs (s : State) (b : Nat) (x : Block) : (s.setBlock b x).rsigs = s.rsigs := rfl
@[simp] theorem State.setBlock_bmsgs (s : State) (b : Nat) (x : Block) : (s.setBlock b x).bmsgs = s.bmsgs := rfl
@[simp] theorem State.setBlock_hmrefs (s : State) (b : Nat) (x : Block) : (s.setBlock b x).hmrefs = s.hmrefs := rfl
@[simp] theorem State.setBlock_tiles (s : State) (b : Nat) (x : Block) : (s.setBlock b x).tiles = s.tiles := rfl
@[simp] theorem State.setBlock_readies (s : State) (b : Nat) (x : Block) : (s.setBlock b x).readies = s.readies := rfl
@[simp] theorem State.setBlock_gathered (s : State) (b : Nat) (x : Block) : (s.setBlock b x).gathered = s.gathered := rfl
@[simp] theorem State.setBlock_vcontribs (s : State) (b : Nat) (x : Block) : (s.setBlock b x).vcontribs = s.vcontribs := rfl
@[simp] theorem State.setBlock_inbox (s : State) (b : Nat) (x : Block) : (s.setBlock b x).inbox = s.inbox := rfl
@[simp] theorem State.setBlock_bridgeq (s : State) (b : Nat) (x : Block) : (s.setBlock b x).bridgeq = s.bridgeq := rfl
@[simp] theorem State.setBlock_wrefused (s : State) (b : Nat) (x : Block) : (s.setBlock b x).wrefused = s.wrefused := rfl
@[simp] theorem State.setBlock_wtaken (s : State) (b : Nat) (x : Block) : (s.setBlock b x).wtaken = s.wtaken := rfl
@[simp] theorem State.setBlock_breps (s : State) (b : Nat) (x : Block) : (s.setBlock b x).breps = s.breps := rfl
@[simp] theorem State.setBlock_lreps (s : State) (b : Nat) (x : Block) : (s.setBlock b x).lreps = s.lreps := rfl
@[simp] theorem State.setBlock_ethq (s : State) (b : Nat) (x : Block) : (s.setBlock b x).ethq = s.ethq := rfl
@[simp] theorem State.setBlock_out (s : State) (b : Nat) (x : Block) : (s.setBlock b x).out = s.out := rfl
@[simp] theorem State.setBlock_draws (s : State) (b : Nat) (x : Block) : (s.setBlock b x).draws = s.draws := rfl
@[simp] theorem State.setBlock_cell (s : State) (b : Nat) (x : Block) (n : Nat) : (s.setBlock b x).cell n = s.cell n := rfl
@[simp] theorem State.setBlock_engine (s : State) (b : Nat) (x : Block) (n : Nat) : (s.setBlock b x).engine n = s.engine n := rfl
@[simp] theorem State.setBlock_qp (s : State) (b : Nat) (x : Block) (n : Nat) : (s.setBlock b x).qp n = s.qp n := rfl
@[simp] theorem State.setBlock_mw (s : State) (b : Nat) (x : Block) (n : Nat) : (s.setBlock b x).mw n = s.mw n := rfl
@[simp] theorem State.setBlock_slot (s : State) (b : Nat) (x : Block) (n : Nat) : (s.setBlock b x).slot n = s.slot n := rfl
@[simp] theorem State.setBlock_setter (s : State) (b : Nat) (x : Block) (n : Nat) : (s.setBlock b x).setter n = s.setter n := rfl
@[simp] theorem State.setBlock_adder (s : State) (b : Nat) (x : Block) (n : Nat) : (s.setBlock b x).adder n = s.adder n := rfl
@[simp] theorem State.setBlock_aslot (s : State) (b : Nat) (x : Block) (n : Nat) : (s.setBlock b x).aslot n = s.aslot n := rfl
@[simp] theorem State.setBlock_region (s : State) (b : Nat) (x : Block) (n : Nat) : (s.setBlock b x).region n = s.region n := rfl
@[simp] theorem State.setBlock_port (s : State) (b : Nat) (x : Block) (n : Nat) : (s.setBlock b x).port n = s.port n := rfl
@[simp] theorem State.setBlock_part (s : State) (b : Nat) (x : Block) (n : Nat) : (s.setBlock b x).part n = s.part n := rfl
@[simp] theorem State.setBlock_sess (s : State) (b : Nat) (x : Block) (n : Nat) : (s.setBlock b x).sess n = s.sess n := rfl
@[simp] theorem State.setBlock_cmd (s : State) (b : Nat) (x : Block) (n : Nat) : (s.setBlock b x).cmd n = s.cmd n := rfl
@[simp] theorem State.setBlock_arb (s : State) (b : Nat) (x : Block) (n : Nat) : (s.setBlock b x).arb n = s.arb n := rfl

@[simp] theorem State.updBlock_pending (s : State) (b : Nat) (f : Block → Block) : (s.updBlock b f).pending = s.pending := rfl
@[simp] theorem State.updBlock_ctl (s : State) (b : Nat) (f : Block → Block) : (s.updBlock b f).ctl = s.ctl := rfl
@[simp] theorem State.updBlock_cells (s : State) (b : Nat) (f : Block → Block) : (s.updBlock b f).cells = s.cells := rfl
@[simp] theorem State.updBlock_engines (s : State) (b : Nat) (f : Block → Block) : (s.updBlock b f).engines = s.engines := rfl
@[simp] theorem State.updBlock_qps (s : State) (b : Nat) (f : Block → Block) : (s.updBlock b f).qps = s.qps := rfl
@[simp] theorem State.updBlock_mws (s : State) (b : Nat) (f : Block → Block) : (s.updBlock b f).mws = s.mws := rfl
@[simp] theorem State.updBlock_regions (s : State) (b : Nat) (f : Block → Block) : (s.updBlock b f).regions = s.regions := rfl
@[simp] theorem State.updBlock_slots (s : State) (b : Nat) (f : Block → Block) : (s.updBlock b f).slots = s.slots := rfl
@[simp] theorem State.updBlock_setters (s : State) (b : Nat) (f : Block → Block) : (s.updBlock b f).setters = s.setters := rfl
@[simp] theorem State.updBlock_adders (s : State) (b : Nat) (f : Block → Block) : (s.updBlock b f).adders = s.adders := rfl
@[simp] theorem State.updBlock_aslots (s : State) (b : Nat) (f : Block → Block) : (s.updBlock b f).aslots = s.aslots := rfl
@[simp] theorem State.updBlock_ports (s : State) (b : Nat) (f : Block → Block) : (s.updBlock b f).ports = s.ports := rfl
@[simp] theorem State.updBlock_fab (s : State) (b : Nat) (f : Block → Block) : (s.updBlock b f).fab = s.fab := rfl
@[simp] theorem State.updBlock_arbs (s : State) (b : Nat) (f : Block → Block) : (s.updBlock b f).arbs = s.arbs := rfl
@[simp] theorem State.updBlock_parts (s : State) (b : Nat) (f : Block → Block) : (s.updBlock b f).parts = s.parts := rfl
@[simp] theorem State.updBlock_sessions (s : State) (b : Nat) (f : Block → Block) : (s.updBlock b f).sessions = s.sessions := rfl
@[simp] theorem State.updBlock_cmds (s : State) (b : Nat) (f : Block → Block) : (s.updBlock b f).cmds = s.cmds := rfl
@[simp] theorem State.updBlock_eth (s : State) (b : Nat) (f : Block → Block) : (s.updBlock b f).eth = s.eth := rfl
@[simp] theorem State.updBlock_log (s : State) (b : Nat) (f : Block → Block) : (s.updBlock b f).log = s.log := rfl
@[simp] theorem State.updBlock_sram (s : State) (b : Nat) (f : Block → Block) : (s.updBlock b f).sram = s.sram := rfl
@[simp] theorem State.updBlock_lpddr (s : State) (b : Nat) (f : Block → Block) : (s.updBlock b f).lpddr = s.lpddr := rfl
@[simp] theorem State.updBlock_poison (s : State) (b : Nat) (f : Block → Block) : (s.updBlock b f).poison = s.poison := rfl
@[simp] theorem State.updBlock_sigs (s : State) (b : Nat) (f : Block → Block) : (s.updBlock b f).sigs = s.sigs := rfl
@[simp] theorem State.updBlock_rsigs (s : State) (b : Nat) (f : Block → Block) : (s.updBlock b f).rsigs = s.rsigs := rfl
@[simp] theorem State.updBlock_bmsgs (s : State) (b : Nat) (f : Block → Block) : (s.updBlock b f).bmsgs = s.bmsgs := rfl
@[simp] theorem State.updBlock_hmrefs (s : State) (b : Nat) (f : Block → Block) : (s.updBlock b f).hmrefs = s.hmrefs := rfl
@[simp] theorem State.updBlock_tiles (s : State) (b : Nat) (f : Block → Block) : (s.updBlock b f).tiles = s.tiles := rfl
@[simp] theorem State.updBlock_readies (s : State) (b : Nat) (f : Block → Block) : (s.updBlock b f).readies = s.readies := rfl
@[simp] theorem State.updBlock_gathered (s : State) (b : Nat) (f : Block → Block) : (s.updBlock b f).gathered = s.gathered := rfl
@[simp] theorem State.updBlock_vcontribs (s : State) (b : Nat) (f : Block → Block) : (s.updBlock b f).vcontribs = s.vcontribs := rfl
@[simp] theorem State.updBlock_inbox (s : State) (b : Nat) (f : Block → Block) : (s.updBlock b f).inbox = s.inbox := rfl
@[simp] theorem State.updBlock_bridgeq (s : State) (b : Nat) (f : Block → Block) : (s.updBlock b f).bridgeq = s.bridgeq := rfl
@[simp] theorem State.updBlock_wrefused (s : State) (b : Nat) (f : Block → Block) : (s.updBlock b f).wrefused = s.wrefused := rfl
@[simp] theorem State.updBlock_wtaken (s : State) (b : Nat) (f : Block → Block) : (s.updBlock b f).wtaken = s.wtaken := rfl
@[simp] theorem State.updBlock_breps (s : State) (b : Nat) (f : Block → Block) : (s.updBlock b f).breps = s.breps := rfl
@[simp] theorem State.updBlock_lreps (s : State) (b : Nat) (f : Block → Block) : (s.updBlock b f).lreps = s.lreps := rfl
@[simp] theorem State.updBlock_ethq (s : State) (b : Nat) (f : Block → Block) : (s.updBlock b f).ethq = s.ethq := rfl
@[simp] theorem State.updBlock_out (s : State) (b : Nat) (f : Block → Block) : (s.updBlock b f).out = s.out := rfl
@[simp] theorem State.updBlock_draws (s : State) (b : Nat) (f : Block → Block) : (s.updBlock b f).draws = s.draws := rfl
@[simp] theorem State.updBlock_cell (s : State) (b : Nat) (f : Block → Block) (n : Nat) : (s.updBlock b f).cell n = s.cell n := rfl
@[simp] theorem State.updBlock_engine (s : State) (b : Nat) (f : Block → Block) (n : Nat) : (s.updBlock b f).engine n = s.engine n := rfl
@[simp] theorem State.updBlock_qp (s : State) (b : Nat) (f : Block → Block) (n : Nat) : (s.updBlock b f).qp n = s.qp n := rfl
@[simp] theorem State.updBlock_mw (s : State) (b : Nat) (f : Block → Block) (n : Nat) : (s.updBlock b f).mw n = s.mw n := rfl
@[simp] theorem State.updBlock_slot (s : State) (b : Nat) (f : Block → Block) (n : Nat) : (s.updBlock b f).slot n = s.slot n := rfl
@[simp] theorem State.updBlock_setter (s : State) (b : Nat) (f : Block → Block) (n : Nat) : (s.updBlock b f).setter n = s.setter n := rfl
@[simp] theorem State.updBlock_adder (s : State) (b : Nat) (f : Block → Block) (n : Nat) : (s.updBlock b f).adder n = s.adder n := rfl
@[simp] theorem State.updBlock_aslot (s : State) (b : Nat) (f : Block → Block) (n : Nat) : (s.updBlock b f).aslot n = s.aslot n := rfl
@[simp] theorem State.updBlock_region (s : State) (b : Nat) (f : Block → Block) (n : Nat) : (s.updBlock b f).region n = s.region n := rfl
@[simp] theorem State.updBlock_port (s : State) (b : Nat) (f : Block → Block) (n : Nat) : (s.updBlock b f).port n = s.port n := rfl
@[simp] theorem State.updBlock_part (s : State) (b : Nat) (f : Block → Block) (n : Nat) : (s.updBlock b f).part n = s.part n := rfl
@[simp] theorem State.updBlock_sess (s : State) (b : Nat) (f : Block → Block) (n : Nat) : (s.updBlock b f).sess n = s.sess n := rfl
@[simp] theorem State.updBlock_cmd (s : State) (b : Nat) (f : Block → Block) (n : Nat) : (s.updBlock b f).cmd n = s.cmd n := rfl
@[simp] theorem State.updBlock_arb (s : State) (b : Nat) (f : Block → Block) (n : Nat) : (s.updBlock b f).arb n = s.arb n := rfl

@[simp] theorem State.setEngine_pending (s : State) (i : Nat) (x : Engine) : (s.setEngine i x).pending = s.pending := rfl
@[simp] theorem State.setEngine_ctl (s : State) (i : Nat) (x : Engine) : (s.setEngine i x).ctl = s.ctl := rfl
@[simp] theorem State.setEngine_cells (s : State) (i : Nat) (x : Engine) : (s.setEngine i x).cells = s.cells := rfl
@[simp] theorem State.setEngine_blocks (s : State) (i : Nat) (x : Engine) : (s.setEngine i x).blocks = s.blocks := rfl
@[simp] theorem State.setEngine_qps (s : State) (i : Nat) (x : Engine) : (s.setEngine i x).qps = s.qps := rfl
@[simp] theorem State.setEngine_mws (s : State) (i : Nat) (x : Engine) : (s.setEngine i x).mws = s.mws := rfl
@[simp] theorem State.setEngine_regions (s : State) (i : Nat) (x : Engine) : (s.setEngine i x).regions = s.regions := rfl
@[simp] theorem State.setEngine_slots (s : State) (i : Nat) (x : Engine) : (s.setEngine i x).slots = s.slots := rfl
@[simp] theorem State.setEngine_setters (s : State) (i : Nat) (x : Engine) : (s.setEngine i x).setters = s.setters := rfl
@[simp] theorem State.setEngine_adders (s : State) (i : Nat) (x : Engine) : (s.setEngine i x).adders = s.adders := rfl
@[simp] theorem State.setEngine_aslots (s : State) (i : Nat) (x : Engine) : (s.setEngine i x).aslots = s.aslots := rfl
@[simp] theorem State.setEngine_ports (s : State) (i : Nat) (x : Engine) : (s.setEngine i x).ports = s.ports := rfl
@[simp] theorem State.setEngine_fab (s : State) (i : Nat) (x : Engine) : (s.setEngine i x).fab = s.fab := rfl
@[simp] theorem State.setEngine_arbs (s : State) (i : Nat) (x : Engine) : (s.setEngine i x).arbs = s.arbs := rfl
@[simp] theorem State.setEngine_parts (s : State) (i : Nat) (x : Engine) : (s.setEngine i x).parts = s.parts := rfl
@[simp] theorem State.setEngine_sessions (s : State) (i : Nat) (x : Engine) : (s.setEngine i x).sessions = s.sessions := rfl
@[simp] theorem State.setEngine_cmds (s : State) (i : Nat) (x : Engine) : (s.setEngine i x).cmds = s.cmds := rfl
@[simp] theorem State.setEngine_eth (s : State) (i : Nat) (x : Engine) : (s.setEngine i x).eth = s.eth := rfl
@[simp] theorem State.setEngine_log (s : State) (i : Nat) (x : Engine) : (s.setEngine i x).log = s.log := rfl
@[simp] theorem State.setEngine_sram (s : State) (i : Nat) (x : Engine) : (s.setEngine i x).sram = s.sram := rfl
@[simp] theorem State.setEngine_lpddr (s : State) (i : Nat) (x : Engine) : (s.setEngine i x).lpddr = s.lpddr := rfl
@[simp] theorem State.setEngine_poison (s : State) (i : Nat) (x : Engine) : (s.setEngine i x).poison = s.poison := rfl
@[simp] theorem State.setEngine_sigs (s : State) (i : Nat) (x : Engine) : (s.setEngine i x).sigs = s.sigs := rfl
@[simp] theorem State.setEngine_rsigs (s : State) (i : Nat) (x : Engine) : (s.setEngine i x).rsigs = s.rsigs := rfl
@[simp] theorem State.setEngine_bmsgs (s : State) (i : Nat) (x : Engine) : (s.setEngine i x).bmsgs = s.bmsgs := rfl
@[simp] theorem State.setEngine_hmrefs (s : State) (i : Nat) (x : Engine) : (s.setEngine i x).hmrefs = s.hmrefs := rfl
@[simp] theorem State.setEngine_tiles (s : State) (i : Nat) (x : Engine) : (s.setEngine i x).tiles = s.tiles := rfl
@[simp] theorem State.setEngine_readies (s : State) (i : Nat) (x : Engine) : (s.setEngine i x).readies = s.readies := rfl
@[simp] theorem State.setEngine_gathered (s : State) (i : Nat) (x : Engine) : (s.setEngine i x).gathered = s.gathered := rfl
@[simp] theorem State.setEngine_vcontribs (s : State) (i : Nat) (x : Engine) : (s.setEngine i x).vcontribs = s.vcontribs := rfl
@[simp] theorem State.setEngine_inbox (s : State) (i : Nat) (x : Engine) : (s.setEngine i x).inbox = s.inbox := rfl
@[simp] theorem State.setEngine_bridgeq (s : State) (i : Nat) (x : Engine) : (s.setEngine i x).bridgeq = s.bridgeq := rfl
@[simp] theorem State.setEngine_wrefused (s : State) (i : Nat) (x : Engine) : (s.setEngine i x).wrefused = s.wrefused := rfl
@[simp] theorem State.setEngine_wtaken (s : State) (i : Nat) (x : Engine) : (s.setEngine i x).wtaken = s.wtaken := rfl
@[simp] theorem State.setEngine_breps (s : State) (i : Nat) (x : Engine) : (s.setEngine i x).breps = s.breps := rfl
@[simp] theorem State.setEngine_lreps (s : State) (i : Nat) (x : Engine) : (s.setEngine i x).lreps = s.lreps := rfl
@[simp] theorem State.setEngine_ethq (s : State) (i : Nat) (x : Engine) : (s.setEngine i x).ethq = s.ethq := rfl
@[simp] theorem State.setEngine_out (s : State) (i : Nat) (x : Engine) : (s.setEngine i x).out = s.out := rfl
@[simp] theorem State.setEngine_draws (s : State) (i : Nat) (x : Engine) : (s.setEngine i x).draws = s.draws := rfl
@[simp] theorem State.setEngine_cell (s : State) (i : Nat) (x : Engine) (n : Nat) : (s.setEngine i x).cell n = s.cell n := rfl
@[simp] theorem State.setEngine_block (s : State) (i : Nat) (x : Engine) (n : Nat) : (s.setEngine i x).block n = s.block n := rfl
@[simp] theorem State.setEngine_qp (s : State) (i : Nat) (x : Engine) (n : Nat) : (s.setEngine i x).qp n = s.qp n := rfl
@[simp] theorem State.setEngine_mw (s : State) (i : Nat) (x : Engine) (n : Nat) : (s.setEngine i x).mw n = s.mw n := rfl
@[simp] theorem State.setEngine_slot (s : State) (i : Nat) (x : Engine) (n : Nat) : (s.setEngine i x).slot n = s.slot n := rfl
@[simp] theorem State.setEngine_setter (s : State) (i : Nat) (x : Engine) (n : Nat) : (s.setEngine i x).setter n = s.setter n := rfl
@[simp] theorem State.setEngine_adder (s : State) (i : Nat) (x : Engine) (n : Nat) : (s.setEngine i x).adder n = s.adder n := rfl
@[simp] theorem State.setEngine_aslot (s : State) (i : Nat) (x : Engine) (n : Nat) : (s.setEngine i x).aslot n = s.aslot n := rfl
@[simp] theorem State.setEngine_region (s : State) (i : Nat) (x : Engine) (n : Nat) : (s.setEngine i x).region n = s.region n := rfl
@[simp] theorem State.setEngine_port (s : State) (i : Nat) (x : Engine) (n : Nat) : (s.setEngine i x).port n = s.port n := rfl
@[simp] theorem State.setEngine_part (s : State) (i : Nat) (x : Engine) (n : Nat) : (s.setEngine i x).part n = s.part n := rfl
@[simp] theorem State.setEngine_sess (s : State) (i : Nat) (x : Engine) (n : Nat) : (s.setEngine i x).sess n = s.sess n := rfl
@[simp] theorem State.setEngine_cmd (s : State) (i : Nat) (x : Engine) (n : Nat) : (s.setEngine i x).cmd n = s.cmd n := rfl
@[simp] theorem State.setEngine_arb (s : State) (i : Nat) (x : Engine) (n : Nat) : (s.setEngine i x).arb n = s.arb n := rfl

@[simp] theorem State.setQp_pending (s : State) (i : Nat) (x : Qp) : (s.setQp i x).pending = s.pending := rfl
@[simp] theorem State.setQp_ctl (s : State) (i : Nat) (x : Qp) : (s.setQp i x).ctl = s.ctl := rfl
@[simp] theorem State.setQp_cells (s : State) (i : Nat) (x : Qp) : (s.setQp i x).cells = s.cells := rfl
@[simp] theorem State.setQp_blocks (s : State) (i : Nat) (x : Qp) : (s.setQp i x).blocks = s.blocks := rfl
@[simp] theorem State.setQp_engines (s : State) (i : Nat) (x : Qp) : (s.setQp i x).engines = s.engines := rfl
@[simp] theorem State.setQp_mws (s : State) (i : Nat) (x : Qp) : (s.setQp i x).mws = s.mws := rfl
@[simp] theorem State.setQp_regions (s : State) (i : Nat) (x : Qp) : (s.setQp i x).regions = s.regions := rfl
@[simp] theorem State.setQp_slots (s : State) (i : Nat) (x : Qp) : (s.setQp i x).slots = s.slots := rfl
@[simp] theorem State.setQp_setters (s : State) (i : Nat) (x : Qp) : (s.setQp i x).setters = s.setters := rfl
@[simp] theorem State.setQp_adders (s : State) (i : Nat) (x : Qp) : (s.setQp i x).adders = s.adders := rfl
@[simp] theorem State.setQp_aslots (s : State) (i : Nat) (x : Qp) : (s.setQp i x).aslots = s.aslots := rfl
@[simp] theorem State.setQp_ports (s : State) (i : Nat) (x : Qp) : (s.setQp i x).ports = s.ports := rfl
@[simp] theorem State.setQp_fab (s : State) (i : Nat) (x : Qp) : (s.setQp i x).fab = s.fab := rfl
@[simp] theorem State.setQp_arbs (s : State) (i : Nat) (x : Qp) : (s.setQp i x).arbs = s.arbs := rfl
@[simp] theorem State.setQp_parts (s : State) (i : Nat) (x : Qp) : (s.setQp i x).parts = s.parts := rfl
@[simp] theorem State.setQp_sessions (s : State) (i : Nat) (x : Qp) : (s.setQp i x).sessions = s.sessions := rfl
@[simp] theorem State.setQp_cmds (s : State) (i : Nat) (x : Qp) : (s.setQp i x).cmds = s.cmds := rfl
@[simp] theorem State.setQp_eth (s : State) (i : Nat) (x : Qp) : (s.setQp i x).eth = s.eth := rfl
@[simp] theorem State.setQp_log (s : State) (i : Nat) (x : Qp) : (s.setQp i x).log = s.log := rfl
@[simp] theorem State.setQp_sram (s : State) (i : Nat) (x : Qp) : (s.setQp i x).sram = s.sram := rfl
@[simp] theorem State.setQp_lpddr (s : State) (i : Nat) (x : Qp) : (s.setQp i x).lpddr = s.lpddr := rfl
@[simp] theorem State.setQp_poison (s : State) (i : Nat) (x : Qp) : (s.setQp i x).poison = s.poison := rfl
@[simp] theorem State.setQp_sigs (s : State) (i : Nat) (x : Qp) : (s.setQp i x).sigs = s.sigs := rfl
@[simp] theorem State.setQp_rsigs (s : State) (i : Nat) (x : Qp) : (s.setQp i x).rsigs = s.rsigs := rfl
@[simp] theorem State.setQp_bmsgs (s : State) (i : Nat) (x : Qp) : (s.setQp i x).bmsgs = s.bmsgs := rfl
@[simp] theorem State.setQp_hmrefs (s : State) (i : Nat) (x : Qp) : (s.setQp i x).hmrefs = s.hmrefs := rfl
@[simp] theorem State.setQp_tiles (s : State) (i : Nat) (x : Qp) : (s.setQp i x).tiles = s.tiles := rfl
@[simp] theorem State.setQp_readies (s : State) (i : Nat) (x : Qp) : (s.setQp i x).readies = s.readies := rfl
@[simp] theorem State.setQp_gathered (s : State) (i : Nat) (x : Qp) : (s.setQp i x).gathered = s.gathered := rfl
@[simp] theorem State.setQp_vcontribs (s : State) (i : Nat) (x : Qp) : (s.setQp i x).vcontribs = s.vcontribs := rfl
@[simp] theorem State.setQp_inbox (s : State) (i : Nat) (x : Qp) : (s.setQp i x).inbox = s.inbox := rfl
@[simp] theorem State.setQp_bridgeq (s : State) (i : Nat) (x : Qp) : (s.setQp i x).bridgeq = s.bridgeq := rfl
@[simp] theorem State.setQp_wrefused (s : State) (i : Nat) (x : Qp) : (s.setQp i x).wrefused = s.wrefused := rfl
@[simp] theorem State.setQp_wtaken (s : State) (i : Nat) (x : Qp) : (s.setQp i x).wtaken = s.wtaken := rfl
@[simp] theorem State.setQp_breps (s : State) (i : Nat) (x : Qp) : (s.setQp i x).breps = s.breps := rfl
@[simp] theorem State.setQp_lreps (s : State) (i : Nat) (x : Qp) : (s.setQp i x).lreps = s.lreps := rfl
@[simp] theorem State.setQp_ethq (s : State) (i : Nat) (x : Qp) : (s.setQp i x).ethq = s.ethq := rfl
@[simp] theorem State.setQp_out (s : State) (i : Nat) (x : Qp) : (s.setQp i x).out = s.out := rfl
@[simp] theorem State.setQp_draws (s : State) (i : Nat) (x : Qp) : (s.setQp i x).draws = s.draws := rfl
@[simp] theorem State.setQp_cell (s : State) (i : Nat) (x : Qp) (n : Nat) : (s.setQp i x).cell n = s.cell n := rfl
@[simp] theorem State.setQp_block (s : State) (i : Nat) (x : Qp) (n : Nat) : (s.setQp i x).block n = s.block n := rfl
@[simp] theorem State.setQp_engine (s : State) (i : Nat) (x : Qp) (n : Nat) : (s.setQp i x).engine n = s.engine n := rfl
@[simp] theorem State.setQp_mw (s : State) (i : Nat) (x : Qp) (n : Nat) : (s.setQp i x).mw n = s.mw n := rfl
@[simp] theorem State.setQp_slot (s : State) (i : Nat) (x : Qp) (n : Nat) : (s.setQp i x).slot n = s.slot n := rfl
@[simp] theorem State.setQp_setter (s : State) (i : Nat) (x : Qp) (n : Nat) : (s.setQp i x).setter n = s.setter n := rfl
@[simp] theorem State.setQp_adder (s : State) (i : Nat) (x : Qp) (n : Nat) : (s.setQp i x).adder n = s.adder n := rfl
@[simp] theorem State.setQp_aslot (s : State) (i : Nat) (x : Qp) (n : Nat) : (s.setQp i x).aslot n = s.aslot n := rfl
@[simp] theorem State.setQp_region (s : State) (i : Nat) (x : Qp) (n : Nat) : (s.setQp i x).region n = s.region n := rfl
@[simp] theorem State.setQp_port (s : State) (i : Nat) (x : Qp) (n : Nat) : (s.setQp i x).port n = s.port n := rfl
@[simp] theorem State.setQp_part (s : State) (i : Nat) (x : Qp) (n : Nat) : (s.setQp i x).part n = s.part n := rfl
@[simp] theorem State.setQp_sess (s : State) (i : Nat) (x : Qp) (n : Nat) : (s.setQp i x).sess n = s.sess n := rfl
@[simp] theorem State.setQp_cmd (s : State) (i : Nat) (x : Qp) (n : Nat) : (s.setQp i x).cmd n = s.cmd n := rfl
@[simp] theorem State.setQp_arb (s : State) (i : Nat) (x : Qp) (n : Nat) : (s.setQp i x).arb n = s.arb n := rfl

@[simp] theorem State.setMw_pending (s : State) (i : Nat) (x : Mw) : (s.setMw i x).pending = s.pending := rfl
@[simp] theorem State.setMw_ctl (s : State) (i : Nat) (x : Mw) : (s.setMw i x).ctl = s.ctl := rfl
@[simp] theorem State.setMw_cells (s : State) (i : Nat) (x : Mw) : (s.setMw i x).cells = s.cells := rfl
@[simp] theorem State.setMw_blocks (s : State) (i : Nat) (x : Mw) : (s.setMw i x).blocks = s.blocks := rfl
@[simp] theorem State.setMw_engines (s : State) (i : Nat) (x : Mw) : (s.setMw i x).engines = s.engines := rfl
@[simp] theorem State.setMw_qps (s : State) (i : Nat) (x : Mw) : (s.setMw i x).qps = s.qps := rfl
@[simp] theorem State.setMw_regions (s : State) (i : Nat) (x : Mw) : (s.setMw i x).regions = s.regions := rfl
@[simp] theorem State.setMw_slots (s : State) (i : Nat) (x : Mw) : (s.setMw i x).slots = s.slots := rfl
@[simp] theorem State.setMw_setters (s : State) (i : Nat) (x : Mw) : (s.setMw i x).setters = s.setters := rfl
@[simp] theorem State.setMw_adders (s : State) (i : Nat) (x : Mw) : (s.setMw i x).adders = s.adders := rfl
@[simp] theorem State.setMw_aslots (s : State) (i : Nat) (x : Mw) : (s.setMw i x).aslots = s.aslots := rfl
@[simp] theorem State.setMw_ports (s : State) (i : Nat) (x : Mw) : (s.setMw i x).ports = s.ports := rfl
@[simp] theorem State.setMw_fab (s : State) (i : Nat) (x : Mw) : (s.setMw i x).fab = s.fab := rfl
@[simp] theorem State.setMw_arbs (s : State) (i : Nat) (x : Mw) : (s.setMw i x).arbs = s.arbs := rfl
@[simp] theorem State.setMw_parts (s : State) (i : Nat) (x : Mw) : (s.setMw i x).parts = s.parts := rfl
@[simp] theorem State.setMw_sessions (s : State) (i : Nat) (x : Mw) : (s.setMw i x).sessions = s.sessions := rfl
@[simp] theorem State.setMw_cmds (s : State) (i : Nat) (x : Mw) : (s.setMw i x).cmds = s.cmds := rfl
@[simp] theorem State.setMw_eth (s : State) (i : Nat) (x : Mw) : (s.setMw i x).eth = s.eth := rfl
@[simp] theorem State.setMw_log (s : State) (i : Nat) (x : Mw) : (s.setMw i x).log = s.log := rfl
@[simp] theorem State.setMw_sram (s : State) (i : Nat) (x : Mw) : (s.setMw i x).sram = s.sram := rfl
@[simp] theorem State.setMw_lpddr (s : State) (i : Nat) (x : Mw) : (s.setMw i x).lpddr = s.lpddr := rfl
@[simp] theorem State.setMw_poison (s : State) (i : Nat) (x : Mw) : (s.setMw i x).poison = s.poison := rfl
@[simp] theorem State.setMw_sigs (s : State) (i : Nat) (x : Mw) : (s.setMw i x).sigs = s.sigs := rfl
@[simp] theorem State.setMw_rsigs (s : State) (i : Nat) (x : Mw) : (s.setMw i x).rsigs = s.rsigs := rfl
@[simp] theorem State.setMw_bmsgs (s : State) (i : Nat) (x : Mw) : (s.setMw i x).bmsgs = s.bmsgs := rfl
@[simp] theorem State.setMw_hmrefs (s : State) (i : Nat) (x : Mw) : (s.setMw i x).hmrefs = s.hmrefs := rfl
@[simp] theorem State.setMw_tiles (s : State) (i : Nat) (x : Mw) : (s.setMw i x).tiles = s.tiles := rfl
@[simp] theorem State.setMw_readies (s : State) (i : Nat) (x : Mw) : (s.setMw i x).readies = s.readies := rfl
@[simp] theorem State.setMw_gathered (s : State) (i : Nat) (x : Mw) : (s.setMw i x).gathered = s.gathered := rfl
@[simp] theorem State.setMw_vcontribs (s : State) (i : Nat) (x : Mw) : (s.setMw i x).vcontribs = s.vcontribs := rfl
@[simp] theorem State.setMw_inbox (s : State) (i : Nat) (x : Mw) : (s.setMw i x).inbox = s.inbox := rfl
@[simp] theorem State.setMw_bridgeq (s : State) (i : Nat) (x : Mw) : (s.setMw i x).bridgeq = s.bridgeq := rfl
@[simp] theorem State.setMw_wrefused (s : State) (i : Nat) (x : Mw) : (s.setMw i x).wrefused = s.wrefused := rfl
@[simp] theorem State.setMw_wtaken (s : State) (i : Nat) (x : Mw) : (s.setMw i x).wtaken = s.wtaken := rfl
@[simp] theorem State.setMw_breps (s : State) (i : Nat) (x : Mw) : (s.setMw i x).breps = s.breps := rfl
@[simp] theorem State.setMw_lreps (s : State) (i : Nat) (x : Mw) : (s.setMw i x).lreps = s.lreps := rfl
@[simp] theorem State.setMw_ethq (s : State) (i : Nat) (x : Mw) : (s.setMw i x).ethq = s.ethq := rfl
@[simp] theorem State.setMw_out (s : State) (i : Nat) (x : Mw) : (s.setMw i x).out = s.out := rfl
@[simp] theorem State.setMw_draws (s : State) (i : Nat) (x : Mw) : (s.setMw i x).draws = s.draws := rfl
@[simp] theorem State.setMw_cell (s : State) (i : Nat) (x : Mw) (n : Nat) : (s.setMw i x).cell n = s.cell n := rfl
@[simp] theorem State.setMw_block (s : State) (i : Nat) (x : Mw) (n : Nat) : (s.setMw i x).block n = s.block n := rfl
@[simp] theorem State.setMw_engine (s : State) (i : Nat) (x : Mw) (n : Nat) : (s.setMw i x).engine n = s.engine n := rfl
@[simp] theorem State.setMw_qp (s : State) (i : Nat) (x : Mw) (n : Nat) : (s.setMw i x).qp n = s.qp n := rfl
@[simp] theorem State.setMw_slot (s : State) (i : Nat) (x : Mw) (n : Nat) : (s.setMw i x).slot n = s.slot n := rfl
@[simp] theorem State.setMw_setter (s : State) (i : Nat) (x : Mw) (n : Nat) : (s.setMw i x).setter n = s.setter n := rfl
@[simp] theorem State.setMw_adder (s : State) (i : Nat) (x : Mw) (n : Nat) : (s.setMw i x).adder n = s.adder n := rfl
@[simp] theorem State.setMw_aslot (s : State) (i : Nat) (x : Mw) (n : Nat) : (s.setMw i x).aslot n = s.aslot n := rfl
@[simp] theorem State.setMw_region (s : State) (i : Nat) (x : Mw) (n : Nat) : (s.setMw i x).region n = s.region n := rfl
@[simp] theorem State.setMw_port (s : State) (i : Nat) (x : Mw) (n : Nat) : (s.setMw i x).port n = s.port n := rfl
@[simp] theorem State.setMw_part (s : State) (i : Nat) (x : Mw) (n : Nat) : (s.setMw i x).part n = s.part n := rfl
@[simp] theorem State.setMw_sess (s : State) (i : Nat) (x : Mw) (n : Nat) : (s.setMw i x).sess n = s.sess n := rfl
@[simp] theorem State.setMw_cmd (s : State) (i : Nat) (x : Mw) (n : Nat) : (s.setMw i x).cmd n = s.cmd n := rfl
@[simp] theorem State.setMw_arb (s : State) (i : Nat) (x : Mw) (n : Nat) : (s.setMw i x).arb n = s.arb n := rfl

@[simp] theorem State.setSlot_pending (s : State) (i : Nat) (x : Slot) : (s.setSlot i x).pending = s.pending := rfl
@[simp] theorem State.setSlot_ctl (s : State) (i : Nat) (x : Slot) : (s.setSlot i x).ctl = s.ctl := rfl
@[simp] theorem State.setSlot_cells (s : State) (i : Nat) (x : Slot) : (s.setSlot i x).cells = s.cells := rfl
@[simp] theorem State.setSlot_blocks (s : State) (i : Nat) (x : Slot) : (s.setSlot i x).blocks = s.blocks := rfl
@[simp] theorem State.setSlot_engines (s : State) (i : Nat) (x : Slot) : (s.setSlot i x).engines = s.engines := rfl
@[simp] theorem State.setSlot_qps (s : State) (i : Nat) (x : Slot) : (s.setSlot i x).qps = s.qps := rfl
@[simp] theorem State.setSlot_mws (s : State) (i : Nat) (x : Slot) : (s.setSlot i x).mws = s.mws := rfl
@[simp] theorem State.setSlot_regions (s : State) (i : Nat) (x : Slot) : (s.setSlot i x).regions = s.regions := rfl
@[simp] theorem State.setSlot_setters (s : State) (i : Nat) (x : Slot) : (s.setSlot i x).setters = s.setters := rfl
@[simp] theorem State.setSlot_adders (s : State) (i : Nat) (x : Slot) : (s.setSlot i x).adders = s.adders := rfl
@[simp] theorem State.setSlot_aslots (s : State) (i : Nat) (x : Slot) : (s.setSlot i x).aslots = s.aslots := rfl
@[simp] theorem State.setSlot_ports (s : State) (i : Nat) (x : Slot) : (s.setSlot i x).ports = s.ports := rfl
@[simp] theorem State.setSlot_fab (s : State) (i : Nat) (x : Slot) : (s.setSlot i x).fab = s.fab := rfl
@[simp] theorem State.setSlot_arbs (s : State) (i : Nat) (x : Slot) : (s.setSlot i x).arbs = s.arbs := rfl
@[simp] theorem State.setSlot_parts (s : State) (i : Nat) (x : Slot) : (s.setSlot i x).parts = s.parts := rfl
@[simp] theorem State.setSlot_sessions (s : State) (i : Nat) (x : Slot) : (s.setSlot i x).sessions = s.sessions := rfl
@[simp] theorem State.setSlot_cmds (s : State) (i : Nat) (x : Slot) : (s.setSlot i x).cmds = s.cmds := rfl
@[simp] theorem State.setSlot_eth (s : State) (i : Nat) (x : Slot) : (s.setSlot i x).eth = s.eth := rfl
@[simp] theorem State.setSlot_log (s : State) (i : Nat) (x : Slot) : (s.setSlot i x).log = s.log := rfl
@[simp] theorem State.setSlot_sram (s : State) (i : Nat) (x : Slot) : (s.setSlot i x).sram = s.sram := rfl
@[simp] theorem State.setSlot_lpddr (s : State) (i : Nat) (x : Slot) : (s.setSlot i x).lpddr = s.lpddr := rfl
@[simp] theorem State.setSlot_poison (s : State) (i : Nat) (x : Slot) : (s.setSlot i x).poison = s.poison := rfl
@[simp] theorem State.setSlot_sigs (s : State) (i : Nat) (x : Slot) : (s.setSlot i x).sigs = s.sigs := rfl
@[simp] theorem State.setSlot_rsigs (s : State) (i : Nat) (x : Slot) : (s.setSlot i x).rsigs = s.rsigs := rfl
@[simp] theorem State.setSlot_bmsgs (s : State) (i : Nat) (x : Slot) : (s.setSlot i x).bmsgs = s.bmsgs := rfl
@[simp] theorem State.setSlot_hmrefs (s : State) (i : Nat) (x : Slot) : (s.setSlot i x).hmrefs = s.hmrefs := rfl
@[simp] theorem State.setSlot_tiles (s : State) (i : Nat) (x : Slot) : (s.setSlot i x).tiles = s.tiles := rfl
@[simp] theorem State.setSlot_readies (s : State) (i : Nat) (x : Slot) : (s.setSlot i x).readies = s.readies := rfl
@[simp] theorem State.setSlot_gathered (s : State) (i : Nat) (x : Slot) : (s.setSlot i x).gathered = s.gathered := rfl
@[simp] theorem State.setSlot_vcontribs (s : State) (i : Nat) (x : Slot) : (s.setSlot i x).vcontribs = s.vcontribs := rfl
@[simp] theorem State.setSlot_inbox (s : State) (i : Nat) (x : Slot) : (s.setSlot i x).inbox = s.inbox := rfl
@[simp] theorem State.setSlot_bridgeq (s : State) (i : Nat) (x : Slot) : (s.setSlot i x).bridgeq = s.bridgeq := rfl
@[simp] theorem State.setSlot_wrefused (s : State) (i : Nat) (x : Slot) : (s.setSlot i x).wrefused = s.wrefused := rfl
@[simp] theorem State.setSlot_wtaken (s : State) (i : Nat) (x : Slot) : (s.setSlot i x).wtaken = s.wtaken := rfl
@[simp] theorem State.setSlot_breps (s : State) (i : Nat) (x : Slot) : (s.setSlot i x).breps = s.breps := rfl
@[simp] theorem State.setSlot_lreps (s : State) (i : Nat) (x : Slot) : (s.setSlot i x).lreps = s.lreps := rfl
@[simp] theorem State.setSlot_ethq (s : State) (i : Nat) (x : Slot) : (s.setSlot i x).ethq = s.ethq := rfl
@[simp] theorem State.setSlot_out (s : State) (i : Nat) (x : Slot) : (s.setSlot i x).out = s.out := rfl
@[simp] theorem State.setSlot_draws (s : State) (i : Nat) (x : Slot) : (s.setSlot i x).draws = s.draws := rfl
@[simp] theorem State.setSlot_cell (s : State) (i : Nat) (x : Slot) (n : Nat) : (s.setSlot i x).cell n = s.cell n := rfl
@[simp] theorem State.setSlot_block (s : State) (i : Nat) (x : Slot) (n : Nat) : (s.setSlot i x).block n = s.block n := rfl
@[simp] theorem State.setSlot_engine (s : State) (i : Nat) (x : Slot) (n : Nat) : (s.setSlot i x).engine n = s.engine n := rfl
@[simp] theorem State.setSlot_qp (s : State) (i : Nat) (x : Slot) (n : Nat) : (s.setSlot i x).qp n = s.qp n := rfl
@[simp] theorem State.setSlot_mw (s : State) (i : Nat) (x : Slot) (n : Nat) : (s.setSlot i x).mw n = s.mw n := rfl
@[simp] theorem State.setSlot_setter (s : State) (i : Nat) (x : Slot) (n : Nat) : (s.setSlot i x).setter n = s.setter n := rfl
@[simp] theorem State.setSlot_adder (s : State) (i : Nat) (x : Slot) (n : Nat) : (s.setSlot i x).adder n = s.adder n := rfl
@[simp] theorem State.setSlot_aslot (s : State) (i : Nat) (x : Slot) (n : Nat) : (s.setSlot i x).aslot n = s.aslot n := rfl
@[simp] theorem State.setSlot_region (s : State) (i : Nat) (x : Slot) (n : Nat) : (s.setSlot i x).region n = s.region n := rfl
@[simp] theorem State.setSlot_port (s : State) (i : Nat) (x : Slot) (n : Nat) : (s.setSlot i x).port n = s.port n := rfl
@[simp] theorem State.setSlot_part (s : State) (i : Nat) (x : Slot) (n : Nat) : (s.setSlot i x).part n = s.part n := rfl
@[simp] theorem State.setSlot_sess (s : State) (i : Nat) (x : Slot) (n : Nat) : (s.setSlot i x).sess n = s.sess n := rfl
@[simp] theorem State.setSlot_cmd (s : State) (i : Nat) (x : Slot) (n : Nat) : (s.setSlot i x).cmd n = s.cmd n := rfl
@[simp] theorem State.setSlot_arb (s : State) (i : Nat) (x : Slot) (n : Nat) : (s.setSlot i x).arb n = s.arb n := rfl

@[simp] theorem State.setSetter_pending (s : State) (i : Nat) (x : SetCtx) : (s.setSetter i x).pending = s.pending := rfl
@[simp] theorem State.setSetter_ctl (s : State) (i : Nat) (x : SetCtx) : (s.setSetter i x).ctl = s.ctl := rfl
@[simp] theorem State.setSetter_cells (s : State) (i : Nat) (x : SetCtx) : (s.setSetter i x).cells = s.cells := rfl
@[simp] theorem State.setSetter_blocks (s : State) (i : Nat) (x : SetCtx) : (s.setSetter i x).blocks = s.blocks := rfl
@[simp] theorem State.setSetter_engines (s : State) (i : Nat) (x : SetCtx) : (s.setSetter i x).engines = s.engines := rfl
@[simp] theorem State.setSetter_qps (s : State) (i : Nat) (x : SetCtx) : (s.setSetter i x).qps = s.qps := rfl
@[simp] theorem State.setSetter_mws (s : State) (i : Nat) (x : SetCtx) : (s.setSetter i x).mws = s.mws := rfl
@[simp] theorem State.setSetter_regions (s : State) (i : Nat) (x : SetCtx) : (s.setSetter i x).regions = s.regions := rfl
@[simp] theorem State.setSetter_slots (s : State) (i : Nat) (x : SetCtx) : (s.setSetter i x).slots = s.slots := rfl
@[simp] theorem State.setSetter_adders (s : State) (i : Nat) (x : SetCtx) : (s.setSetter i x).adders = s.adders := rfl
@[simp] theorem State.setSetter_aslots (s : State) (i : Nat) (x : SetCtx) : (s.setSetter i x).aslots = s.aslots := rfl
@[simp] theorem State.setSetter_ports (s : State) (i : Nat) (x : SetCtx) : (s.setSetter i x).ports = s.ports := rfl
@[simp] theorem State.setSetter_fab (s : State) (i : Nat) (x : SetCtx) : (s.setSetter i x).fab = s.fab := rfl
@[simp] theorem State.setSetter_arbs (s : State) (i : Nat) (x : SetCtx) : (s.setSetter i x).arbs = s.arbs := rfl
@[simp] theorem State.setSetter_parts (s : State) (i : Nat) (x : SetCtx) : (s.setSetter i x).parts = s.parts := rfl
@[simp] theorem State.setSetter_sessions (s : State) (i : Nat) (x : SetCtx) : (s.setSetter i x).sessions = s.sessions := rfl
@[simp] theorem State.setSetter_cmds (s : State) (i : Nat) (x : SetCtx) : (s.setSetter i x).cmds = s.cmds := rfl
@[simp] theorem State.setSetter_eth (s : State) (i : Nat) (x : SetCtx) : (s.setSetter i x).eth = s.eth := rfl
@[simp] theorem State.setSetter_log (s : State) (i : Nat) (x : SetCtx) : (s.setSetter i x).log = s.log := rfl
@[simp] theorem State.setSetter_sram (s : State) (i : Nat) (x : SetCtx) : (s.setSetter i x).sram = s.sram := rfl
@[simp] theorem State.setSetter_lpddr (s : State) (i : Nat) (x : SetCtx) : (s.setSetter i x).lpddr = s.lpddr := rfl
@[simp] theorem State.setSetter_poison (s : State) (i : Nat) (x : SetCtx) : (s.setSetter i x).poison = s.poison := rfl
@[simp] theorem State.setSetter_sigs (s : State) (i : Nat) (x : SetCtx) : (s.setSetter i x).sigs = s.sigs := rfl
@[simp] theorem State.setSetter_rsigs (s : State) (i : Nat) (x : SetCtx) : (s.setSetter i x).rsigs = s.rsigs := rfl
@[simp] theorem State.setSetter_bmsgs (s : State) (i : Nat) (x : SetCtx) : (s.setSetter i x).bmsgs = s.bmsgs := rfl
@[simp] theorem State.setSetter_hmrefs (s : State) (i : Nat) (x : SetCtx) : (s.setSetter i x).hmrefs = s.hmrefs := rfl
@[simp] theorem State.setSetter_tiles (s : State) (i : Nat) (x : SetCtx) : (s.setSetter i x).tiles = s.tiles := rfl
@[simp] theorem State.setSetter_readies (s : State) (i : Nat) (x : SetCtx) : (s.setSetter i x).readies = s.readies := rfl
@[simp] theorem State.setSetter_gathered (s : State) (i : Nat) (x : SetCtx) : (s.setSetter i x).gathered = s.gathered := rfl
@[simp] theorem State.setSetter_vcontribs (s : State) (i : Nat) (x : SetCtx) : (s.setSetter i x).vcontribs = s.vcontribs := rfl
@[simp] theorem State.setSetter_inbox (s : State) (i : Nat) (x : SetCtx) : (s.setSetter i x).inbox = s.inbox := rfl
@[simp] theorem State.setSetter_bridgeq (s : State) (i : Nat) (x : SetCtx) : (s.setSetter i x).bridgeq = s.bridgeq := rfl
@[simp] theorem State.setSetter_wrefused (s : State) (i : Nat) (x : SetCtx) : (s.setSetter i x).wrefused = s.wrefused := rfl
@[simp] theorem State.setSetter_wtaken (s : State) (i : Nat) (x : SetCtx) : (s.setSetter i x).wtaken = s.wtaken := rfl
@[simp] theorem State.setSetter_breps (s : State) (i : Nat) (x : SetCtx) : (s.setSetter i x).breps = s.breps := rfl
@[simp] theorem State.setSetter_lreps (s : State) (i : Nat) (x : SetCtx) : (s.setSetter i x).lreps = s.lreps := rfl
@[simp] theorem State.setSetter_ethq (s : State) (i : Nat) (x : SetCtx) : (s.setSetter i x).ethq = s.ethq := rfl
@[simp] theorem State.setSetter_out (s : State) (i : Nat) (x : SetCtx) : (s.setSetter i x).out = s.out := rfl
@[simp] theorem State.setSetter_draws (s : State) (i : Nat) (x : SetCtx) : (s.setSetter i x).draws = s.draws := rfl
@[simp] theorem State.setSetter_cell (s : State) (i : Nat) (x : SetCtx) (n : Nat) : (s.setSetter i x).cell n = s.cell n := rfl
@[simp] theorem State.setSetter_block (s : State) (i : Nat) (x : SetCtx) (n : Nat) : (s.setSetter i x).block n = s.block n := rfl
@[simp] theorem State.setSetter_engine (s : State) (i : Nat) (x : SetCtx) (n : Nat) : (s.setSetter i x).engine n = s.engine n := rfl
@[simp] theorem State.setSetter_qp (s : State) (i : Nat) (x : SetCtx) (n : Nat) : (s.setSetter i x).qp n = s.qp n := rfl
@[simp] theorem State.setSetter_mw (s : State) (i : Nat) (x : SetCtx) (n : Nat) : (s.setSetter i x).mw n = s.mw n := rfl
@[simp] theorem State.setSetter_slot (s : State) (i : Nat) (x : SetCtx) (n : Nat) : (s.setSetter i x).slot n = s.slot n := rfl
@[simp] theorem State.setSetter_adder (s : State) (i : Nat) (x : SetCtx) (n : Nat) : (s.setSetter i x).adder n = s.adder n := rfl
@[simp] theorem State.setSetter_aslot (s : State) (i : Nat) (x : SetCtx) (n : Nat) : (s.setSetter i x).aslot n = s.aslot n := rfl
@[simp] theorem State.setSetter_region (s : State) (i : Nat) (x : SetCtx) (n : Nat) : (s.setSetter i x).region n = s.region n := rfl
@[simp] theorem State.setSetter_port (s : State) (i : Nat) (x : SetCtx) (n : Nat) : (s.setSetter i x).port n = s.port n := rfl
@[simp] theorem State.setSetter_part (s : State) (i : Nat) (x : SetCtx) (n : Nat) : (s.setSetter i x).part n = s.part n := rfl
@[simp] theorem State.setSetter_sess (s : State) (i : Nat) (x : SetCtx) (n : Nat) : (s.setSetter i x).sess n = s.sess n := rfl
@[simp] theorem State.setSetter_cmd (s : State) (i : Nat) (x : SetCtx) (n : Nat) : (s.setSetter i x).cmd n = s.cmd n := rfl
@[simp] theorem State.setSetter_arb (s : State) (i : Nat) (x : SetCtx) (n : Nat) : (s.setSetter i x).arb n = s.arb n := rfl

@[simp] theorem State.setAdder_pending (s : State) (i : Nat) (x : AddCtx) : (s.setAdder i x).pending = s.pending := rfl
@[simp] theorem State.setAdder_ctl (s : State) (i : Nat) (x : AddCtx) : (s.setAdder i x).ctl = s.ctl := rfl
@[simp] theorem State.setAdder_cells (s : State) (i : Nat) (x : AddCtx) : (s.setAdder i x).cells = s.cells := rfl
@[simp] theorem State.setAdder_blocks (s : State) (i : Nat) (x : AddCtx) : (s.setAdder i x).blocks = s.blocks := rfl
@[simp] theorem State.setAdder_engines (s : State) (i : Nat) (x : AddCtx) : (s.setAdder i x).engines = s.engines := rfl
@[simp] theorem State.setAdder_qps (s : State) (i : Nat) (x : AddCtx) : (s.setAdder i x).qps = s.qps := rfl
@[simp] theorem State.setAdder_mws (s : State) (i : Nat) (x : AddCtx) : (s.setAdder i x).mws = s.mws := rfl
@[simp] theorem State.setAdder_regions (s : State) (i : Nat) (x : AddCtx) : (s.setAdder i x).regions = s.regions := rfl
@[simp] theorem State.setAdder_slots (s : State) (i : Nat) (x : AddCtx) : (s.setAdder i x).slots = s.slots := rfl
@[simp] theorem State.setAdder_setters (s : State) (i : Nat) (x : AddCtx) : (s.setAdder i x).setters = s.setters := rfl
@[simp] theorem State.setAdder_aslots (s : State) (i : Nat) (x : AddCtx) : (s.setAdder i x).aslots = s.aslots := rfl
@[simp] theorem State.setAdder_ports (s : State) (i : Nat) (x : AddCtx) : (s.setAdder i x).ports = s.ports := rfl
@[simp] theorem State.setAdder_fab (s : State) (i : Nat) (x : AddCtx) : (s.setAdder i x).fab = s.fab := rfl
@[simp] theorem State.setAdder_arbs (s : State) (i : Nat) (x : AddCtx) : (s.setAdder i x).arbs = s.arbs := rfl
@[simp] theorem State.setAdder_parts (s : State) (i : Nat) (x : AddCtx) : (s.setAdder i x).parts = s.parts := rfl
@[simp] theorem State.setAdder_sessions (s : State) (i : Nat) (x : AddCtx) : (s.setAdder i x).sessions = s.sessions := rfl
@[simp] theorem State.setAdder_cmds (s : State) (i : Nat) (x : AddCtx) : (s.setAdder i x).cmds = s.cmds := rfl
@[simp] theorem State.setAdder_eth (s : State) (i : Nat) (x : AddCtx) : (s.setAdder i x).eth = s.eth := rfl
@[simp] theorem State.setAdder_log (s : State) (i : Nat) (x : AddCtx) : (s.setAdder i x).log = s.log := rfl
@[simp] theorem State.setAdder_sram (s : State) (i : Nat) (x : AddCtx) : (s.setAdder i x).sram = s.sram := rfl
@[simp] theorem State.setAdder_lpddr (s : State) (i : Nat) (x : AddCtx) : (s.setAdder i x).lpddr = s.lpddr := rfl
@[simp] theorem State.setAdder_poison (s : State) (i : Nat) (x : AddCtx) : (s.setAdder i x).poison = s.poison := rfl
@[simp] theorem State.setAdder_sigs (s : State) (i : Nat) (x : AddCtx) : (s.setAdder i x).sigs = s.sigs := rfl
@[simp] theorem State.setAdder_rsigs (s : State) (i : Nat) (x : AddCtx) : (s.setAdder i x).rsigs = s.rsigs := rfl
@[simp] theorem State.setAdder_bmsgs (s : State) (i : Nat) (x : AddCtx) : (s.setAdder i x).bmsgs = s.bmsgs := rfl
@[simp] theorem State.setAdder_hmrefs (s : State) (i : Nat) (x : AddCtx) : (s.setAdder i x).hmrefs = s.hmrefs := rfl
@[simp] theorem State.setAdder_tiles (s : State) (i : Nat) (x : AddCtx) : (s.setAdder i x).tiles = s.tiles := rfl
@[simp] theorem State.setAdder_readies (s : State) (i : Nat) (x : AddCtx) : (s.setAdder i x).readies = s.readies := rfl
@[simp] theorem State.setAdder_gathered (s : State) (i : Nat) (x : AddCtx) : (s.setAdder i x).gathered = s.gathered := rfl
@[simp] theorem State.setAdder_vcontribs (s : State) (i : Nat) (x : AddCtx) : (s.setAdder i x).vcontribs = s.vcontribs := rfl
@[simp] theorem State.setAdder_inbox (s : State) (i : Nat) (x : AddCtx) : (s.setAdder i x).inbox = s.inbox := rfl
@[simp] theorem State.setAdder_bridgeq (s : State) (i : Nat) (x : AddCtx) : (s.setAdder i x).bridgeq = s.bridgeq := rfl
@[simp] theorem State.setAdder_wrefused (s : State) (i : Nat) (x : AddCtx) : (s.setAdder i x).wrefused = s.wrefused := rfl
@[simp] theorem State.setAdder_wtaken (s : State) (i : Nat) (x : AddCtx) : (s.setAdder i x).wtaken = s.wtaken := rfl
@[simp] theorem State.setAdder_breps (s : State) (i : Nat) (x : AddCtx) : (s.setAdder i x).breps = s.breps := rfl
@[simp] theorem State.setAdder_lreps (s : State) (i : Nat) (x : AddCtx) : (s.setAdder i x).lreps = s.lreps := rfl
@[simp] theorem State.setAdder_ethq (s : State) (i : Nat) (x : AddCtx) : (s.setAdder i x).ethq = s.ethq := rfl
@[simp] theorem State.setAdder_out (s : State) (i : Nat) (x : AddCtx) : (s.setAdder i x).out = s.out := rfl
@[simp] theorem State.setAdder_draws (s : State) (i : Nat) (x : AddCtx) : (s.setAdder i x).draws = s.draws := rfl
@[simp] theorem State.setAdder_cell (s : State) (i : Nat) (x : AddCtx) (n : Nat) : (s.setAdder i x).cell n = s.cell n := rfl
@[simp] theorem State.setAdder_block (s : State) (i : Nat) (x : AddCtx) (n : Nat) : (s.setAdder i x).block n = s.block n := rfl
@[simp] theorem State.setAdder_engine (s : State) (i : Nat) (x : AddCtx) (n : Nat) : (s.setAdder i x).engine n = s.engine n := rfl
@[simp] theorem State.setAdder_qp (s : State) (i : Nat) (x : AddCtx) (n : Nat) : (s.setAdder i x).qp n = s.qp n := rfl
@[simp] theorem State.setAdder_mw (s : State) (i : Nat) (x : AddCtx) (n : Nat) : (s.setAdder i x).mw n = s.mw n := rfl
@[simp] theorem State.setAdder_slot (s : State) (i : Nat) (x : AddCtx) (n : Nat) : (s.setAdder i x).slot n = s.slot n := rfl
@[simp] theorem State.setAdder_setter (s : State) (i : Nat) (x : AddCtx) (n : Nat) : (s.setAdder i x).setter n = s.setter n := rfl
@[simp] theorem State.setAdder_aslot (s : State) (i : Nat) (x : AddCtx) (n : Nat) : (s.setAdder i x).aslot n = s.aslot n := rfl
@[simp] theorem State.setAdder_region (s : State) (i : Nat) (x : AddCtx) (n : Nat) : (s.setAdder i x).region n = s.region n := rfl
@[simp] theorem State.setAdder_port (s : State) (i : Nat) (x : AddCtx) (n : Nat) : (s.setAdder i x).port n = s.port n := rfl
@[simp] theorem State.setAdder_part (s : State) (i : Nat) (x : AddCtx) (n : Nat) : (s.setAdder i x).part n = s.part n := rfl
@[simp] theorem State.setAdder_sess (s : State) (i : Nat) (x : AddCtx) (n : Nat) : (s.setAdder i x).sess n = s.sess n := rfl
@[simp] theorem State.setAdder_cmd (s : State) (i : Nat) (x : AddCtx) (n : Nat) : (s.setAdder i x).cmd n = s.cmd n := rfl
@[simp] theorem State.setAdder_arb (s : State) (i : Nat) (x : AddCtx) (n : Nat) : (s.setAdder i x).arb n = s.arb n := rfl

@[simp] theorem State.setASlot_pending (s : State) (i : Nat) (x : ASlot) : (s.setASlot i x).pending = s.pending := rfl
@[simp] theorem State.setASlot_ctl (s : State) (i : Nat) (x : ASlot) : (s.setASlot i x).ctl = s.ctl := rfl
@[simp] theorem State.setASlot_cells (s : State) (i : Nat) (x : ASlot) : (s.setASlot i x).cells = s.cells := rfl
@[simp] theorem State.setASlot_blocks (s : State) (i : Nat) (x : ASlot) : (s.setASlot i x).blocks = s.blocks := rfl
@[simp] theorem State.setASlot_engines (s : State) (i : Nat) (x : ASlot) : (s.setASlot i x).engines = s.engines := rfl
@[simp] theorem State.setASlot_qps (s : State) (i : Nat) (x : ASlot) : (s.setASlot i x).qps = s.qps := rfl
@[simp] theorem State.setASlot_mws (s : State) (i : Nat) (x : ASlot) : (s.setASlot i x).mws = s.mws := rfl
@[simp] theorem State.setASlot_regions (s : State) (i : Nat) (x : ASlot) : (s.setASlot i x).regions = s.regions := rfl
@[simp] theorem State.setASlot_slots (s : State) (i : Nat) (x : ASlot) : (s.setASlot i x).slots = s.slots := rfl
@[simp] theorem State.setASlot_setters (s : State) (i : Nat) (x : ASlot) : (s.setASlot i x).setters = s.setters := rfl
@[simp] theorem State.setASlot_adders (s : State) (i : Nat) (x : ASlot) : (s.setASlot i x).adders = s.adders := rfl
@[simp] theorem State.setASlot_ports (s : State) (i : Nat) (x : ASlot) : (s.setASlot i x).ports = s.ports := rfl
@[simp] theorem State.setASlot_fab (s : State) (i : Nat) (x : ASlot) : (s.setASlot i x).fab = s.fab := rfl
@[simp] theorem State.setASlot_arbs (s : State) (i : Nat) (x : ASlot) : (s.setASlot i x).arbs = s.arbs := rfl
@[simp] theorem State.setASlot_parts (s : State) (i : Nat) (x : ASlot) : (s.setASlot i x).parts = s.parts := rfl
@[simp] theorem State.setASlot_sessions (s : State) (i : Nat) (x : ASlot) : (s.setASlot i x).sessions = s.sessions := rfl
@[simp] theorem State.setASlot_cmds (s : State) (i : Nat) (x : ASlot) : (s.setASlot i x).cmds = s.cmds := rfl
@[simp] theorem State.setASlot_eth (s : State) (i : Nat) (x : ASlot) : (s.setASlot i x).eth = s.eth := rfl
@[simp] theorem State.setASlot_log (s : State) (i : Nat) (x : ASlot) : (s.setASlot i x).log = s.log := rfl
@[simp] theorem State.setASlot_sram (s : State) (i : Nat) (x : ASlot) : (s.setASlot i x).sram = s.sram := rfl
@[simp] theorem State.setASlot_lpddr (s : State) (i : Nat) (x : ASlot) : (s.setASlot i x).lpddr = s.lpddr := rfl
@[simp] theorem State.setASlot_poison (s : State) (i : Nat) (x : ASlot) : (s.setASlot i x).poison = s.poison := rfl
@[simp] theorem State.setASlot_sigs (s : State) (i : Nat) (x : ASlot) : (s.setASlot i x).sigs = s.sigs := rfl
@[simp] theorem State.setASlot_rsigs (s : State) (i : Nat) (x : ASlot) : (s.setASlot i x).rsigs = s.rsigs := rfl
@[simp] theorem State.setASlot_bmsgs (s : State) (i : Nat) (x : ASlot) : (s.setASlot i x).bmsgs = s.bmsgs := rfl
@[simp] theorem State.setASlot_hmrefs (s : State) (i : Nat) (x : ASlot) : (s.setASlot i x).hmrefs = s.hmrefs := rfl
@[simp] theorem State.setASlot_tiles (s : State) (i : Nat) (x : ASlot) : (s.setASlot i x).tiles = s.tiles := rfl
@[simp] theorem State.setASlot_readies (s : State) (i : Nat) (x : ASlot) : (s.setASlot i x).readies = s.readies := rfl
@[simp] theorem State.setASlot_gathered (s : State) (i : Nat) (x : ASlot) : (s.setASlot i x).gathered = s.gathered := rfl
@[simp] theorem State.setASlot_vcontribs (s : State) (i : Nat) (x : ASlot) : (s.setASlot i x).vcontribs = s.vcontribs := rfl
@[simp] theorem State.setASlot_inbox (s : State) (i : Nat) (x : ASlot) : (s.setASlot i x).inbox = s.inbox := rfl
@[simp] theorem State.setASlot_bridgeq (s : State) (i : Nat) (x : ASlot) : (s.setASlot i x).bridgeq = s.bridgeq := rfl
@[simp] theorem State.setASlot_wrefused (s : State) (i : Nat) (x : ASlot) : (s.setASlot i x).wrefused = s.wrefused := rfl
@[simp] theorem State.setASlot_wtaken (s : State) (i : Nat) (x : ASlot) : (s.setASlot i x).wtaken = s.wtaken := rfl
@[simp] theorem State.setASlot_breps (s : State) (i : Nat) (x : ASlot) : (s.setASlot i x).breps = s.breps := rfl
@[simp] theorem State.setASlot_lreps (s : State) (i : Nat) (x : ASlot) : (s.setASlot i x).lreps = s.lreps := rfl
@[simp] theorem State.setASlot_ethq (s : State) (i : Nat) (x : ASlot) : (s.setASlot i x).ethq = s.ethq := rfl
@[simp] theorem State.setASlot_out (s : State) (i : Nat) (x : ASlot) : (s.setASlot i x).out = s.out := rfl
@[simp] theorem State.setASlot_draws (s : State) (i : Nat) (x : ASlot) : (s.setASlot i x).draws = s.draws := rfl
@[simp] theorem State.setASlot_cell (s : State) (i : Nat) (x : ASlot) (n : Nat) : (s.setASlot i x).cell n = s.cell n := rfl
@[simp] theorem State.setASlot_block (s : State) (i : Nat) (x : ASlot) (n : Nat) : (s.setASlot i x).block n = s.block n := rfl
@[simp] theorem State.setASlot_engine (s : State) (i : Nat) (x : ASlot) (n : Nat) : (s.setASlot i x).engine n = s.engine n := rfl
@[simp] theorem State.setASlot_qp (s : State) (i : Nat) (x : ASlot) (n : Nat) : (s.setASlot i x).qp n = s.qp n := rfl
@[simp] theorem State.setASlot_mw (s : State) (i : Nat) (x : ASlot) (n : Nat) : (s.setASlot i x).mw n = s.mw n := rfl
@[simp] theorem State.setASlot_slot (s : State) (i : Nat) (x : ASlot) (n : Nat) : (s.setASlot i x).slot n = s.slot n := rfl
@[simp] theorem State.setASlot_setter (s : State) (i : Nat) (x : ASlot) (n : Nat) : (s.setASlot i x).setter n = s.setter n := rfl
@[simp] theorem State.setASlot_adder (s : State) (i : Nat) (x : ASlot) (n : Nat) : (s.setASlot i x).adder n = s.adder n := rfl
@[simp] theorem State.setASlot_region (s : State) (i : Nat) (x : ASlot) (n : Nat) : (s.setASlot i x).region n = s.region n := rfl
@[simp] theorem State.setASlot_port (s : State) (i : Nat) (x : ASlot) (n : Nat) : (s.setASlot i x).port n = s.port n := rfl
@[simp] theorem State.setASlot_part (s : State) (i : Nat) (x : ASlot) (n : Nat) : (s.setASlot i x).part n = s.part n := rfl
@[simp] theorem State.setASlot_sess (s : State) (i : Nat) (x : ASlot) (n : Nat) : (s.setASlot i x).sess n = s.sess n := rfl
@[simp] theorem State.setASlot_cmd (s : State) (i : Nat) (x : ASlot) (n : Nat) : (s.setASlot i x).cmd n = s.cmd n := rfl
@[simp] theorem State.setASlot_arb (s : State) (i : Nat) (x : ASlot) (n : Nat) : (s.setASlot i x).arb n = s.arb n := rfl

@[simp] theorem State.setRegion_pending (s : State) (r : Nat) (x : Region) : (s.setRegion r x).pending = s.pending := rfl
@[simp] theorem State.setRegion_ctl (s : State) (r : Nat) (x : Region) : (s.setRegion r x).ctl = s.ctl := rfl
@[simp] theorem State.setRegion_cells (s : State) (r : Nat) (x : Region) : (s.setRegion r x).cells = s.cells := rfl
@[simp] theorem State.setRegion_blocks (s : State) (r : Nat) (x : Region) : (s.setRegion r x).blocks = s.blocks := rfl
@[simp] theorem State.setRegion_engines (s : State) (r : Nat) (x : Region) : (s.setRegion r x).engines = s.engines := rfl
@[simp] theorem State.setRegion_qps (s : State) (r : Nat) (x : Region) : (s.setRegion r x).qps = s.qps := rfl
@[simp] theorem State.setRegion_mws (s : State) (r : Nat) (x : Region) : (s.setRegion r x).mws = s.mws := rfl
@[simp] theorem State.setRegion_slots (s : State) (r : Nat) (x : Region) : (s.setRegion r x).slots = s.slots := rfl
@[simp] theorem State.setRegion_setters (s : State) (r : Nat) (x : Region) : (s.setRegion r x).setters = s.setters := rfl
@[simp] theorem State.setRegion_adders (s : State) (r : Nat) (x : Region) : (s.setRegion r x).adders = s.adders := rfl
@[simp] theorem State.setRegion_aslots (s : State) (r : Nat) (x : Region) : (s.setRegion r x).aslots = s.aslots := rfl
@[simp] theorem State.setRegion_ports (s : State) (r : Nat) (x : Region) : (s.setRegion r x).ports = s.ports := rfl
@[simp] theorem State.setRegion_fab (s : State) (r : Nat) (x : Region) : (s.setRegion r x).fab = s.fab := rfl
@[simp] theorem State.setRegion_arbs (s : State) (r : Nat) (x : Region) : (s.setRegion r x).arbs = s.arbs := rfl
@[simp] theorem State.setRegion_parts (s : State) (r : Nat) (x : Region) : (s.setRegion r x).parts = s.parts := rfl
@[simp] theorem State.setRegion_sessions (s : State) (r : Nat) (x : Region) : (s.setRegion r x).sessions = s.sessions := rfl
@[simp] theorem State.setRegion_cmds (s : State) (r : Nat) (x : Region) : (s.setRegion r x).cmds = s.cmds := rfl
@[simp] theorem State.setRegion_eth (s : State) (r : Nat) (x : Region) : (s.setRegion r x).eth = s.eth := rfl
@[simp] theorem State.setRegion_log (s : State) (r : Nat) (x : Region) : (s.setRegion r x).log = s.log := rfl
@[simp] theorem State.setRegion_sram (s : State) (r : Nat) (x : Region) : (s.setRegion r x).sram = s.sram := rfl
@[simp] theorem State.setRegion_lpddr (s : State) (r : Nat) (x : Region) : (s.setRegion r x).lpddr = s.lpddr := rfl
@[simp] theorem State.setRegion_poison (s : State) (r : Nat) (x : Region) : (s.setRegion r x).poison = s.poison := rfl
@[simp] theorem State.setRegion_sigs (s : State) (r : Nat) (x : Region) : (s.setRegion r x).sigs = s.sigs := rfl
@[simp] theorem State.setRegion_rsigs (s : State) (r : Nat) (x : Region) : (s.setRegion r x).rsigs = s.rsigs := rfl
@[simp] theorem State.setRegion_bmsgs (s : State) (r : Nat) (x : Region) : (s.setRegion r x).bmsgs = s.bmsgs := rfl
@[simp] theorem State.setRegion_hmrefs (s : State) (r : Nat) (x : Region) : (s.setRegion r x).hmrefs = s.hmrefs := rfl
@[simp] theorem State.setRegion_tiles (s : State) (r : Nat) (x : Region) : (s.setRegion r x).tiles = s.tiles := rfl
@[simp] theorem State.setRegion_readies (s : State) (r : Nat) (x : Region) : (s.setRegion r x).readies = s.readies := rfl
@[simp] theorem State.setRegion_gathered (s : State) (r : Nat) (x : Region) : (s.setRegion r x).gathered = s.gathered := rfl
@[simp] theorem State.setRegion_vcontribs (s : State) (r : Nat) (x : Region) : (s.setRegion r x).vcontribs = s.vcontribs := rfl
@[simp] theorem State.setRegion_inbox (s : State) (r : Nat) (x : Region) : (s.setRegion r x).inbox = s.inbox := rfl
@[simp] theorem State.setRegion_bridgeq (s : State) (r : Nat) (x : Region) : (s.setRegion r x).bridgeq = s.bridgeq := rfl
@[simp] theorem State.setRegion_wrefused (s : State) (r : Nat) (x : Region) : (s.setRegion r x).wrefused = s.wrefused := rfl
@[simp] theorem State.setRegion_wtaken (s : State) (r : Nat) (x : Region) : (s.setRegion r x).wtaken = s.wtaken := rfl
@[simp] theorem State.setRegion_breps (s : State) (r : Nat) (x : Region) : (s.setRegion r x).breps = s.breps := rfl
@[simp] theorem State.setRegion_lreps (s : State) (r : Nat) (x : Region) : (s.setRegion r x).lreps = s.lreps := rfl
@[simp] theorem State.setRegion_ethq (s : State) (r : Nat) (x : Region) : (s.setRegion r x).ethq = s.ethq := rfl
@[simp] theorem State.setRegion_out (s : State) (r : Nat) (x : Region) : (s.setRegion r x).out = s.out := rfl
@[simp] theorem State.setRegion_draws (s : State) (r : Nat) (x : Region) : (s.setRegion r x).draws = s.draws := rfl
@[simp] theorem State.setRegion_cell (s : State) (r : Nat) (x : Region) (n : Nat) : (s.setRegion r x).cell n = s.cell n := rfl
@[simp] theorem State.setRegion_block (s : State) (r : Nat) (x : Region) (n : Nat) : (s.setRegion r x).block n = s.block n := rfl
@[simp] theorem State.setRegion_engine (s : State) (r : Nat) (x : Region) (n : Nat) : (s.setRegion r x).engine n = s.engine n := rfl
@[simp] theorem State.setRegion_qp (s : State) (r : Nat) (x : Region) (n : Nat) : (s.setRegion r x).qp n = s.qp n := rfl
@[simp] theorem State.setRegion_mw (s : State) (r : Nat) (x : Region) (n : Nat) : (s.setRegion r x).mw n = s.mw n := rfl
@[simp] theorem State.setRegion_slot (s : State) (r : Nat) (x : Region) (n : Nat) : (s.setRegion r x).slot n = s.slot n := rfl
@[simp] theorem State.setRegion_setter (s : State) (r : Nat) (x : Region) (n : Nat) : (s.setRegion r x).setter n = s.setter n := rfl
@[simp] theorem State.setRegion_adder (s : State) (r : Nat) (x : Region) (n : Nat) : (s.setRegion r x).adder n = s.adder n := rfl
@[simp] theorem State.setRegion_aslot (s : State) (r : Nat) (x : Region) (n : Nat) : (s.setRegion r x).aslot n = s.aslot n := rfl
@[simp] theorem State.setRegion_port (s : State) (r : Nat) (x : Region) (n : Nat) : (s.setRegion r x).port n = s.port n := rfl
@[simp] theorem State.setRegion_part (s : State) (r : Nat) (x : Region) (n : Nat) : (s.setRegion r x).part n = s.part n := rfl
@[simp] theorem State.setRegion_sess (s : State) (r : Nat) (x : Region) (n : Nat) : (s.setRegion r x).sess n = s.sess n := rfl
@[simp] theorem State.setRegion_cmd (s : State) (r : Nat) (x : Region) (n : Nat) : (s.setRegion r x).cmd n = s.cmd n := rfl
@[simp] theorem State.setRegion_arb (s : State) (r : Nat) (x : Region) (n : Nat) : (s.setRegion r x).arb n = s.arb n := rfl

@[simp] theorem State.setPort_pending (s : State) (p : Nat) (x : Port) : (s.setPort p x).pending = s.pending := rfl
@[simp] theorem State.setPort_ctl (s : State) (p : Nat) (x : Port) : (s.setPort p x).ctl = s.ctl := rfl
@[simp] theorem State.setPort_cells (s : State) (p : Nat) (x : Port) : (s.setPort p x).cells = s.cells := rfl
@[simp] theorem State.setPort_blocks (s : State) (p : Nat) (x : Port) : (s.setPort p x).blocks = s.blocks := rfl
@[simp] theorem State.setPort_engines (s : State) (p : Nat) (x : Port) : (s.setPort p x).engines = s.engines := rfl
@[simp] theorem State.setPort_qps (s : State) (p : Nat) (x : Port) : (s.setPort p x).qps = s.qps := rfl
@[simp] theorem State.setPort_mws (s : State) (p : Nat) (x : Port) : (s.setPort p x).mws = s.mws := rfl
@[simp] theorem State.setPort_regions (s : State) (p : Nat) (x : Port) : (s.setPort p x).regions = s.regions := rfl
@[simp] theorem State.setPort_slots (s : State) (p : Nat) (x : Port) : (s.setPort p x).slots = s.slots := rfl
@[simp] theorem State.setPort_setters (s : State) (p : Nat) (x : Port) : (s.setPort p x).setters = s.setters := rfl
@[simp] theorem State.setPort_adders (s : State) (p : Nat) (x : Port) : (s.setPort p x).adders = s.adders := rfl
@[simp] theorem State.setPort_aslots (s : State) (p : Nat) (x : Port) : (s.setPort p x).aslots = s.aslots := rfl
@[simp] theorem State.setPort_fab (s : State) (p : Nat) (x : Port) : (s.setPort p x).fab = s.fab := rfl
@[simp] theorem State.setPort_arbs (s : State) (p : Nat) (x : Port) : (s.setPort p x).arbs = s.arbs := rfl
@[simp] theorem State.setPort_parts (s : State) (p : Nat) (x : Port) : (s.setPort p x).parts = s.parts := rfl
@[simp] theorem State.setPort_sessions (s : State) (p : Nat) (x : Port) : (s.setPort p x).sessions = s.sessions := rfl
@[simp] theorem State.setPort_cmds (s : State) (p : Nat) (x : Port) : (s.setPort p x).cmds = s.cmds := rfl
@[simp] theorem State.setPort_eth (s : State) (p : Nat) (x : Port) : (s.setPort p x).eth = s.eth := rfl
@[simp] theorem State.setPort_log (s : State) (p : Nat) (x : Port) : (s.setPort p x).log = s.log := rfl
@[simp] theorem State.setPort_sram (s : State) (p : Nat) (x : Port) : (s.setPort p x).sram = s.sram := rfl
@[simp] theorem State.setPort_lpddr (s : State) (p : Nat) (x : Port) : (s.setPort p x).lpddr = s.lpddr := rfl
@[simp] theorem State.setPort_poison (s : State) (p : Nat) (x : Port) : (s.setPort p x).poison = s.poison := rfl
@[simp] theorem State.setPort_sigs (s : State) (p : Nat) (x : Port) : (s.setPort p x).sigs = s.sigs := rfl
@[simp] theorem State.setPort_rsigs (s : State) (p : Nat) (x : Port) : (s.setPort p x).rsigs = s.rsigs := rfl
@[simp] theorem State.setPort_bmsgs (s : State) (p : Nat) (x : Port) : (s.setPort p x).bmsgs = s.bmsgs := rfl
@[simp] theorem State.setPort_hmrefs (s : State) (p : Nat) (x : Port) : (s.setPort p x).hmrefs = s.hmrefs := rfl
@[simp] theorem State.setPort_tiles (s : State) (p : Nat) (x : Port) : (s.setPort p x).tiles = s.tiles := rfl
@[simp] theorem State.setPort_readies (s : State) (p : Nat) (x : Port) : (s.setPort p x).readies = s.readies := rfl
@[simp] theorem State.setPort_gathered (s : State) (p : Nat) (x : Port) : (s.setPort p x).gathered = s.gathered := rfl
@[simp] theorem State.setPort_vcontribs (s : State) (p : Nat) (x : Port) : (s.setPort p x).vcontribs = s.vcontribs := rfl
@[simp] theorem State.setPort_inbox (s : State) (p : Nat) (x : Port) : (s.setPort p x).inbox = s.inbox := rfl
@[simp] theorem State.setPort_bridgeq (s : State) (p : Nat) (x : Port) : (s.setPort p x).bridgeq = s.bridgeq := rfl
@[simp] theorem State.setPort_wrefused (s : State) (p : Nat) (x : Port) : (s.setPort p x).wrefused = s.wrefused := rfl
@[simp] theorem State.setPort_wtaken (s : State) (p : Nat) (x : Port) : (s.setPort p x).wtaken = s.wtaken := rfl
@[simp] theorem State.setPort_breps (s : State) (p : Nat) (x : Port) : (s.setPort p x).breps = s.breps := rfl
@[simp] theorem State.setPort_lreps (s : State) (p : Nat) (x : Port) : (s.setPort p x).lreps = s.lreps := rfl
@[simp] theorem State.setPort_ethq (s : State) (p : Nat) (x : Port) : (s.setPort p x).ethq = s.ethq := rfl
@[simp] theorem State.setPort_out (s : State) (p : Nat) (x : Port) : (s.setPort p x).out = s.out := rfl
@[simp] theorem State.setPort_draws (s : State) (p : Nat) (x : Port) : (s.setPort p x).draws = s.draws := rfl
@[simp] theorem State.setPort_cell (s : State) (p : Nat) (x : Port) (n : Nat) : (s.setPort p x).cell n = s.cell n := rfl
@[simp] theorem State.setPort_block (s : State) (p : Nat) (x : Port) (n : Nat) : (s.setPort p x).block n = s.block n := rfl
@[simp] theorem State.setPort_engine (s : State) (p : Nat) (x : Port) (n : Nat) : (s.setPort p x).engine n = s.engine n := rfl
@[simp] theorem State.setPort_qp (s : State) (p : Nat) (x : Port) (n : Nat) : (s.setPort p x).qp n = s.qp n := rfl
@[simp] theorem State.setPort_mw (s : State) (p : Nat) (x : Port) (n : Nat) : (s.setPort p x).mw n = s.mw n := rfl
@[simp] theorem State.setPort_slot (s : State) (p : Nat) (x : Port) (n : Nat) : (s.setPort p x).slot n = s.slot n := rfl
@[simp] theorem State.setPort_setter (s : State) (p : Nat) (x : Port) (n : Nat) : (s.setPort p x).setter n = s.setter n := rfl
@[simp] theorem State.setPort_adder (s : State) (p : Nat) (x : Port) (n : Nat) : (s.setPort p x).adder n = s.adder n := rfl
@[simp] theorem State.setPort_aslot (s : State) (p : Nat) (x : Port) (n : Nat) : (s.setPort p x).aslot n = s.aslot n := rfl
@[simp] theorem State.setPort_region (s : State) (p : Nat) (x : Port) (n : Nat) : (s.setPort p x).region n = s.region n := rfl
@[simp] theorem State.setPort_part (s : State) (p : Nat) (x : Port) (n : Nat) : (s.setPort p x).part n = s.part n := rfl
@[simp] theorem State.setPort_sess (s : State) (p : Nat) (x : Port) (n : Nat) : (s.setPort p x).sess n = s.sess n := rfl
@[simp] theorem State.setPort_cmd (s : State) (p : Nat) (x : Port) (n : Nat) : (s.setPort p x).cmd n = s.cmd n := rfl
@[simp] theorem State.setPort_arb (s : State) (p : Nat) (x : Port) (n : Nat) : (s.setPort p x).arb n = s.arb n := rfl

@[simp] theorem State.setPart_pending (s : State) (p : Nat) (x : Part) : (s.setPart p x).pending = s.pending := rfl
@[simp] theorem State.setPart_ctl (s : State) (p : Nat) (x : Part) : (s.setPart p x).ctl = s.ctl := rfl
@[simp] theorem State.setPart_cells (s : State) (p : Nat) (x : Part) : (s.setPart p x).cells = s.cells := rfl
@[simp] theorem State.setPart_blocks (s : State) (p : Nat) (x : Part) : (s.setPart p x).blocks = s.blocks := rfl
@[simp] theorem State.setPart_engines (s : State) (p : Nat) (x : Part) : (s.setPart p x).engines = s.engines := rfl
@[simp] theorem State.setPart_qps (s : State) (p : Nat) (x : Part) : (s.setPart p x).qps = s.qps := rfl
@[simp] theorem State.setPart_mws (s : State) (p : Nat) (x : Part) : (s.setPart p x).mws = s.mws := rfl
@[simp] theorem State.setPart_regions (s : State) (p : Nat) (x : Part) : (s.setPart p x).regions = s.regions := rfl
@[simp] theorem State.setPart_slots (s : State) (p : Nat) (x : Part) : (s.setPart p x).slots = s.slots := rfl
@[simp] theorem State.setPart_setters (s : State) (p : Nat) (x : Part) : (s.setPart p x).setters = s.setters := rfl
@[simp] theorem State.setPart_adders (s : State) (p : Nat) (x : Part) : (s.setPart p x).adders = s.adders := rfl
@[simp] theorem State.setPart_aslots (s : State) (p : Nat) (x : Part) : (s.setPart p x).aslots = s.aslots := rfl
@[simp] theorem State.setPart_ports (s : State) (p : Nat) (x : Part) : (s.setPart p x).ports = s.ports := rfl
@[simp] theorem State.setPart_fab (s : State) (p : Nat) (x : Part) : (s.setPart p x).fab = s.fab := rfl
@[simp] theorem State.setPart_arbs (s : State) (p : Nat) (x : Part) : (s.setPart p x).arbs = s.arbs := rfl
@[simp] theorem State.setPart_sessions (s : State) (p : Nat) (x : Part) : (s.setPart p x).sessions = s.sessions := rfl
@[simp] theorem State.setPart_cmds (s : State) (p : Nat) (x : Part) : (s.setPart p x).cmds = s.cmds := rfl
@[simp] theorem State.setPart_eth (s : State) (p : Nat) (x : Part) : (s.setPart p x).eth = s.eth := rfl
@[simp] theorem State.setPart_log (s : State) (p : Nat) (x : Part) : (s.setPart p x).log = s.log := rfl
@[simp] theorem State.setPart_sram (s : State) (p : Nat) (x : Part) : (s.setPart p x).sram = s.sram := rfl
@[simp] theorem State.setPart_lpddr (s : State) (p : Nat) (x : Part) : (s.setPart p x).lpddr = s.lpddr := rfl
@[simp] theorem State.setPart_poison (s : State) (p : Nat) (x : Part) : (s.setPart p x).poison = s.poison := rfl
@[simp] theorem State.setPart_sigs (s : State) (p : Nat) (x : Part) : (s.setPart p x).sigs = s.sigs := rfl
@[simp] theorem State.setPart_rsigs (s : State) (p : Nat) (x : Part) : (s.setPart p x).rsigs = s.rsigs := rfl
@[simp] theorem State.setPart_bmsgs (s : State) (p : Nat) (x : Part) : (s.setPart p x).bmsgs = s.bmsgs := rfl
@[simp] theorem State.setPart_hmrefs (s : State) (p : Nat) (x : Part) : (s.setPart p x).hmrefs = s.hmrefs := rfl
@[simp] theorem State.setPart_tiles (s : State) (p : Nat) (x : Part) : (s.setPart p x).tiles = s.tiles := rfl
@[simp] theorem State.setPart_readies (s : State) (p : Nat) (x : Part) : (s.setPart p x).readies = s.readies := rfl
@[simp] theorem State.setPart_gathered (s : State) (p : Nat) (x : Part) : (s.setPart p x).gathered = s.gathered := rfl
@[simp] theorem State.setPart_vcontribs (s : State) (p : Nat) (x : Part) : (s.setPart p x).vcontribs = s.vcontribs := rfl
@[simp] theorem State.setPart_inbox (s : State) (p : Nat) (x : Part) : (s.setPart p x).inbox = s.inbox := rfl
@[simp] theorem State.setPart_bridgeq (s : State) (p : Nat) (x : Part) : (s.setPart p x).bridgeq = s.bridgeq := rfl
@[simp] theorem State.setPart_wrefused (s : State) (p : Nat) (x : Part) : (s.setPart p x).wrefused = s.wrefused := rfl
@[simp] theorem State.setPart_wtaken (s : State) (p : Nat) (x : Part) : (s.setPart p x).wtaken = s.wtaken := rfl
@[simp] theorem State.setPart_breps (s : State) (p : Nat) (x : Part) : (s.setPart p x).breps = s.breps := rfl
@[simp] theorem State.setPart_lreps (s : State) (p : Nat) (x : Part) : (s.setPart p x).lreps = s.lreps := rfl
@[simp] theorem State.setPart_ethq (s : State) (p : Nat) (x : Part) : (s.setPart p x).ethq = s.ethq := rfl
@[simp] theorem State.setPart_out (s : State) (p : Nat) (x : Part) : (s.setPart p x).out = s.out := rfl
@[simp] theorem State.setPart_draws (s : State) (p : Nat) (x : Part) : (s.setPart p x).draws = s.draws := rfl
@[simp] theorem State.setPart_cell (s : State) (p : Nat) (x : Part) (n : Nat) : (s.setPart p x).cell n = s.cell n := rfl
@[simp] theorem State.setPart_block (s : State) (p : Nat) (x : Part) (n : Nat) : (s.setPart p x).block n = s.block n := rfl
@[simp] theorem State.setPart_engine (s : State) (p : Nat) (x : Part) (n : Nat) : (s.setPart p x).engine n = s.engine n := rfl
@[simp] theorem State.setPart_qp (s : State) (p : Nat) (x : Part) (n : Nat) : (s.setPart p x).qp n = s.qp n := rfl
@[simp] theorem State.setPart_mw (s : State) (p : Nat) (x : Part) (n : Nat) : (s.setPart p x).mw n = s.mw n := rfl
@[simp] theorem State.setPart_slot (s : State) (p : Nat) (x : Part) (n : Nat) : (s.setPart p x).slot n = s.slot n := rfl
@[simp] theorem State.setPart_setter (s : State) (p : Nat) (x : Part) (n : Nat) : (s.setPart p x).setter n = s.setter n := rfl
@[simp] theorem State.setPart_adder (s : State) (p : Nat) (x : Part) (n : Nat) : (s.setPart p x).adder n = s.adder n := rfl
@[simp] theorem State.setPart_aslot (s : State) (p : Nat) (x : Part) (n : Nat) : (s.setPart p x).aslot n = s.aslot n := rfl
@[simp] theorem State.setPart_region (s : State) (p : Nat) (x : Part) (n : Nat) : (s.setPart p x).region n = s.region n := rfl
@[simp] theorem State.setPart_port (s : State) (p : Nat) (x : Part) (n : Nat) : (s.setPart p x).port n = s.port n := rfl
@[simp] theorem State.setPart_sess (s : State) (p : Nat) (x : Part) (n : Nat) : (s.setPart p x).sess n = s.sess n := rfl
@[simp] theorem State.setPart_cmd (s : State) (p : Nat) (x : Part) (n : Nat) : (s.setPart p x).cmd n = s.cmd n := rfl
@[simp] theorem State.setPart_arb (s : State) (p : Nat) (x : Part) (n : Nat) : (s.setPart p x).arb n = s.arb n := rfl

@[simp] theorem State.setSess_pending (s : State) (i : Nat) (x : Sess) : (s.setSess i x).pending = s.pending := rfl
@[simp] theorem State.setSess_ctl (s : State) (i : Nat) (x : Sess) : (s.setSess i x).ctl = s.ctl := rfl
@[simp] theorem State.setSess_cells (s : State) (i : Nat) (x : Sess) : (s.setSess i x).cells = s.cells := rfl
@[simp] theorem State.setSess_blocks (s : State) (i : Nat) (x : Sess) : (s.setSess i x).blocks = s.blocks := rfl
@[simp] theorem State.setSess_engines (s : State) (i : Nat) (x : Sess) : (s.setSess i x).engines = s.engines := rfl
@[simp] theorem State.setSess_qps (s : State) (i : Nat) (x : Sess) : (s.setSess i x).qps = s.qps := rfl
@[simp] theorem State.setSess_mws (s : State) (i : Nat) (x : Sess) : (s.setSess i x).mws = s.mws := rfl
@[simp] theorem State.setSess_regions (s : State) (i : Nat) (x : Sess) : (s.setSess i x).regions = s.regions := rfl
@[simp] theorem State.setSess_slots (s : State) (i : Nat) (x : Sess) : (s.setSess i x).slots = s.slots := rfl
@[simp] theorem State.setSess_setters (s : State) (i : Nat) (x : Sess) : (s.setSess i x).setters = s.setters := rfl
@[simp] theorem State.setSess_adders (s : State) (i : Nat) (x : Sess) : (s.setSess i x).adders = s.adders := rfl
@[simp] theorem State.setSess_aslots (s : State) (i : Nat) (x : Sess) : (s.setSess i x).aslots = s.aslots := rfl
@[simp] theorem State.setSess_ports (s : State) (i : Nat) (x : Sess) : (s.setSess i x).ports = s.ports := rfl
@[simp] theorem State.setSess_fab (s : State) (i : Nat) (x : Sess) : (s.setSess i x).fab = s.fab := rfl
@[simp] theorem State.setSess_arbs (s : State) (i : Nat) (x : Sess) : (s.setSess i x).arbs = s.arbs := rfl
@[simp] theorem State.setSess_parts (s : State) (i : Nat) (x : Sess) : (s.setSess i x).parts = s.parts := rfl
@[simp] theorem State.setSess_cmds (s : State) (i : Nat) (x : Sess) : (s.setSess i x).cmds = s.cmds := rfl
@[simp] theorem State.setSess_eth (s : State) (i : Nat) (x : Sess) : (s.setSess i x).eth = s.eth := rfl
@[simp] theorem State.setSess_log (s : State) (i : Nat) (x : Sess) : (s.setSess i x).log = s.log := rfl
@[simp] theorem State.setSess_sram (s : State) (i : Nat) (x : Sess) : (s.setSess i x).sram = s.sram := rfl
@[simp] theorem State.setSess_lpddr (s : State) (i : Nat) (x : Sess) : (s.setSess i x).lpddr = s.lpddr := rfl
@[simp] theorem State.setSess_poison (s : State) (i : Nat) (x : Sess) : (s.setSess i x).poison = s.poison := rfl
@[simp] theorem State.setSess_sigs (s : State) (i : Nat) (x : Sess) : (s.setSess i x).sigs = s.sigs := rfl
@[simp] theorem State.setSess_rsigs (s : State) (i : Nat) (x : Sess) : (s.setSess i x).rsigs = s.rsigs := rfl
@[simp] theorem State.setSess_bmsgs (s : State) (i : Nat) (x : Sess) : (s.setSess i x).bmsgs = s.bmsgs := rfl
@[simp] theorem State.setSess_hmrefs (s : State) (i : Nat) (x : Sess) : (s.setSess i x).hmrefs = s.hmrefs := rfl
@[simp] theorem State.setSess_tiles (s : State) (i : Nat) (x : Sess) : (s.setSess i x).tiles = s.tiles := rfl
@[simp] theorem State.setSess_readies (s : State) (i : Nat) (x : Sess) : (s.setSess i x).readies = s.readies := rfl
@[simp] theorem State.setSess_gathered (s : State) (i : Nat) (x : Sess) : (s.setSess i x).gathered = s.gathered := rfl
@[simp] theorem State.setSess_vcontribs (s : State) (i : Nat) (x : Sess) : (s.setSess i x).vcontribs = s.vcontribs := rfl
@[simp] theorem State.setSess_inbox (s : State) (i : Nat) (x : Sess) : (s.setSess i x).inbox = s.inbox := rfl
@[simp] theorem State.setSess_bridgeq (s : State) (i : Nat) (x : Sess) : (s.setSess i x).bridgeq = s.bridgeq := rfl
@[simp] theorem State.setSess_wrefused (s : State) (i : Nat) (x : Sess) : (s.setSess i x).wrefused = s.wrefused := rfl
@[simp] theorem State.setSess_wtaken (s : State) (i : Nat) (x : Sess) : (s.setSess i x).wtaken = s.wtaken := rfl
@[simp] theorem State.setSess_breps (s : State) (i : Nat) (x : Sess) : (s.setSess i x).breps = s.breps := rfl
@[simp] theorem State.setSess_lreps (s : State) (i : Nat) (x : Sess) : (s.setSess i x).lreps = s.lreps := rfl
@[simp] theorem State.setSess_ethq (s : State) (i : Nat) (x : Sess) : (s.setSess i x).ethq = s.ethq := rfl
@[simp] theorem State.setSess_out (s : State) (i : Nat) (x : Sess) : (s.setSess i x).out = s.out := rfl
@[simp] theorem State.setSess_draws (s : State) (i : Nat) (x : Sess) : (s.setSess i x).draws = s.draws := rfl
@[simp] theorem State.setSess_cell (s : State) (i : Nat) (x : Sess) (n : Nat) : (s.setSess i x).cell n = s.cell n := rfl
@[simp] theorem State.setSess_block (s : State) (i : Nat) (x : Sess) (n : Nat) : (s.setSess i x).block n = s.block n := rfl
@[simp] theorem State.setSess_engine (s : State) (i : Nat) (x : Sess) (n : Nat) : (s.setSess i x).engine n = s.engine n := rfl
@[simp] theorem State.setSess_qp (s : State) (i : Nat) (x : Sess) (n : Nat) : (s.setSess i x).qp n = s.qp n := rfl
@[simp] theorem State.setSess_mw (s : State) (i : Nat) (x : Sess) (n : Nat) : (s.setSess i x).mw n = s.mw n := rfl
@[simp] theorem State.setSess_slot (s : State) (i : Nat) (x : Sess) (n : Nat) : (s.setSess i x).slot n = s.slot n := rfl
@[simp] theorem State.setSess_setter (s : State) (i : Nat) (x : Sess) (n : Nat) : (s.setSess i x).setter n = s.setter n := rfl
@[simp] theorem State.setSess_adder (s : State) (i : Nat) (x : Sess) (n : Nat) : (s.setSess i x).adder n = s.adder n := rfl
@[simp] theorem State.setSess_aslot (s : State) (i : Nat) (x : Sess) (n : Nat) : (s.setSess i x).aslot n = s.aslot n := rfl
@[simp] theorem State.setSess_region (s : State) (i : Nat) (x : Sess) (n : Nat) : (s.setSess i x).region n = s.region n := rfl
@[simp] theorem State.setSess_port (s : State) (i : Nat) (x : Sess) (n : Nat) : (s.setSess i x).port n = s.port n := rfl
@[simp] theorem State.setSess_part (s : State) (i : Nat) (x : Sess) (n : Nat) : (s.setSess i x).part n = s.part n := rfl
@[simp] theorem State.setSess_cmd (s : State) (i : Nat) (x : Sess) (n : Nat) : (s.setSess i x).cmd n = s.cmd n := rfl
@[simp] theorem State.setSess_arb (s : State) (i : Nat) (x : Sess) (n : Nat) : (s.setSess i x).arb n = s.arb n := rfl

@[simp] theorem State.setCmd_pending (s : State) (n : Nat) (x : CmdSlot) : (s.setCmd n x).pending = s.pending := rfl
@[simp] theorem State.setCmd_ctl (s : State) (n : Nat) (x : CmdSlot) : (s.setCmd n x).ctl = s.ctl := rfl
@[simp] theorem State.setCmd_cells (s : State) (n : Nat) (x : CmdSlot) : (s.setCmd n x).cells = s.cells := rfl
@[simp] theorem State.setCmd_blocks (s : State) (n : Nat) (x : CmdSlot) : (s.setCmd n x).blocks = s.blocks := rfl
@[simp] theorem State.setCmd_engines (s : State) (n : Nat) (x : CmdSlot) : (s.setCmd n x).engines = s.engines := rfl
@[simp] theorem State.setCmd_qps (s : State) (n : Nat) (x : CmdSlot) : (s.setCmd n x).qps = s.qps := rfl
@[simp] theorem State.setCmd_mws (s : State) (n : Nat) (x : CmdSlot) : (s.setCmd n x).mws = s.mws := rfl
@[simp] theorem State.setCmd_regions (s : State) (n : Nat) (x : CmdSlot) : (s.setCmd n x).regions = s.regions := rfl
@[simp] theorem State.setCmd_slots (s : State) (n : Nat) (x : CmdSlot) : (s.setCmd n x).slots = s.slots := rfl
@[simp] theorem State.setCmd_setters (s : State) (n : Nat) (x : CmdSlot) : (s.setCmd n x).setters = s.setters := rfl
@[simp] theorem State.setCmd_adders (s : State) (n : Nat) (x : CmdSlot) : (s.setCmd n x).adders = s.adders := rfl
@[simp] theorem State.setCmd_aslots (s : State) (n : Nat) (x : CmdSlot) : (s.setCmd n x).aslots = s.aslots := rfl
@[simp] theorem State.setCmd_ports (s : State) (n : Nat) (x : CmdSlot) : (s.setCmd n x).ports = s.ports := rfl
@[simp] theorem State.setCmd_fab (s : State) (n : Nat) (x : CmdSlot) : (s.setCmd n x).fab = s.fab := rfl
@[simp] theorem State.setCmd_arbs (s : State) (n : Nat) (x : CmdSlot) : (s.setCmd n x).arbs = s.arbs := rfl
@[simp] theorem State.setCmd_parts (s : State) (n : Nat) (x : CmdSlot) : (s.setCmd n x).parts = s.parts := rfl
@[simp] theorem State.setCmd_sessions (s : State) (n : Nat) (x : CmdSlot) : (s.setCmd n x).sessions = s.sessions := rfl
@[simp] theorem State.setCmd_eth (s : State) (n : Nat) (x : CmdSlot) : (s.setCmd n x).eth = s.eth := rfl
@[simp] theorem State.setCmd_log (s : State) (n : Nat) (x : CmdSlot) : (s.setCmd n x).log = s.log := rfl
@[simp] theorem State.setCmd_sram (s : State) (n : Nat) (x : CmdSlot) : (s.setCmd n x).sram = s.sram := rfl
@[simp] theorem State.setCmd_lpddr (s : State) (n : Nat) (x : CmdSlot) : (s.setCmd n x).lpddr = s.lpddr := rfl
@[simp] theorem State.setCmd_poison (s : State) (n : Nat) (x : CmdSlot) : (s.setCmd n x).poison = s.poison := rfl
@[simp] theorem State.setCmd_sigs (s : State) (n : Nat) (x : CmdSlot) : (s.setCmd n x).sigs = s.sigs := rfl
@[simp] theorem State.setCmd_rsigs (s : State) (n : Nat) (x : CmdSlot) : (s.setCmd n x).rsigs = s.rsigs := rfl
@[simp] theorem State.setCmd_bmsgs (s : State) (n : Nat) (x : CmdSlot) : (s.setCmd n x).bmsgs = s.bmsgs := rfl
@[simp] theorem State.setCmd_hmrefs (s : State) (n : Nat) (x : CmdSlot) : (s.setCmd n x).hmrefs = s.hmrefs := rfl
@[simp] theorem State.setCmd_tiles (s : State) (n : Nat) (x : CmdSlot) : (s.setCmd n x).tiles = s.tiles := rfl
@[simp] theorem State.setCmd_readies (s : State) (n : Nat) (x : CmdSlot) : (s.setCmd n x).readies = s.readies := rfl
@[simp] theorem State.setCmd_gathered (s : State) (n : Nat) (x : CmdSlot) : (s.setCmd n x).gathered = s.gathered := rfl
@[simp] theorem State.setCmd_vcontribs (s : State) (n : Nat) (x : CmdSlot) : (s.setCmd n x).vcontribs = s.vcontribs := rfl
@[simp] theorem State.setCmd_inbox (s : State) (n : Nat) (x : CmdSlot) : (s.setCmd n x).inbox = s.inbox := rfl
@[simp] theorem State.setCmd_bridgeq (s : State) (n : Nat) (x : CmdSlot) : (s.setCmd n x).bridgeq = s.bridgeq := rfl
@[simp] theorem State.setCmd_wrefused (s : State) (n : Nat) (x : CmdSlot) : (s.setCmd n x).wrefused = s.wrefused := rfl
@[simp] theorem State.setCmd_wtaken (s : State) (n : Nat) (x : CmdSlot) : (s.setCmd n x).wtaken = s.wtaken := rfl
@[simp] theorem State.setCmd_breps (s : State) (n : Nat) (x : CmdSlot) : (s.setCmd n x).breps = s.breps := rfl
@[simp] theorem State.setCmd_lreps (s : State) (n : Nat) (x : CmdSlot) : (s.setCmd n x).lreps = s.lreps := rfl
@[simp] theorem State.setCmd_ethq (s : State) (n : Nat) (x : CmdSlot) : (s.setCmd n x).ethq = s.ethq := rfl
@[simp] theorem State.setCmd_out (s : State) (n : Nat) (x : CmdSlot) : (s.setCmd n x).out = s.out := rfl
@[simp] theorem State.setCmd_draws (s : State) (n : Nat) (x : CmdSlot) : (s.setCmd n x).draws = s.draws := rfl
@[simp] theorem State.setCmd_cell (s : State) (n : Nat) (x : CmdSlot) (m : Nat) : (s.setCmd n x).cell m = s.cell m := rfl
@[simp] theorem State.setCmd_block (s : State) (n : Nat) (x : CmdSlot) (m : Nat) : (s.setCmd n x).block m = s.block m := rfl
@[simp] theorem State.setCmd_engine (s : State) (n : Nat) (x : CmdSlot) (m : Nat) : (s.setCmd n x).engine m = s.engine m := rfl
@[simp] theorem State.setCmd_qp (s : State) (n : Nat) (x : CmdSlot) (m : Nat) : (s.setCmd n x).qp m = s.qp m := rfl
@[simp] theorem State.setCmd_mw (s : State) (n : Nat) (x : CmdSlot) (m : Nat) : (s.setCmd n x).mw m = s.mw m := rfl
@[simp] theorem State.setCmd_slot (s : State) (n : Nat) (x : CmdSlot) (m : Nat) : (s.setCmd n x).slot m = s.slot m := rfl
@[simp] theorem State.setCmd_setter (s : State) (n : Nat) (x : CmdSlot) (m : Nat) : (s.setCmd n x).setter m = s.setter m := rfl
@[simp] theorem State.setCmd_adder (s : State) (n : Nat) (x : CmdSlot) (m : Nat) : (s.setCmd n x).adder m = s.adder m := rfl
@[simp] theorem State.setCmd_aslot (s : State) (n : Nat) (x : CmdSlot) (m : Nat) : (s.setCmd n x).aslot m = s.aslot m := rfl
@[simp] theorem State.setCmd_region (s : State) (n : Nat) (x : CmdSlot) (m : Nat) : (s.setCmd n x).region m = s.region m := rfl
@[simp] theorem State.setCmd_port (s : State) (n : Nat) (x : CmdSlot) (m : Nat) : (s.setCmd n x).port m = s.port m := rfl
@[simp] theorem State.setCmd_part (s : State) (n : Nat) (x : CmdSlot) (m : Nat) : (s.setCmd n x).part m = s.part m := rfl
@[simp] theorem State.setCmd_sess (s : State) (n : Nat) (x : CmdSlot) (m : Nat) : (s.setCmd n x).sess m = s.sess m := rfl
@[simp] theorem State.setCmd_arb (s : State) (n : Nat) (x : CmdSlot) (m : Nat) : (s.setCmd n x).arb m = s.arb m := rfl

@[simp] theorem State.setArb_pending (s : State) (k : Nat) (x : Arb) : (s.setArb k x).pending = s.pending := rfl
@[simp] theorem State.setArb_ctl (s : State) (k : Nat) (x : Arb) : (s.setArb k x).ctl = s.ctl := rfl
@[simp] theorem State.setArb_cells (s : State) (k : Nat) (x : Arb) : (s.setArb k x).cells = s.cells := rfl
@[simp] theorem State.setArb_blocks (s : State) (k : Nat) (x : Arb) : (s.setArb k x).blocks = s.blocks := rfl
@[simp] theorem State.setArb_engines (s : State) (k : Nat) (x : Arb) : (s.setArb k x).engines = s.engines := rfl
@[simp] theorem State.setArb_qps (s : State) (k : Nat) (x : Arb) : (s.setArb k x).qps = s.qps := rfl
@[simp] theorem State.setArb_mws (s : State) (k : Nat) (x : Arb) : (s.setArb k x).mws = s.mws := rfl
@[simp] theorem State.setArb_regions (s : State) (k : Nat) (x : Arb) : (s.setArb k x).regions = s.regions := rfl
@[simp] theorem State.setArb_slots (s : State) (k : Nat) (x : Arb) : (s.setArb k x).slots = s.slots := rfl
@[simp] theorem State.setArb_setters (s : State) (k : Nat) (x : Arb) : (s.setArb k x).setters = s.setters := rfl
@[simp] theorem State.setArb_adders (s : State) (k : Nat) (x : Arb) : (s.setArb k x).adders = s.adders := rfl
@[simp] theorem State.setArb_aslots (s : State) (k : Nat) (x : Arb) : (s.setArb k x).aslots = s.aslots := rfl
@[simp] theorem State.setArb_ports (s : State) (k : Nat) (x : Arb) : (s.setArb k x).ports = s.ports := rfl
@[simp] theorem State.setArb_fab (s : State) (k : Nat) (x : Arb) : (s.setArb k x).fab = s.fab := rfl
@[simp] theorem State.setArb_parts (s : State) (k : Nat) (x : Arb) : (s.setArb k x).parts = s.parts := rfl
@[simp] theorem State.setArb_sessions (s : State) (k : Nat) (x : Arb) : (s.setArb k x).sessions = s.sessions := rfl
@[simp] theorem State.setArb_cmds (s : State) (k : Nat) (x : Arb) : (s.setArb k x).cmds = s.cmds := rfl
@[simp] theorem State.setArb_eth (s : State) (k : Nat) (x : Arb) : (s.setArb k x).eth = s.eth := rfl
@[simp] theorem State.setArb_log (s : State) (k : Nat) (x : Arb) : (s.setArb k x).log = s.log := rfl
@[simp] theorem State.setArb_sram (s : State) (k : Nat) (x : Arb) : (s.setArb k x).sram = s.sram := rfl
@[simp] theorem State.setArb_lpddr (s : State) (k : Nat) (x : Arb) : (s.setArb k x).lpddr = s.lpddr := rfl
@[simp] theorem State.setArb_poison (s : State) (k : Nat) (x : Arb) : (s.setArb k x).poison = s.poison := rfl
@[simp] theorem State.setArb_sigs (s : State) (k : Nat) (x : Arb) : (s.setArb k x).sigs = s.sigs := rfl
@[simp] theorem State.setArb_rsigs (s : State) (k : Nat) (x : Arb) : (s.setArb k x).rsigs = s.rsigs := rfl
@[simp] theorem State.setArb_bmsgs (s : State) (k : Nat) (x : Arb) : (s.setArb k x).bmsgs = s.bmsgs := rfl
@[simp] theorem State.setArb_hmrefs (s : State) (k : Nat) (x : Arb) : (s.setArb k x).hmrefs = s.hmrefs := rfl
@[simp] theorem State.setArb_tiles (s : State) (k : Nat) (x : Arb) : (s.setArb k x).tiles = s.tiles := rfl
@[simp] theorem State.setArb_readies (s : State) (k : Nat) (x : Arb) : (s.setArb k x).readies = s.readies := rfl
@[simp] theorem State.setArb_gathered (s : State) (k : Nat) (x : Arb) : (s.setArb k x).gathered = s.gathered := rfl
@[simp] theorem State.setArb_vcontribs (s : State) (k : Nat) (x : Arb) : (s.setArb k x).vcontribs = s.vcontribs := rfl
@[simp] theorem State.setArb_inbox (s : State) (k : Nat) (x : Arb) : (s.setArb k x).inbox = s.inbox := rfl
@[simp] theorem State.setArb_bridgeq (s : State) (k : Nat) (x : Arb) : (s.setArb k x).bridgeq = s.bridgeq := rfl
@[simp] theorem State.setArb_wrefused (s : State) (k : Nat) (x : Arb) : (s.setArb k x).wrefused = s.wrefused := rfl
@[simp] theorem State.setArb_wtaken (s : State) (k : Nat) (x : Arb) : (s.setArb k x).wtaken = s.wtaken := rfl
@[simp] theorem State.setArb_breps (s : State) (k : Nat) (x : Arb) : (s.setArb k x).breps = s.breps := rfl
@[simp] theorem State.setArb_lreps (s : State) (k : Nat) (x : Arb) : (s.setArb k x).lreps = s.lreps := rfl
@[simp] theorem State.setArb_ethq (s : State) (k : Nat) (x : Arb) : (s.setArb k x).ethq = s.ethq := rfl
@[simp] theorem State.setArb_out (s : State) (k : Nat) (x : Arb) : (s.setArb k x).out = s.out := rfl
@[simp] theorem State.setArb_draws (s : State) (k : Nat) (x : Arb) : (s.setArb k x).draws = s.draws := rfl
@[simp] theorem State.setArb_cell (s : State) (k : Nat) (x : Arb) (n : Nat) : (s.setArb k x).cell n = s.cell n := rfl
@[simp] theorem State.setArb_block (s : State) (k : Nat) (x : Arb) (n : Nat) : (s.setArb k x).block n = s.block n := rfl
@[simp] theorem State.setArb_engine (s : State) (k : Nat) (x : Arb) (n : Nat) : (s.setArb k x).engine n = s.engine n := rfl
@[simp] theorem State.setArb_qp (s : State) (k : Nat) (x : Arb) (n : Nat) : (s.setArb k x).qp n = s.qp n := rfl
@[simp] theorem State.setArb_mw (s : State) (k : Nat) (x : Arb) (n : Nat) : (s.setArb k x).mw n = s.mw n := rfl
@[simp] theorem State.setArb_slot (s : State) (k : Nat) (x : Arb) (n : Nat) : (s.setArb k x).slot n = s.slot n := rfl
@[simp] theorem State.setArb_setter (s : State) (k : Nat) (x : Arb) (n : Nat) : (s.setArb k x).setter n = s.setter n := rfl
@[simp] theorem State.setArb_adder (s : State) (k : Nat) (x : Arb) (n : Nat) : (s.setArb k x).adder n = s.adder n := rfl
@[simp] theorem State.setArb_aslot (s : State) (k : Nat) (x : Arb) (n : Nat) : (s.setArb k x).aslot n = s.aslot n := rfl
@[simp] theorem State.setArb_region (s : State) (k : Nat) (x : Arb) (n : Nat) : (s.setArb k x).region n = s.region n := rfl
@[simp] theorem State.setArb_port (s : State) (k : Nat) (x : Arb) (n : Nat) : (s.setArb k x).port n = s.port n := rfl
@[simp] theorem State.setArb_part (s : State) (k : Nat) (x : Arb) (n : Nat) : (s.setArb k x).part n = s.part n := rfl
@[simp] theorem State.setArb_sess (s : State) (k : Nat) (x : Arb) (n : Nat) : (s.setArb k x).sess n = s.sess n := rfl
@[simp] theorem State.setArb_cmd (s : State) (k : Nat) (x : Arb) (n : Nat) : (s.setArb k x).cmd n = s.cmd n := rfl

@[simp] theorem reportBlockVia_pending (s : State) (b : Nat) (o q : W32) (cls : W16) (own : Option Nat) (d : W64) : (reportBlockVia s b o q cls own d).pending = s.pending := by
  unfold reportBlockVia; split <;> rfl
@[simp] theorem reportBlockVia_ctl (s : State) (b : Nat) (o q : W32) (cls : W16) (own : Option Nat) (d : W64) : (reportBlockVia s b o q cls own d).ctl = s.ctl := by
  unfold reportBlockVia; split <;> rfl
@[simp] theorem reportBlockVia_cells (s : State) (b : Nat) (o q : W32) (cls : W16) (own : Option Nat) (d : W64) : (reportBlockVia s b o q cls own d).cells = s.cells := by
  unfold reportBlockVia; split <;> rfl
@[simp] theorem reportBlockVia_blocks (s : State) (b : Nat) (o q : W32) (cls : W16) (own : Option Nat) (d : W64) : (reportBlockVia s b o q cls own d).blocks = s.blocks := by
  unfold reportBlockVia; split <;> rfl
@[simp] theorem reportBlockVia_engines (s : State) (b : Nat) (o q : W32) (cls : W16) (own : Option Nat) (d : W64) : (reportBlockVia s b o q cls own d).engines = s.engines := by
  unfold reportBlockVia; split <;> rfl
@[simp] theorem reportBlockVia_qps (s : State) (b : Nat) (o q : W32) (cls : W16) (own : Option Nat) (d : W64) : (reportBlockVia s b o q cls own d).qps = s.qps := by
  unfold reportBlockVia; split <;> rfl
@[simp] theorem reportBlockVia_mws (s : State) (b : Nat) (o q : W32) (cls : W16) (own : Option Nat) (d : W64) : (reportBlockVia s b o q cls own d).mws = s.mws := by
  unfold reportBlockVia; split <;> rfl
@[simp] theorem reportBlockVia_regions (s : State) (b : Nat) (o q : W32) (cls : W16) (own : Option Nat) (d : W64) : (reportBlockVia s b o q cls own d).regions = s.regions := by
  unfold reportBlockVia; split <;> rfl
@[simp] theorem reportBlockVia_slots (s : State) (b : Nat) (o q : W32) (cls : W16) (own : Option Nat) (d : W64) : (reportBlockVia s b o q cls own d).slots = s.slots := by
  unfold reportBlockVia; split <;> rfl
@[simp] theorem reportBlockVia_setters (s : State) (b : Nat) (o q : W32) (cls : W16) (own : Option Nat) (d : W64) : (reportBlockVia s b o q cls own d).setters = s.setters := by
  unfold reportBlockVia; split <;> rfl
@[simp] theorem reportBlockVia_adders (s : State) (b : Nat) (o q : W32) (cls : W16) (own : Option Nat) (d : W64) : (reportBlockVia s b o q cls own d).adders = s.adders := by
  unfold reportBlockVia; split <;> rfl
@[simp] theorem reportBlockVia_aslots (s : State) (b : Nat) (o q : W32) (cls : W16) (own : Option Nat) (d : W64) : (reportBlockVia s b o q cls own d).aslots = s.aslots := by
  unfold reportBlockVia; split <;> rfl
@[simp] theorem reportBlockVia_ports (s : State) (b : Nat) (o q : W32) (cls : W16) (own : Option Nat) (d : W64) : (reportBlockVia s b o q cls own d).ports = s.ports := by
  unfold reportBlockVia; split <;> rfl
@[simp] theorem reportBlockVia_fab (s : State) (b : Nat) (o q : W32) (cls : W16) (own : Option Nat) (d : W64) : (reportBlockVia s b o q cls own d).fab = s.fab := by
  unfold reportBlockVia; split <;> rfl
@[simp] theorem reportBlockVia_arbs (s : State) (b : Nat) (o q : W32) (cls : W16) (own : Option Nat) (d : W64) : (reportBlockVia s b o q cls own d).arbs = s.arbs := by
  unfold reportBlockVia; split <;> rfl
@[simp] theorem reportBlockVia_parts (s : State) (b : Nat) (o q : W32) (cls : W16) (own : Option Nat) (d : W64) : (reportBlockVia s b o q cls own d).parts = s.parts := by
  unfold reportBlockVia; split <;> rfl
@[simp] theorem reportBlockVia_sessions (s : State) (b : Nat) (o q : W32) (cls : W16) (own : Option Nat) (d : W64) : (reportBlockVia s b o q cls own d).sessions = s.sessions := by
  unfold reportBlockVia; split <;> rfl
@[simp] theorem reportBlockVia_cmds (s : State) (b : Nat) (o q : W32) (cls : W16) (own : Option Nat) (d : W64) : (reportBlockVia s b o q cls own d).cmds = s.cmds := by
  unfold reportBlockVia; split <;> rfl
@[simp] theorem reportBlockVia_eth (s : State) (b : Nat) (o q : W32) (cls : W16) (own : Option Nat) (d : W64) : (reportBlockVia s b o q cls own d).eth = s.eth := by
  unfold reportBlockVia; split <;> rfl
@[simp] theorem reportBlockVia_log (s : State) (b : Nat) (o q : W32) (cls : W16) (own : Option Nat) (d : W64) : (reportBlockVia s b o q cls own d).log = s.log := by
  unfold reportBlockVia; split <;> rfl
@[simp] theorem reportBlockVia_sram (s : State) (b : Nat) (o q : W32) (cls : W16) (own : Option Nat) (d : W64) : (reportBlockVia s b o q cls own d).sram = s.sram := by
  unfold reportBlockVia; split <;> rfl
@[simp] theorem reportBlockVia_lpddr (s : State) (b : Nat) (o q : W32) (cls : W16) (own : Option Nat) (d : W64) : (reportBlockVia s b o q cls own d).lpddr = s.lpddr := by
  unfold reportBlockVia; split <;> rfl
@[simp] theorem reportBlockVia_poison (s : State) (b : Nat) (o q : W32) (cls : W16) (own : Option Nat) (d : W64) : (reportBlockVia s b o q cls own d).poison = s.poison := by
  unfold reportBlockVia; split <;> rfl
@[simp] theorem reportBlockVia_sigs (s : State) (b : Nat) (o q : W32) (cls : W16) (own : Option Nat) (d : W64) : (reportBlockVia s b o q cls own d).sigs = s.sigs := by
  unfold reportBlockVia; split <;> rfl
@[simp] theorem reportBlockVia_rsigs (s : State) (b : Nat) (o q : W32) (cls : W16) (own : Option Nat) (d : W64) : (reportBlockVia s b o q cls own d).rsigs = s.rsigs := by
  unfold reportBlockVia; split <;> rfl
@[simp] theorem reportBlockVia_bmsgs (s : State) (b : Nat) (o q : W32) (cls : W16) (own : Option Nat) (d : W64) : (reportBlockVia s b o q cls own d).bmsgs = s.bmsgs := by
  unfold reportBlockVia; split <;> rfl
@[simp] theorem reportBlockVia_hmrefs (s : State) (b : Nat) (o q : W32) (cls : W16) (own : Option Nat) (d : W64) : (reportBlockVia s b o q cls own d).hmrefs = s.hmrefs := by
  unfold reportBlockVia; split <;> rfl
@[simp] theorem reportBlockVia_tiles (s : State) (b : Nat) (o q : W32) (cls : W16) (own : Option Nat) (d : W64) : (reportBlockVia s b o q cls own d).tiles = s.tiles := by
  unfold reportBlockVia; split <;> rfl
@[simp] theorem reportBlockVia_readies (s : State) (b : Nat) (o q : W32) (cls : W16) (own : Option Nat) (d : W64) : (reportBlockVia s b o q cls own d).readies = s.readies := by
  unfold reportBlockVia; split <;> rfl
@[simp] theorem reportBlockVia_gathered (s : State) (b : Nat) (o q : W32) (cls : W16) (own : Option Nat) (d : W64) : (reportBlockVia s b o q cls own d).gathered = s.gathered := by
  unfold reportBlockVia; split <;> rfl
@[simp] theorem reportBlockVia_vcontribs (s : State) (b : Nat) (o q : W32) (cls : W16) (own : Option Nat) (d : W64) : (reportBlockVia s b o q cls own d).vcontribs = s.vcontribs := by
  unfold reportBlockVia; split <;> rfl
@[simp] theorem reportBlockVia_inbox (s : State) (b : Nat) (o q : W32) (cls : W16) (own : Option Nat) (d : W64) : (reportBlockVia s b o q cls own d).inbox = s.inbox := by
  unfold reportBlockVia; split <;> rfl
@[simp] theorem reportBlockVia_bridgeq (s : State) (b : Nat) (o q : W32) (cls : W16) (own : Option Nat) (d : W64) : (reportBlockVia s b o q cls own d).bridgeq = s.bridgeq := by
  unfold reportBlockVia; split <;> rfl
@[simp] theorem reportBlockVia_wrefused (s : State) (b : Nat) (o q : W32) (cls : W16) (own : Option Nat) (d : W64) : (reportBlockVia s b o q cls own d).wrefused = s.wrefused := by
  unfold reportBlockVia; split <;> rfl
@[simp] theorem reportBlockVia_wtaken (s : State) (b : Nat) (o q : W32) (cls : W16) (own : Option Nat) (d : W64) : (reportBlockVia s b o q cls own d).wtaken = s.wtaken := by
  unfold reportBlockVia; split <;> rfl
@[simp] theorem reportBlockVia_lreps (s : State) (b : Nat) (o q : W32) (cls : W16) (own : Option Nat) (d : W64) : (reportBlockVia s b o q cls own d).lreps = s.lreps := by
  unfold reportBlockVia; split <;> rfl
@[simp] theorem reportBlockVia_ethq (s : State) (b : Nat) (o q : W32) (cls : W16) (own : Option Nat) (d : W64) : (reportBlockVia s b o q cls own d).ethq = s.ethq := by
  unfold reportBlockVia; split <;> rfl
@[simp] theorem reportBlockVia_out (s : State) (b : Nat) (o q : W32) (cls : W16) (own : Option Nat) (d : W64) : (reportBlockVia s b o q cls own d).out = s.out := by
  unfold reportBlockVia; split <;> rfl
@[simp] theorem reportBlockVia_draws (s : State) (b : Nat) (o q : W32) (cls : W16) (own : Option Nat) (d : W64) : (reportBlockVia s b o q cls own d).draws = s.draws := by
  unfold reportBlockVia; split <;> rfl
@[simp] theorem reportBlockVia_cell (s : State) (b : Nat) (o q : W32) (cls : W16) (own : Option Nat) (d : W64) (n : Nat) : (reportBlockVia s b o q cls own d).cell n = s.cell n := by simp [State.cell]
@[simp] theorem reportBlockVia_block (s : State) (b : Nat) (o q : W32) (cls : W16) (own : Option Nat) (d : W64) (n : Nat) : (reportBlockVia s b o q cls own d).block n = s.block n := by simp [State.block]
@[simp] theorem reportBlockVia_engine (s : State) (b : Nat) (o q : W32) (cls : W16) (own : Option Nat) (d : W64) (n : Nat) : (reportBlockVia s b o q cls own d).engine n = s.engine n := by simp [State.engine]
@[simp] theorem reportBlockVia_qp (s : State) (b : Nat) (o q : W32) (cls : W16) (own : Option Nat) (d : W64) (n : Nat) : (reportBlockVia s b o q cls own d).qp n = s.qp n := by simp [State.qp]
@[simp] theorem reportBlockVia_mw (s : State) (b : Nat) (o q : W32) (cls : W16) (own : Option Nat) (d : W64) (n : Nat) : (reportBlockVia s b o q cls own d).mw n = s.mw n := by simp [State.mw]
@[simp] theorem reportBlockVia_slot (s : State) (b : Nat) (o q : W32) (cls : W16) (own : Option Nat) (d : W64) (n : Nat) : (reportBlockVia s b o q cls own d).slot n = s.slot n := by simp [State.slot]
@[simp] theorem reportBlockVia_setter (s : State) (b : Nat) (o q : W32) (cls : W16) (own : Option Nat) (d : W64) (n : Nat) : (reportBlockVia s b o q cls own d).setter n = s.setter n := by simp [State.setter]
@[simp] theorem reportBlockVia_adder (s : State) (b : Nat) (o q : W32) (cls : W16) (own : Option Nat) (d : W64) (n : Nat) : (reportBlockVia s b o q cls own d).adder n = s.adder n := by simp [State.adder]
@[simp] theorem reportBlockVia_aslot (s : State) (b : Nat) (o q : W32) (cls : W16) (own : Option Nat) (d : W64) (n : Nat) : (reportBlockVia s b o q cls own d).aslot n = s.aslot n := by simp [State.aslot]
@[simp] theorem reportBlockVia_region (s : State) (b : Nat) (o q : W32) (cls : W16) (own : Option Nat) (d : W64) (n : Nat) : (reportBlockVia s b o q cls own d).region n = s.region n := by simp [State.region]
@[simp] theorem reportBlockVia_port (s : State) (b : Nat) (o q : W32) (cls : W16) (own : Option Nat) (d : W64) (n : Nat) : (reportBlockVia s b o q cls own d).port n = s.port n := by simp [State.port]
@[simp] theorem reportBlockVia_part (s : State) (b : Nat) (o q : W32) (cls : W16) (own : Option Nat) (d : W64) (n : Nat) : (reportBlockVia s b o q cls own d).part n = s.part n := by simp [State.part]
@[simp] theorem reportBlockVia_sess (s : State) (b : Nat) (o q : W32) (cls : W16) (own : Option Nat) (d : W64) (n : Nat) : (reportBlockVia s b o q cls own d).sess n = s.sess n := by simp [State.sess]
@[simp] theorem reportBlockVia_cmd (s : State) (b : Nat) (o q : W32) (cls : W16) (own : Option Nat) (d : W64) (n : Nat) : (reportBlockVia s b o q cls own d).cmd n = s.cmd n := by simp [State.cmd]
@[simp] theorem reportBlockVia_arb (s : State) (b : Nat) (o q : W32) (cls : W16) (own : Option Nat) (d : W64) (n : Nat) : (reportBlockVia s b o q cls own d).arb n = s.arb n := by simp [State.arb]

@[simp] theorem reportBlock_pending (s : State) (b : Nat) (o : W32) (cls : W16) (own : Option Nat) (d : W64) : (reportBlock s b o cls own d).pending = s.pending := reportBlockVia_pending s b o o cls own d
@[simp] theorem reportBlock_ctl (s : State) (b : Nat) (o : W32) (cls : W16) (own : Option Nat) (d : W64) : (reportBlock s b o cls own d).ctl = s.ctl := reportBlockVia_ctl s b o o cls own d
@[simp] theorem reportBlock_cells (s : State) (b : Nat) (o : W32) (cls : W16) (own : Option Nat) (d : W64) : (reportBlock s b o cls own d).cells = s.cells := reportBlockVia_cells s b o o cls own d
@[simp] theorem reportBlock_blocks (s : State) (b : Nat) (o : W32) (cls : W16) (own : Option Nat) (d : W64) : (reportBlock s b o cls own d).blocks = s.blocks := reportBlockVia_blocks s b o o cls own d
@[simp] theorem reportBlock_engines (s : State) (b : Nat) (o : W32) (cls : W16) (own : Option Nat) (d : W64) : (reportBlock s b o cls own d).engines = s.engines := reportBlockVia_engines s b o o cls own d
@[simp] theorem reportBlock_qps (s : State) (b : Nat) (o : W32) (cls : W16) (own : Option Nat) (d : W64) : (reportBlock s b o cls own d).qps = s.qps := reportBlockVia_qps s b o o cls own d
@[simp] theorem reportBlock_mws (s : State) (b : Nat) (o : W32) (cls : W16) (own : Option Nat) (d : W64) : (reportBlock s b o cls own d).mws = s.mws := reportBlockVia_mws s b o o cls own d
@[simp] theorem reportBlock_regions (s : State) (b : Nat) (o : W32) (cls : W16) (own : Option Nat) (d : W64) : (reportBlock s b o cls own d).regions = s.regions := reportBlockVia_regions s b o o cls own d
@[simp] theorem reportBlock_slots (s : State) (b : Nat) (o : W32) (cls : W16) (own : Option Nat) (d : W64) : (reportBlock s b o cls own d).slots = s.slots := reportBlockVia_slots s b o o cls own d
@[simp] theorem reportBlock_setters (s : State) (b : Nat) (o : W32) (cls : W16) (own : Option Nat) (d : W64) : (reportBlock s b o cls own d).setters = s.setters := reportBlockVia_setters s b o o cls own d
@[simp] theorem reportBlock_adders (s : State) (b : Nat) (o : W32) (cls : W16) (own : Option Nat) (d : W64) : (reportBlock s b o cls own d).adders = s.adders := reportBlockVia_adders s b o o cls own d
@[simp] theorem reportBlock_aslots (s : State) (b : Nat) (o : W32) (cls : W16) (own : Option Nat) (d : W64) : (reportBlock s b o cls own d).aslots = s.aslots := reportBlockVia_aslots s b o o cls own d
@[simp] theorem reportBlock_ports (s : State) (b : Nat) (o : W32) (cls : W16) (own : Option Nat) (d : W64) : (reportBlock s b o cls own d).ports = s.ports := reportBlockVia_ports s b o o cls own d
@[simp] theorem reportBlock_fab (s : State) (b : Nat) (o : W32) (cls : W16) (own : Option Nat) (d : W64) : (reportBlock s b o cls own d).fab = s.fab := reportBlockVia_fab s b o o cls own d
@[simp] theorem reportBlock_arbs (s : State) (b : Nat) (o : W32) (cls : W16) (own : Option Nat) (d : W64) : (reportBlock s b o cls own d).arbs = s.arbs := reportBlockVia_arbs s b o o cls own d
@[simp] theorem reportBlock_parts (s : State) (b : Nat) (o : W32) (cls : W16) (own : Option Nat) (d : W64) : (reportBlock s b o cls own d).parts = s.parts := reportBlockVia_parts s b o o cls own d
@[simp] theorem reportBlock_sessions (s : State) (b : Nat) (o : W32) (cls : W16) (own : Option Nat) (d : W64) : (reportBlock s b o cls own d).sessions = s.sessions := reportBlockVia_sessions s b o o cls own d
@[simp] theorem reportBlock_cmds (s : State) (b : Nat) (o : W32) (cls : W16) (own : Option Nat) (d : W64) : (reportBlock s b o cls own d).cmds = s.cmds := reportBlockVia_cmds s b o o cls own d
@[simp] theorem reportBlock_eth (s : State) (b : Nat) (o : W32) (cls : W16) (own : Option Nat) (d : W64) : (reportBlock s b o cls own d).eth = s.eth := reportBlockVia_eth s b o o cls own d
@[simp] theorem reportBlock_log (s : State) (b : Nat) (o : W32) (cls : W16) (own : Option Nat) (d : W64) : (reportBlock s b o cls own d).log = s.log := reportBlockVia_log s b o o cls own d
@[simp] theorem reportBlock_sram (s : State) (b : Nat) (o : W32) (cls : W16) (own : Option Nat) (d : W64) : (reportBlock s b o cls own d).sram = s.sram := reportBlockVia_sram s b o o cls own d
@[simp] theorem reportBlock_lpddr (s : State) (b : Nat) (o : W32) (cls : W16) (own : Option Nat) (d : W64) : (reportBlock s b o cls own d).lpddr = s.lpddr := reportBlockVia_lpddr s b o o cls own d
@[simp] theorem reportBlock_poison (s : State) (b : Nat) (o : W32) (cls : W16) (own : Option Nat) (d : W64) : (reportBlock s b o cls own d).poison = s.poison := reportBlockVia_poison s b o o cls own d
@[simp] theorem reportBlock_sigs (s : State) (b : Nat) (o : W32) (cls : W16) (own : Option Nat) (d : W64) : (reportBlock s b o cls own d).sigs = s.sigs := reportBlockVia_sigs s b o o cls own d
@[simp] theorem reportBlock_rsigs (s : State) (b : Nat) (o : W32) (cls : W16) (own : Option Nat) (d : W64) : (reportBlock s b o cls own d).rsigs = s.rsigs := reportBlockVia_rsigs s b o o cls own d
@[simp] theorem reportBlock_bmsgs (s : State) (b : Nat) (o : W32) (cls : W16) (own : Option Nat) (d : W64) : (reportBlock s b o cls own d).bmsgs = s.bmsgs := reportBlockVia_bmsgs s b o o cls own d
@[simp] theorem reportBlock_hmrefs (s : State) (b : Nat) (o : W32) (cls : W16) (own : Option Nat) (d : W64) : (reportBlock s b o cls own d).hmrefs = s.hmrefs := reportBlockVia_hmrefs s b o o cls own d
@[simp] theorem reportBlock_tiles (s : State) (b : Nat) (o : W32) (cls : W16) (own : Option Nat) (d : W64) : (reportBlock s b o cls own d).tiles = s.tiles := reportBlockVia_tiles s b o o cls own d
@[simp] theorem reportBlock_readies (s : State) (b : Nat) (o : W32) (cls : W16) (own : Option Nat) (d : W64) : (reportBlock s b o cls own d).readies = s.readies := reportBlockVia_readies s b o o cls own d
@[simp] theorem reportBlock_gathered (s : State) (b : Nat) (o : W32) (cls : W16) (own : Option Nat) (d : W64) : (reportBlock s b o cls own d).gathered = s.gathered := reportBlockVia_gathered s b o o cls own d
@[simp] theorem reportBlock_vcontribs (s : State) (b : Nat) (o : W32) (cls : W16) (own : Option Nat) (d : W64) : (reportBlock s b o cls own d).vcontribs = s.vcontribs := reportBlockVia_vcontribs s b o o cls own d
@[simp] theorem reportBlock_inbox (s : State) (b : Nat) (o : W32) (cls : W16) (own : Option Nat) (d : W64) : (reportBlock s b o cls own d).inbox = s.inbox := reportBlockVia_inbox s b o o cls own d
@[simp] theorem reportBlock_bridgeq (s : State) (b : Nat) (o : W32) (cls : W16) (own : Option Nat) (d : W64) : (reportBlock s b o cls own d).bridgeq = s.bridgeq := reportBlockVia_bridgeq s b o o cls own d
@[simp] theorem reportBlock_wrefused (s : State) (b : Nat) (o : W32) (cls : W16) (own : Option Nat) (d : W64) : (reportBlock s b o cls own d).wrefused = s.wrefused := reportBlockVia_wrefused s b o o cls own d
@[simp] theorem reportBlock_wtaken (s : State) (b : Nat) (o : W32) (cls : W16) (own : Option Nat) (d : W64) : (reportBlock s b o cls own d).wtaken = s.wtaken := reportBlockVia_wtaken s b o o cls own d
@[simp] theorem reportBlock_lreps (s : State) (b : Nat) (o : W32) (cls : W16) (own : Option Nat) (d : W64) : (reportBlock s b o cls own d).lreps = s.lreps := reportBlockVia_lreps s b o o cls own d
@[simp] theorem reportBlock_ethq (s : State) (b : Nat) (o : W32) (cls : W16) (own : Option Nat) (d : W64) : (reportBlock s b o cls own d).ethq = s.ethq := reportBlockVia_ethq s b o o cls own d
@[simp] theorem reportBlock_out (s : State) (b : Nat) (o : W32) (cls : W16) (own : Option Nat) (d : W64) : (reportBlock s b o cls own d).out = s.out := reportBlockVia_out s b o o cls own d
@[simp] theorem reportBlock_draws (s : State) (b : Nat) (o : W32) (cls : W16) (own : Option Nat) (d : W64) : (reportBlock s b o cls own d).draws = s.draws := reportBlockVia_draws s b o o cls own d
@[simp] theorem reportBlock_cell (s : State) (b : Nat) (o : W32) (cls : W16) (own : Option Nat) (d : W64) (n : Nat) : (reportBlock s b o cls own d).cell n = s.cell n := by simp [State.cell]
@[simp] theorem reportBlock_block (s : State) (b : Nat) (o : W32) (cls : W16) (own : Option Nat) (d : W64) (n : Nat) : (reportBlock s b o cls own d).block n = s.block n := by simp [State.block]
@[simp] theorem reportBlock_engine (s : State) (b : Nat) (o : W32) (cls : W16) (own : Option Nat) (d : W64) (n : Nat) : (reportBlock s b o cls own d).engine n = s.engine n := by simp [State.engine]
@[simp] theorem reportBlock_qp (s : State) (b : Nat) (o : W32) (cls : W16) (own : Option Nat) (d : W64) (n : Nat) : (reportBlock s b o cls own d).qp n = s.qp n := by simp [State.qp]
@[simp] theorem reportBlock_mw (s : State) (b : Nat) (o : W32) (cls : W16) (own : Option Nat) (d : W64) (n : Nat) : (reportBlock s b o cls own d).mw n = s.mw n := by simp [State.mw]
@[simp] theorem reportBlock_slot (s : State) (b : Nat) (o : W32) (cls : W16) (own : Option Nat) (d : W64) (n : Nat) : (reportBlock s b o cls own d).slot n = s.slot n := by simp [State.slot]
@[simp] theorem reportBlock_setter (s : State) (b : Nat) (o : W32) (cls : W16) (own : Option Nat) (d : W64) (n : Nat) : (reportBlock s b o cls own d).setter n = s.setter n := by simp [State.setter]
@[simp] theorem reportBlock_adder (s : State) (b : Nat) (o : W32) (cls : W16) (own : Option Nat) (d : W64) (n : Nat) : (reportBlock s b o cls own d).adder n = s.adder n := by simp [State.adder]
@[simp] theorem reportBlock_aslot (s : State) (b : Nat) (o : W32) (cls : W16) (own : Option Nat) (d : W64) (n : Nat) : (reportBlock s b o cls own d).aslot n = s.aslot n := by simp [State.aslot]
@[simp] theorem reportBlock_region (s : State) (b : Nat) (o : W32) (cls : W16) (own : Option Nat) (d : W64) (n : Nat) : (reportBlock s b o cls own d).region n = s.region n := by simp [State.region]
@[simp] theorem reportBlock_port (s : State) (b : Nat) (o : W32) (cls : W16) (own : Option Nat) (d : W64) (n : Nat) : (reportBlock s b o cls own d).port n = s.port n := by simp [State.port]
@[simp] theorem reportBlock_part (s : State) (b : Nat) (o : W32) (cls : W16) (own : Option Nat) (d : W64) (n : Nat) : (reportBlock s b o cls own d).part n = s.part n := by simp [State.part]
@[simp] theorem reportBlock_sess (s : State) (b : Nat) (o : W32) (cls : W16) (own : Option Nat) (d : W64) (n : Nat) : (reportBlock s b o cls own d).sess n = s.sess n := by simp [State.sess]
@[simp] theorem reportBlock_cmd (s : State) (b : Nat) (o : W32) (cls : W16) (own : Option Nat) (d : W64) (n : Nat) : (reportBlock s b o cls own d).cmd n = s.cmd n := by simp [State.cmd]
@[simp] theorem reportBlock_arb (s : State) (b : Nat) (o : W32) (cls : W16) (own : Option Nat) (d : W64) (n : Nat) : (reportBlock s b o cls own d).arb n = s.arb n := by simp [State.arb]

@[simp] theorem reportLog_pending (s : State) (o q : W32) (cls : W16) (own : Option Nat) (d : W64) : (reportLog s o q cls own d).pending = s.pending := rfl
@[simp] theorem reportLog_ctl (s : State) (o q : W32) (cls : W16) (own : Option Nat) (d : W64) : (reportLog s o q cls own d).ctl = s.ctl := rfl
@[simp] theorem reportLog_cells (s : State) (o q : W32) (cls : W16) (own : Option Nat) (d : W64) : (reportLog s o q cls own d).cells = s.cells := rfl
@[simp] theorem reportLog_blocks (s : State) (o q : W32) (cls : W16) (own : Option Nat) (d : W64) : (reportLog s o q cls own d).blocks = s.blocks := rfl
@[simp] theorem reportLog_engines (s : State) (o q : W32) (cls : W16) (own : Option Nat) (d : W64) : (reportLog s o q cls own d).engines = s.engines := rfl
@[simp] theorem reportLog_qps (s : State) (o q : W32) (cls : W16) (own : Option Nat) (d : W64) : (reportLog s o q cls own d).qps = s.qps := rfl
@[simp] theorem reportLog_mws (s : State) (o q : W32) (cls : W16) (own : Option Nat) (d : W64) : (reportLog s o q cls own d).mws = s.mws := rfl
@[simp] theorem reportLog_regions (s : State) (o q : W32) (cls : W16) (own : Option Nat) (d : W64) : (reportLog s o q cls own d).regions = s.regions := rfl
@[simp] theorem reportLog_slots (s : State) (o q : W32) (cls : W16) (own : Option Nat) (d : W64) : (reportLog s o q cls own d).slots = s.slots := rfl
@[simp] theorem reportLog_setters (s : State) (o q : W32) (cls : W16) (own : Option Nat) (d : W64) : (reportLog s o q cls own d).setters = s.setters := rfl
@[simp] theorem reportLog_adders (s : State) (o q : W32) (cls : W16) (own : Option Nat) (d : W64) : (reportLog s o q cls own d).adders = s.adders := rfl
@[simp] theorem reportLog_aslots (s : State) (o q : W32) (cls : W16) (own : Option Nat) (d : W64) : (reportLog s o q cls own d).aslots = s.aslots := rfl
@[simp] theorem reportLog_ports (s : State) (o q : W32) (cls : W16) (own : Option Nat) (d : W64) : (reportLog s o q cls own d).ports = s.ports := rfl
@[simp] theorem reportLog_fab (s : State) (o q : W32) (cls : W16) (own : Option Nat) (d : W64) : (reportLog s o q cls own d).fab = s.fab := rfl
@[simp] theorem reportLog_arbs (s : State) (o q : W32) (cls : W16) (own : Option Nat) (d : W64) : (reportLog s o q cls own d).arbs = s.arbs := rfl
@[simp] theorem reportLog_parts (s : State) (o q : W32) (cls : W16) (own : Option Nat) (d : W64) : (reportLog s o q cls own d).parts = s.parts := rfl
@[simp] theorem reportLog_sessions (s : State) (o q : W32) (cls : W16) (own : Option Nat) (d : W64) : (reportLog s o q cls own d).sessions = s.sessions := rfl
@[simp] theorem reportLog_cmds (s : State) (o q : W32) (cls : W16) (own : Option Nat) (d : W64) : (reportLog s o q cls own d).cmds = s.cmds := rfl
@[simp] theorem reportLog_eth (s : State) (o q : W32) (cls : W16) (own : Option Nat) (d : W64) : (reportLog s o q cls own d).eth = s.eth := rfl
@[simp] theorem reportLog_log (s : State) (o q : W32) (cls : W16) (own : Option Nat) (d : W64) : (reportLog s o q cls own d).log = s.log := rfl
@[simp] theorem reportLog_sram (s : State) (o q : W32) (cls : W16) (own : Option Nat) (d : W64) : (reportLog s o q cls own d).sram = s.sram := rfl
@[simp] theorem reportLog_lpddr (s : State) (o q : W32) (cls : W16) (own : Option Nat) (d : W64) : (reportLog s o q cls own d).lpddr = s.lpddr := rfl
@[simp] theorem reportLog_poison (s : State) (o q : W32) (cls : W16) (own : Option Nat) (d : W64) : (reportLog s o q cls own d).poison = s.poison := rfl
@[simp] theorem reportLog_sigs (s : State) (o q : W32) (cls : W16) (own : Option Nat) (d : W64) : (reportLog s o q cls own d).sigs = s.sigs := rfl
@[simp] theorem reportLog_rsigs (s : State) (o q : W32) (cls : W16) (own : Option Nat) (d : W64) : (reportLog s o q cls own d).rsigs = s.rsigs := rfl
@[simp] theorem reportLog_bmsgs (s : State) (o q : W32) (cls : W16) (own : Option Nat) (d : W64) : (reportLog s o q cls own d).bmsgs = s.bmsgs := rfl
@[simp] theorem reportLog_hmrefs (s : State) (o q : W32) (cls : W16) (own : Option Nat) (d : W64) : (reportLog s o q cls own d).hmrefs = s.hmrefs := rfl
@[simp] theorem reportLog_tiles (s : State) (o q : W32) (cls : W16) (own : Option Nat) (d : W64) : (reportLog s o q cls own d).tiles = s.tiles := rfl
@[simp] theorem reportLog_readies (s : State) (o q : W32) (cls : W16) (own : Option Nat) (d : W64) : (reportLog s o q cls own d).readies = s.readies := rfl
@[simp] theorem reportLog_gathered (s : State) (o q : W32) (cls : W16) (own : Option Nat) (d : W64) : (reportLog s o q cls own d).gathered = s.gathered := rfl
@[simp] theorem reportLog_vcontribs (s : State) (o q : W32) (cls : W16) (own : Option Nat) (d : W64) : (reportLog s o q cls own d).vcontribs = s.vcontribs := rfl
@[simp] theorem reportLog_inbox (s : State) (o q : W32) (cls : W16) (own : Option Nat) (d : W64) : (reportLog s o q cls own d).inbox = s.inbox := rfl
@[simp] theorem reportLog_bridgeq (s : State) (o q : W32) (cls : W16) (own : Option Nat) (d : W64) : (reportLog s o q cls own d).bridgeq = s.bridgeq := rfl
@[simp] theorem reportLog_wrefused (s : State) (o q : W32) (cls : W16) (own : Option Nat) (d : W64) : (reportLog s o q cls own d).wrefused = s.wrefused := rfl
@[simp] theorem reportLog_wtaken (s : State) (o q : W32) (cls : W16) (own : Option Nat) (d : W64) : (reportLog s o q cls own d).wtaken = s.wtaken := rfl
@[simp] theorem reportLog_breps (s : State) (o q : W32) (cls : W16) (own : Option Nat) (d : W64) : (reportLog s o q cls own d).breps = s.breps := rfl
@[simp] theorem reportLog_ethq (s : State) (o q : W32) (cls : W16) (own : Option Nat) (d : W64) : (reportLog s o q cls own d).ethq = s.ethq := rfl
@[simp] theorem reportLog_out (s : State) (o q : W32) (cls : W16) (own : Option Nat) (d : W64) : (reportLog s o q cls own d).out = s.out := rfl
@[simp] theorem reportLog_draws (s : State) (o q : W32) (cls : W16) (own : Option Nat) (d : W64) : (reportLog s o q cls own d).draws = s.draws := rfl
@[simp] theorem reportLog_cell (s : State) (o q : W32) (cls : W16) (own : Option Nat) (d : W64) (n : Nat) : (reportLog s o q cls own d).cell n = s.cell n := rfl
@[simp] theorem reportLog_block (s : State) (o q : W32) (cls : W16) (own : Option Nat) (d : W64) (n : Nat) : (reportLog s o q cls own d).block n = s.block n := rfl
@[simp] theorem reportLog_engine (s : State) (o q : W32) (cls : W16) (own : Option Nat) (d : W64) (n : Nat) : (reportLog s o q cls own d).engine n = s.engine n := rfl
@[simp] theorem reportLog_qp (s : State) (o q : W32) (cls : W16) (own : Option Nat) (d : W64) (n : Nat) : (reportLog s o q cls own d).qp n = s.qp n := rfl
@[simp] theorem reportLog_mw (s : State) (o q : W32) (cls : W16) (own : Option Nat) (d : W64) (n : Nat) : (reportLog s o q cls own d).mw n = s.mw n := rfl
@[simp] theorem reportLog_slot (s : State) (o q : W32) (cls : W16) (own : Option Nat) (d : W64) (n : Nat) : (reportLog s o q cls own d).slot n = s.slot n := rfl
@[simp] theorem reportLog_setter (s : State) (o q : W32) (cls : W16) (own : Option Nat) (d : W64) (n : Nat) : (reportLog s o q cls own d).setter n = s.setter n := rfl
@[simp] theorem reportLog_adder (s : State) (o q : W32) (cls : W16) (own : Option Nat) (d : W64) (n : Nat) : (reportLog s o q cls own d).adder n = s.adder n := rfl
@[simp] theorem reportLog_aslot (s : State) (o q : W32) (cls : W16) (own : Option Nat) (d : W64) (n : Nat) : (reportLog s o q cls own d).aslot n = s.aslot n := rfl
@[simp] theorem reportLog_region (s : State) (o q : W32) (cls : W16) (own : Option Nat) (d : W64) (n : Nat) : (reportLog s o q cls own d).region n = s.region n := rfl
@[simp] theorem reportLog_port (s : State) (o q : W32) (cls : W16) (own : Option Nat) (d : W64) (n : Nat) : (reportLog s o q cls own d).port n = s.port n := rfl
@[simp] theorem reportLog_part (s : State) (o q : W32) (cls : W16) (own : Option Nat) (d : W64) (n : Nat) : (reportLog s o q cls own d).part n = s.part n := rfl
@[simp] theorem reportLog_sess (s : State) (o q : W32) (cls : W16) (own : Option Nat) (d : W64) (n : Nat) : (reportLog s o q cls own d).sess n = s.sess n := rfl
@[simp] theorem reportLog_cmd (s : State) (o q : W32) (cls : W16) (own : Option Nat) (d : W64) (n : Nat) : (reportLog s o q cls own d).cmd n = s.cmd n := rfl
@[simp] theorem reportLog_arb (s : State) (o q : W32) (cls : W16) (own : Option Nat) (d : W64) (n : Nat) : (reportLog s o q cls own d).arb n = s.arb n := rfl

@[simp] theorem countPart_pending (s : State) (p : Option Nat) (k v : Nat) : (countPart s p k v).pending = s.pending := by
  cases p <;> rfl
@[simp] theorem countPart_ctl (s : State) (p : Option Nat) (k v : Nat) : (countPart s p k v).ctl = s.ctl := by
  cases p <;> rfl
@[simp] theorem countPart_cells (s : State) (p : Option Nat) (k v : Nat) : (countPart s p k v).cells = s.cells := by
  cases p <;> rfl
@[simp] theorem countPart_blocks (s : State) (p : Option Nat) (k v : Nat) : (countPart s p k v).blocks = s.blocks := by
  cases p <;> rfl
@[simp] theorem countPart_engines (s : State) (p : Option Nat) (k v : Nat) : (countPart s p k v).engines = s.engines := by
  cases p <;> rfl
@[simp] theorem countPart_qps (s : State) (p : Option Nat) (k v : Nat) : (countPart s p k v).qps = s.qps := by
  cases p <;> rfl
@[simp] theorem countPart_mws (s : State) (p : Option Nat) (k v : Nat) : (countPart s p k v).mws = s.mws := by
  cases p <;> rfl
@[simp] theorem countPart_regions (s : State) (p : Option Nat) (k v : Nat) : (countPart s p k v).regions = s.regions := by
  cases p <;> rfl
@[simp] theorem countPart_slots (s : State) (p : Option Nat) (k v : Nat) : (countPart s p k v).slots = s.slots := by
  cases p <;> rfl
@[simp] theorem countPart_setters (s : State) (p : Option Nat) (k v : Nat) : (countPart s p k v).setters = s.setters := by
  cases p <;> rfl
@[simp] theorem countPart_adders (s : State) (p : Option Nat) (k v : Nat) : (countPart s p k v).adders = s.adders := by
  cases p <;> rfl
@[simp] theorem countPart_aslots (s : State) (p : Option Nat) (k v : Nat) : (countPart s p k v).aslots = s.aslots := by
  cases p <;> rfl
@[simp] theorem countPart_ports (s : State) (p : Option Nat) (k v : Nat) : (countPart s p k v).ports = s.ports := by
  cases p <;> rfl
@[simp] theorem countPart_fab (s : State) (p : Option Nat) (k v : Nat) : (countPart s p k v).fab = s.fab := by
  cases p <;> rfl
@[simp] theorem countPart_arbs (s : State) (p : Option Nat) (k v : Nat) : (countPart s p k v).arbs = s.arbs := by
  cases p <;> rfl
@[simp] theorem countPart_sessions (s : State) (p : Option Nat) (k v : Nat) : (countPart s p k v).sessions = s.sessions := by
  cases p <;> rfl
@[simp] theorem countPart_cmds (s : State) (p : Option Nat) (k v : Nat) : (countPart s p k v).cmds = s.cmds := by
  cases p <;> rfl
@[simp] theorem countPart_eth (s : State) (p : Option Nat) (k v : Nat) : (countPart s p k v).eth = s.eth := by
  cases p <;> rfl
@[simp] theorem countPart_log (s : State) (p : Option Nat) (k v : Nat) : (countPart s p k v).log = s.log := by
  cases p <;> rfl
@[simp] theorem countPart_sram (s : State) (p : Option Nat) (k v : Nat) : (countPart s p k v).sram = s.sram := by
  cases p <;> rfl
@[simp] theorem countPart_lpddr (s : State) (p : Option Nat) (k v : Nat) : (countPart s p k v).lpddr = s.lpddr := by
  cases p <;> rfl
@[simp] theorem countPart_poison (s : State) (p : Option Nat) (k v : Nat) : (countPart s p k v).poison = s.poison := by
  cases p <;> rfl
@[simp] theorem countPart_sigs (s : State) (p : Option Nat) (k v : Nat) : (countPart s p k v).sigs = s.sigs := by
  cases p <;> rfl
@[simp] theorem countPart_rsigs (s : State) (p : Option Nat) (k v : Nat) : (countPart s p k v).rsigs = s.rsigs := by
  cases p <;> rfl
@[simp] theorem countPart_bmsgs (s : State) (p : Option Nat) (k v : Nat) : (countPart s p k v).bmsgs = s.bmsgs := by
  cases p <;> rfl
@[simp] theorem countPart_hmrefs (s : State) (p : Option Nat) (k v : Nat) : (countPart s p k v).hmrefs = s.hmrefs := by
  cases p <;> rfl
@[simp] theorem countPart_tiles (s : State) (p : Option Nat) (k v : Nat) : (countPart s p k v).tiles = s.tiles := by
  cases p <;> rfl
@[simp] theorem countPart_readies (s : State) (p : Option Nat) (k v : Nat) : (countPart s p k v).readies = s.readies := by
  cases p <;> rfl
@[simp] theorem countPart_gathered (s : State) (p : Option Nat) (k v : Nat) : (countPart s p k v).gathered = s.gathered := by
  cases p <;> rfl
@[simp] theorem countPart_vcontribs (s : State) (p : Option Nat) (k v : Nat) : (countPart s p k v).vcontribs = s.vcontribs := by
  cases p <;> rfl
@[simp] theorem countPart_inbox (s : State) (p : Option Nat) (k v : Nat) : (countPart s p k v).inbox = s.inbox := by
  cases p <;> rfl
@[simp] theorem countPart_bridgeq (s : State) (p : Option Nat) (k v : Nat) : (countPart s p k v).bridgeq = s.bridgeq := by
  cases p <;> rfl
@[simp] theorem countPart_wrefused (s : State) (p : Option Nat) (k v : Nat) : (countPart s p k v).wrefused = s.wrefused := by
  cases p <;> rfl
@[simp] theorem countPart_wtaken (s : State) (p : Option Nat) (k v : Nat) : (countPart s p k v).wtaken = s.wtaken := by
  cases p <;> rfl
@[simp] theorem countPart_breps (s : State) (p : Option Nat) (k v : Nat) : (countPart s p k v).breps = s.breps := by
  cases p <;> rfl
@[simp] theorem countPart_lreps (s : State) (p : Option Nat) (k v : Nat) : (countPart s p k v).lreps = s.lreps := by
  cases p <;> rfl
@[simp] theorem countPart_ethq (s : State) (p : Option Nat) (k v : Nat) : (countPart s p k v).ethq = s.ethq := by
  cases p <;> rfl
@[simp] theorem countPart_out (s : State) (p : Option Nat) (k v : Nat) : (countPart s p k v).out = s.out := by
  cases p <;> rfl
@[simp] theorem countPart_draws (s : State) (p : Option Nat) (k v : Nat) : (countPart s p k v).draws = s.draws := by
  cases p <;> rfl
@[simp] theorem countPart_cell (s : State) (p : Option Nat) (k v : Nat) (n : Nat) : (countPart s p k v).cell n = s.cell n := by simp [State.cell]
@[simp] theorem countPart_block (s : State) (p : Option Nat) (k v : Nat) (n : Nat) : (countPart s p k v).block n = s.block n := by simp [State.block]
@[simp] theorem countPart_engine (s : State) (p : Option Nat) (k v : Nat) (n : Nat) : (countPart s p k v).engine n = s.engine n := by simp [State.engine]
@[simp] theorem countPart_qp (s : State) (p : Option Nat) (k v : Nat) (n : Nat) : (countPart s p k v).qp n = s.qp n := by simp [State.qp]
@[simp] theorem countPart_mw (s : State) (p : Option Nat) (k v : Nat) (n : Nat) : (countPart s p k v).mw n = s.mw n := by simp [State.mw]
@[simp] theorem countPart_slot (s : State) (p : Option Nat) (k v : Nat) (n : Nat) : (countPart s p k v).slot n = s.slot n := by simp [State.slot]
@[simp] theorem countPart_setter (s : State) (p : Option Nat) (k v : Nat) (n : Nat) : (countPart s p k v).setter n = s.setter n := by simp [State.setter]
@[simp] theorem countPart_adder (s : State) (p : Option Nat) (k v : Nat) (n : Nat) : (countPart s p k v).adder n = s.adder n := by simp [State.adder]
@[simp] theorem countPart_aslot (s : State) (p : Option Nat) (k v : Nat) (n : Nat) : (countPart s p k v).aslot n = s.aslot n := by simp [State.aslot]
@[simp] theorem countPart_region (s : State) (p : Option Nat) (k v : Nat) (n : Nat) : (countPart s p k v).region n = s.region n := by simp [State.region]
@[simp] theorem countPart_port (s : State) (p : Option Nat) (k v : Nat) (n : Nat) : (countPart s p k v).port n = s.port n := by simp [State.port]
@[simp] theorem countPart_sess (s : State) (p : Option Nat) (k v : Nat) (n : Nat) : (countPart s p k v).sess n = s.sess n := by simp [State.sess]
@[simp] theorem countPart_cmd (s : State) (p : Option Nat) (k v : Nat) (n : Nat) : (countPart s p k v).cmd n = s.cmd n := by simp [State.cmd]
@[simp] theorem countPart_arb (s : State) (p : Option Nat) (k v : Nat) (n : Nat) : (countPart s p k v).arb n = s.arb n := by simp [State.arb]

@[simp] theorem countBridge_pending (s : State) (p : Option Nat) (x : Bool) : (countBridge s p x).pending = s.pending := by
  unfold countBridge; split
  · exact countPart_pending s p 11 _
  · rfl
@[simp] theorem countBridge_ctl (s : State) (p : Option Nat) (x : Bool) : (countBridge s p x).ctl = s.ctl := by
  unfold countBridge; split
  · exact countPart_ctl s p 11 _
  · rfl
@[simp] theorem countBridge_cells (s : State) (p : Option Nat) (x : Bool) : (countBridge s p x).cells = s.cells := by
  unfold countBridge; split
  · exact countPart_cells s p 11 _
  · rfl
@[simp] theorem countBridge_blocks (s : State) (p : Option Nat) (x : Bool) : (countBridge s p x).blocks = s.blocks := by
  unfold countBridge; split
  · exact countPart_blocks s p 11 _
  · rfl
@[simp] theorem countBridge_engines (s : State) (p : Option Nat) (x : Bool) : (countBridge s p x).engines = s.engines := by
  unfold countBridge; split
  · exact countPart_engines s p 11 _
  · rfl
@[simp] theorem countBridge_qps (s : State) (p : Option Nat) (x : Bool) : (countBridge s p x).qps = s.qps := by
  unfold countBridge; split
  · exact countPart_qps s p 11 _
  · rfl
@[simp] theorem countBridge_mws (s : State) (p : Option Nat) (x : Bool) : (countBridge s p x).mws = s.mws := by
  unfold countBridge; split
  · exact countPart_mws s p 11 _
  · rfl
@[simp] theorem countBridge_regions (s : State) (p : Option Nat) (x : Bool) : (countBridge s p x).regions = s.regions := by
  unfold countBridge; split
  · exact countPart_regions s p 11 _
  · rfl
@[simp] theorem countBridge_slots (s : State) (p : Option Nat) (x : Bool) : (countBridge s p x).slots = s.slots := by
  unfold countBridge; split
  · exact countPart_slots s p 11 _
  · rfl
@[simp] theorem countBridge_setters (s : State) (p : Option Nat) (x : Bool) : (countBridge s p x).setters = s.setters := by
  unfold countBridge; split
  · exact countPart_setters s p 11 _
  · rfl
@[simp] theorem countBridge_adders (s : State) (p : Option Nat) (x : Bool) : (countBridge s p x).adders = s.adders := by
  unfold countBridge; split
  · exact countPart_adders s p 11 _
  · rfl
@[simp] theorem countBridge_aslots (s : State) (p : Option Nat) (x : Bool) : (countBridge s p x).aslots = s.aslots := by
  unfold countBridge; split
  · exact countPart_aslots s p 11 _
  · rfl
@[simp] theorem countBridge_ports (s : State) (p : Option Nat) (x : Bool) : (countBridge s p x).ports = s.ports := by
  unfold countBridge; split
  · exact countPart_ports s p 11 _
  · rfl
@[simp] theorem countBridge_fab (s : State) (p : Option Nat) (x : Bool) : (countBridge s p x).fab = s.fab := by
  unfold countBridge; split
  · exact countPart_fab s p 11 _
  · rfl
@[simp] theorem countBridge_arbs (s : State) (p : Option Nat) (x : Bool) : (countBridge s p x).arbs = s.arbs := by
  unfold countBridge; split
  · exact countPart_arbs s p 11 _
  · rfl
@[simp] theorem countBridge_sessions (s : State) (p : Option Nat) (x : Bool) : (countBridge s p x).sessions = s.sessions := by
  unfold countBridge; split
  · exact countPart_sessions s p 11 _
  · rfl
@[simp] theorem countBridge_cmds (s : State) (p : Option Nat) (x : Bool) : (countBridge s p x).cmds = s.cmds := by
  unfold countBridge; split
  · exact countPart_cmds s p 11 _
  · rfl
@[simp] theorem countBridge_eth (s : State) (p : Option Nat) (x : Bool) : (countBridge s p x).eth = s.eth := by
  unfold countBridge; split
  · exact countPart_eth s p 11 _
  · rfl
@[simp] theorem countBridge_log (s : State) (p : Option Nat) (x : Bool) : (countBridge s p x).log = s.log := by
  unfold countBridge; split
  · exact countPart_log s p 11 _
  · rfl
@[simp] theorem countBridge_sram (s : State) (p : Option Nat) (x : Bool) : (countBridge s p x).sram = s.sram := by
  unfold countBridge; split
  · exact countPart_sram s p 11 _
  · rfl
@[simp] theorem countBridge_lpddr (s : State) (p : Option Nat) (x : Bool) : (countBridge s p x).lpddr = s.lpddr := by
  unfold countBridge; split
  · exact countPart_lpddr s p 11 _
  · rfl
@[simp] theorem countBridge_poison (s : State) (p : Option Nat) (x : Bool) : (countBridge s p x).poison = s.poison := by
  unfold countBridge; split
  · exact countPart_poison s p 11 _
  · rfl
@[simp] theorem countBridge_sigs (s : State) (p : Option Nat) (x : Bool) : (countBridge s p x).sigs = s.sigs := by
  unfold countBridge; split
  · exact countPart_sigs s p 11 _
  · rfl
@[simp] theorem countBridge_rsigs (s : State) (p : Option Nat) (x : Bool) : (countBridge s p x).rsigs = s.rsigs := by
  unfold countBridge; split
  · exact countPart_rsigs s p 11 _
  · rfl
@[simp] theorem countBridge_bmsgs (s : State) (p : Option Nat) (x : Bool) : (countBridge s p x).bmsgs = s.bmsgs := by
  unfold countBridge; split
  · exact countPart_bmsgs s p 11 _
  · rfl
@[simp] theorem countBridge_hmrefs (s : State) (p : Option Nat) (x : Bool) : (countBridge s p x).hmrefs = s.hmrefs := by
  unfold countBridge; split
  · exact countPart_hmrefs s p 11 _
  · rfl
@[simp] theorem countBridge_tiles (s : State) (p : Option Nat) (x : Bool) : (countBridge s p x).tiles = s.tiles := by
  unfold countBridge; split
  · exact countPart_tiles s p 11 _
  · rfl
@[simp] theorem countBridge_readies (s : State) (p : Option Nat) (x : Bool) : (countBridge s p x).readies = s.readies := by
  unfold countBridge; split
  · exact countPart_readies s p 11 _
  · rfl
@[simp] theorem countBridge_gathered (s : State) (p : Option Nat) (x : Bool) : (countBridge s p x).gathered = s.gathered := by
  unfold countBridge; split
  · exact countPart_gathered s p 11 _
  · rfl
@[simp] theorem countBridge_vcontribs (s : State) (p : Option Nat) (x : Bool) : (countBridge s p x).vcontribs = s.vcontribs := by
  unfold countBridge; split
  · exact countPart_vcontribs s p 11 _
  · rfl
@[simp] theorem countBridge_inbox (s : State) (p : Option Nat) (x : Bool) : (countBridge s p x).inbox = s.inbox := by
  unfold countBridge; split
  · exact countPart_inbox s p 11 _
  · rfl
@[simp] theorem countBridge_bridgeq (s : State) (p : Option Nat) (x : Bool) : (countBridge s p x).bridgeq = s.bridgeq := by
  unfold countBridge; split
  · exact countPart_bridgeq s p 11 _
  · rfl
@[simp] theorem countBridge_wrefused (s : State) (p : Option Nat) (x : Bool) : (countBridge s p x).wrefused = s.wrefused := by
  unfold countBridge; split
  · exact countPart_wrefused s p 11 _
  · rfl
@[simp] theorem countBridge_wtaken (s : State) (p : Option Nat) (x : Bool) : (countBridge s p x).wtaken = s.wtaken := by
  unfold countBridge; split
  · exact countPart_wtaken s p 11 _
  · rfl
@[simp] theorem countBridge_breps (s : State) (p : Option Nat) (x : Bool) : (countBridge s p x).breps = s.breps := by
  unfold countBridge; split
  · exact countPart_breps s p 11 _
  · rfl
@[simp] theorem countBridge_lreps (s : State) (p : Option Nat) (x : Bool) : (countBridge s p x).lreps = s.lreps := by
  unfold countBridge; split
  · exact countPart_lreps s p 11 _
  · rfl
@[simp] theorem countBridge_ethq (s : State) (p : Option Nat) (x : Bool) : (countBridge s p x).ethq = s.ethq := by
  unfold countBridge; split
  · exact countPart_ethq s p 11 _
  · rfl
@[simp] theorem countBridge_out (s : State) (p : Option Nat) (x : Bool) : (countBridge s p x).out = s.out := by
  unfold countBridge; split
  · exact countPart_out s p 11 _
  · rfl
@[simp] theorem countBridge_draws (s : State) (p : Option Nat) (x : Bool) : (countBridge s p x).draws = s.draws := by
  unfold countBridge; split
  · exact countPart_draws s p 11 _
  · rfl
@[simp] theorem countBridge_cell (s : State) (p : Option Nat) (x : Bool) (n : Nat) : (countBridge s p x).cell n = s.cell n := by simp [State.cell]
@[simp] theorem countBridge_block (s : State) (p : Option Nat) (x : Bool) (n : Nat) : (countBridge s p x).block n = s.block n := by simp [State.block]
@[simp] theorem countBridge_engine (s : State) (p : Option Nat) (x : Bool) (n : Nat) : (countBridge s p x).engine n = s.engine n := by simp [State.engine]
@[simp] theorem countBridge_qp (s : State) (p : Option Nat) (x : Bool) (n : Nat) : (countBridge s p x).qp n = s.qp n := by simp [State.qp]
@[simp] theorem countBridge_mw (s : State) (p : Option Nat) (x : Bool) (n : Nat) : (countBridge s p x).mw n = s.mw n := by simp [State.mw]
@[simp] theorem countBridge_slot (s : State) (p : Option Nat) (x : Bool) (n : Nat) : (countBridge s p x).slot n = s.slot n := by simp [State.slot]
@[simp] theorem countBridge_setter (s : State) (p : Option Nat) (x : Bool) (n : Nat) : (countBridge s p x).setter n = s.setter n := by simp [State.setter]
@[simp] theorem countBridge_adder (s : State) (p : Option Nat) (x : Bool) (n : Nat) : (countBridge s p x).adder n = s.adder n := by simp [State.adder]
@[simp] theorem countBridge_aslot (s : State) (p : Option Nat) (x : Bool) (n : Nat) : (countBridge s p x).aslot n = s.aslot n := by simp [State.aslot]
@[simp] theorem countBridge_region (s : State) (p : Option Nat) (x : Bool) (n : Nat) : (countBridge s p x).region n = s.region n := by simp [State.region]
@[simp] theorem countBridge_port (s : State) (p : Option Nat) (x : Bool) (n : Nat) : (countBridge s p x).port n = s.port n := by simp [State.port]
@[simp] theorem countBridge_sess (s : State) (p : Option Nat) (x : Bool) (n : Nat) : (countBridge s p x).sess n = s.sess n := by simp [State.sess]
@[simp] theorem countBridge_cmd (s : State) (p : Option Nat) (x : Bool) (n : Nat) : (countBridge s p x).cmd n = s.cmd n := by simp [State.cmd]
@[simp] theorem countBridge_arb (s : State) (p : Option Nat) (x : Bool) (n : Nat) : (countBridge s p x).arb n = s.arb n := by simp [State.arb]

@[simp] theorem sendSig_pending (s : State) (src cell pip n : Nat) (h : Byte) : (sendSig s src cell pip n h).pending = s.pending := countBridge_pending s _ _
@[simp] theorem sendSig_ctl (s : State) (src cell pip n : Nat) (h : Byte) : (sendSig s src cell pip n h).ctl = s.ctl := countBridge_ctl s _ _
@[simp] theorem sendSig_cells (s : State) (src cell pip n : Nat) (h : Byte) : (sendSig s src cell pip n h).cells = s.cells := countBridge_cells s _ _
@[simp] theorem sendSig_blocks (s : State) (src cell pip n : Nat) (h : Byte) : (sendSig s src cell pip n h).blocks = s.blocks := countBridge_blocks s _ _
@[simp] theorem sendSig_engines (s : State) (src cell pip n : Nat) (h : Byte) : (sendSig s src cell pip n h).engines = s.engines := countBridge_engines s _ _
@[simp] theorem sendSig_qps (s : State) (src cell pip n : Nat) (h : Byte) : (sendSig s src cell pip n h).qps = s.qps := countBridge_qps s _ _
@[simp] theorem sendSig_mws (s : State) (src cell pip n : Nat) (h : Byte) : (sendSig s src cell pip n h).mws = s.mws := countBridge_mws s _ _
@[simp] theorem sendSig_regions (s : State) (src cell pip n : Nat) (h : Byte) : (sendSig s src cell pip n h).regions = s.regions := countBridge_regions s _ _
@[simp] theorem sendSig_slots (s : State) (src cell pip n : Nat) (h : Byte) : (sendSig s src cell pip n h).slots = s.slots := countBridge_slots s _ _
@[simp] theorem sendSig_setters (s : State) (src cell pip n : Nat) (h : Byte) : (sendSig s src cell pip n h).setters = s.setters := countBridge_setters s _ _
@[simp] theorem sendSig_adders (s : State) (src cell pip n : Nat) (h : Byte) : (sendSig s src cell pip n h).adders = s.adders := countBridge_adders s _ _
@[simp] theorem sendSig_aslots (s : State) (src cell pip n : Nat) (h : Byte) : (sendSig s src cell pip n h).aslots = s.aslots := countBridge_aslots s _ _
@[simp] theorem sendSig_ports (s : State) (src cell pip n : Nat) (h : Byte) : (sendSig s src cell pip n h).ports = s.ports := countBridge_ports s _ _
@[simp] theorem sendSig_fab (s : State) (src cell pip n : Nat) (h : Byte) : (sendSig s src cell pip n h).fab = s.fab := countBridge_fab s _ _
@[simp] theorem sendSig_arbs (s : State) (src cell pip n : Nat) (h : Byte) : (sendSig s src cell pip n h).arbs = s.arbs := countBridge_arbs s _ _
@[simp] theorem sendSig_sessions (s : State) (src cell pip n : Nat) (h : Byte) : (sendSig s src cell pip n h).sessions = s.sessions := countBridge_sessions s _ _
@[simp] theorem sendSig_cmds (s : State) (src cell pip n : Nat) (h : Byte) : (sendSig s src cell pip n h).cmds = s.cmds := countBridge_cmds s _ _
@[simp] theorem sendSig_eth (s : State) (src cell pip n : Nat) (h : Byte) : (sendSig s src cell pip n h).eth = s.eth := countBridge_eth s _ _
@[simp] theorem sendSig_log (s : State) (src cell pip n : Nat) (h : Byte) : (sendSig s src cell pip n h).log = s.log := countBridge_log s _ _
@[simp] theorem sendSig_sram (s : State) (src cell pip n : Nat) (h : Byte) : (sendSig s src cell pip n h).sram = s.sram := countBridge_sram s _ _
@[simp] theorem sendSig_lpddr (s : State) (src cell pip n : Nat) (h : Byte) : (sendSig s src cell pip n h).lpddr = s.lpddr := countBridge_lpddr s _ _
@[simp] theorem sendSig_poison (s : State) (src cell pip n : Nat) (h : Byte) : (sendSig s src cell pip n h).poison = s.poison := countBridge_poison s _ _
@[simp] theorem sendSig_rsigs (s : State) (src cell pip n : Nat) (h : Byte) : (sendSig s src cell pip n h).rsigs = s.rsigs := countBridge_rsigs s _ _
@[simp] theorem sendSig_bmsgs (s : State) (src cell pip n : Nat) (h : Byte) : (sendSig s src cell pip n h).bmsgs = s.bmsgs := countBridge_bmsgs s _ _
@[simp] theorem sendSig_hmrefs (s : State) (src cell pip n : Nat) (h : Byte) : (sendSig s src cell pip n h).hmrefs = s.hmrefs := countBridge_hmrefs s _ _
@[simp] theorem sendSig_tiles (s : State) (src cell pip n : Nat) (h : Byte) : (sendSig s src cell pip n h).tiles = s.tiles := countBridge_tiles s _ _
@[simp] theorem sendSig_readies (s : State) (src cell pip n : Nat) (h : Byte) : (sendSig s src cell pip n h).readies = s.readies := countBridge_readies s _ _
@[simp] theorem sendSig_gathered (s : State) (src cell pip n : Nat) (h : Byte) : (sendSig s src cell pip n h).gathered = s.gathered := countBridge_gathered s _ _
@[simp] theorem sendSig_vcontribs (s : State) (src cell pip n : Nat) (h : Byte) : (sendSig s src cell pip n h).vcontribs = s.vcontribs := countBridge_vcontribs s _ _
@[simp] theorem sendSig_inbox (s : State) (src cell pip n : Nat) (h : Byte) : (sendSig s src cell pip n h).inbox = s.inbox := countBridge_inbox s _ _
@[simp] theorem sendSig_bridgeq (s : State) (src cell pip n : Nat) (h : Byte) : (sendSig s src cell pip n h).bridgeq = s.bridgeq := countBridge_bridgeq s _ _
@[simp] theorem sendSig_wrefused (s : State) (src cell pip n : Nat) (h : Byte) : (sendSig s src cell pip n h).wrefused = s.wrefused := countBridge_wrefused s _ _
@[simp] theorem sendSig_wtaken (s : State) (src cell pip n : Nat) (h : Byte) : (sendSig s src cell pip n h).wtaken = s.wtaken := countBridge_wtaken s _ _
@[simp] theorem sendSig_breps (s : State) (src cell pip n : Nat) (h : Byte) : (sendSig s src cell pip n h).breps = s.breps := countBridge_breps s _ _
@[simp] theorem sendSig_lreps (s : State) (src cell pip n : Nat) (h : Byte) : (sendSig s src cell pip n h).lreps = s.lreps := countBridge_lreps s _ _
@[simp] theorem sendSig_ethq (s : State) (src cell pip n : Nat) (h : Byte) : (sendSig s src cell pip n h).ethq = s.ethq := countBridge_ethq s _ _
@[simp] theorem sendSig_out (s : State) (src cell pip n : Nat) (h : Byte) : (sendSig s src cell pip n h).out = s.out := countBridge_out s _ _
@[simp] theorem sendSig_draws (s : State) (src cell pip n : Nat) (h : Byte) : (sendSig s src cell pip n h).draws = s.draws := countBridge_draws s _ _
@[simp] theorem sendSig_cell (s : State) (src cell pip n : Nat) (h : Byte) (m : Nat) : (sendSig s src cell pip n h).cell m = s.cell m := by simp [State.cell]
@[simp] theorem sendSig_block (s : State) (src cell pip n : Nat) (h : Byte) (m : Nat) : (sendSig s src cell pip n h).block m = s.block m := by simp [State.block]
@[simp] theorem sendSig_engine (s : State) (src cell pip n : Nat) (h : Byte) (m : Nat) : (sendSig s src cell pip n h).engine m = s.engine m := by simp [State.engine]
@[simp] theorem sendSig_qp (s : State) (src cell pip n : Nat) (h : Byte) (m : Nat) : (sendSig s src cell pip n h).qp m = s.qp m := by simp [State.qp]
@[simp] theorem sendSig_mw (s : State) (src cell pip n : Nat) (h : Byte) (m : Nat) : (sendSig s src cell pip n h).mw m = s.mw m := by simp [State.mw]
@[simp] theorem sendSig_slot (s : State) (src cell pip n : Nat) (h : Byte) (m : Nat) : (sendSig s src cell pip n h).slot m = s.slot m := by simp [State.slot]
@[simp] theorem sendSig_setter (s : State) (src cell pip n : Nat) (h : Byte) (m : Nat) : (sendSig s src cell pip n h).setter m = s.setter m := by simp [State.setter]
@[simp] theorem sendSig_adder (s : State) (src cell pip n : Nat) (h : Byte) (m : Nat) : (sendSig s src cell pip n h).adder m = s.adder m := by simp [State.adder]
@[simp] theorem sendSig_aslot (s : State) (src cell pip n : Nat) (h : Byte) (m : Nat) : (sendSig s src cell pip n h).aslot m = s.aslot m := by simp [State.aslot]
@[simp] theorem sendSig_region (s : State) (src cell pip n : Nat) (h : Byte) (m : Nat) : (sendSig s src cell pip n h).region m = s.region m := by simp [State.region]
@[simp] theorem sendSig_port (s : State) (src cell pip n : Nat) (h : Byte) (m : Nat) : (sendSig s src cell pip n h).port m = s.port m := by simp [State.port]
@[simp] theorem sendSig_sess (s : State) (src cell pip n : Nat) (h : Byte) (m : Nat) : (sendSig s src cell pip n h).sess m = s.sess m := by simp [State.sess]
@[simp] theorem sendSig_cmd (s : State) (src cell pip n : Nat) (h : Byte) (m : Nat) : (sendSig s src cell pip n h).cmd m = s.cmd m := by simp [State.cmd]
@[simp] theorem sendSig_arb (s : State) (src cell pip n : Nat) (h : Byte) (m : Nat) : (sendSig s src cell pip n h).arb m = s.arb m := by simp [State.arb]

@[simp] theorem sendRefusal_pending (s : State) (c : Nat) (d : Byte) (a : W64) : (sendRefusal s c d a).pending = s.pending := rfl
@[simp] theorem sendRefusal_ctl (s : State) (c : Nat) (d : Byte) (a : W64) : (sendRefusal s c d a).ctl = s.ctl := rfl
@[simp] theorem sendRefusal_cells (s : State) (c : Nat) (d : Byte) (a : W64) : (sendRefusal s c d a).cells = s.cells := rfl
@[simp] theorem sendRefusal_blocks (s : State) (c : Nat) (d : Byte) (a : W64) : (sendRefusal s c d a).blocks = s.blocks := rfl
@[simp] theorem sendRefusal_engines (s : State) (c : Nat) (d : Byte) (a : W64) : (sendRefusal s c d a).engines = s.engines := rfl
@[simp] theorem sendRefusal_qps (s : State) (c : Nat) (d : Byte) (a : W64) : (sendRefusal s c d a).qps = s.qps := rfl
@[simp] theorem sendRefusal_mws (s : State) (c : Nat) (d : Byte) (a : W64) : (sendRefusal s c d a).mws = s.mws := rfl
@[simp] theorem sendRefusal_regions (s : State) (c : Nat) (d : Byte) (a : W64) : (sendRefusal s c d a).regions = s.regions := rfl
@[simp] theorem sendRefusal_slots (s : State) (c : Nat) (d : Byte) (a : W64) : (sendRefusal s c d a).slots = s.slots := rfl
@[simp] theorem sendRefusal_setters (s : State) (c : Nat) (d : Byte) (a : W64) : (sendRefusal s c d a).setters = s.setters := rfl
@[simp] theorem sendRefusal_adders (s : State) (c : Nat) (d : Byte) (a : W64) : (sendRefusal s c d a).adders = s.adders := rfl
@[simp] theorem sendRefusal_aslots (s : State) (c : Nat) (d : Byte) (a : W64) : (sendRefusal s c d a).aslots = s.aslots := rfl
@[simp] theorem sendRefusal_ports (s : State) (c : Nat) (d : Byte) (a : W64) : (sendRefusal s c d a).ports = s.ports := rfl
@[simp] theorem sendRefusal_fab (s : State) (c : Nat) (d : Byte) (a : W64) : (sendRefusal s c d a).fab = s.fab := rfl
@[simp] theorem sendRefusal_arbs (s : State) (c : Nat) (d : Byte) (a : W64) : (sendRefusal s c d a).arbs = s.arbs := rfl
@[simp] theorem sendRefusal_parts (s : State) (c : Nat) (d : Byte) (a : W64) : (sendRefusal s c d a).parts = s.parts := rfl
@[simp] theorem sendRefusal_sessions (s : State) (c : Nat) (d : Byte) (a : W64) : (sendRefusal s c d a).sessions = s.sessions := rfl
@[simp] theorem sendRefusal_cmds (s : State) (c : Nat) (d : Byte) (a : W64) : (sendRefusal s c d a).cmds = s.cmds := rfl
@[simp] theorem sendRefusal_eth (s : State) (c : Nat) (d : Byte) (a : W64) : (sendRefusal s c d a).eth = s.eth := rfl
@[simp] theorem sendRefusal_log (s : State) (c : Nat) (d : Byte) (a : W64) : (sendRefusal s c d a).log = s.log := rfl
@[simp] theorem sendRefusal_sram (s : State) (c : Nat) (d : Byte) (a : W64) : (sendRefusal s c d a).sram = s.sram := rfl
@[simp] theorem sendRefusal_lpddr (s : State) (c : Nat) (d : Byte) (a : W64) : (sendRefusal s c d a).lpddr = s.lpddr := rfl
@[simp] theorem sendRefusal_poison (s : State) (c : Nat) (d : Byte) (a : W64) : (sendRefusal s c d a).poison = s.poison := rfl
@[simp] theorem sendRefusal_sigs (s : State) (c : Nat) (d : Byte) (a : W64) : (sendRefusal s c d a).sigs = s.sigs := rfl
@[simp] theorem sendRefusal_rsigs (s : State) (c : Nat) (d : Byte) (a : W64) : (sendRefusal s c d a).rsigs = s.rsigs := rfl
@[simp] theorem sendRefusal_bmsgs (s : State) (c : Nat) (d : Byte) (a : W64) : (sendRefusal s c d a).bmsgs = s.bmsgs := rfl
@[simp] theorem sendRefusal_tiles (s : State) (c : Nat) (d : Byte) (a : W64) : (sendRefusal s c d a).tiles = s.tiles := rfl
@[simp] theorem sendRefusal_readies (s : State) (c : Nat) (d : Byte) (a : W64) : (sendRefusal s c d a).readies = s.readies := rfl
@[simp] theorem sendRefusal_gathered (s : State) (c : Nat) (d : Byte) (a : W64) : (sendRefusal s c d a).gathered = s.gathered := rfl
@[simp] theorem sendRefusal_vcontribs (s : State) (c : Nat) (d : Byte) (a : W64) : (sendRefusal s c d a).vcontribs = s.vcontribs := rfl
@[simp] theorem sendRefusal_inbox (s : State) (c : Nat) (d : Byte) (a : W64) : (sendRefusal s c d a).inbox = s.inbox := rfl
@[simp] theorem sendRefusal_bridgeq (s : State) (c : Nat) (d : Byte) (a : W64) : (sendRefusal s c d a).bridgeq = s.bridgeq := rfl
@[simp] theorem sendRefusal_wrefused (s : State) (c : Nat) (d : Byte) (a : W64) : (sendRefusal s c d a).wrefused = s.wrefused := rfl
@[simp] theorem sendRefusal_wtaken (s : State) (c : Nat) (d : Byte) (a : W64) : (sendRefusal s c d a).wtaken = s.wtaken := rfl
@[simp] theorem sendRefusal_breps (s : State) (c : Nat) (d : Byte) (a : W64) : (sendRefusal s c d a).breps = s.breps := rfl
@[simp] theorem sendRefusal_lreps (s : State) (c : Nat) (d : Byte) (a : W64) : (sendRefusal s c d a).lreps = s.lreps := rfl
@[simp] theorem sendRefusal_ethq (s : State) (c : Nat) (d : Byte) (a : W64) : (sendRefusal s c d a).ethq = s.ethq := rfl
@[simp] theorem sendRefusal_out (s : State) (c : Nat) (d : Byte) (a : W64) : (sendRefusal s c d a).out = s.out := rfl
@[simp] theorem sendRefusal_draws (s : State) (c : Nat) (d : Byte) (a : W64) : (sendRefusal s c d a).draws = s.draws := rfl
@[simp] theorem sendRefusal_cell (s : State) (c : Nat) (d : Byte) (a : W64) (n : Nat) : (sendRefusal s c d a).cell n = s.cell n := rfl
@[simp] theorem sendRefusal_block (s : State) (c : Nat) (d : Byte) (a : W64) (n : Nat) : (sendRefusal s c d a).block n = s.block n := rfl
@[simp] theorem sendRefusal_engine (s : State) (c : Nat) (d : Byte) (a : W64) (n : Nat) : (sendRefusal s c d a).engine n = s.engine n := rfl
@[simp] theorem sendRefusal_qp (s : State) (c : Nat) (d : Byte) (a : W64) (n : Nat) : (sendRefusal s c d a).qp n = s.qp n := rfl
@[simp] theorem sendRefusal_mw (s : State) (c : Nat) (d : Byte) (a : W64) (n : Nat) : (sendRefusal s c d a).mw n = s.mw n := rfl
@[simp] theorem sendRefusal_slot (s : State) (c : Nat) (d : Byte) (a : W64) (n : Nat) : (sendRefusal s c d a).slot n = s.slot n := rfl
@[simp] theorem sendRefusal_setter (s : State) (c : Nat) (d : Byte) (a : W64) (n : Nat) : (sendRefusal s c d a).setter n = s.setter n := rfl
@[simp] theorem sendRefusal_adder (s : State) (c : Nat) (d : Byte) (a : W64) (n : Nat) : (sendRefusal s c d a).adder n = s.adder n := rfl
@[simp] theorem sendRefusal_aslot (s : State) (c : Nat) (d : Byte) (a : W64) (n : Nat) : (sendRefusal s c d a).aslot n = s.aslot n := rfl
@[simp] theorem sendRefusal_region (s : State) (c : Nat) (d : Byte) (a : W64) (n : Nat) : (sendRefusal s c d a).region n = s.region n := rfl
@[simp] theorem sendRefusal_port (s : State) (c : Nat) (d : Byte) (a : W64) (n : Nat) : (sendRefusal s c d a).port n = s.port n := rfl
@[simp] theorem sendRefusal_part (s : State) (c : Nat) (d : Byte) (a : W64) (n : Nat) : (sendRefusal s c d a).part n = s.part n := rfl
@[simp] theorem sendRefusal_sess (s : State) (c : Nat) (d : Byte) (a : W64) (n : Nat) : (sendRefusal s c d a).sess n = s.sess n := rfl
@[simp] theorem sendRefusal_cmd (s : State) (c : Nat) (d : Byte) (a : W64) (n : Nat) : (sendRefusal s c d a).cmd n = s.cmd n := rfl
@[simp] theorem sendRefusal_arb (s : State) (c : Nat) (d : Byte) (a : W64) (n : Nat) : (sendRefusal s c d a).arb n = s.arb n := rfl

@[simp] theorem leaves_pending (s : State) (o : Out) : (leaves s o).pending = s.pending := rfl
@[simp] theorem leaves_ctl (s : State) (o : Out) : (leaves s o).ctl = s.ctl := rfl
@[simp] theorem leaves_cells (s : State) (o : Out) : (leaves s o).cells = s.cells := rfl
@[simp] theorem leaves_blocks (s : State) (o : Out) : (leaves s o).blocks = s.blocks := rfl
@[simp] theorem leaves_engines (s : State) (o : Out) : (leaves s o).engines = s.engines := rfl
@[simp] theorem leaves_qps (s : State) (o : Out) : (leaves s o).qps = s.qps := rfl
@[simp] theorem leaves_mws (s : State) (o : Out) : (leaves s o).mws = s.mws := rfl
@[simp] theorem leaves_regions (s : State) (o : Out) : (leaves s o).regions = s.regions := rfl
@[simp] theorem leaves_slots (s : State) (o : Out) : (leaves s o).slots = s.slots := rfl
@[simp] theorem leaves_setters (s : State) (o : Out) : (leaves s o).setters = s.setters := rfl
@[simp] theorem leaves_adders (s : State) (o : Out) : (leaves s o).adders = s.adders := rfl
@[simp] theorem leaves_aslots (s : State) (o : Out) : (leaves s o).aslots = s.aslots := rfl
@[simp] theorem leaves_ports (s : State) (o : Out) : (leaves s o).ports = s.ports := rfl
@[simp] theorem leaves_fab (s : State) (o : Out) : (leaves s o).fab = s.fab := rfl
@[simp] theorem leaves_arbs (s : State) (o : Out) : (leaves s o).arbs = s.arbs := rfl
@[simp] theorem leaves_parts (s : State) (o : Out) : (leaves s o).parts = s.parts := rfl
@[simp] theorem leaves_sessions (s : State) (o : Out) : (leaves s o).sessions = s.sessions := rfl
@[simp] theorem leaves_cmds (s : State) (o : Out) : (leaves s o).cmds = s.cmds := rfl
@[simp] theorem leaves_log (s : State) (o : Out) : (leaves s o).log = s.log := rfl
@[simp] theorem leaves_sram (s : State) (o : Out) : (leaves s o).sram = s.sram := rfl
@[simp] theorem leaves_lpddr (s : State) (o : Out) : (leaves s o).lpddr = s.lpddr := rfl
@[simp] theorem leaves_poison (s : State) (o : Out) : (leaves s o).poison = s.poison := rfl
@[simp] theorem leaves_sigs (s : State) (o : Out) : (leaves s o).sigs = s.sigs := rfl
@[simp] theorem leaves_rsigs (s : State) (o : Out) : (leaves s o).rsigs = s.rsigs := rfl
@[simp] theorem leaves_bmsgs (s : State) (o : Out) : (leaves s o).bmsgs = s.bmsgs := rfl
@[simp] theorem leaves_hmrefs (s : State) (o : Out) : (leaves s o).hmrefs = s.hmrefs := rfl
@[simp] theorem leaves_tiles (s : State) (o : Out) : (leaves s o).tiles = s.tiles := rfl
@[simp] theorem leaves_readies (s : State) (o : Out) : (leaves s o).readies = s.readies := rfl
@[simp] theorem leaves_gathered (s : State) (o : Out) : (leaves s o).gathered = s.gathered := rfl
@[simp] theorem leaves_vcontribs (s : State) (o : Out) : (leaves s o).vcontribs = s.vcontribs := rfl
@[simp] theorem leaves_inbox (s : State) (o : Out) : (leaves s o).inbox = s.inbox := rfl
@[simp] theorem leaves_bridgeq (s : State) (o : Out) : (leaves s o).bridgeq = s.bridgeq := rfl
@[simp] theorem leaves_wrefused (s : State) (o : Out) : (leaves s o).wrefused = s.wrefused := rfl
@[simp] theorem leaves_wtaken (s : State) (o : Out) : (leaves s o).wtaken = s.wtaken := rfl
@[simp] theorem leaves_breps (s : State) (o : Out) : (leaves s o).breps = s.breps := rfl
@[simp] theorem leaves_lreps (s : State) (o : Out) : (leaves s o).lreps = s.lreps := rfl
@[simp] theorem leaves_ethq (s : State) (o : Out) : (leaves s o).ethq = s.ethq := rfl
@[simp] theorem leaves_draws (s : State) (o : Out) : (leaves s o).draws = s.draws := rfl
@[simp] theorem leaves_cell (s : State) (o : Out) (n : Nat) : (leaves s o).cell n = s.cell n := rfl
@[simp] theorem leaves_block (s : State) (o : Out) (n : Nat) : (leaves s o).block n = s.block n := rfl
@[simp] theorem leaves_engine (s : State) (o : Out) (n : Nat) : (leaves s o).engine n = s.engine n := rfl
@[simp] theorem leaves_qp (s : State) (o : Out) (n : Nat) : (leaves s o).qp n = s.qp n := rfl
@[simp] theorem leaves_mw (s : State) (o : Out) (n : Nat) : (leaves s o).mw n = s.mw n := rfl
@[simp] theorem leaves_slot (s : State) (o : Out) (n : Nat) : (leaves s o).slot n = s.slot n := rfl
@[simp] theorem leaves_setter (s : State) (o : Out) (n : Nat) : (leaves s o).setter n = s.setter n := rfl
@[simp] theorem leaves_adder (s : State) (o : Out) (n : Nat) : (leaves s o).adder n = s.adder n := rfl
@[simp] theorem leaves_aslot (s : State) (o : Out) (n : Nat) : (leaves s o).aslot n = s.aslot n := rfl
@[simp] theorem leaves_region (s : State) (o : Out) (n : Nat) : (leaves s o).region n = s.region n := rfl
@[simp] theorem leaves_port (s : State) (o : Out) (n : Nat) : (leaves s o).port n = s.port n := rfl
@[simp] theorem leaves_part (s : State) (o : Out) (n : Nat) : (leaves s o).part n = s.part n := rfl
@[simp] theorem leaves_sess (s : State) (o : Out) (n : Nat) : (leaves s o).sess n = s.sess n := rfl
@[simp] theorem leaves_cmd (s : State) (o : Out) (n : Nat) : (leaves s o).cmd n = s.cmd n := rfl
@[simp] theorem leaves_arb (s : State) (o : Out) (n : Nat) : (leaves s o).arb n = s.arb n := rfl

@[simp] theorem emit_pending (s : State) (o : Out) : (emit s o).pending = s.pending := by
  unfold emit; split
  · rfl
  · exact leaves_pending s o
@[simp] theorem emit_ctl (s : State) (o : Out) : (emit s o).ctl = s.ctl := by
  unfold emit; split
  · rfl
  · exact leaves_ctl s o
@[simp] theorem emit_cells (s : State) (o : Out) : (emit s o).cells = s.cells := by
  unfold emit; split
  · rfl
  · exact leaves_cells s o
@[simp] theorem emit_blocks (s : State) (o : Out) : (emit s o).blocks = s.blocks := by
  unfold emit; split
  · rfl
  · exact leaves_blocks s o
@[simp] theorem emit_engines (s : State) (o : Out) : (emit s o).engines = s.engines := by
  unfold emit; split
  · rfl
  · exact leaves_engines s o
@[simp] theorem emit_qps (s : State) (o : Out) : (emit s o).qps = s.qps := by
  unfold emit; split
  · rfl
  · exact leaves_qps s o
@[simp] theorem emit_mws (s : State) (o : Out) : (emit s o).mws = s.mws := by
  unfold emit; split
  · rfl
  · exact leaves_mws s o
@[simp] theorem emit_regions (s : State) (o : Out) : (emit s o).regions = s.regions := by
  unfold emit; split
  · rfl
  · exact leaves_regions s o
@[simp] theorem emit_slots (s : State) (o : Out) : (emit s o).slots = s.slots := by
  unfold emit; split
  · rfl
  · exact leaves_slots s o
@[simp] theorem emit_setters (s : State) (o : Out) : (emit s o).setters = s.setters := by
  unfold emit; split
  · rfl
  · exact leaves_setters s o
@[simp] theorem emit_adders (s : State) (o : Out) : (emit s o).adders = s.adders := by
  unfold emit; split
  · rfl
  · exact leaves_adders s o
@[simp] theorem emit_aslots (s : State) (o : Out) : (emit s o).aslots = s.aslots := by
  unfold emit; split
  · rfl
  · exact leaves_aslots s o
@[simp] theorem emit_ports (s : State) (o : Out) : (emit s o).ports = s.ports := by
  unfold emit; split
  · rfl
  · exact leaves_ports s o
@[simp] theorem emit_fab (s : State) (o : Out) : (emit s o).fab = s.fab := by
  unfold emit; split
  · rfl
  · exact leaves_fab s o
@[simp] theorem emit_arbs (s : State) (o : Out) : (emit s o).arbs = s.arbs := by
  unfold emit; split
  · rfl
  · exact leaves_arbs s o
@[simp] theorem emit_parts (s : State) (o : Out) : (emit s o).parts = s.parts := by
  unfold emit; split
  · rfl
  · exact leaves_parts s o
@[simp] theorem emit_sessions (s : State) (o : Out) : (emit s o).sessions = s.sessions := by
  unfold emit; split
  · rfl
  · exact leaves_sessions s o
@[simp] theorem emit_cmds (s : State) (o : Out) : (emit s o).cmds = s.cmds := by
  unfold emit; split
  · rfl
  · exact leaves_cmds s o
@[simp] theorem emit_log (s : State) (o : Out) : (emit s o).log = s.log := by
  unfold emit; split
  · rfl
  · exact leaves_log s o
@[simp] theorem emit_sram (s : State) (o : Out) : (emit s o).sram = s.sram := by
  unfold emit; split
  · rfl
  · exact leaves_sram s o
@[simp] theorem emit_lpddr (s : State) (o : Out) : (emit s o).lpddr = s.lpddr := by
  unfold emit; split
  · rfl
  · exact leaves_lpddr s o
@[simp] theorem emit_poison (s : State) (o : Out) : (emit s o).poison = s.poison := by
  unfold emit; split
  · rfl
  · exact leaves_poison s o
@[simp] theorem emit_sigs (s : State) (o : Out) : (emit s o).sigs = s.sigs := by
  unfold emit; split
  · rfl
  · exact leaves_sigs s o
@[simp] theorem emit_rsigs (s : State) (o : Out) : (emit s o).rsigs = s.rsigs := by
  unfold emit; split
  · rfl
  · exact leaves_rsigs s o
@[simp] theorem emit_bmsgs (s : State) (o : Out) : (emit s o).bmsgs = s.bmsgs := by
  unfold emit; split
  · rfl
  · exact leaves_bmsgs s o
@[simp] theorem emit_hmrefs (s : State) (o : Out) : (emit s o).hmrefs = s.hmrefs := by
  unfold emit; split
  · rfl
  · exact leaves_hmrefs s o
@[simp] theorem emit_tiles (s : State) (o : Out) : (emit s o).tiles = s.tiles := by
  unfold emit; split
  · rfl
  · exact leaves_tiles s o
@[simp] theorem emit_readies (s : State) (o : Out) : (emit s o).readies = s.readies := by
  unfold emit; split
  · rfl
  · exact leaves_readies s o
@[simp] theorem emit_gathered (s : State) (o : Out) : (emit s o).gathered = s.gathered := by
  unfold emit; split
  · rfl
  · exact leaves_gathered s o
@[simp] theorem emit_vcontribs (s : State) (o : Out) : (emit s o).vcontribs = s.vcontribs := by
  unfold emit; split
  · rfl
  · exact leaves_vcontribs s o
@[simp] theorem emit_inbox (s : State) (o : Out) : (emit s o).inbox = s.inbox := by
  unfold emit; split
  · rfl
  · exact leaves_inbox s o
@[simp] theorem emit_bridgeq (s : State) (o : Out) : (emit s o).bridgeq = s.bridgeq := by
  unfold emit; split
  · rfl
  · exact leaves_bridgeq s o
@[simp] theorem emit_wrefused (s : State) (o : Out) : (emit s o).wrefused = s.wrefused := by
  unfold emit; split
  · rfl
  · exact leaves_wrefused s o
@[simp] theorem emit_wtaken (s : State) (o : Out) : (emit s o).wtaken = s.wtaken := by
  unfold emit; split
  · rfl
  · exact leaves_wtaken s o
@[simp] theorem emit_breps (s : State) (o : Out) : (emit s o).breps = s.breps := by
  unfold emit; split
  · rfl
  · exact leaves_breps s o
@[simp] theorem emit_lreps (s : State) (o : Out) : (emit s o).lreps = s.lreps := by
  unfold emit; split
  · rfl
  · exact leaves_lreps s o
@[simp] theorem emit_draws (s : State) (o : Out) : (emit s o).draws = s.draws := by
  unfold emit; split
  · rfl
  · exact leaves_draws s o
@[simp] theorem emit_cell (s : State) (o : Out) (n : Nat) : (emit s o).cell n = s.cell n := by simp [State.cell]
@[simp] theorem emit_block (s : State) (o : Out) (n : Nat) : (emit s o).block n = s.block n := by simp [State.block]
@[simp] theorem emit_engine (s : State) (o : Out) (n : Nat) : (emit s o).engine n = s.engine n := by simp [State.engine]
@[simp] theorem emit_qp (s : State) (o : Out) (n : Nat) : (emit s o).qp n = s.qp n := by simp [State.qp]
@[simp] theorem emit_mw (s : State) (o : Out) (n : Nat) : (emit s o).mw n = s.mw n := by simp [State.mw]
@[simp] theorem emit_slot (s : State) (o : Out) (n : Nat) : (emit s o).slot n = s.slot n := by simp [State.slot]
@[simp] theorem emit_setter (s : State) (o : Out) (n : Nat) : (emit s o).setter n = s.setter n := by simp [State.setter]
@[simp] theorem emit_adder (s : State) (o : Out) (n : Nat) : (emit s o).adder n = s.adder n := by simp [State.adder]
@[simp] theorem emit_aslot (s : State) (o : Out) (n : Nat) : (emit s o).aslot n = s.aslot n := by simp [State.aslot]
@[simp] theorem emit_region (s : State) (o : Out) (n : Nat) : (emit s o).region n = s.region n := by simp [State.region]
@[simp] theorem emit_port (s : State) (o : Out) (n : Nat) : (emit s o).port n = s.port n := by simp [State.port]
@[simp] theorem emit_part (s : State) (o : Out) (n : Nat) : (emit s o).part n = s.part n := by simp [State.part]
@[simp] theorem emit_sess (s : State) (o : Out) (n : Nat) : (emit s o).sess n = s.sess n := by simp [State.sess]
@[simp] theorem emit_cmd (s : State) (o : Out) (n : Nat) : (emit s o).cmd n = s.cmd n := by simp [State.cmd]
@[simp] theorem emit_arb (s : State) (o : Out) (n : Nat) : (emit s o).arb n = s.arb n := by simp [State.arb]

end Sys2Proof.Machine
end

