-- ==== Sys2Proof/Laws/Tab.lean ====
section
/-! SUPPORT. Sparse tables: a read after a write, and the canonical form that every operation keeps. -/

namespace Sys2Proof.Machine

theorem Tab.get_erase {α : Type} (d : α) (m : Tab α) (x y : Nat) :
    Tab.get d (Tab.erase m x) y = if x = y then d else Tab.get d m y := by
  induction m with
  | nil => simp [Tab.erase, Tab.get]
  | cons e m ih =>
    obtain ⟨k, v⟩ := e
    simp only [Tab.erase]
    split
    · rename_i h; subst h; rw [ih]; simp only [Tab.get]; split <;> simp_all
    · simp only [Tab.get, ih]; split <;> split <;> simp_all

theorem Tab.get_put {α : Type} (d : α) (m : Tab α) (x y : Nat) (w : α) :
    Tab.get d (Tab.put m x w) y = if x = y then w else Tab.get d m y := by
  induction m with
  | nil => simp [Tab.put, Tab.get]
  | cons e m ih =>
    obtain ⟨k, v⟩ := e
    simp only [Tab.put]
    split
    · simp [Tab.get]
    · split
      · rename_i h; subst h; simp only [Tab.get]; split <;> simp_all
      · simp only [Tab.get, ih]; split <;> split <;> simp_all

/-- A read after a write: the value written at its key, every other key as before. -/
theorem Tab.get_set {α : Type} [DecidableEq α] (d : α) (m : Tab α) (x y : Nat) (w : α) :
    Tab.get d (Tab.set d m x w) y = if x = y then w else Tab.get d m y := by
  unfold Tab.set
  split
  · rename_i h; subst h; exact Tab.get_erase w m x y
  · rw [Tab.get_put, Tab.get_erase]; split <;> rfl

@[simp] theorem Tab.get_set_same {α : Type} [DecidableEq α] (d : α) (m : Tab α) (x : Nat) (w : α) :
    Tab.get d (Tab.set d m x w) x = w := by simp [Tab.get_set]

theorem Tab.get_set_ne {α : Type} [DecidableEq α] (d d' : α) (m : Tab α) {x y : Nat} (w : α) (h : x ≠ y) :
    Tab.get d' (Tab.set d m x w) y = Tab.get d' m y := by
  unfold Tab.set; split <;> simp [Tab.get_erase, Tab.get_put, h]

theorem Tab.has_put {α : Type} (m : Tab α) (x y : Nat) (w : α) :
    Tab.has (Tab.put m x w) y = (decide (x = y) || Tab.has m y) := by
  induction m with
  | nil => by_cases h : x = y <;> simp [Tab.put, Tab.has, h]
  | cons e m ih =>
    obtain ⟨k, v⟩ := e
    simp only [Tab.put]
    split
    · by_cases h : x = y <;> simp [Tab.has, h]
    · split
      · rename_i h; subst h; by_cases h : k = y <;> simp [Tab.has, h]
      · simp only [Tab.has, ih]; by_cases h : x = y <;> simp [h]

theorem Tab.rising_mono {α : Type} {lo hi : Nat} (m : Tab α) (h : lo ≤ hi) (r : Tab.risingFrom hi m = true) :
    Tab.risingFrom lo m = true := by
  cases m with
  | nil => rfl
  | cons e m =>
    obtain ⟨k, v⟩ := e
    simp only [Tab.risingFrom, Bool.and_eq_true, decide_eq_true_eq] at *
    exact ⟨by omega, r.2⟩

theorem Tab.rising_erase {α : Type} (lo : Nat) (m : Tab α) (x : Nat) (h : Tab.risingFrom lo m = true) :
    Tab.risingFrom lo (Tab.erase m x) = true := by
  induction m generalizing lo with
  | nil => rfl
  | cons e m ih =>
    obtain ⟨k, v⟩ := e
    simp only [Tab.risingFrom, Bool.and_eq_true, decide_eq_true_eq] at h
    simp only [Tab.erase]
    split
    · exact Tab.rising_mono _ (by omega) (ih _ h.2)
    · simp only [Tab.risingFrom, Bool.and_eq_true, decide_eq_true_eq]; exact ⟨h.1, ih _ h.2⟩

theorem Tab.rising_put {α : Type} (lo : Nat) (m : Tab α) (x : Nat) (w : α) (hx : lo ≤ x)
    (h : Tab.risingFrom lo m = true) : Tab.risingFrom lo (Tab.put m x w) = true := by
  induction m generalizing lo with
  | nil => simp [Tab.put, Tab.risingFrom, hx]
  | cons e m ih =>
    obtain ⟨k, v⟩ := e
    simp only [Tab.risingFrom, Bool.and_eq_true, decide_eq_true_eq] at h
    simp only [Tab.put]
    split
    · simp only [Tab.risingFrom, Bool.and_eq_true, decide_eq_true_eq]; exact ⟨hx, by omega, h.2⟩
    · split
      · rename_i e; subst e; simp only [Tab.risingFrom, Bool.and_eq_true, decide_eq_true_eq]; exact h
      · simp only [Tab.risingFrom, Bool.and_eq_true, decide_eq_true_eq]; exact ⟨h.1, ih _ (by omega) h.2⟩

theorem Tab.rising_set {α : Type} [DecidableEq α] (d : α) (m : Tab α) (x : Nat) (w : α)
    (h : Tab.risingFrom 0 m = true) : Tab.risingFrom 0 (Tab.set d m x w) = true := by
  unfold Tab.set
  split
  · exact Tab.rising_erase _ _ _ h
  · exact Tab.rising_put _ _ _ _ (Nat.zero_le _) (Tab.rising_erase _ _ _ h)

theorem Tab.mem_erase {α : Type} (m : Tab α) (x : Nat) (e : Nat × α) (h : e ∈ Tab.erase m x) : e ∈ m := by
  induction m with
  | nil => exact h
  | cons f m ih =>
    obtain ⟨k, v⟩ := f
    simp only [Tab.erase] at h
    split at h
    · exact List.mem_cons_of_mem _ (ih h)
    · rcases List.mem_cons.1 h with h | h
      · exact h ▸ List.mem_cons_self
      · exact List.mem_cons_of_mem _ (ih h)

theorem Tab.mem_put {α : Type} (m : Tab α) (x : Nat) (w : α) (e : Nat × α) (h : e ∈ Tab.put m x w) :
    e = (x, w) ∨ e ∈ m := by
  induction m with
  | nil => exact Or.inl (by simpa [Tab.put] using h)
  | cons f m ih =>
    obtain ⟨k, v⟩ := f
    simp only [Tab.put] at h
    split at h
    · simpa using h
    · split at h
      · rcases List.mem_cons.1 h with h | h
        · exact Or.inl h
        · exact Or.inr (List.mem_cons_of_mem _ h)
      · rcases List.mem_cons.1 h with h | h
        · exact Or.inr (h ▸ List.mem_cons_self)
        · rcases ih h with h | h
          · exact Or.inl h
          · exact Or.inr (List.mem_cons_of_mem _ h)

/-- The canonical form is kept by every write. -/
theorem Tab.wf_set {α : Type} [DecidableEq α] (d : α) (m : Tab α) (x : Nat) (w : α) (h : Tab.wf d m = true) :
    Tab.wf d (Tab.set d m x w) = true := by
  simp only [Tab.wf, Bool.and_eq_true, List.all_eq_true, decide_eq_true_eq] at *
  refine ⟨Tab.rising_set d m x w h.1, fun e he => ?_⟩
  unfold Tab.set at he
  split at he
  · exact h.2 e (Tab.mem_erase _ _ _ he)
  · rcases Tab.mem_put _ _ _ _ he with rfl | he
    · assumption
    · exact h.2 e (Tab.mem_erase _ _ _ he)

theorem Tab.erase_erase {α : Type} (m : Tab α) (x : Nat) : Tab.erase (Tab.erase m x) x = Tab.erase m x := by
  induction m with
  | nil => rfl
  | cons e m ih => obtain ⟨k, v⟩ := e; by_cases h : k = x <;> simp [Tab.erase, h, ih]

theorem Tab.erase_put {α : Type} (m : Tab α) (x : Nat) (w : α) : Tab.erase (Tab.put m x w) x = Tab.erase m x := by
  induction m with
  | nil => simp [Tab.put, Tab.erase]
  | cons e m ih =>
    obtain ⟨k, v⟩ := e
    simp only [Tab.put]
    split
    · simp [Tab.erase]
    · split
      · rename_i h; simp [Tab.erase, h]
      · rename_i h; simp [Tab.erase, h, ih]

/-- Of two writes of one key the second stays. -/
theorem Tab.set_set {α : Type} [DecidableEq α] (d : α) (m : Tab α) (x : Nat) (v w : α) :
    Tab.set d (Tab.set d m x v) x w = Tab.set d m x w := by
  simp only [Tab.set]
  split <;> split <;> simp [Tab.erase_erase, Tab.erase_put]

end Sys2Proof.Machine
end

