-- ==== Sys2Proof/Laws/Units.lean ====
section
/-! SUPPORT. A unit read after it was written, by number. -/

namespace Sys2Proof.Machine

theorem State.setCell_setCell (s : State) (i : Nat) (x y : Cell) : (s.setCell i x).setCell i y = s.setCell i y := by
  simp only [State.setCell, Tab.set_set]
theorem State.cell_setCell (s : State) (i j : Nat) (x : Cell) : (s.setCell i x).cell j = if i = j then x else s.cell j :=
  Tab.get_set Cell.reset s.cells i j x
@[simp] theorem State.cell_setCell_same (s : State) (i : Nat) (x : Cell) : (s.setCell i x).cell i = x := by simp [State.cell_setCell]
theorem State.cell_setCell_ne (s : State) {i j : Nat} (x : Cell) (h : i ≠ j) : (s.setCell i x).cell j = s.cell j := by
  simp [State.cell_setCell, h]
theorem State.setBlock_setBlock (s : State) (i : Nat) (x y : Block) : (s.setBlock i x).setBlock i y = s.setBlock i y := by
  simp only [State.setBlock, Tab.set_set]
theorem State.block_setBlock (s : State) (i j : Nat) (x : Block) : (s.setBlock i x).block j = if i = j then x else s.block j :=
  Tab.get_set Block.reset s.blocks i j x
@[simp] theorem State.block_setBlock_same (s : State) (i : Nat) (x : Block) : (s.setBlock i x).block i = x := by simp [State.block_setBlock]
theorem State.block_setBlock_ne (s : State) {i j : Nat} (x : Block) (h : i ≠ j) : (s.setBlock i x).block j = s.block j := by
  simp [State.block_setBlock, h]
theorem State.setEngine_setEngine (s : State) (i : Nat) (x y : Engine) : (s.setEngine i x).setEngine i y = s.setEngine i y := by
  simp only [State.setEngine, Tab.set_set]
theorem State.engine_setEngine (s : State) (i j : Nat) (x : Engine) : (s.setEngine i x).engine j = if i = j then x else s.engine j :=
  Tab.get_set Engine.reset s.engines i j x
@[simp] theorem State.engine_setEngine_same (s : State) (i : Nat) (x : Engine) : (s.setEngine i x).engine i = x := by simp [State.engine_setEngine]
theorem State.engine_setEngine_ne (s : State) {i j : Nat} (x : Engine) (h : i ≠ j) : (s.setEngine i x).engine j = s.engine j := by
  simp [State.engine_setEngine, h]
theorem State.setQp_setQp (s : State) (i : Nat) (x y : Qp) : (s.setQp i x).setQp i y = s.setQp i y := by
  simp only [State.setQp, Tab.set_set]
theorem State.qp_setQp (s : State) (i j : Nat) (x : Qp) : (s.setQp i x).qp j = if i = j then x else s.qp j :=
  Tab.get_set Qp.reset s.qps i j x
@[simp] theorem State.qp_setQp_same (s : State) (i : Nat) (x : Qp) : (s.setQp i x).qp i = x := by simp [State.qp_setQp]
theorem State.qp_setQp_ne (s : State) {i j : Nat} (x : Qp) (h : i ≠ j) : (s.setQp i x).qp j = s.qp j := by
  simp [State.qp_setQp, h]
theorem State.setMw_setMw (s : State) (i : Nat) (x y : Mw) : (s.setMw i x).setMw i y = s.setMw i y := by
  simp only [State.setMw, Tab.set_set]
theorem State.mw_setMw (s : State) (i j : Nat) (x : Mw) : (s.setMw i x).mw j = if i = j then x else s.mw j :=
  Tab.get_set Mw.reset s.mws i j x
@[simp] theorem State.mw_setMw_same (s : State) (i : Nat) (x : Mw) : (s.setMw i x).mw i = x := by simp [State.mw_setMw]
theorem State.mw_setMw_ne (s : State) {i j : Nat} (x : Mw) (h : i ≠ j) : (s.setMw i x).mw j = s.mw j := by
  simp [State.mw_setMw, h]
theorem State.setSlot_setSlot (s : State) (i : Nat) (x y : Slot) : (s.setSlot i x).setSlot i y = s.setSlot i y := by
  simp only [State.setSlot, Tab.set_set]
theorem State.slot_setSlot (s : State) (i j : Nat) (x : Slot) : (s.setSlot i x).slot j = if i = j then x else s.slot j :=
  Tab.get_set Slot.reset s.slots i j x
@[simp] theorem State.slot_setSlot_same (s : State) (i : Nat) (x : Slot) : (s.setSlot i x).slot i = x := by simp [State.slot_setSlot]
theorem State.slot_setSlot_ne (s : State) {i j : Nat} (x : Slot) (h : i ≠ j) : (s.setSlot i x).slot j = s.slot j := by
  simp [State.slot_setSlot, h]
theorem State.setSetter_setSetter (s : State) (i : Nat) (x y : SetCtx) : (s.setSetter i x).setSetter i y = s.setSetter i y := by
  simp only [State.setSetter, Tab.set_set]
theorem State.setter_setSetter (s : State) (i j : Nat) (x : SetCtx) : (s.setSetter i x).setter j = if i = j then x else s.setter j :=
  Tab.get_set SetCtx.reset s.setters i j x
@[simp] theorem State.setter_setSetter_same (s : State) (i : Nat) (x : SetCtx) : (s.setSetter i x).setter i = x := by simp [State.setter_setSetter]
theorem State.setter_setSetter_ne (s : State) {i j : Nat} (x : SetCtx) (h : i ≠ j) : (s.setSetter i x).setter j = s.setter j := by
  simp [State.setter_setSetter, h]
theorem State.setAdder_setAdder (s : State) (i : Nat) (x y : AddCtx) : (s.setAdder i x).setAdder i y = s.setAdder i y := by
  simp only [State.setAdder, Tab.set_set]
theorem State.adder_setAdder (s : State) (i j : Nat) (x : AddCtx) : (s.setAdder i x).adder j = if i = j then x else s.adder j :=
  Tab.get_set AddCtx.reset s.adders i j x
@[simp] theorem State.adder_setAdder_same (s : State) (i : Nat) (x : AddCtx) : (s.setAdder i x).adder i = x := by simp [State.adder_setAdder]
theorem State.adder_setAdder_ne (s : State) {i j : Nat} (x : AddCtx) (h : i ≠ j) : (s.setAdder i x).adder j = s.adder j := by
  simp [State.adder_setAdder, h]
theorem State.setASlot_setASlot (s : State) (i : Nat) (x y : ASlot) : (s.setASlot i x).setASlot i y = s.setASlot i y := by
  simp only [State.setASlot, Tab.set_set]
theorem State.aslot_setASlot (s : State) (i j : Nat) (x : ASlot) : (s.setASlot i x).aslot j = if i = j then x else s.aslot j :=
  Tab.get_set ASlot.reset s.aslots i j x
@[simp] theorem State.aslot_setASlot_same (s : State) (i : Nat) (x : ASlot) : (s.setASlot i x).aslot i = x := by simp [State.aslot_setASlot]
theorem State.aslot_setASlot_ne (s : State) {i j : Nat} (x : ASlot) (h : i ≠ j) : (s.setASlot i x).aslot j = s.aslot j := by
  simp [State.aslot_setASlot, h]
theorem State.cell_updCell (s : State) (i j : Nat) (f : Cell → Cell) :
    (s.updCell i f).cell j = if i = j then f (s.cell i) else s.cell j := by simp [State.updCell, State.cell_setCell]
@[simp] theorem State.cell_updCell_same (s : State) (i : Nat) (f : Cell → Cell) : (s.updCell i f).cell i = f (s.cell i) := by
  simp [State.updCell]
theorem State.cell_updCell_ne (s : State) {i j : Nat} (f : Cell → Cell) (h : i ≠ j) : (s.updCell i f).cell j = s.cell j := by
  simp [State.cell_updCell, h]
@[simp] theorem State.block_updBlock_same (s : State) (i : Nat) (f : Block → Block) :
    (s.updBlock i f).block i = f (s.block i) := by simp [State.updBlock]
@[simp] theorem State.arb_setArb_same (s : State) (k : Nat) (x : Arb) : (s.setArb k x).arb k = x := by
  simp [State.arb, State.setArb]
theorem State.arb_setArb_ne (s : State) {k j : Nat} (x : Arb) (h : k ≠ j) : (s.setArb k x).arb j = s.arb j := by
  exact Tab.get_set_ne (Arb.reset (arbTicks k)) (Arb.reset (arbTicks j)) s.arbs x h

theorem State.region_setRegion_same (s : State) {i : Nat} (x : Region) (h : i < 4) : (s.setRegion i x).region i = x := by
  simp [State.region, State.setRegion, h]
@[simp] theorem State.region_setRegion_ix (s : State) (i : Fin 4) (x : Region) : (s.setRegion i.val x).region i.val = x :=
  s.region_setRegion_same x i.isLt
theorem State.region_setRegion_ne (s : State) {i j : Nat} (x : Region) (h : i ≠ j) : (s.setRegion i x).region j = s.region j := by
  simp [State.region, State.setRegion, Vector.getElem?_setIfInBounds_ne h]
theorem State.port_setPort_same (s : State) {i : Nat} (x : Port) (h : i < 6) : (s.setPort i x).port i = x := by
  simp [State.port, State.setPort, h]
@[simp] theorem State.port_setPort_ix (s : State) (i : Fin 6) (x : Port) : (s.setPort i.val x).port i.val = x :=
  s.port_setPort_same x i.isLt
theorem State.port_setPort_ne (s : State) {i j : Nat} (x : Port) (h : i ≠ j) : (s.setPort i x).port j = s.port j := by
  simp [State.port, State.setPort, Vector.getElem?_setIfInBounds_ne h]
theorem State.part_setPart_same (s : State) {i : Nat} (x : Part) (h : i < 16) : (s.setPart i x).part i = x := by
  simp [State.part, State.setPart, h]
@[simp] theorem State.part_setPart_ix (s : State) (i : Fin 16) (x : Part) : (s.setPart i.val x).part i.val = x :=
  s.part_setPart_same x i.isLt
theorem State.part_setPart_ne (s : State) {i j : Nat} (x : Part) (h : i ≠ j) : (s.setPart i x).part j = s.part j := by
  simp [State.part, State.setPart, Vector.getElem?_setIfInBounds_ne h]
theorem State.sess_setSess_same (s : State) {i : Nat} (x : Sess) (h : i < 16) : (s.setSess i x).sess i = x := by
  simp [State.sess, State.setSess, h]
@[simp] theorem State.sess_setSess_ix (s : State) (i : Fin 16) (x : Sess) : (s.setSess i.val x).sess i.val = x :=
  s.sess_setSess_same x i.isLt
theorem State.sess_setSess_ne (s : State) {i j : Nat} (x : Sess) (h : i ≠ j) : (s.setSess i x).sess j = s.sess j := by
  simp [State.sess, State.setSess, Vector.getElem?_setIfInBounds_ne h]
theorem State.cmd_setCmd_same (s : State) {i : Nat} (x : CmdSlot) (h : i < 16) : (s.setCmd i x).cmd i = x := by
  simp [State.cmd, State.setCmd, h]
@[simp] theorem State.cmd_setCmd_ix (s : State) (i : Fin 16) (x : CmdSlot) : (s.setCmd i.val x).cmd i.val = x :=
  s.cmd_setCmd_same x i.isLt
theorem State.cmd_setCmd_ne (s : State) {i j : Nat} (x : CmdSlot) (h : i ≠ j) : (s.setCmd i x).cmd j = s.cmd j := by
  simp [State.cmd, State.setCmd, Vector.getElem?_setIfInBounds_ne h]

end Sys2Proof.Machine
end

