-- ==== Sys2Proof/Laws/Issue.lean ====
section
/-! SUPPORT. The shared frame of instruction commands: what a ready cell does with the instruction presented to it. -/

namespace Sys2Proof.Machine

theorem commitAll_nil (s : State) (c : Nat) (h : (s.cell c).tpend = []) : commitAll s c = s := by
  simp [commitAll, h, commitN]

theorem ready_not_faulted {s : State} {c : CellId} (h : Ready s c) : (s.cell c.val).faulted = false := by
  have := h.1; simp [canIssue] at this; simp [this]

theorem issueTile_ready {s : State} {c : CellId} (h : Ready s c) (f : State → Res) :
    issueTile s c f = finish c.val (f s) := by
  simp [issueTile, h.1, h.2.1]

/-- A ready cell runs the instruction on the state as it is. -/
theorem issue_ready {s : State} {c : CellId} (h : Ready s c) (f : State → Res) : issue s c f = finish c.val (f s) := by
  simp [issue, issueTile_ready h, commitAll_nil s c.val h.2.2, h.2.2, ready_not_faulted h]

theorem finish_done (c : Nat) (s : State) : finish c (.done s) = s.updCell c Cell.nextPc := rfl
theorem finish_jump (c : Nat) (s : State) (pc : W64) : finish c (.jump s pc) = s.updCell c fun k => { k with pc := pc } := rfl
theorem finish_stay (c : Nat) (s : State) : finish c (.stay s) = s := rfl

/-- Two changes of one cell are one. -/
theorem State.updCell_updCell (s : State) (c : Nat) (f g : Cell → Cell) :
    (s.updCell c f).updCell c g = s.updCell c (fun k => g (f k)) := by
  simp [State.updCell, State.setCell_setCell]

end Sys2Proof.Machine
end

