-- ==== Sys2Proof/Laws/Log.lean ====
section
/-! SUPPORT. Which shared operations leave the module error log (21 R475) as it was: one lemma for each, named after the
operation. The log changes where a report enters it (`enterLog`), where it is cleared (`logClearOp`) and where the module
loses power (`powerOff`). -/

namespace Sys2Proof.Machine

/-- The log that a result carries. -/
def Res.log : Res → Log
  | .done s => s.log
  | .jump s _ => s.log
  | .stay s => s.log
  | .exc _ s => s.log
@[simp] theorem Res.log_done (s : State) : (Res.done s).log = s.log := rfl
@[simp] theorem Res.log_jump (s : State) (p : W64) : (Res.jump s p).log = s.log := rfl
@[simp] theorem Res.log_stay (s : State) : (Res.stay s).log = s.log := rfl
@[simp] theorem Res.log_exc (e : Exc) (s : State) : (Res.exc e s).log = s.log := rfl
/-- The log that an access carries. -/
def Meets.log : Meets → Log
  | .go _ s => s.log
  | .raise _ s => s.log
  | .hold s => s.log
@[simp] theorem Meets.log_go (a : List Nat) (s : State) : (Meets.go a s).log = s.log := rfl
@[simp] theorem Meets.log_raise (e : Exc) (s : State) : (Meets.raise e s).log = s.log := rfl
@[simp] theorem Meets.log_hold (s : State) : (Meets.hold s).log = s.log := rfl
/-- A fold of changes that keep the log keeps it. -/
@[simp] theorem foldl_log {α : Type} (f : State → α → State) (h : ∀ s x, (f s x).log = s.log) (l : List α) (s : State) :
    (l.foldl f s).log = s.log := by
  induction l generalizing s with
  | nil => rfl
  | cons x xs ih => simp [List.foldl, ih, h]
@[simp] theorem ite_log (c : Prop) [Decidable c] (a b : State) : (if c then a else b).log = if c then a.log else b.log := by
  split <;> rfl
@[simp] theorem ite_res_log (c : Prop) [Decidable c] (a b : Res) : (if c then a else b).log = if c then a.log else b.log := by
  split <;> rfl

/-! ### Operations of Machine/Units.lean -/

@[simp] theorem draw_log (s : State) : (draw s).2.log = s.log := by simp [draw]
@[simp] theorem flushEth_log (s : State) : (flushEth s).log = s.log := by
  unfold flushEth; exact foldl_log leaves (fun s o => leaves_log s o) _ _

/-! ### Operations of Machine/Packets.lean -/

@[simp] theorem queueAt_log (s : State) (p : Nat) (req : Byte) (pkt : Packet) : (queueAt s p req pkt).log = s.log := by simp [queueAt]
@[simp] theorem deliver_log (s : State) (pkt : Packet) (via : Nat) : (deliver s pkt via).log = s.log := by simp [deliver]
@[simp] theorem dropPacket_log (s : State) (pkt : Packet) (sub : Nat) : (dropPacket s pkt sub).log = s.log := by
  simp only [dropPacket]
  (repeat' split) <;> rfl
@[simp] theorem dropAll_log (s : State) (sub : Nat) (x0 : List Packet) : (dropAll s sub x0).log = s.log := by
  fun_induction dropAll s sub x0 <;> simp [*]
@[simp] theorem routeVia_log (s : State) (req : Byte) (pkt : Packet) : (routeVia s req pkt).log = s.log := by
  unfold routeVia
  (repeat' split) <;> first | rfl | simp_all
@[simp] theorem sendVia_log (s : State) (port : Option Nat) (pkt : Packet) : (sendVia s port pkt).log = s.log := by
  unfold sendVia
  (repeat' split) <;> simp
@[simp] theorem sendOut_log (s : State) (port : Option Nat) (pkt : Packet) : (sendOut s port pkt).log = s.log := by
  unfold sendOut
  split
  · rfl
  · simp
@[simp] theorem routePacket_log (s : State) (pkt : Packet) : (routePacket s pkt).log = s.log := sendOut_log s none pkt
@[simp] theorem flushBridge_log (s : State) : (flushBridge s).log = s.log := by
  unfold flushBridge
  exact foldl_log (fun s (e : Option Nat × Packet) => sendVia s e.1 e.2) (fun s e => sendVia_log s e.1 e.2) _ _
@[simp] theorem countTx_log (s : State) (own : Option Nat) (pkt : Packet) : (countTx s own pkt).log = s.log := by
  unfold countTx
  first | rfl | simp_all
@[simp] theorem sendPacket_log (s : State) (own : Option Nat) (pkt : Packet) : (sendPacket s own pkt).log = s.log := by simp [sendPacket]
@[simp] theorem countRx_log (s : State) (own : Option Nat) (pkt : Packet) : (countRx s own pkt).log = s.log := by
  unfold countRx
  first | rfl | simp_all
theorem takePacket_log {s t : State} {k : Nat} {want : Packet → Bool} {x : Inbox} (h : takePacket s k want = some (x, t)) :
    t.log = s.log := by
  unfold takePacket at h
  split at h
  · cases h
  · split at h
    · cases h; rfl
    · cases h
@[simp] theorem packetDiscarded_log (s : State) (origin : W32) (own : Option Nat) (pkt : Packet) :
    (packetDiscarded s origin own pkt).log = s.log := by simp [packetDiscarded]

/-! ### Operations of Machine/Timers.lean -/

@[simp] theorem moduleTimeTo_log (s : State) (t : Nat) : (moduleTimeTo s t).log = s.log := by
  unfold moduleTimeTo
  rfl
@[simp] theorem regionTimeTo_log (s : State) (r t : Nat) : (regionTimeTo s r t).log = s.log := by simp [regionTimeTo]
@[simp] theorem blockTimeTo_log (s : State) (b t : Nat) : (blockTimeTo s b t).log = s.log := by simp [blockTimeTo]
@[simp] theorem cellTimeTo_log (s : State) (c t : Nat) : (cellTimeTo s c t).log = s.log := by simp [cellTimeTo]

/-! ### Operations of Machine/Mem.lean -/

@[simp] theorem setMemByte_log (s : State) (a : Nat) (v : Byte) : (setMemByte s a v).log = s.log := by
  unfold setMemByte
  (repeat' split) <;> rfl
@[simp] theorem putMem_log (s : State) (a : Nat) (x0 : List Byte) : (putMem s a x0).log = s.log := by
  fun_induction putMem s a x0 <;> simp [*]
@[simp] theorem clearPoison_log (s : State) (a n : Nat) : (clearPoison s a n).log = s.log := by simp [clearPoison]
@[simp] theorem memWrite_log (s : State) (a : Nat) (vs : List Byte) : (memWrite s a vs).log = s.log := by simp [memWrite]
@[simp] theorem poisonLine_log (s : State) (a : Nat) : (poisonLine s a).log = s.log := by simp [poisonLine]
@[simp] theorem countBulk_log (s : State) (p : Option Nat) (n : Nat) : (countBulk s p n).log = s.log := by simp [countBulk]
@[simp] theorem noteUncorrectable_log (s : State) (a : Nat) (poisoned : Bool) : (noteUncorrectable s a poisoned).log = s.log := by
  unfold noteUncorrectable
  (repeat' split) <;> rfl
@[simp] theorem noteCorrected_log (s : State) (a : Nat) : (noteCorrected s a).log = s.log := by
  unfold noteCorrected
  (repeat' split) <;> rfl
@[simp] theorem memRefusal_log (s : State) (a : Nat) : (memRefusal s a).log = s.log := by
  unfold memRefusal
  (repeat' split) <;> rfl
@[simp] theorem wakeGroup_log (s : State) (a : Nat) : (wakeGroup s a).log = s.log := by
  simp only [wakeGroup]
  (repeat' split) <;> rfl

/-! ### Operations of Machine/Retire.lean -/

@[simp] theorem setCellsOf_log (s : State) (b : Nat) (f : Cell → Cell) : (setCellsOf s b f).log = s.log := by
  unfold setCellsOf; exact foldl_log (fun s k => s.updCell (8 * b + k) f) (fun _ _ => rfl) _ _
@[simp] theorem blockDormant_log (s : State) (b : Nat) : (blockDormant s b).log = s.log := by simp [blockDormant]
@[simp] theorem blockOut_log (s : State) (g : Nat) (own : Option Nat) : (blockOut s g own).log = s.log := by simp [blockOut]
@[simp] theorem unitOff_log (s : State) (m : Nat) : (unitOff s m).log = s.log := by
  simp only [unitOff]
  rw [foldl_log (fun s n => s.setASlot (64 * m + n) ASlot.reset) (fun _ _ => rfl)]
  exact foldl_log (fun s j => (s.setSetter (8 * m + j) { SetCtx.reset with own := (s.setter (8 * m + j)).own }).setAdder (8 * m + j)
    { AddCtx.reset with own := (s.adder (8 * m + j)).own }) (fun _ _ => rfl) _ _
@[simp] theorem ctlOut_log (s : State) (m : Nat) : (ctlOut s m).log = s.log := by simp [ctlOut]
@[simp] theorem retireGroup_log (s : State) (g : Nat) : (retireGroup s g).log = s.log := by simp [retireGroup]
@[simp] theorem retireCtl_log (s : State) (m : Nat) : (retireCtl s m).log = s.log := by simp [retireCtl]
@[simp] theorem retireAll_log (s : State) : (retireAll s).log = s.log := by simp [retireAll]
@[simp] theorem deferAt_log (s : State) (c : Nat) (detail : Byte) (a : Nat) : (deferAt s c detail a).log = s.log := by simp [deferAt]
@[simp] theorem deferError_log (s : State) (detail : Byte) (a : Nat) : (deferError s detail a).log = s.log := by
  unfold deferError
  (repeat' split) <;> rfl
@[simp] theorem retireAt_log (s : State) (a : Nat) : (retireAt s a).log = s.log := by
  unfold retireAt
  (repeat' split) <;> first | rfl | simp_all
@[simp] theorem foundBad_log (s : State) (a : Nat) : (foundBad s a).log = s.log := by simp [foundBad]
@[simp] theorem foundCorrected_log (s : State) (a : Nat) : (foundCorrected s a).log = s.log := by simp [foundCorrected]
@[simp] theorem scrubAt_log (s : State) (a : Nat) (ecc : Ecc) : (scrubAt s a ecc).log = s.log := by
  simp only [scrubAt]
  (repeat' split) <;> simp

/-! ### Operations of Machine/Caches.lean -/

@[simp] theorem noteBadLine_log (s : State) (b a : Nat) : (noteBadLine s b a).log = s.log := by simp [noteBadLine]
@[simp] theorem badWriteBack_log (s : State) (b a : Nat) : (badWriteBack s b a).log = s.log := by simp [badWriteBack]
@[simp] theorem writeBackLine_log (s : State) (b l : Nat) (x : CLine) : (writeBackLine s b l x).log = s.log := by
  unfold writeBackLine
  (repeat' split) <;> first | rfl | simp_all
@[simp] theorem writeBackL1_log (s : State) (b l : Nat) (x : CLine) : (writeBackL1 s b l x).log = s.log := by
  simp only [writeBackL1]
  (repeat' split) <;> first | rfl | simp_all
@[simp] theorem dropL1_log (s : State) (c l : Nat) : (dropL1 s c l).log = s.log := by
  simp only [dropL1]
  (repeat' split) <;> first | rfl | simp_all
@[simp] theorem dropL1s_log (s : State) (l : Nat) (x0 : Nat) (x1 : Nat) : (dropL1s s l x0 x1).log = s.log := by
  fun_induction dropL1s s l x0 x1 <;> simp [*]
@[simp] theorem dropL2_log (s : State) (b l : Nat) : (dropL2 s b l).log = s.log := by
  simp only [dropL2]
  split
  · rfl
  · split <;> simp
@[simp] theorem dropL2s_log (s : State) (l b n : Nat) : (dropL2s s l b n).log = s.log := by
  induction n generalizing s b with
  | zero => rfl
  | succ n ih => rw [dropL2s, ih, dropL2_log]
@[simp] theorem victimOf_log (s : State) (ls : List Nat) : (victimOf s ls).2.log = s.log := by simp [victimOf]
@[simp] theorem fillL2_log (s : State) (b l : Nat) (wr bad : Bool) : (fillL2 s b l wr bad).log = s.log := by
  simp only [fillL2]
  split
  · simp
  · split
    · split <;> simp
    · rw [State.setBlock_log, countBulk_log]
      split <;> split <;> simp
@[simp] theorem touchLine_log (s : State) (c l : Nat) (wr : Bool) : (touchLine s c l wr).log = s.log := by
  simp only [touchLine]
  (repeat' split) <;> first | rfl | simp_all
@[simp] theorem touchLines_log (s : State) (c l : Nat) (wr : Bool) (x0 : Nat) : (touchLines s c l wr x0).log = s.log := by
  fun_induction touchLines s c l wr x0 <;> simp [*]
@[simp] theorem touch_log (s : State) (c a n : Nat) (wr : Bool) : (touch s c a n wr).log = s.log := by simp [touch]
@[simp] theorem viaSet_log (s : State) (c a : Nat) (v : Byte) : (viaSet s c a v).log = s.log := by
  unfold viaSet
  (repeat' split) <;> first | rfl | simp_all
@[simp] theorem viaPut_log (s : State) (c a : Nat) (x0 : List Byte) : (viaPut s c a x0).log = s.log := by
  fun_induction viaPut s c a x0 <;> simp [*]
@[simp] theorem storePoison_log (s : State) (c l : Nat) (whole : Bool) : (storePoison s c l whole).log = s.log := by
  simp only [storePoison]
  (repeat' split) <;> simp
@[simp] theorem storePoisons_log (s : State) (c a n : Nat) (x0 : Nat) (x1 : Nat) : (storePoisons s c a n x0 x1).log = s.log := by
  fun_induction storePoisons s c a n x0 x1 <;> simp [*]
@[simp] theorem viaWrite_log (s : State) (c a : Nat) (vs : List Byte) : (viaWrite s c a vs).log = s.log := by simp [viaWrite]
@[simp] theorem snoopL1_log (s : State) (c l : Nat) : (snoopL1 s c l).log = s.log := by
  simp only [snoopL1]
  (repeat' split) <;> rfl
@[simp] theorem snoopL1s_log (s : State) (l : Nat) (keep : Option Nat) (x0 : Nat) (x1 : Nat) : (snoopL1s s l keep x0 x1).log = s.log := by
  fun_induction snoopL1s s l keep x0 x1 <;> simp [*]
@[simp] theorem snoopBlock_log (s : State) (b l : Nat) : (snoopBlock s b l).log = s.log := by
  simp only [snoopBlock]
  (repeat' split) <;> first | rfl | simp_all
@[simp] theorem snoopBlocks_log (s : State) (l : Nat) (keep : Option Nat) (x0 : Nat) (x1 : Nat) : (snoopBlocks s l keep x0 x1).log = s.log := by
  fun_induction snoopBlocks s l keep x0 x1 <;> simp [*]
@[simp] theorem snoopLines_log (s : State) (r : Nat) (c : Option Nat) (l n : Nat) : (snoopLines s r c l n).log = s.log := by
  induction n generalizing s l with
  | zero => rfl
  | succ n ih =>
    refine (ih _ _).trans ((snoopBlocks_log _ _ _ _ _).trans ?_)
    split
    · exact snoopL1s_log _ _ _ _ _
    · rfl
@[simp] theorem settleLines_log (s : State) (a n l k : Nat) : (settleLines s a n l k).log = s.log := by
  induction k generalizing s l with
  | zero => rfl
  | succ k ih =>
    refine (ih _ _).trans ?_
    split
    · exact dropL2_log _ _ _
    · rfl
@[simp] theorem spoilL1_log (s : State) (bad : List Nat) (c : Nat) : (spoilL1 s bad c).log = s.log := by simp [spoilL1]
@[simp] theorem spoilBlock_log (s : State) (bad : List Nat) (b : Nat) : (spoilBlock s bad b).log = s.log := by
  unfold spoilBlock
  exact (foldl_log _ (fun s c => spoilL1_log s bad c) _ _).trans (State.updBlock_log _ _ _)
@[simp] theorem writeBackAll_log (s : State) (b : Nat) (x0 : List (Nat × CLine)) : (writeBackAll s b x0).log = s.log := by
  fun_induction writeBackAll s b x0 <;> simp [*]
@[simp] theorem writeBackL1s_log (s : State) (b : Nat) (x0 : List (Nat × CLine)) : (writeBackL1s s b x0).log = s.log := by
  fun_induction writeBackL1s s b x0 <;> simp [*]
@[simp] theorem disableL1d_log (s : State) (c : Nat) : (disableL1d s c).log = s.log := by simp [disableL1d]
@[simp] theorem disableL1i_log (s : State) (c : Nat) : (disableL1i s c).log = s.log := by simp [disableL1i]
@[simp] theorem disableL1s_log (s : State) (x0 : Nat) (x1 : Nat) : (disableL1s s x0 x1).log = s.log := by
  fun_induction disableL1s s x0 x1 <;> simp [*]
@[simp] theorem disableL2_log (s : State) (b : Nat) : (disableL2 s b).log = s.log := by simp [disableL2]
@[simp] theorem cleanL1_log (s : State) (c : Nat) : (cleanL1 s c).log = s.log := by simp [cleanL1]
@[simp] theorem cleanL1s_log (s : State) (x0 : Nat) (x1 : Nat) : (cleanL1s s x0 x1).log = s.log := by
  fun_induction cleanL1s s x0 x1 <;> simp [*]
@[simp] theorem cleanBlock_log (s : State) (b : Nat) : (cleanBlock s b).log = s.log := by simp [cleanBlock]

/-! ### Operations of Machine/CellMem.lean -/

@[simp] theorem wakeAll_log (s : State) (x0 : List (Nat × Nat)) : (wakeAll s x0).log = s.log := by
  fun_induction wakeAll s x0 <;> simp [*]
@[simp] theorem touchRuns_log (s : State) (c : Nat) (wr : Bool) (x0 : List (Nat × Nat)) : (touchRuns s c wr x0).log = s.log := by
  fun_induction touchRuns s c wr x0 <;> simp [*]
@[simp] theorem badL2_log (s : State) (g l : Nat) : (badL2 s g l).log = s.log := by
  simp only [badL2]
  split
  · rfl
  · simp
@[simp] theorem spoilCopy_log (s : State) (c l : Nat) : (spoilCopy s c l).log = s.log := by
  simp only [spoilCopy]
  split <;> simp
@[simp] theorem checkWord_log (s : State) (c a : Nat) (ecc : Ecc) : (checkWord s c a ecc).1.log = s.log := by
  unfold checkWord
  (repeat' split) <;> first | rfl | simp_all
@[simp] theorem checkRead_log (s : State) (c : Nat) (as : List Nat) (chk : Check) : (checkRead s c as chk).1.log = s.log := by
  simp only [checkRead]
  split
  · rfl
  · exact checkWord_log _ _ _ _
@[simp] theorem checkStore_log (s : State) (c : Nat) (as : List Nat) (chk : Check) : (checkStore s c as chk).log = s.log := by
  unfold checkStore
  (repeat' split) <;> first | rfl | simp_all
@[simp] theorem evictBad_log (s t : State) (c : Nat) : (evictBad s t c).log = t.log := by
  simp only [evictBad]
  rw [foldl_log _ (fun t g => foldl_log (fun t l => badWriteBack t g (128 * l)) (fun _ _ => badWriteBack_log _ _ _) _ t)]
  exact foldl_log (fun t l => noteBadLine (t.updBlock (blockOfCell c) _) (blockOfCell c) (128 * l)) (fun _ _ => by simp) _ _
@[simp] theorem touchChecked_log (s : State) (c : Nat) (wr : Bool) (rs : List (Nat × Nat)) (chk : Check) :
    (touchChecked s c wr rs chk).log = s.log := by
  simp only [touchChecked]
  split <;> simp
@[simp] theorem cellRead_log (s : State) (c : Nat) (va : W64) (n : Nat) (chk : Check) : (cellRead s c va n chk).log = s.log := by
  have pair {β : Type} {f : State × β} {t u : State} {b : β} (h : f.1.log = u.log) (e : f = (t, b)) : t.log = u.log := by
    rw [e] at h; exact h
  simp only [cellRead]
  split
  · rfl
  · split
    · exact memRefusal_log _ _
    · split
      · rfl
      · split
        · exact wakeAll_log _ _
        · split
          · exact wakeAll_log _ _
          · split
            · next e => exact (pair (checkRead_log _ _ _ _) e).trans (wakeAll_log _ _)
            · next e => exact (touchChecked_log _ _ _ _ _).trans ((pair (checkRead_log _ _ _ _) e).trans (wakeAll_log _ _))
@[simp] theorem cellWriteCheck_log (s : State) (c : Nat) (va : W64) (n : Nat) : (cellWriteCheck s c va n).log = s.log := by
  simp only [cellWriteCheck]
  (repeat' split) <;> first | rfl | simp_all
@[simp] theorem storeRuns_log (s : State) (c : Nat) (rs : List (Nat × Nat)) (bs : List Byte) : (storeRuns s c rs bs).log = s.log := by
  induction rs generalizing s bs with
  | nil => rfl
  | cons r rs ih =>
    simp only [storeRuns, ih, snoopLines_log, viaWrite_log]
    split <;> simp
@[simp] theorem cellStore_log (s : State) (c : Nat) (va : W64) (as : List Nat) (bs : List Byte) (chk : Check) :
    (cellStore s c va as bs chk).log = s.log := by
  simp only [cellStore]
  (repeat' split) <;> first | rfl | simp_all

/-! ### Operations of Machine/Regs.lean -/

theorem pageWrite_log (wr : State → Nat → W64 → W64 → State) (h : ∀ s a v m, (wr s a v m).log = s.log) (a : Nat) (bs : List Byte)
    (rs : List RegAt) (s : State) : (pageWrite wr a bs rs s).log = s.log := by
  induction rs generalizing s with
  | nil => rfl
  | cons r rs ih =>
    simp only [pageWrite]
    split
    · rw [ih, h]
    · exact ih s

/-! ### Operations of Machine/SlotUnit.lean -/

@[simp] theorem slotSignal_log (s : State) (i : Nat) : (slotSignal s i).log = s.log := by simp [slotSignal]
@[simp] theorem slotEvent_log (s : State) (i bit : Nat) : (slotEvent s i bit).log = s.log := by simp [slotEvent]
@[simp] theorem contribute_log (s : State) (i : Nat) (x : Contribution) : (contribute s i x).log = s.log := by
  unfold contribute
  (repeat' split) <;> first | rfl | simp_all
@[simp] theorem slotContribute_log (s : State) (i : Nat) (x : Contribution) : (slotContribute s i x).log = s.log := by simp [slotContribute]
@[simp] theorem raiseEvents_log (i : Nat) (x0 : List (Nat × Bool)) (x1 : State) : (raiseEvents i x0 x1).log = x1.log := by
  fun_induction raiseEvents i x0 x1 <;> first | rfl | simp_all
@[simp] theorem closeScale_log (s : State) (i : Nat) : (closeScale s i).log = s.log := by
  simp only [closeScale]
  (repeat' split) <;> rfl
@[simp] theorem slotCloseOp_log (s : State) (i : Nat) : (slotCloseOp s i).log = s.log := by simp [slotCloseOp]
@[simp] theorem slotClearOp_log (s : State) (i : Nat) : (slotClearOp s i).log = s.log := by simp [slotClearOp]
@[simp] theorem scfgWriteOp_log (s : State) (i : Nat) (v m : W64) : (scfgWriteOp s i v m).log = s.log := by simp [scfgWriteOp]
@[simp] theorem sctlWrite_log (s : State) (i : Nat) (v : W64) : (sctlWrite s i v).log = s.log := by simp [sctlWrite]
@[simp] theorem slotWrite_log (i : Nat) (s : State) (off : Nat) (v m : W64) : (slotWrite i s off v m).log = s.log := by simp [slotWrite]

/-! ### Operations of Machine/TileUnit.lean -/

@[simp] theorem cellFault_log (s : State) (c : Nat) : (cellFault s c).log = s.log := by simp [cellFault]
@[simp] theorem accFault_log (s : State) (c : Nat) : (accFault s c).log = s.log := by simp [accFault]
@[simp] theorem parityRestart_log (s : State) (c reg : Nat) : (parityRestart s c reg).log = s.log := by simp [parityRestart]
@[simp] theorem tileEffect_log (s : State) (c : Nat) (x0 : TileOp) : (tileEffect s c x0).log = s.log := by
  simp only [tileEffect]
  (repeat' split) <;> first | rfl | simp_all
@[simp] theorem commitHead_log (s : State) (c : Nat) : (commitHead s c).log = s.log := by
  simp only [commitHead]
  (repeat' split) <;> first | rfl | simp_all
@[simp] theorem commitN_log (s : State) (c : Nat) (x0 : Nat) : (commitN s c x0).log = s.log := by
  fun_induction commitN s c x0 <;> simp [*]
@[simp] theorem commitAll_log (s : State) (c : Nat) : (commitAll s c).log = s.log := by simp [commitAll]
@[simp] theorem tileAccept_log (s : State) (c : Nat) (i : TileOp) : (tileAccept s c i).1.log = s.log := by
  simp only [tileAccept]
  (repeat' split) <;> first | rfl | simp_all

/-! ### Operations of Machine/Agents.lean -/

@[simp] theorem wakeExtent_log (s : State) (a n : Nat) : (wakeExtent s a n).log = s.log := by simp [wakeExtent]
@[simp] theorem foundAt_log (s : State) (a : Nat) (e : Ecc) : (foundAt s a e).log = s.log := by
  unfold foundAt
  split <;> simp
@[simp] theorem poisonMet_log (s : State) (a : Nat) : (poisonMet s a).log = s.log := by
  unfold poisonMet
  split <;> simp
@[simp] theorem readCheck_log (s : State) (a n : Nat) (chk : Check) : (readCheck s a n chk).log = s.log := by simp [readCheck]
@[simp] theorem spoilAll_log (es : List (Nat × Nat)) (s : State) : (es.foldl (fun s e => spoilBlock s [e.2] e.1) s).log = s.log := by
  induction es generalizing s with
  | nil => rfl
  | cons e es ih => rw [List.foldl_cons, ih, spoilBlock_log]
@[simp] theorem mergeCheck_log (s : State) (as : List Nat) (chk : Check) : (mergeCheck s as chk).log = s.log := by
  simp only [mergeCheck]
  cases chk.out
  · rw [if_neg (by simp)]
    (repeat' split) <;> simp only [foundCorrected_log, foundBad_log]
  · rw [if_pos rfl]
    (repeat' split) <;> simp only [foundCorrected_log, foundBad_log, spoilAll_log]
@[simp] theorem agentStore_log (s : State) (a : Nat) (bs : List Byte) : (agentStore s a bs).log = s.log := by simp [agentStore]
@[simp] theorem agentStores_log (s : State) (x0 : List (Nat × List Byte)) : (agentStores s x0).log = s.log := by
  fun_induction agentStores s x0 <;> simp [*]

/-! ### Operations of Machine/SetterOps.lean -/

@[simp] theorem setterError_log (s : State) (i code detail group addr : Nat) (fault : Bool) :
    (setterError s i code detail group addr fault).log = s.log := by simp [setterError]
@[simp] theorem setterEnableOp_log (s : State) (i : Nat) : (setterEnableOp s i).log = s.log := by
  simp only [setterEnableOp]
  (repeat' split) <;> first | rfl | simp_all
@[simp] theorem writeItem_log (s : State) (t : PassItem) : (writeItem s t).log = s.log := by simp [writeItem]
@[simp] theorem writeItems_log (s : State) (ts : List PassItem) : (writeItems s ts).log = s.log := by simp [writeItems]
@[simp] theorem passContribute_log (s : State) (i : Nat) (x : SetCtx) (gs : List (PGroup × GroupPass)) :
    (passContribute s i x gs).log = s.log := by simp [passContribute]
@[simp] theorem sharedFree_log (s : State) (x : SetCtx) (st : Strand) (n : Nat) (ts : List PassItem) : (sharedFree s x st n ts).1.log = s.log := by
  simp only [sharedFree]
  (repeat' split) <;> rfl
@[simp] theorem setterDone_log (s : State) (i : Nat) : (setterDone s i).log = s.log := by simp [setterDone]
@[simp] theorem stopIn_log (s : State) (x : SetCtx) (st : Strand) (n : Nat) (g : GroupPass) (pick : Nat → List PassItem → List PassItem) :
    (stopIn s x st n g pick).1.log = s.log := by simp [stopIn]
@[simp] theorem runGroups_log (x : SetCtx) (st : Strand) (hit : Option (Nat × Nat)) (n : Nat) (ps : List PGroup) (s : State) :
    (runGroups x st hit n ps s).1.log = s.log := by
  induction ps generalizing n s with
  | nil => rfl
  | cons p ps ih =>
    simp only [runGroups]
    split
    · rw [stopIn_log]
    · rw [ih, countBulk_log, writeItems_log, sharedFree_log]
@[simp] theorem stopMarks_log (s : State) (i : Nat) (done : List (PGroup × GroupPass)) (z : StopAt) (upto skip : Option Nat) :
    (stopMarks s i done z upto skip).log = s.log := by simp [stopMarks]
@[simp] theorem stopError_log (s : State) (i code detail n : Nat) (p : PGroup) (elem : Option Nat) :
    (stopError s i code detail n p elem).log = s.log := by simp [stopError]
@[simp] theorem trapStop_log (s : State) (i : Nat) (done : List (PGroup × GroupPass)) (z : StopAt) (e : Nat) :
    (trapStop s i done z e).log = s.log := by simp [trapStop]
@[simp] theorem refusedIn_log (s : State) (i code detail n : Nat) (st : Strand) (done : List (PGroup × GroupPass)) :
    (refusedIn s i code detail n st done).log = s.log := by
  simp only [refusedIn]
  split <;> simp
@[simp] theorem wakeExtents_log (s : State) (es : List (Nat × Nat)) : (wakeExtents s es).log = s.log := by
  unfold wakeExtents
  exact foldl_log (fun s (e : Nat × Nat) => wakeExtent s e.1 e.2) (fun s e => wakeExtent_log s e.1 e.2) es s
@[simp] theorem passRun_log (s : State) (i : Nat) (hit : Option (Nat × Nat × Nat)) : (passRun s i hit).log = s.log := by
  simp only [passRun]
  split
  · rfl
  · split
    · simp
    · split
      · simp
      · split <;> simp
@[simp] theorem passStop_log (s : State) (i code detail : Nat) (refused : Bool) : (passStop s i code detail refused).log = s.log := by
  simp only [passStop]
  split
  · split
    · simp
    · split <;> simp
  · simp
  · rfl
@[simp] theorem setterDisableOp_log (s : State) (i detail : Nat) : (setterDisableOp s i detail).log = s.log := by simp [setterDisableOp]
@[simp] theorem setterArmOp_log (s : State) (i : Nat) : (setterArmOp s i).log = s.log := by simp [setterArmOp]
@[simp] theorem setterVerdict_log (s : State) (i : Nat) (w : W16) : (setterVerdict s i w).log = s.log := by
  simp only [setterVerdict]
  (repeat' split) <;> first | rfl | simp_all
@[simp] theorem sjctlWrite_log (s : State) (i : Nat) (v m : W64) : (sjctlWrite s i v m).log = s.log := by simp [sjctlWrite]
@[simp] theorem sjlverdWrite_log (s : State) (i : Nat) (v m : W64) : (sjlverdWrite s i v m).log = s.log := by simp [sjlverdWrite]
@[simp] theorem setterWrite_log (i : Nat) (s : State) (off : Nat) (v m : W64) : (setterWrite i s off v m).log = s.log := by simp [setterWrite]
@[simp] theorem setterReset_log (s : State) (i : Nat) : (setterReset s i).log = s.log := by simp [setterReset]

/-! ### Operations of Machine/AdderOps.lean -/

@[simp] theorem descRead_log (s : State) (i : Nat) (d : BDesc) : (descRead s i d).log = s.log := by simp [descRead]
@[simp] theorem adderWait_log (s : State) (i b : Nat) : (adderWait s i b).log = s.log := by
  simp only [adderWait]
  (repeat' split) <;> simp
@[simp] theorem adderSend_log (s : State) (i : Nat) (p : Packet) : (adderSend s i p).log = s.log := by simp [adderSend]
@[simp] theorem adderSends_log (i : Nat) (s : State) (ps : List Packet) : (adderSends i s ps).log = s.log := by
  unfold adderSends
  exact foldl_log (fun s p => adderSend s i p) (fun s p => adderSend_log s i p) ps s
@[simp] theorem pumpOut_log (s : State) (i : Nat) : (pumpOut s i).log = s.log := by simp [pumpOut]
@[simp] theorem adderQueue_log (s : State) (i : Nat) (p : Packet) : (adderQueue s i p).log = s.log := by simp [adderQueue]
@[simp] theorem sendCredit_log (s : State) (i b : Nat) : (sendCredit s i b).log = s.log := by simp [sendCredit]
@[simp] theorem freeIn_log (s : State) (i b : Nat) : (freeIn s i b).log = s.log := by simp [freeIn]
@[simp] theorem freeIns_log (s : State) (i b : Nat) (x0 : Nat) : (freeIns s i b x0).log = s.log := by
  fun_induction freeIns s i b x0 <;> simp [*]
@[simp] theorem readyCheck_log (s : State) (i : Nat) : (readyCheck s i).log = s.log := by simp [readyCheck]
@[simp] theorem bucketRelease_log (s : State) (i b : Nat) (d : BDesc) (taint sat err : Bool) (bmax : BitVec 4) (bumps : Nat) (chk : Check) :
    (bucketRelease s i b d taint sat err bmax bumps chk).log = s.log := by simp [bucketRelease]
@[simp] theorem adderError_log (s : State) (i code detail b seq t : Nat) (peer : Option Nat) :
    (adderError s i code detail b seq t peer).log = s.log := by
  unfold adderError
  (repeat' split) <;> first | rfl | simp_all
@[simp] theorem bucketLost_log (s : State) (i code detail b t : Nat) : (bucketLost s i code detail b t).log = s.log := by simp [bucketLost]
@[simp] theorem bucketDrop_log (s : State) (i b : Nat) (keep : Bool) : (bucketDrop s i b keep).log = s.log := by
  simp only [bucketDrop]
  split <;> simp
@[simp] theorem bucketUnread_log (s : State) (i b code detail t : Nat) (seq : Byte) (peer : Option Nat) :
    (bucketUnread s i b code detail t seq peer).log = s.log := by simp [bucketUnread]
@[simp] theorem bucketFail_log (s : State) (i : Nat) (e : Nat × Nat) (b t : Nat) : (bucketFail s i e b t).log = s.log := by
  unfold bucketFail
  split <;> simp
@[simp] theorem bucketEnd_log (s : State) (i b code detail t : Nat) (peer : Option Nat) : (bucketEnd s i b code detail t peer).log = s.log := by
  simp only [bucketEnd]
  split
  · split <;> simp
  · split <;> simp
@[simp] theorem creditEnd_log (s : State) (i b : Nat) : (creditEnd s i b).log = s.log := by simp [creditEnd]
@[simp] theorem packetFail_log (s : State) (i : Nat) (e : Nat × Nat) (b t q : Nat) : (packetFail s i e b t q).log = s.log := by
  simp only [packetFail]
  (repeat' split) <;> simp
@[simp] theorem nonFinite_log (s : State) (i b t : Nat) : (nonFinite s i b t).log = s.log := by simp [nonFinite]
theorem writeResult_log {s t : State} {i : Nat} {d : BDesc} {x : Tile} (h : writeResult s i d x = some t) : t.log = s.log := by
  simp only [writeResult] at h
  split at h
  · cases h
  · cases h; simp
@[simp] theorem tileOutput_log (s : State) (i n : Nat) (d : BDesc) (prev : Option Tile) (out : Tile) :
    (tileOutput s i n d prev out).log = s.log := by
  simp only [tileOutput]
  split
  · split
    · simp
    · have hs := writeResult_log (by assumption)
      split <;> simp [hs]
  · simp
@[simp] theorem slotAdvance_log (s : State) (i n t : Nat) (d : BDesc) : (slotAdvance s i n t d).log = s.log := by
  simp only [slotAdvance]
  (repeat' split) <;> first | rfl | simp_all
theorem slotFor_log {s t : State} {i b q n : Nat} (h : slotFor s i b q = some (n, t)) : t.log = s.log := by
  simp only [slotFor] at h
  split at h
  · cases h; rfl
  · simp only [Option.map_eq_some_iff] at h
    obtain ⟨m, -, h⟩ := h
    cases h
    split
    · simp
    · rfl
theorem localTry_log {s t : State} {i : Nat} {l : Bool} {x : Tile} (h : localTry s i l x = .yes t) : t.log = s.log := by
  simp only [localTry] at h
  repeat' split at h
  all_goals first
    | cases h; done
    | (cases h; simp; done)
    | (cases h; have hs := slotFor_log (by assumption); simp [hs])
theorem dataTry_log {s t : State} {i : Nat} {q : DataTile} (h : dataTry s i q = .yes t) : t.log = s.log := by
  simp only [dataTry] at h
  repeat' split at h
  all_goals first
    | cases h; done
    | (cases h; simp; done)
    | (cases h; have hs := slotFor_log (by assumption); simp [hs])
@[simp] theorem retryIn_log (i : Nat) (qs : List DataTile) (s : State) : (retryIn i qs s).log = s.log := by
  induction qs generalizing s with
  | nil => rfl
  | cons q qs ih =>
    simp only [retryIn]
    split
    · split
      · rw [ih, dataTry_log (by assumption)]; rfl
      · rw [ih, adderWait_log]
    · exact ih s
@[simp] theorem retryLocal_log (i : Nat) (ts : List Tile) (s : State) : (retryLocal i ts s).log = s.log := by
  induction ts generalizing s with
  | nil => rfl
  | cons q qs ih =>
    simp only [retryLocal]
    split
    · split
      · rw [ih, localTry_log (by assumption)]; rfl
      · rw [ih, adderWait_log]
    · exact ih s
@[simp] theorem retryUnit_log (s : State) (m : Nat) : (retryUnit s m).log = s.log := by simp [retryUnit]
theorem layerRead_log {s t : State} {i b k : Nat} (h : layerRead s i b k = .yes t) : t.log = s.log := by
  simp only [layerRead] at h
  repeat' split at h
  all_goals first
    | cases h; done
    | (cases h; simp; done)
    | (cases h; have hs := localTry_log (by assumption); simpa using hs)
theorem layerStep_pick_log {s t : State} {i : Nat} {bs : List W16} {b : W16} (h : layerStep.pick s i bs = some (b, t)) : t.log = s.log := by
  induction bs with
  | nil => cases h
  | cons c bs ih =>
    simp only [layerStep.pick] at h
    split at h
    · cases h; exact layerRead_log (by assumption)
    · exact ih h
@[simp] theorem layerStep_log (s : State) (i : Nat) : (layerStep s i).log = s.log := by
  simp only [layerStep]
  split
  · split
    · exact layerRead_log (by assumption)
    · exact adderWait_log _ _ _
  · split
    · exact foldl_log (fun s (b : W16) => adderWait s i b.toNat) (fun s b => adderWait_log s i b.toNat) _ s
    · have hs := layerStep_pick_log (by assumption)
      simpa using hs
@[simp] theorem adderPublish_log (s : State) (i : Nat) (b : W16) : (adderPublish s i b).log = s.log := by
  unfold adderPublish
  (repeat' split) <;> first | rfl | simp_all
@[simp] theorem adderEnableOp_log (s : State) (i : Nat) : (adderEnableOp s i).log = s.log := by
  simp only [adderEnableOp]
  (repeat' split) <;> first | rfl | simp_all
@[simp] theorem regionVerdict_log (s : State) (r job : Nat) : (regionVerdict s r job).log = s.log := by
  simp only [regionVerdict]
  (repeat' split) <;> rfl
@[simp] theorem endBuckets_log (s : State) (i detail : Nat) (x0 : List Nat) : (endBuckets s i detail x0).log = s.log := by
  fun_induction endBuckets s i detail x0 <;> simp [*]
@[simp] theorem freeHeld_log (s : State) (i : Nat) : (freeHeld s i).log = s.log := by
  have h (l : List Nat) (s : State) : (l.foldl (fun s b => freeIn s i b) s).log = s.log := by
    induction l generalizing s with
    | nil => rfl
    | cons b l ih => rw [List.foldl_cons, ih, freeIn_log]
  simp only [freeHeld, h]
@[simp] theorem adderDisableOp_log (s : State) (i detail : Nat) : (adderDisableOp s i detail).log = s.log := by
  unfold adderDisableOp
  extract_lets x bs s1 s2 y s3 mine s4 r g s5
  split
  · rfl
  · have h1 : s1.log = s.log := (freeHeld_log _ _).trans (endBuckets_log _ _ _ _)
    have h2 : s2.log = s1.log := adderSends_log _ _ _
    have h5 : s5.log = s2.log := by
      simp only [s5, s4, s3]
      split <;> simp
    rw [retryUnit_log, regionVerdict_log, h5, h2, h1]
@[simp] theorem ajpubWrite_log (s : State) (i : Nat) (v m : W64) : (ajpubWrite s i v m).log = s.log := by simp [ajpubWrite]
@[simp] theorem adderWrite_log (i : Nat) (s : State) (off : Nat) (v m : W64) : (adderWrite i s off v m).log = s.log := by simp [adderWrite]
@[simp] theorem adderReset_log (s : State) (i : Nat) : (adderReset s i).log = s.log := by simp [adderReset]

/-! ### Operations of Machine/Ops.lean -/

@[simp] theorem takeTrap_log (s : State) (c : Nat) (int : Bool) (cls detail : Byte) (addr : W64) :
    (takeTrap s c int cls detail addr).log = s.log := by simp [takeTrap]
@[simp] theorem takeInterrupt_log (s : State) (c : Nat) (cls : Nat) : (takeInterrupt s c cls).log = s.log := by simp [takeInterrupt]
@[simp] theorem finish_log (c : Nat) (r : Res) : (finish c r).log = r.log := by
  unfold finish
  split
  · rfl
  · rfl
  · rfl
  · simp only [Res.log]; split <;> simp
theorem issueTile_log (s : State) (c : CellId) (f : State → Res) (h : ∀ s, (f s).log = s.log) : (issueTile s c f).log = s.log := by
  unfold issueTile
  split
  · split
    · simp
    · simp [h]
  · rfl
theorem issue_log (s : State) (c : CellId) (f : State → Res) (h : ∀ s, (f s).log = s.log) : (issue s c f).log = s.log := by
  refine issueTile_log s c _ fun s => ?_
  simp only
  split
  · simp
  · simp [h]
@[simp] theorem illegal_log (s : State) : (illegal s).log = s.log := by simp [illegal]
@[simp] theorem onCell_log (s : State) (c : CellId) (f : Cell → Cell) : (onCell s c f).log = s.log := by simp [onCell]
theorem vecReady_log (s : State) (c : CellId) (f : State → Res) (h : ∀ s, (f s).log = s.log) : (vecReady s c f).log = s.log := by
  unfold vecReady
  split
  · rfl
  · exact h s
theorem memRes_log (m : Meets) (f : List Nat → State → Res) (h : ∀ a s, (f a s).log = s.log) : (memRes m f).log = m.log := by
  cases m with
  | go a s => exact h a s
  | raise e s => rfl
  | hold s => rfl

/-! ### Operations of Machine/PipOps.lean -/

@[simp] theorem setPipAt_log (s : State) (c p : Nat) (x : Pip) : (setPipAt s c p x).log = s.log := by simp [setPipAt]
@[simp] theorem cellReport_log (s : State) (c cls : Nat) (detail : W64) : (cellReport s c cls detail).log = s.log := by simp [cellReport]
@[simp] theorem pipMisuse_log (s : State) (c p : Nat) : (pipMisuse s c p).log = s.log := by simp [pipMisuse]
@[simp] theorem wakeBlock_log (s : State) (b : Nat) : (wakeBlock s b).log = s.log := by simp [wakeBlock]
@[simp] theorem checkWait_log (s : State) (c p : Nat) : (checkWait s c p).log = s.log := by
  simp only [checkWait]
  (repeat' split) <;> first | rfl | simp_all
@[simp] theorem endTimeout_log (s : State) (c p : Nat) : (endTimeout s c p).log = s.log := by simp [endTimeout]
@[simp] theorem countSignal_log (s : State) (c p : Nat) (n : W16) : (countSignal s c p n).log = s.log := by simp [countSignal]
@[simp] theorem refuseSignal_log (s : State) (src c p : Nat) : (refuseSignal s src c p).log = s.log := by simp [refuseSignal]
@[simp] theorem ownSignal_log (s : State) (g : Sig) (job : BitVec 12) : (ownSignal s g job).log = s.log := by
  simp only [ownSignal]
  split <;> simp
@[simp] theorem signalArrive_log (s : State) (g : Sig) : (signalArrive s g).log = s.log := by
  unfold signalArrive
  split
  · simp
  · split <;> simp
@[simp] theorem sendBar_log (s : State) (kind : BKind) (src c p : Nat) (gen : W16) (hall : Byte) :
    (sendBar s kind src c p gen hall).log = s.log := by simp [sendBar]
@[simp] theorem sendTree_log (s : State) (kind : BKind) (port c p : Nat) (gen : W16) : (sendTree s kind port c p gen).log = s.log := by
  simp [sendTree]
@[simp] theorem sendTo_log (s : State) (kind : BKind) (rcv home p : Nat) (gen : W16) : (sendTo s kind rcv home p gen).log = s.log := by simp [sendTo]
@[simp] theorem sendAllTo_log (s : State) (kind : BKind) (home p : Nat) (gen : W16) (x0 : List Nat) :
    (sendAllTo s kind home p gen x0).log = s.log := by
  fun_induction sendAllTo s kind home p gen x0 <;> simp [*]
@[simp] theorem answerAll_log (s : State) (kind : BKind) (home p : Nat) (x0 : List (W16 × Nat)) : (answerAll s kind home p x0).log = s.log := by
  fun_induction answerAll s kind home p x0 <;> simp [*]
@[simp] theorem completeGen_log (s : State) (home p n : Nat) : (completeGen s home p n).log = s.log := by
  induction n generalizing s with
  | zero => rfl
  | succ n ih =>
    simp only [completeGen]
    split
    · split <;> simp [ih]
    · simp
@[simp] theorem homeArrival_log (s : State) (home p : Nat) (gen : W16) : (homeArrival s home p gen).log = s.log := by
  simp only [homeArrival]
  (repeat' split) <;> first | rfl | simp_all
@[simp] theorem homeWithdraw_log (s : State) (home p asker : Nat) (gen : W16) : (homeWithdraw s home p asker gen).log = s.log := by
  simp only [homeWithdraw]
  (repeat' split) <;> first | rfl | simp_all
@[simp] theorem parentAnswer_log (s : State) (home p : Nat) (accepted : Bool) : (parentAnswer s home p accepted).log = s.log := by simp [parentAnswer]
@[simp] theorem memberAnswer_log (s : State) (c p : Nat) (accepted : Bool) : (memberAnswer s c p accepted).log = s.log := by
  simp only [memberAnswer]
  (repeat' split) <;> first | rfl | simp_all
@[simp] theorem memberRelease_log (s : State) (c p : Nat) (gen : W16) : (memberRelease s c p gen).log = s.log := by simp [memberRelease]
@[simp] theorem barrierLocal_log (s : State) (m : BMsg) : (barrierLocal s m).log = s.log := by
  unfold barrierLocal
  (repeat' split) <;> first | rfl | simp_all
@[simp] theorem barrierTree_log (s : State) (m : BMsg) : (barrierTree s m).log = s.log := by
  unfold barrierTree
  (repeat' split) <;> first | rfl | simp_all
@[simp] theorem barrierArrive_log (s : State) (m : BMsg) : (barrierArrive s m).log = s.log := by simp [barrierArrive]
@[simp] theorem takeBar_log (s : State) (k : Nat) (want : BKind → Bool) : (takeBar s k want).log = s.log := by
  simp only [takeBar]
  split
  · split
    · split <;> simp
    · rfl
  · split
    · have hs := takePacket_log (by assumption)
      simp [hs]
    · rfl
@[simp] theorem withdrawalLost_log (s : State) (c p : Nat) (peer : W32) : (withdrawalLost s c p peer).log = s.log := by simp [withdrawalLost]
@[simp] theorem enterWait_log (s : State) (c p : Nat) (kind : WaitKind) (t : Option Nat) : (enterWait s c p kind t).log = s.log := by
  unfold enterWait
  (repeat' split) <;> first | rfl | simp_all
@[simp] theorem pcfgWriteOp_log (s : State) (c p : Nat) (v m : W64) : (pcfgWriteOp s c p v m).log = s.log := by
  simp only [pcfgWriteOp]
  (repeat' split) <;> first | rfl | simp_all
@[simp] theorem sendWithdrawal_log (s : State) (c : Nat) (w : Wait) : (sendWithdrawal s c w).log = s.log := by simp [sendWithdrawal]

/-! ### Operations of Machine/LinkOps.lean -/

@[simp] theorem portCount_log (s : State) (p i n : Nat) : (portCount s p i n).log = s.log := by simp [portCount]
@[simp] theorem sendFlit_log (s : State) (p : Fin 6) (f : Flit) : (sendFlit s p f).log = s.log := by simp [sendFlit]
@[simp] theorem sendFlits_log (s : State) (p : Fin 6) (x0 : List Flit) : (sendFlits s p x0).log = s.log := by
  fun_induction sendFlits s p x0 <;> simp [*]
@[simp] theorem sendNull_log (s : State) (p : Fin 6) : (sendNull s p).log = s.log := by
  unfold sendNull; exact sendFlit_log s p _
@[simp] theorem sendFrom_log (s : State) (p : Fin 6) (pkt : Packet) (k n : Nat) : (sendFrom s p pkt k n).1.log = s.log := by simp [sendFrom]
@[simp] theorem pump_log (s : State) (p : Fin 6) (n : Nat) : (pump s p n).log = s.log := by
  simp only [pump]
  split
  · rfl
  · simp
@[simp] theorem portIdle_log (s : State) (p : Fin 6) : (portIdle s p).log = s.log := by simp [portIdle]
@[simp] theorem resendAll_log (s : State) (p : Fin 6) : (resendAll s p).log = s.log := by simp [resendAll]
@[simp] theorem receiveFlit_log (s : State) (p : Fin 6) (f : Flit) : (receiveFlit s p f).log = s.log := by simp [receiveFlit]
@[simp] theorem refusePacket_log (s : State) (pkt : Packet) (reason : Nat) : (refusePacket s pkt reason).log = s.log := by simp [refusePacket]
@[simp] theorem reduceDiscard_log (s : State) (pkt : Packet) : (reduceDiscard s pkt).log = s.log := by simp [reduceDiscard]
@[simp] theorem leaveOp_log (s : State) (p : Fin 6) : (leaveOp s p).log = s.log := by simp [leaveOp]
@[simp] theorem receivePacket_log (s : State) (p : Fin 6) (pkt : Packet) : (receivePacket s p pkt).log = s.log := by simp [receivePacket]
@[simp] theorem sendIdent_log (s : State) (p : Fin 6) (m : Nat) : (sendIdent s p m).log = s.log := by simp [sendIdent]
@[simp] theorem identTaken_log (s : State) (p : Fin 6) : (identTaken s p).log = s.log := rfl
@[simp] theorem dropBypassed_log (s : State) (p : Fin 6) : (dropBypassed s p).log = s.log := by simp [dropBypassed]
@[simp] theorem newPartner_log (s : State) (p : Fin 6) (x : Port) (new : Nat) : (newPartner s p x new).log = s.log := by simp [newPartner]
@[simp] theorem mismatch_log (s : State) (p : Fin 6) (new : W32) : (mismatch s p new).log = s.log := by simp [mismatch]
@[simp] theorem trainedOp_log (s : State) (p : Fin 6) (h : BitVec 128) : (trainedOp s p h).log = s.log := by simp [trainedOp]
@[simp] theorem rideExpireOp_log (s : State) (p : Fin 6) : (rideExpireOp s p).log = s.log := by
  unfold rideExpireOp
  dsimp only
  split
  · split
    · refine (reportLog_log _ _ _ _ _ _).trans ((dropAll_log _ _ _).trans ((portIdle_log _ _).trans ?_))
      exact (State.setPort_log _ _ _).trans (moduleTimeTo_log _ _)
    · rfl
  · rfl
@[simp] theorem signalLossOp_log (s : State) (p : Fin 6) : (signalLossOp s p).log = s.log := by simp [signalLossOp]

/-! ### Operations of Machine/ArbOps.lean -/

@[simp] theorem setFreeze_log (s : State) (k : Nat) (on : Bool) : (setFreeze s k on).log = s.log := by
  unfold setFreeze
  (repeat' split) <;> first | rfl | simp_all
@[simp] theorem arbTimeTo_log (s : State) (k t : Nat) : (arbTimeTo s k t).log = s.log := by simp [arbTimeTo]
@[simp] theorem portTake_log (s : State) (k : Nat) : (portTake s k).log = s.log := by
  unfold portTake
  (repeat' split) <;> rfl
@[simp] theorem grantTo_log (s : State) (k : Nat) (q : ArbReq) : (grantTo s k q).log = s.log := by simp [grantTo]
@[simp] theorem decideOwner_log (s : State) (k : Nat) : (decideOwner s k).log = s.log := by
  unfold decideOwner
  (repeat' split) <;> first | rfl | simp_all
@[simp] theorem standing_log (s : State) (k : Nat) (reqs : List ArbReq) : (standing s k reqs).log = s.log := by simp [standing]
@[simp] theorem moveFlits_log (s : State) (k n : Nat) : (moveFlits s k n).log = s.log := by
  unfold moveFlits
  (repeat' split) <;> first | rfl | simp_all
@[simp] theorem grantOp_log (s : State) (k : Nat) (reqs : List ArbReq) : (grantOp s k reqs).log = s.log := by
  simp only [grantOp]
  (repeat' split) <;> first | rfl | simp_all
@[simp] theorem endTransfer_log (s : State) (k : Nat) : (endTransfer s k).log = s.log := by
  unfold endTransfer
  (repeat' split) <;> rfl
@[simp] theorem preemptOp_log (s : State) (k : Nat) (q : ArbReq) (beats : Nat) : (preemptOp s k q beats).log = s.log := by
  simp only [preemptOp]
  (repeat' split) <;> first | rfl | simp_all
@[simp] theorem arbReport_log (s : State) (k : Nat) (cls : W16) (detail : W64) : (arbReport s k cls detail).log = s.log := by simp [arbReport]
@[simp] theorem arbWrite_log (k : Nat) (s : State) (off : Nat) (v m : W64) : (arbWrite k s off v m).log = s.log := by simp [arbWrite]

/-! ### Operations of Machine/CopyData.lean -/

@[simp] theorem writePart_log (s : State) (p : Piece) : (writePart s p).log = s.log := by
  simp only [writePart]
  split <;> simp
@[simp] theorem spoilAt_log (s : State) (a : Nat) : (spoilAt s a).log = s.log := by
  unfold spoilAt
  (repeat' split) <;> rfl
@[simp] theorem spoilPiece_log (s : State) (p : Piece) : (spoilPiece s p).log = s.log := by simp [spoilPiece]
theorem writePieces_log (put : State → Nat → List Byte → State) (h : ∀ s a bs, (put s a bs).log = s.log) (s : State) (ps : List Piece) :
    (writePieces put s ps).log = s.log := by
  unfold writePieces
  refine (foldl_log _ (fun s p => spoilPiece_log s p) _ _).trans ?_
  refine (foldl_log (fun (s : State) (w : Nat × List Byte) => put s w.1 w.2) (fun s w => h s w.1 w.2) _ _).trans ?_
  exact foldl_log _ (fun s p => writePart_log s p) _ _
@[simp] theorem sourceTiles_log (s : State) (d : Desc) : (sourceTiles s d).log = s.log := by
  unfold sourceTiles; exact foldl_log (fun s (t : Nat × Nat × Nat × Bool) => s.updCell t.1 fun k => k.windowRead t.2.1 t.2.2.1) (fun _ _ => rfl) _ _
@[simp] theorem wakeExts_log (s : State) (d : Desc) : (wakeExts s d).log = s.log := by
  unfold wakeExts
  exact foldl_log (fun s (e : Int × Nat × Bool) => wakeExtent s e.1.toNat e.2.1) (fun s e => wakeExtent_log s e.1.toNat e.2.1) _ s
@[simp] theorem sourceCheck_log (s : State) (d : Desc) (src : Check) : (sourceCheck s d src).log = s.log := by
  simp only [sourceCheck]
  split
  · split <;> simp
  · rfl
@[simp] theorem stoppedWrites_log (s : State) (hall : Byte) (d : Desc) : (stoppedWrites s hall d).log = s.log := by
  unfold stoppedWrites
  split
  · rfl
  · split
    · exact wakeExts_log _ _
    · exact (writePieces_log _ (fun _ _ _ => rfl) _ _).trans ((draw_log _).trans ((sourceTiles_log _ _).trans (wakeExts_log _ _)))

/-! ### Operations of Machine/CopyRegs.lean -/

@[simp] theorem recallPackets_log (s : State) (i : Nat) : (recallPackets s i).log = s.log := rfl
@[simp] theorem remoteStop_log (s : State) (i : Nat) (j : Job) : (remoteStop s i j).log = s.log := by simp [remoteStop]
@[simp] theorem copyEnd_log (s : State) (i : Nat) (j : Job) (code detail addr : Nat) :
    (copyEnd s i j code detail addr).log = s.log := by simp [copyEnd]
@[simp] theorem sendAll_log (s : State) (own : Option Nat) (x0 : List Packet) : (sendAll s own x0).log = s.log := by
  fun_induction sendAll s own x0 <;> simp [*]
@[simp] theorem sendCopy_log (s : State) (i : Nat) (d : Desc) (ps : List Piece) (quiet : Bool) :
    (sendCopy s i d ps quiet).log = s.log := by simp [sendCopy]
@[simp] theorem openSend_log (s : State) (i : Nat) (d : Desc) (hall : Byte) : (openSend s i d hall).log = s.log := by
  simp only [openSend]
  split
  · rfl
  · split <;> simp
@[simp] theorem copyStopped_log (s : State) (i : Nat) (j : Job) (code detail addr : Nat) :
    (copyStopped s i j code detail addr).log = s.log := by simp [copyStopped]
@[simp] theorem copyAbortOp_log (s : State) (i : Nat) : (copyAbortOp s i).log = s.log := by
  simp only [copyAbortOp]
  (repeat' split) <;> first | rfl | simp_all
@[simp] theorem engineWrite_log (i : Nat) (s : State) (off : Nat) (v m : W64) : (engineWrite i s off v m).log = s.log := by simp [engineWrite]
@[simp] theorem engineReset_log (s : State) (i : Nat) : (engineReset s i).log = s.log := by simp [engineReset]

/-! ### Operations of Machine/QpOps.lean -/

@[simp] theorem countRegion_log (s : State) (p : Option Nat) (a n : Nat) : (countRegion s p a n).log = s.log := by
  unfold countRegion
  split <;> simp
@[simp] theorem entryRead_log (s : State) (i : Nat) (r : W64) (j : W16) : (entryRead s i r j).log = s.log := by simp [entryRead]
theorem engineWaits_log {s t : State} {es : List (Nat × Nat)} (h : engineWaits s es = some t) : t.log = s.log := by
  unfold engineWaits at h
  split at h
  · cases h; rfl
  · split at h
    · cases h
    · cases h; simp
@[simp] theorem qpEnableOp_log (s : State) (i : Nat) : (qpEnableOp s i).log = s.log := by simp [qpEnableOp]
@[simp] theorem qpDisableOp_log (s : State) (i : Nat) : (qpDisableOp s i).log = s.log := by simp [qpDisableOp]
@[simp] theorem qpPostOp_log (s : State) (i : Nat) (v m : W32) : (qpPostOp s i v m).log = s.log := by simp [qpPostOp]
@[simp] theorem countHost_log (s : State) (p : Option Nat) (k n : Nat) : (countHost s p k n).log = s.log := by simp [countHost]
@[simp] theorem roceOut_log (s : State) (i op : Nat) (va : W64) (key : W32) (data : List Byte) : (roceOut s i op va key data).log = s.log := by
  unfold roceOut
  (repeat' split) <;> first | rfl | simp_all
@[simp] theorem armRetry_log (s : State) (i : Nat) : (armRetry s i).log = s.log := by simp [armRetry]
@[simp] theorem emitEntry_log (s : State) (i : Nat) (e : Entry) : (emitEntry s i e).log = s.log := by simp [emitEntry]
@[simp] theorem outcome_log (s : State) (i : Nat) (send : Bool) (idx : W16) (status : Byte) (bytes : Nat) :
    (outcome s i send idx status bytes).log = s.log := by simp [outcome]
@[simp] theorem startEntry_log (s : State) (i : Nat) : (startEntry s i).log = s.log := by
  simp only [startEntry]
  split
  · split
    · exact engineWaits_log (by assumption)
    · split
      · simp
      · split <;> simp
  · rfl
@[simp] theorem statusWrite_log (s : State) (i a : Nat) (send : Bool) (status : Byte) (bytes : W64) (chk : Check) :
    (statusWrite s i a send status bytes chk).log = s.log := by
  simp only [statusWrite]
  split <;> simp
@[simp] theorem completeEntry_log (s : State) (i : Nat) (send : Bool) (status : Byte) (bytes : W64) (chk : Check) :
    (completeEntry s i send status bytes chk).log = s.log := by
  unfold completeEntry
  extract_lets x r a t x' y z u
  have h : t.log = s.log := by
    simp only [t]
    split <;> simp
  have hu : u.log = s.log := (State.setQp_log _ _ _).trans h
  split
  · exact (sendSig_log _ _ _ _ _ _).trans hu
  · exact hu
@[simp] theorem completionOp_log (s : State) (i : Nat) (chk : Check) : (completionOp s i chk).log = s.log := by
  simp only [completionOp]
  split
  · rfl
  · split
    · exact engineWaits_log (by assumption)
    · simp
@[simp] theorem resendEntries_log (s : State) (i n : Nat) (j : W16) : (resendEntries s i n j).log = s.log := by
  induction n generalizing s j with
  | zero => rfl
  | succ n ih =>
    simp only [resendEntries]
    split
    · rfl
    · rw [ih]; split <;> simp
@[simp] theorem qpcfgWrite_log (s : State) (i : Nat) (v m : W64) : (qpcfgWrite s i v m).log = s.log := by simp [qpcfgWrite]
@[simp] theorem qpWrite_log (i : Nat) (s : State) (off : Nat) (v m : W64) : (qpWrite i s off v m).log = s.log := by simp [qpWrite]
@[simp] theorem mwcfgWrite_log (s : State) (i : Nat) (v m : W32) : (mwcfgWrite s i v m).log = s.log := by simp [mwcfgWrite]
@[simp] theorem mwWrite_log (i : Nat) (s : State) (off : Nat) (v m : W64) : (mwWrite i s off v m).log = s.log := by simp [mwWrite]
@[simp] theorem qpResets_log (s : State) (b : Nat) : (qpResets s b).log = s.log := by
  simp only [qpResets]
  rw [foldl_log (fun s i => s.setMw i Mw.reset) (fun _ _ => rfl), foldl_log (fun s i => s.setQp i Qp.reset) (fun _ _ => rfl)]

/-! ### Operations of Machine/Ctl.lean -/

@[simp] theorem pipWrite_log (c p : Nat) (s : State) (off : Nat) (v m : W64) : (pipWrite c p s off v m).log = s.log := by simp [pipWrite]
@[simp] theorem l2enWrite_log (s : State) (b : Nat) (on : Bool) : (l2enWrite s b on).log = s.log := by simp [l2enWrite]
@[simp] theorem blockWrite_log (b : Nat) (s : State) (off : Nat) (v m : W64) : (blockWrite b s off v m).log = s.log := by simp [blockWrite]
theorem pageOf_wr_log {s : State} {h : Byte} {p : Place} {g : Page} (e : pageOf s h p = some g) (t : State) (a : Nat) (v m : W64) :
    (g.wr t a v m).log = t.log := by
  unfold pageOf at e
  repeat' split at e
  all_goals first
    | cases e; done
    | (cases e; simp)
@[simp] theorem ctlWrite_log (h : Byte) (n a : Nat) (bs : List Byte) (s : State) : (ctlWrite h n a bs s).log = s.log := by
  induction n generalizing s a bs with
  | zero => rfl
  | succ n ih =>
    simp only [ctlWrite]
    split
    · rfl
    · rw [ih]
      split
      · rw [pageWrite_log]
        exact pageOf_wr_log (by assumption)
      · rfl
@[simp] theorem ctlPut_log (s : State) (h : Byte) (a : Nat) (bs : List Byte) : (ctlPut s h a bs).log = s.log := by simp [ctlPut]
@[simp] theorem refusedAtUnit_log (s : State) (a : Nat) : (refusedAtUnit s a).log = s.log := by
  unfold refusedAtUnit
  (repeat' split) <;> first | rfl | simp_all
theorem regAccess_log (s : State) (h : Byte) (a : Nat) (f : State → State) (hf : ∀ s, (f s).log = s.log) :
    (regAccess s h a f).log = s.log := by
  unfold regAccess
  split
  · exact hf s
  · simp

/-! ### Operations of Machine/Setter.lean -/

@[simp] theorem setterConsume_log (s : State) (i : Nat) : (setterConsume s i).log = s.log := by
  simp only [setterConsume]
  (repeat' split) <;> first | rfl | simp_all
@[simp] theorem checkRun_log (s : State) (i : Nat) : (checkRun s i).log = s.log := by
  simp only [checkRun]
  split
  · split
    · rfl
    · split
      · simp
      · split <;> simp
  · rfl
@[simp] theorem wakePass_log (s : State) (x : SetCtx) : (wakePass s x).log = s.log := by simp [wakePass]
@[simp] theorem checkStop_log (s : State) (i code detail : Nat) : (checkStop s i code detail).log = s.log := by simp [checkStop]
@[simp] theorem setterBite_log (s : State) (i k : Nat) : (setterBite s i k).log = s.log := by
  simp only [setterBite]
  split
  · simp
  · split <;> simp
  · rfl

/-! ### Operations of Machine/Adder.lean -/

@[simp] theorem refuseTile_log (s : State) (m : Nat) (t : LocalTile) : (refuseTile s m t).log = s.log := by
  unfold refuseTile; rw [sendRefusal_log]; simp
theorem takeReduce_log (s : State) (k t : Nat) (f : State → Nat → Packet → State) (hf : ∀ s i p, (f s i p).log = s.log) :
    (takeReduce s k t f).log = s.log := by
  unfold takeReduce
  split
  · rfl
  · have hs := takePacket_log (by assumption)
    repeat' split
    all_goals simp [hf, hs]
theorem tilePacket_log (s : State) (i : Nat) (p : Packet) (b : Bool) (f : State → BDesc → State) (hf : ∀ s d, (f s d).log = s.log) :
    (tilePacket s i p b f).log = s.log := by
  simp only [tilePacket]
  repeat' split
  all_goals simp [hf]
@[simp] theorem finishBucket_log (s : State) (i n : Nat) (d : BDesc) (chk : Check) : (finishBucket s i n d chk).log = s.log := by
  simp only [finishBucket]
  split
  · simp
  · split <;> simp
@[simp] theorem finishIfSent_log (s : State) (i n : Nat) (chk : Check) : (finishIfSent s i n chk).log = s.log := by
  simp only [finishIfSent]
  split
  · rfl
  · split <;> simp
@[simp] theorem dataForwarded_log (s : State) (i b t : Nat) : (dataForwarded s i b t).log = s.log := by
  unfold dataForwarded
  (repeat' split) <;> first | rfl | simp_all
@[simp] theorem resultSent_log (s : State) (i b : Nat) : (resultSent s i b).log = s.log := by
  unfold resultSent
  split
  · simp
  · split <;> simp
@[simp] theorem sendEarly_log (s : State) (i : Nat) : (sendEarly s i).log = s.log := by
  simp only [sendEarly]
  split
  · rfl
  · split
    · rfl
    · (repeat' split) <;> simp
@[simp] theorem sendNext_log (s : State) (i : Nat) : (sendNext s i).log = s.log := by
  simp only [sendNext]
  split
  · simp
  · split
    · split <;> simp
    · split
      · rfl
      · rw [pumpOut_log]
        split <;> simp
@[simp] theorem forwardSummary_log (s : State) (i : Nat) (p : Packet) : (forwardSummary s i p).log = s.log := by simp [forwardSummary]
@[simp] theorem takeSummary_log (s : State) (i : Nat) (p : Packet) (d : BDesc) (chk : Check) : (takeSummary s i p d chk).log = s.log := by
  simp only [takeSummary, forwardSummary_log, bucketRelease_log, bucketDrop_log]
  (repeat' split) <;> simp
@[simp] theorem adderVerdict_log (w : W16) (s : State) (i : Nat) : (adderVerdict w s i).log = s.log := by simp [adderVerdict]
@[simp] theorem verdictDeliver_log (s : State) (home job : Nat) (h : Byte) (w : W16) : (verdictDeliver s home job h w).log = s.log := by
  simp [verdictDeliver]
@[simp] theorem sendVerdict_log (s : State) (i typ port : Nat) (w : W16) : (sendVerdict s i typ port w).log = s.log := by simp [sendVerdict]
@[simp] theorem sendDown_log (s : State) (i : Nat) (w : W16) : (sendDown s i w).log = s.log := by simp [sendDown]
@[simp] theorem verdictFinal_log (s : State) (i : Nat) (w : W16) : (verdictFinal s i w).log = s.log := by simp [verdictFinal]
@[simp] theorem verdictReady_log (s : State) (i : Nat) : (verdictReady s i).log = s.log := by
  simp only [verdictReady]
  (repeat' split) <;> first | rfl | simp_all
theorem verdictCombine_log {s t : State} {i : Nat} {w : W16} {v : VHome → VHome} (h : verdictCombine s i w v = some t) : t.log = s.log := by
  simp only [verdictCombine] at h
  split at h
  · cases h
  · cases h; simp
theorem takeVerdict_log (s : State) (k t : Nat) (f : State → Nat → Packet → Nat → State) (hf : ∀ s i p v, (f s i p v).log = s.log) :
    (takeVerdict s k t f).log = s.log := by
  unfold takeVerdict
  split
  · rfl
  · have hs := takePacket_log (by assumption)
    repeat' split
    all_goals simp [hf, hs]
@[simp] theorem verdictDropped_log (s : State) (i : Nat) (p : Packet) : (verdictDropped s i p).log = s.log := by simp [verdictDropped]

/-! ### Operations of Machine/ScalarMem.lean -/

@[simp] theorem countCtl_log (s : State) (c a n : Nat) : (countCtl s c a n).log = s.log := by
  unfold countCtl
  split <;> simp
theorem loadRes_log (s : State) (c : Nat) (va : W64) (n : Nat) (chk : Check) (f : List Byte → State → Res)
    (hf : ∀ b s, (f b s).log = s.log) : (loadRes s c va n chk f).log = s.log := by
  simp only [loadRes]
  split
  · repeat' split
    all_goals simp [hf]
  · rw [memRes_log]
    · simp
    · intro a s; simp [hf]
@[simp] theorem ctlStorePart_log (s : State) (c a : Nat) (bs : List Byte) : (ctlStorePart s c a bs).log = s.log := by
  simp only [ctlStorePart]
  (repeat' split) <;> simp
theorem storeRes_log (s : State) (c : Nat) (va : W64) (bs : List Byte) (chk : Check) (f : State → Res) (hf : ∀ s, (f s).log = s.log) :
    (storeRes s c va bs chk f).log = s.log := by
  simp only [storeRes]
  split
  · repeat' split
    all_goals simp [hf]
  · rw [memRes_log]
    · simp
    · intro a s; simp [hf]
@[simp] theorem misaligned_log (s : State) (va : W64) : (misaligned s va).log = s.log := by simp [misaligned]
@[simp] theorem atomic_log (s : State) (c : CellId) (d a : Reg) (dbl : Bool) (chk : Check) (f : Nat → Option Nat) :
    (atomic s c d a dbl chk f).log = s.log := by
  simp only [atomic]
  split
  · rfl
  · split
    · simp
    · rw [memRes_log]
      · simp
      · intro as t
        split <;> simp

/-! ### Operations of Machine/SysRegs.lean -/

@[simp] theorem l1Enable_log (s : State) (c : Nat) (data : Bool) : (l1Enable s c data).log = s.log := by simp [l1Enable]
@[simp] theorem l1Write_log (s : State) (c : Nat) (data on : Bool) : (l1Write s c data on).log = s.log := by simp [l1Write]
@[simp] theorem cctlWrite_log (s : State) (c : Nat) (v : W64) : (cctlWrite s c v).log = s.log := by simp [cctlWrite]
@[simp] theorem tcfgPut_log (s : State) (c : CellId) (n : Nat) (v : W64) : (tcfgPut s c n v).log = s.log := by simp [tcfgPut]
@[simp] theorem swrRes_log (s : State) (c : CellId) (n : Nat) (v : W64) : (swrRes s c n v).log = s.log := by
  unfold swrRes
  (repeat' split) <;> first | rfl | simp_all
@[simp] theorem srdRes_log (s : State) (c : CellId) (d : Reg) (n : Nat) : (srdRes s c d n).log = s.log := by
  unfold srdRes
  (repeat' split) <;> rfl

/-! ### Operations of Machine/Pips.lean -/

@[simp] theorem remoteSignal_log (s : State) (c : CellId) (cell pip amount dst : Nat) :
    (remoteSignal s c cell pip amount dst).log = s.log := by simp [remoteSignal]
theorem waitInstr_log (s : State) (c : CellId) (pip : BitVec 6) (bar : Bool) (f : State → State) (hf : ∀ s, (f s).log = s.log) :
    (waitInstr s c pip bar f).log = s.log := by
  refine issue_log s c _ fun s => ?_
  simp only
  split
  · simp
  · split <;> simp [hf]

/-! ### Operations of Machine/ModOps.lean -/

@[simp] theorem sendWdp_log (h s : State) (i : Iface) (d : Udp) (m : WdpMsg) (tag : List Byte) : (sendWdp h s i d m tag).log = s.log := by
  unfold sendWdp
  split <;> simp
@[simp] theorem notify_log (s : State) (j idx sub : Nat) (pay : List Byte) : (notify s j idx sub pay).log = s.log := by
  simp only [notify]; exact (sendWdp_log _ _ _ _ _ _).trans rfl
@[simp] theorem notifyAll_log (s : State) (who : Sess → Bool) (idx sub : Nat) (pay : List Byte) :
    (notifyAll s who idx sub pay).log = s.log := by simp [notifyAll]
@[simp] theorem setFlag_log (s : State) (bit : Nat) : (setFlag s bit).log = s.log := by simp [setFlag]
@[simp] theorem sessEnd_log (s : State) (j : Nat) : (sessEnd s j).log = s.log := by simp [sessEnd]
@[simp] theorem sessEndAll_log (s : State) (who : Sess → Bool) : (sessEndAll s who).log = s.log := by simp [sessEndAll]
@[simp] theorem setModSt_log (s : State) (st : ModSt) : (setModSt s st).log = s.log := by simp [setModSt]
@[simp] theorem reject_log (s : State) (idx sub code : Nat) (part : Option Nat) (sess : W32) :
    (reject s idx sub code part sess).log = s.log := by simp [reject]
@[simp] theorem cmdEnd_log (s : State) (n : Nat) (st : CmdSt) (err : Byte) : (cmdEnd s n st err).log = s.log := by simp [cmdEnd]
@[simp] theorem cmdDone_log (s : State) (n : Nat) (result : List Byte) : (cmdDone s n result).log = s.log := by simp [cmdDone]
@[simp] theorem cmdIdle_log (s : State) (n : Nat) : (cmdIdle s n).log = s.log := by simp [cmdIdle]
@[simp] theorem setProgress_log (s : State) (n v : Nat) : (setProgress s n v).log = s.log := by simp [setProgress]
@[simp] theorem setHold_log (s : State) (pair : Nat) (on : Bool) : (setHold s pair on).log = s.log := by simp [setHold]
@[simp] theorem closeClasps_log (s : State) : (closeClasps s).log = s.log := by simp [closeClasps]
@[simp] theorem diesOff_log (s : State) : (diesOff s).log = s.log := by simp [diesOff]
@[simp] theorem releaseHall_log (s : State) (h : Byte) : (releaseHall s h).log = s.log := by simp [releaseHall]
@[simp] theorem partsLost_log (s : State) : (partsLost s).log = s.log := by simp [partsLost]
@[simp] theorem moduleReset_log (s : State) (cause : Byte) : (moduleReset s cause).log = s.log := by simp [moduleReset]
@[simp] theorem cmdsLost_log (s : State) : (cmdsLost s).log = s.log := by simp [cmdsLost]
@[simp] theorem faultModule_log (s : State) (cause : Byte) : (faultModule s cause).log = s.log := by simp [faultModule]

/-! ### Operations of Machine/RoceOps.lean -/

theorem atQp_log (s : State) (i : Nat) (ce : Bool) (f : State → State) (hf : ∀ s, (f s).log = s.log) : (atQp s i ce f).log = s.log := by
  simp only [atQp]
  repeat' split
  all_goals first | rfl | exact hf s | (simp [hf])
@[simp] theorem answerPeer_log (s : State) (i op : Nat) : (answerPeer s i op).log = s.log := by simp [answerPeer]
@[simp] theorem epsnAdd_log (s : State) (i n : Nat) : (epsnAdd s i n).log = s.log := by simp [epsnAdd]
@[simp] theorem hostStore_log (s : State) (i a : Nat) (bs : List Byte) (chk : Check) : (hostStore s i a bs chk).log = s.log := by simp [hostStore]
@[simp] theorem rdmaWriteOp_log (s : State) (i : Nat) (key : W32) (rva : W64) (bs : List Byte) (chk : Check) :
    (rdmaWriteOp s i key rva bs chk).log = s.log := by
  unfold rdmaWriteOp
  (repeat' split) <;> first | rfl | simp_all
@[simp] theorem rdmaReadOp_log (s : State) (i : Nat) (key : W32) (rva : W64) (n : Nat) : (rdmaReadOp s i key rva n).log = s.log := by
  unfold rdmaReadOp
  (repeat' split) <;> first | rfl | simp_all
@[simp] theorem sendOp_log (s : State) (i : Nat) (bs : List Byte) (chk : Check) : (sendOp s i bs chk).log = s.log := by
  unfold sendOp
  dsimp only
  split
  · simp
  · split
    · simp
    · split <;> simp
@[simp] theorem sendEnds_log (s : State) (i : Nat) (j : W16) (status : Byte) : (sendEnds s i j status).log = s.log := by simp [sendEnds]
@[simp] theorem readData_log (s : State) (i : Nat) (j : W16) (e : Entry) (data : List Byte) (chk : Check) :
    (readData s i j e data chk).log = s.log := by
  simp only [readData]
  (repeat' split) <;> first | rfl | simp_all
@[simp] theorem resend_log (s : State) (i : Nat) : (resend s i).log = s.log := by simp [resend]
@[simp] theorem peerAnswer_log (s : State) (i : Nat) (ans : RoceAck) (chk : Check) : (peerAnswer s i ans chk).log = s.log := by
  simp only [peerAnswer]
  (repeat' split) <;> first | rfl | simp_all
@[simp] theorem retransmit_log (s : State) (i : Nat) : (retransmit s i).log = s.log := by
  unfold retransmit
  dsimp only
  split
  · rfl
  · split
    · exact (sendEnds_log _ _ _ _).trans (moduleTimeTo_log _ _)
    · exact (resend_log _ _).trans ((State.setQp_log _ _ _).trans (moduleTimeTo_log _ _))
@[simp] theorem cnpOp_log (s : State) (i : Nat) : (cnpOp s i).log = s.log := rfl
@[simp] theorem roceTake_log (s : State) (i : Nat) (h : RoceHdr) (m : RoceMsg) : (roceTake s i h m).log = s.log := by
  refine atQp_log s i h.ce _ fun s => ?_
  cases m <;> simp
theorem roceArrive_log (s : State) (i : Nat) (h : RoceHdr) (m : RoceMsg) (f : State → State) (hf : ∀ s, (f s).log = s.log) :
    (roceArrive s i h m f).log = s.log := by
  unfold roceArrive
  split
  · exact hf s
  · split
    · exact engineWaits_log (by assumption)
    · rw [roceTake_log, hf]
@[simp] theorem biteEntry_log (s : State) (i : Nat) (recv : Bool) (j : W16) : (biteEntry s i recv j).log = s.log := by
  simp only [biteEntry]
  (repeat' split) <;> simp
@[simp] theorem countFrame_log (s : State) (f : EthFrame) : (countFrame s f).log = s.log := by
  simp only [countFrame]
  split <;> rfl
@[simp] theorem frameOp_log (s : State) (f : EthFrame) : (frameOp s f).log = s.log := by
  simp only [frameOp]
  split
  · split <;> simp
  · simp

/-! ### Operations of Machine/Idle.lean -/

@[simp] theorem idle_log (s : State) : (idle s).log = s.log := by simp [idle]
@[simp] theorem framesIn_log (s : State) (i : Iface) (n : Nat) : (framesIn s i n).log = s.log := by
  unfold framesIn
  split <;> rfl
theorem roceRow_log (s : State) (b : BlockId) (k : BitVec 6) (h : RoceHdr) (m : RoceMsg) : (roceRow s b k h m).log = s.log :=
  roceArrive_log _ _ _ _ _ fun _ => framesIn_log _ _ _

/-! ### Operations of Machine/Copies.lean -/

/-- The log that a gate's answer carries. -/
def Gate.log : Gate → Log
  | .ready s => s.log
  | .wait s => s.log
  | .gone _ s => s.log
@[simp] theorem Gate.log_ready (s : State) : (Gate.ready s).log = s.log := rfl
@[simp] theorem Gate.log_wait (s : State) : (Gate.wait s).log = s.log := rfl
@[simp] theorem Gate.log_gone (a : Nat) (s : State) : (Gate.gone a s).log = s.log := rfl
@[simp] theorem tileGate_log (ts : List (Nat × Nat × Nat × Bool)) (s : State) : (tileGate ts s).log = s.log := by
  induction ts generalizing s with
  | nil => rfl
  | cons t ts ih =>
    simp only [tileGate]
    repeat' split
    all_goals simp [ih]
@[simp] theorem cpqOp_log (c : CellId) (d a : Reg) (e : Fin 2) (chk : Check) (s : State) : (cpqOp c d a e chk s).log = s.log := by
  refine issue_log s c _ fun s => ?_
  simp only
  split
  · rfl
  · split
    · rfl
    · split
      · exact onCell_log _ _ _
      · rw [memRes_log]
        · exact cellRead_log _ _ _ _ _
        · intro a s; simp
@[simp] theorem countCopy_log (s : State) (b : Nat) (d : Desc) : (countCopy s b d).log = s.log := by simp [countCopy]
@[simp] theorem copyDone_log (s : State) (i : Nat) (j : Job) : (copyDone s i j).log = s.log := by simp [copyDone]
@[simp] theorem copyContribute_log (s : State) (d : Desc) (x : Option Contribution) : (copyContribute s d x).log = s.log := by
  unfold copyContribute
  (repeat' split) <;> first | rfl | simp_all
@[simp] theorem copyMove_log (s : State) (i : Nat) (j : Job) (src chk : Check) : (copyMove s i j src chk).log = s.log := by
  have hp (s : State) (h : Byte) (ps : List Piece) : (writePieces (fun s a bs => ctlPut s h a bs) s ps).log = s.log :=
    writePieces_log _ (fun s a bs => by simp) s ps
  simp only [copyMove]
  split
  · simp
  · split
    · simp [hp]
    · split <;> simp [hp]
@[simp] theorem copySend_log (s : State) (i : Nat) (j : Job) (src chk : Check) : (copySend s i j src chk).log = s.log := by
  have hp (s : State) (h : Byte) (ps : List Piece) : (writePieces (fun s a bs => ctlPut s h a bs) s ps).log = s.log :=
    writePieces_log _ (fun s a bs => by simp) s ps
  simp only [copySend]
  split
  · rfl
  · split
    · simp
    · split <;> simp [hp]
theorem copyGo_log (s : State) (i : Nat) (j : Job) (f : State → State) (hf : ∀ s, (f s).log = s.log) : (copyGo s i j f).log = s.log := by
  have h := tileGate_log (extTiles j.desc.exts) (wakeExts s j.desc)
  simp only [copyGo]
  repeat' split
  all_goals simp_all
@[simp] theorem sourceBad_log (s : State) (a : Nat) (detail : Byte) : (sourceBad s a detail).log = s.log := by
  unfold sourceBad
  (repeat' split) <;> first | rfl | simp_all
@[simp] theorem sendWack_log (s : State) (own : Option Nat) (pkt : Packet) (refused : Bool) :
    (sendWack s own pkt refused).log = s.log := by simp [sendWack]
@[simp] theorem finishContribute_log (s : State) (pkt : Packet) : (finishContribute s pkt).log = s.log := by
  simp only [finishContribute]
  split
  · rfl
  · split
    · split <;> simp
    · rfl

/-! ### Operations of Machine/PartOps.lean -/

@[simp] theorem blockCreate_log (h : Byte) (s : State) (b : Nat) : (blockCreate h s b).log = s.log := by
  simp only [blockCreate]
  rw [setCellsOf_log, State.setBlock_log, qpResets_log, State.setEngine_log, State.setEngine_log]
  exact foldl_log (fun s a => s.setArb (4 * b + a) (Arb.reset (arbTicks (4 * b + a)))) (fun _ _ => rfl) _ _
@[simp] theorem ownUnits_log (s : State) (x : Part) (h : Byte) : (ownUnits s x h).log = s.log := by simp [ownUnits]
@[simp] theorem freshMemory_log (s : State) (ws : List (BitVec 128)) : (freshMemory s ws).log = s.log := by simp [freshMemory]
@[simp] theorem partEnter_log (s : State) (p : Nat) : (partEnter s p).log = s.log := by simp [partEnter]
@[simp] theorem partFill_log (s : State) (p : Nat) : (partFill s p).log = s.log := by simp [partFill]
@[simp] theorem partCreateOp_log (s : State) (p : Nat) : (partCreateOp s p).log = s.log := by simp [partCreateOp]
@[simp] theorem partBegin_log (s : State) (n : Nat) : (partBegin s n).log = s.log := by simp [partBegin]
@[simp] theorem imageReport_log (s : State) (x : Part) : (imageReport s x).log = s.log := by
  unfold imageReport
  refine foldl_log _ (fun s e => ?_) _ s
  split <;> simp
@[simp] theorem beginExit_log (s : State) (b : Nat) : (beginExit s b).log = s.log := by simp [beginExit]
@[simp] theorem releaseCells_log (entry : W64) (s : State) (b : Nat) : (releaseCells entry s b).log = s.log := by simp [releaseCells]
@[simp] theorem imageWake_log (s : State) (x : Part) : (imageWake s x).log = s.log := by
  unfold imageWake
  exact foldl_log (fun s (e : Nat × Nat) => wakeExtent s e.1 e.2) (fun s e => wakeExtent_log s e.1 e.2) _ s
@[simp] theorem partStartOp_log (s : State) (p : Nat) : (partStartOp s p).log = s.log := by
  simp only [partStartOp]
  rw [foldl_log (releaseCells (s.part p).entry) fun s b => releaseCells_log _ s b]
  refine (State.setPart_log _ _ _).trans ((foldl_log
    (fun s (e : Nat × Nat) => countPart (countBulk s (some p) e.2) (some p) 11 e.2) (fun s e => ?_) _ _).trans (imageWake_log _ _))
  rw [countPart_log, countBulk_log]
@[simp] theorem blockPartReset_log (s : State) (b : Nat) : (blockPartReset s b).log = s.log := by simp [blockPartReset]
@[simp] theorem slotPartReset_log (s : State) (i : Nat) : (slotPartReset s i).log = s.log := by simp [slotPartReset]
@[simp] theorem partResetOp_log (s : State) (p : Nat) : (partResetOp s p).log = s.log := by simp [partResetOp]
@[simp] theorem signed_log (s : State) (msg : List Byte) : (signed s msg).2.log = s.log := by simp [signed]
@[simp] theorem acctRecord_log (s : State) (p : Nat) (reason : Nat) (seq : W64) : (acctRecord s p reason seq).2.log = s.log := by simp [acctRecord]
@[simp] theorem emitRecord_log (s : State) (p reason : Nat) : (emitRecord s p reason).2.log = s.log := by simp [emitRecord]
@[simp] theorem partCloseOp_log (s : State) (p : Nat) : (partCloseOp s p).log = s.log := by
  have hs (f : Slot → Slot) (l : List Nat) (s : State) : (l.foldl (fun s i => s.setSlot i (f (s.slot i))) s).log = s.log :=
    foldl_log (fun s i => s.setSlot i (f (s.slot i))) (fun _ _ => rfl) l s
  have ht (f : SetCtx → SetCtx) (l : List Nat) (s : State) : (l.foldl (fun s i => s.setSetter i (f (s.setter i))) s).log = s.log :=
    foldl_log (fun s i => s.setSetter i (f (s.setter i))) (fun _ _ => rfl) l s
  have ha (f : AddCtx → AddCtx) (l : List Nat) (s : State) : (l.foldl (fun s i => s.setAdder i (f (s.adder i))) s).log = s.log :=
    foldl_log (fun s i => s.setAdder i (f (s.adder i))) (fun _ _ => rfl) l s
  have hc (f : Cell → Cell) (l : List Nat) (s : State) : (l.foldl (fun s b => setCellsOf s b f) s).log = s.log :=
    foldl_log (fun s b => setCellsOf s b f) (fun _ _ => setCellsOf_log _ _ _) l s
  have hb (l : List Nat) (s : State) : (l.foldl blockDormant s).log = s.log := foldl_log _ blockDormant_log l s
  have hm (c : Prop) [Decidable c] (t : State) : (if c then setModSt t .standby else t).log = t.log := by
    split
    · exact setModSt_log _ _
    · rfl
  simp only [partCloseOp]
  refine (hm _ _).trans ((sessEndAll_log _ _).trans ((retireAll_log _).trans ((hb _ _).trans ((releaseHall_log _ _).trans ?_))))
  refine (State.setPart_log _ _ _).trans ((hc _ _ _).trans ?_)
  exact (ha (fun x => { x with own := 0 }) _ _).trans ((ht (fun x => { x with own := 0 }) _ _).trans
    ((hs (fun x => { x with own := 0 }) _ _).trans (emitRecord_log _ _ _)))
@[simp] theorem extendMeas_log (s : State) (n : Nat) (d : List Byte) : (extendMeas s n d).log = s.log := by simp [extendMeas]
@[simp] theorem attestReport_log (s : State) (p : Option Nat) (nonce : List Byte) : (attestReport s p nonce).2.log = s.log := by simp [attestReport]
@[simp] theorem chargePart_log (act : List BlockActivity) (mj : Rat) (s : State) (p : Nat) :
    (chargePart act mj s p).log = s.log := by simp [chargePart]
@[simp] theorem energyOp_log (s : State) (meters : List Nat) (moduleMeter : Nat) (act : List BlockActivity) :
    (energyOp s meters moduleMeter act).log = s.log := by simp [energyOp]

/-! ### Operations of Machine/PowerOps.lean -/

@[simp] theorem dwellTo_log (s : State) (b : Nat) (d : PState) : (dwellTo s b d).log = s.log := by
  unfold dwellTo
  cases d <;> simp
@[simp] theorem enterState_log (s : State) (b : Nat) (st : PState) : (enterState s b st).log = s.log := by
  cases st with
  | run => rfl
  | poise => rfl
  | nap => exact (setCellsOf_log _ _ _).trans rfl
  | doze => exact (State.setBlock_log _ _ _).trans (cleanBlock_log _ _)
  | dormant => exact (blockDormant_log _ _).trans (cleanBlock_log _ _)
@[simp] theorem exitOp_log (s : State) (b : Nat) : (exitOp s b).log = s.log := by
  unfold exitOp
  (repeat' split) <;> first | rfl | simp_all
@[simp] theorem toleranceOp_log (s : State) (p : Nat) (v : W32) : (toleranceOp s p v).log = s.log := by simp [toleranceOp]
@[simp] theorem opSlew_log (s : State) : (opSlew s).log = s.log := by simp [opSlew]
@[simp] theorem opRequestOp_log (s : State) (v : Byte) : (opRequestOp s v).log = s.log := by simp [opRequestOp]
@[simp] theorem capFall_log (s : State) : (capFall s).log = s.log := by simp [capFall]
@[simp] theorem capRise_log (s : State) : (capRise s).log = s.log := by simp [capRise]

/-! ### Operations of Machine/DictPut.lean -/

@[simp] theorem putArb_log (s : State) (x : Sess) (sub v : Nat) : (putArb s x sub v).log = s.log := by
  unfold putArb
  (repeat' split) <;> first | rfl | simp_all

/-! ### Operations of Machine/WdpOps.lean -/

@[simp] theorem authBad_log (s : State) (i : Iface) (src : Udp) (m : WdpMsg) : (authBad s i src m).log = s.log := by
  simp only [authBad, sendWdp_log, setFlag_log]
@[simp] theorem seqBad_log (s : State) (q : Req) (m : WdpMsg) (key : List Byte) : (seqBad s q m key).log = s.log := by
  simp only [seqBad, sendWdp_log]
theorem execute_log (s : State) (q : Req) (m : WdpMsg) (j : Nat) (act : State → Nat → State × Reply) (h : (act s j).1.log = s.log) :
    (execute s q m j act).log = s.log := by
  simp only [execute, sendWdp_log]
  split <;> simp [h]
theorem request_log (s : State) (q : Req) (m : WdpMsg) (raw : List Byte) (act : State → Nat → State × Reply)
    (h : ∀ s j, (act s j).1.log = s.log) : (request s q m raw act).log = s.log := by
  simp only [request]
  split
  · rfl
  · split
    · exact authBad_log _ _ _ _
    · split
      · exact authBad_log _ _ _ _
      · split
        · split
          · exact (sendWdp_log _ _ _ _ _ _).trans (State.setSess_log _ _ _)
          · split
            · exact (execute_log _ _ _ _ _ (h _ _)).trans (State.setSess_log _ _ _)
            · exact (seqBad_log _ _ _ _).trans (State.setSess_log _ _ _)
        · split
          · exact (execute_log _ _ _ _ _ (h _ _)).trans (State.setSess_log _ _ _)
          · exact (seqBad_log _ _ _ _).trans (State.setSess_log _ _ _)
@[simp] theorem afterRead_log (s : State) (i : Nat) : (afterRead s i).log = s.log := by simp [afterRead]
@[simp] theorem readEntryOp_log (i sub : Nat) (s : State) (j : Nat) : (readEntryOp i sub s j).1.log = s.log := by
  simp only [readEntryOp]
  (repeat' split) <;> first | rfl | simp_all
@[simp] theorem readSegOp_log (i sub off len : Nat) (s : State) (j : Nat) : (readSegOp i sub off len s j).1.log = s.log := by
  simp only [readSegOp]
  (repeat' split) <;> first | rfl | simp_all
@[simp] theorem readyTiles_log (s : State) (a n : Nat) : (readyTiles s a n).log = s.log := by simp [readyTiles]
theorem memCheck_log {s t : State} {x : Sess} {a n : Nat} {e : Byte} (h : memCheck s x a n = .error (t, e)) :
    t.log = s.log := by
  simp only [memCheck] at h
  repeat' split at h
  all_goals first | cases h; done | (cases h; rfl) | (cases h; simp)
@[simp] theorem countWdp_log (s : State) (h : Byte) (a n : Nat) : (countWdp s h a n).log = s.log := by simp [countWdp]
theorem memWaits_log {s t : State} {q : Req} {m : WdpMsg} {a n : Nat} {wr : Bool} (h : memWaits s q m a n wr = some t) : t.log = s.log := by
  simp only [memWaits] at h
  repeat' split at h
  all_goals first
    | (cases h; done)
    | (cases h; rfl)
    | (cases h; exact wakeExtent_log _ _ _)
    | (rename_i hg; have hl := tileGate_log ((tileSpans a n).map fun t => (t.1, t.2.1, t.2.2, wr)) s
       rw [hg] at hl; cases h; exact hl)
@[simp] theorem readMemOp_log (a n : Nat) (chk : Check) (s : State) (j : Nat) : (readMemOp a n chk s j).1.log = s.log := by
  have hw (ts : List (Nat × Nat × Nat)) (s : State) : (ts.foldl (fun s t => s.updCell t.1 fun k => k.windowRead t.2.1 t.2.2) s).log = s.log :=
    foldl_log (fun s t => s.updCell t.1 fun k => k.windowRead t.2.1 t.2.2) (fun _ _ => rfl) ts s
  have hc (c : Prop) [Decidable c] (t : State) : (if c then readCheck t a n chk else t).log = t.log := by
    split
    · exact readCheck_log _ _ _ _
    · rfl
  have hn (c : Prop) [Decidable c] (t : State) (b : Nat) : (if c then poisonMet t b else t).log = t.log := by
    split
    · exact poisonMet_log _ _
    · rfl
  simp only [readMemOp]
  split
  · rfl
  · split
    · exact memCheck_log (by assumption)
    · split
      · exact (hn _ _ _).trans ((hw _ _).trans ((hc _ _).trans (by simp)))
      · exact (hw _ _).trans ((hc _ _).trans (by simp))
@[simp] theorem writeMemOp_log (a : Nat) (v : List Byte) (chk : Check) (s : State) (j : Nat) : (writeMemOp a v chk s j).1.log = s.log := by
  simp only [writeMemOp]
  split
  · exact memCheck_log (by assumption)
  · refine (writePieces_log _ (fun s a bs => by simp) _ _).trans ?_
    split <;> simp
@[simp] theorem conflict_log (s : State) (x : Sess) (i sub : Nat) : (conflict s x i sub).1.log = s.log := by simp [conflict]
@[simp] theorem acceptCmd_log (s : State) (x : Sess) (n : Nat) (code : W16) (args : List Byte) :
    (acceptCmd s x n code args).log = s.log := by simp [acceptCmd]
@[simp] theorem slotCommand_log (s : State) (x : Sess) (n : Nat) (bs : List Byte) : (slotCommand s x n bs).1.log = s.log := by
  simp only [slotCommand]
  (repeat' split) <;> first | rfl | simp_all
@[simp] theorem slotAbort_log (s : State) (x : Sess) (n : Nat) : (slotAbort s x n).1.log = s.log := by
  unfold slotAbort
  dsimp only
  cases (s.cmd n).st
  case queued => simp only [cmdEnd_log, State.setCmd_log]
  case running =>
    simp only
    split <;> simp only [State.setCmd_log]
  all_goals simp only [conflict_log]
@[simp] theorem slotRelease_log (s : State) (x : Sess) (n : Nat) : (slotRelease s x n).1.log = s.log := by
  simp only [slotRelease]
  (repeat' split) <;> rfl
@[simp] theorem byeOp_log (s : State) (j : Nat) : (byeOp s j).1.log = s.log := by simp [byeOp]
@[simp] theorem openSess_log (s : State) (m : HelloMsg) (j : Nat) : (openSess s m j).log = s.log := by
  simp only [openSess, sendWdp_log]; rfl
@[simp] theorem helloOp_log (s : State) (m : HelloMsg) : (helloOp s m).log = s.log := by
  unfold helloOp
  split
  · rfl
  · split
    · exact authBad_log _ _ _ _
    · split
      · exact sendWdp_log _ _ _ _ _ _
      · refine (openSess_log _ _ _).trans ?_
        split <;> rfl
@[simp] theorem keyxRa_log (s : State) (m : KeyxMsg) (j : Nat) (ra : List Byte) : (keyxRa s m j ra).log = s.log := by
  simp only [keyxRa]
  split
  · exact (authBad_log _ _ _ _).trans (sessEnd_log _ _)
  · exact (sendWdp_log _ _ _ _ _ _).trans ((State.setSess_log _ _ _).trans (signed_log _ _))
@[simp] theorem keyxSa_log (s : State) (m : KeyxMsg) (j : Nat) (conf : List Byte) : (keyxSa s m j conf).log = s.log := by
  simp only [keyxSa]
  split
  · exact (sendWdp_log _ _ _ _ _ _).trans rfl
  · exact (authBad_log _ _ _ _).trans (sessEnd_log _ _)
@[simp] theorem keyxOp_log (s : State) (m : KeyxMsg) : (keyxOp s m).log = s.log := by
  simp only [keyxOp]
  split
  · rfl
  · split
    · exact authBad_log _ _ _ _
    · split
      · exact authBad_log _ _ _ _
      · split
        · exact keyxRa_log _ _ _ _
        · exact keyxSa_log _ _ _ _
@[simp] theorem startCmd_log (s : State) (n : Nat) : (startCmd s n).log = s.log := by simp [startCmd]

/-! ### Operations of Machine/Arbiters.lean -/

@[simp] theorem biteStore_log (s : State) (c : Nat) (va : W64) : (biteStore s c va).log = s.log := by
  unfold biteStore
  (repeat' split) <;> simp
@[simp] theorem biteDrain_log (s : State) (c : Nat) : (biteDrain s c).log = s.log := by simp [biteDrain]
@[simp] theorem biteMessage_log (s : State) (k pip : Nat) : (biteMessage s k pip).log = s.log := by simp [biteMessage]
@[simp] theorem bitePacket_log (s : State) (p : Fin 6) (q : ArbReq) : (bitePacket s p q).log = s.log := by
  simp only [bitePacket]
  split <;> simp
theorem biteCarried_log (s : State) (k : Nat) (p : Packet) : (biteCarried s k p).log = s.log := by
  unfold biteCarried
  split <;> simp
theorem biteOutbound_log (s : State) (k : Nat) (p : Fin 6) (n : Nat) : (biteOutbound s k p n).log = s.log := by
  simp only [biteOutbound]
  split
  · rfl
  · split
    · rfl
    · rw [biteCarried_log]; rfl
/-- What a bitten transfer leaves of the log: an issue that raises an exception, a message discarded, or the operation that the bite ends. -/
theorem biteXfer_log (s : State) (k : Nat) (q : ArbReq) (w : Transfer) : (biteXfer s k q w).log = s.log := by
  induction w with
  | fetch c va => exact issue_log _ _ _ fun _ => rfl
  | load c va => exact issue_log _ _ _ fun _ => rfl
  | atomic c va => exact issue_log _ _ _ fun _ => rfl
  | store c va => exact biteStore_log _ _ _
  | copy b e =>
    simp only [biteXfer]
    split <;> simp
  | setter m j => exact setterBite_log _ _ _
  | adder m j b =>
    simp only [biteXfer]
    split <;> simp
  | drain c => exact biteDrain_log _ _
  | snoop w ih => exact ih
  | inbound n t =>
    simp only [biteXfer]
    split
    · rw [biteCarried_log]
    · rfl
  | outbound p n t => exact biteOutbound_log _ _ _ _
  | wdp r m => exact (request_log _ _ _ _ _ fun _ _ => rfl).trans (framesIn_log _ _ _)
  | roce b n recv idx => exact biteEntry_log _ _ _ _
  | cpq => rfl
  | scrub => rfl
  | _ =>
    simp only [biteXfer]
    split <;> simp
@[simp] theorem biteOutcome_log (s : State) (k : Nat) (q : ArbReq) : (biteOutcome s k q).log = s.log := biteXfer_log s k q q.what
@[simp] theorem biteNow_log (s : State) (k : Nat) (q : ArbReq) : (biteNow s k q).log = s.log := by simp [biteNow]
@[simp] theorem biteOp_log (s : State) (k beats later : Nat) : (biteOp s k beats later).log = s.log := by
  simp only [biteOp]
  split
  · rfl
  · split
    · split <;> simp
    · rfl
@[simp] theorem acceptCpqs_log (k : Nat) (e : Fin 2) (qs : List ArbReq) (s : State) : (acceptCpqs k e qs s).log = s.log := by
  induction qs generalizing s with
  | nil => rfl
  | cons q qs ih =>
    rw [acceptCpqs, ih]
    split <;> simp
@[simp] theorem queueGrant_log (s : State) (k i : Nat) (reqs : List ArbReq) : (queueGrant s k i reqs).log = s.log := by
  simp only [queueGrant]
  split <;> simp

/-! ### Operations of Machine/Fabric.lean -/

@[simp] theorem noticeLog_log (s : State) (pkt : Packet) (reporter : W32) (own : Option Nat) :
    (noticeLog s pkt reporter own).log = s.log := by simp [noticeLog]
@[simp] theorem noticeCell_log (s : State) (pkt : Packet) (c : Nat) : (noticeCell s pkt c).log = s.log := by simp [noticeCell]
@[simp] theorem noticeWrite_log (s : State) (pkt : Packet) : (noticeWrite s pkt).log = s.log := by
  simp only [noticeWrite]
  split
  · rw [noticeLog_log]
    split <;> rfl
  · split
    · split
      · rw [copyEnd_log]; split <;> rfl
      · rw [noticeLog_log]; split <;> rfl
    · rw [noticeLog_log]; split <;> rfl
@[simp] theorem noticeReduce_log (s : State) (pkt : Packet) : (noticeReduce s pkt).log = s.log := by
  simp only [noticeReduce]
  split
  · exact noticeLog_log _ _ _ _
  · split
    · rw [retryUnit_log]
      split
      · exact bucketEnd_log _ _ _ _ _ _ _
      · exact bucketEnd_log _ _ _ _ _ _ _
    · exact noticeLog_log _ _ _ _
@[simp] theorem noticeSignal_log (s : State) (pkt : Packet) : (noticeSignal s pkt).log = s.log := by
  simp only [noticeSignal]
  (repeat' split) <;> first | rfl | simp_all
@[simp] theorem noticeTree_log (s : State) (pkt : Packet) : (noticeTree s pkt).log = s.log := by simp [noticeTree]
@[simp] theorem joinEnd_log (s : State) (n : Nat) (st : CmdSt) (err : Byte) : (joinEnd s n st err).log = s.log := by simp [joinEnd]
@[simp] theorem joinProgress_log (s : State) (n : Nat) : (joinProgress s n).log = s.log := by simp [joinProgress]
@[simp] theorem joinNext_log (n : Nat) (x0 : Nat) (x1 : Nat) (x2 : State) : (joinNext n x0 x1 x2).log = x2.log := by
  fun_induction joinNext n x0 x1 x2 <;> simp [*]
@[simp] theorem joinCheck_log (s : State) : (joinCheck s).log = s.log := by
  unfold joinCheck
  (repeat' split) <;> first | rfl | simp_all
@[simp] theorem trainPair_log (s : State) (k : Nat) : (trainPair s k).log = s.log := by simp [trainPair]
@[simp] theorem claspFault_log (s : State) (k : Nat) : (claspFault s k).log = s.log := by simp [claspFault]

/-! ### Operations of Machine/Integer.lean -/

@[simp] theorem branch_log (s : State) (c : CellId) (taken : Bool) (off : BitVec 15) : (branch s c taken off).log = s.log := by simp [branch]

/-! ### Operations of Machine/Power.lean -/

@[simp] theorem accFaults_log (s : State) (b : Nat) (acc : BitVec 8) : (accFaults s b acc).log = s.log := by simp [accFaults]
@[simp] theorem putFactor_log (s : State) (c : Nat) (k seq : W32) : (putFactor s c k seq).log = s.log := by simp [putFactor]

/-! ### Operations of Machine/ErrLog.lean -/

@[simp] theorem collect_log (s : State) (b : Nat) (r : Report) : (collect s b r).log = s.log := by simp [collect]
@[simp] theorem flagEvents_log (s : State) (r : Report) : (flagEvents s r).log = s.log := by
  unfold flagEvents
  (repeat' split) <;> first | rfl | simp_all
@[simp] theorem countSent_log (s : State) (r : Report) : (countSent s r).log = s.log := by simp [countSent]

/-! ### Operations of Machine/StartOps.lean -/

@[simp] theorem supplyRise_log (s : State) : (supplyRise s).log = s.log := by simp [supplyRise]
@[simp] theorem extendAll_log (s : State) (x0 : List Nat) (x1 : List (List Byte)) : (extendAll s x0 x1).log = s.log := by
  fun_induction extendAll s x0 x1 <;> simp [*]
@[simp] theorem testFailure_log (s : State) (origin : W32) : (testFailure s origin).log = s.log := by simp [testFailure]
@[simp] theorem stageControllers_log (s : State) (bad : BitVec 24) : (stageControllers s bad).log = s.log := by simp [stageControllers]
@[simp] theorem badBank_log (s : State) (n : Nat) : (badBank s n).log = s.log := by simp [badBank]
@[simp] theorem stageGroup_log (t : BootResult) (s : State) (g : Nat) : (stageGroup t s g).log = s.log := by simp [stageGroup]
@[simp] theorem stageBlocks_log (s : State) (t : BootResult) : (stageBlocks s t).log = s.log := by simp [stageBlocks]
@[simp] theorem stageDone_log (s : State) (t : BootResult) : (stageDone s t).log = s.log := by simp [stageDone]
@[simp] theorem stageEnd_log (s : State) (t : BootResult) : (stageEnd s t).log = s.log := by
  unfold stageEnd
  split
  · exact stageDone_log s t
  · split
    · exact faultModule_log s _
    · rfl
@[simp] theorem stageOver_log (s : State) (t : BootResult) : (stageOver s t).log = s.log := by simp [stageOver]

/-! ### Operations of Machine/VectorArith.lean -/

theorem vecIssue_log (s : State) (c : CellId) (l : Bool) (f : State → Res) (hf : ∀ s, (f s).log = s.log) : (vecIssue s c l f).log = s.log := by
  refine issue_log s c _ fun s => ?_
  split
  · exact vecReady_log s c f hf
  · simp

/-! ### Operations of Machine/VectorMem.lean -/

@[simp] theorem refusedElem_log (s : State) (c n : Nat) (e : Exc) : (refusedElem s c n e).log = s.log := by
  unfold refusedElem
  (repeat' split) <;> first | rfl | simp_all
/-- The log that a gather's answer carries. -/
def Gathered.log : Gathered → Log
  | .all _ s => s.log
  | .fault _ _ _ s => s.log
  | .hold s => s.log
@[simp] theorem Gathered.log_all (v : List (Nat × Nat)) (s : State) : (Gathered.all v s).log = s.log := rfl
@[simp] theorem Gathered.log_fault (i : Nat) (e : Exc) (v : List (Nat × Nat)) (s : State) : (Gathered.fault i e v s).log = s.log := rfl
@[simp] theorem Gathered.log_hold (s : State) : (Gathered.hold s).log = s.log := rfl
@[simp] theorem gatherElems_log (c n : Nat) (chk : Check) (es : List (Nat × W64)) (acc : List (Nat × Nat)) (s : State) :
    (gatherElems c n chk es acc s).log = s.log := by
  induction es generalizing acc s with
  | nil => rfl
  | cons e es ih =>
    have h := cellRead_log s c e.2 n (elemCheck chk n e.1)
    simp only [gatherElems]
    split
    all_goals simp_all
/-- The log that a scatter's answer carries. -/
def Scattered.log : Scattered → Log
  | .all s => s.log
  | .fault _ _ s => s.log
  | .hold s => s.log
@[simp] theorem Scattered.log_all (s : State) : (Scattered.all s).log = s.log := rfl
@[simp] theorem Scattered.log_fault (i : Nat) (e : Exc) (s : State) : (Scattered.fault i e s).log = s.log := rfl
@[simp] theorem Scattered.log_hold (s : State) : (Scattered.hold s).log = s.log := rfl
@[simp] theorem scatterElems_log (c n : Nat) (val : Nat → Nat) (chk : Check) (es : List (Nat × W64)) (s : State) :
    (scatterElems c n val chk es s).log = s.log := by
  induction es generalizing s with
  | nil => rfl
  | cons e es ih =>
    simp only [scatterElems]
    split
    all_goals simp [ih]
@[simp] theorem wakeElems_log (s : State) (c n : Nat) (x0 : List (Nat × W64)) : (wakeElems s c n x0).log = s.log := by
  fun_induction wakeElems s c n x0 <;> simp [*]
@[simp] theorem elemFault_log (s : State) (c : CellId) (i : Nat) (e : Exc) : (elemFault s c i e).log = s.log := by simp [elemFault]

/-! ### Operations of Machine/Strands.lean -/

@[simp] theorem strandFault_log (s : State) (detail : Byte) : (strandFault s detail).log = s.log := by simp [strandFault]

/-! ### Operations of Machine/Tiles.lean -/

@[simp] theorem shapeFault_log (s : State) : (shapeFault s).log = s.log := by simp [shapeFault]
@[simp] theorem tileIssue_log (s : State) (c : CellId) (i : TileOp) : (tileIssue s c i).log = s.log := by
  have h := tileAccept_log s c.val i
  unfold tileIssue
  split <;> simp_all
@[simp] theorem tileIssuePar_log (s : State) (c : CellId) (i : TileOp) (par : List TReg) : (tileIssuePar s c i par).log = s.log := by
  simp only [tileIssuePar]
  (repeat' split) <;> first | rfl | simp_all
@[simp] theorem tileIssueAcc_log (s : State) (c : CellId) (i : TileOp) (acc : Bool) : (tileIssueAcc s c i acc).log = s.log := by simp [tileIssueAcc]
@[simp] theorem tcvtRes_log (s : State) (c : CellId) (dst src : TReg) (fs gk : Reg) (par : List TReg) :
    (tcvtRes s c dst src fs gk par).log = s.log := by simp [tcvtRes]
@[simp] theorem windowEnd_log (s : State) (ag : Agent) (code detail addr : Nat) : (windowEnd s ag code detail addr).log = s.log := by
  unfold windowEnd
  split
  · simp only
    split <;> simp
  · rfl
@[simp] theorem windowDo_log (s : State) (ag : Agent) (c : CellId) (off : Nat) (op : WinOp) (acc : Bool) :
    (windowDo s ag c off op acc).log = s.log := by
  have hf : (accFault s c).log = s.log := accFault_log _ _
  cases op <;> unfold windowDo <;> dsimp only <;> split
  · exact (windowEnd_log _ _ _ _ _).trans hf
  · split
    · exact windowEnd_log _ _ _ _ _
    · rfl
  · exact (windowEnd_log _ _ _ _ _).trans hf
  · rfl

/-! ### Operations of Machine/Step.lean -/

@[simp] theorem State.withFetchWord_log (s : State) (nbits w : Nat) : (State.withFetchWord s nbits w).log = s.log := by
  unfold State.withFetchWord
  (repeat' split) <;> rfl

end Sys2Proof.Machine
end

