-- ==== Sys2Proof/Laws/Mem.lean ====
section
/-! SUPPORT. Memory: which addresses are memory, and every operation that changes its bytes keeps its canonical form. -/

namespace Sys2Proof.Machine

/-- Region SRAM is memory (01 R22). -/
theorem isMem_sram {a : Nat} (lo : 0x10000000000 ≤ a) (hi : a < 0x10100000000) : isMem a = true := by
  have h1 : ¬ a < 0x10000000000 := by omega
  have h2 : a < 0x20000000000 := by omega
  simp [isMem, placeOf, h1, h2, hi]

/-- LPDDR5X is memory (01 R17). -/
theorem isMem_lpddr {a : Nat} (h : a < 0x10000000000) (o : a % 0x4000000000 < 0x3000000000) : isMem a = true := by
  simp [isMem, placeOf, h, o]

theorem Tab.rising_filter {α : Type} (lo : Nat) (m : Tab α) (f : Nat × α → Bool) (h : Tab.risingFrom lo m = true) :
    Tab.risingFrom lo (m.filter f) = true := by
  induction m generalizing lo with
  | nil => rfl
  | cons e m ih =>
    obtain ⟨k, v⟩ := e
    simp only [Tab.risingFrom, Bool.and_eq_true, decide_eq_true_eq] at h
    simp only [List.filter_cons]
    split
    · simp only [Tab.risingFrom, Bool.and_eq_true, decide_eq_true_eq]; exact ⟨h.1, ih _ h.2⟩
    · exact Tab.rising_mono _ (by omega) (ih _ h.2)

theorem Tab.wf_filter {α : Type} [DecidableEq α] (d : α) (m : Tab α) (f : Nat × α → Bool) (h : Tab.wf d m = true) :
    Tab.wf d (m.filter f) = true := by
  simp only [Tab.wf, Bool.and_eq_true, List.all_eq_true] at *
  exact ⟨Tab.rising_filter 0 m f h.1, fun e he => h.2 e (List.mem_filter.mp he).1⟩

/-- The canonical form depends on the two lists of bytes alone. -/
theorem Memory.wf_congr {s t : State} (h1 : t.sram = s.sram) (h2 : t.lpddr = s.lpddr) : Memory.wf t = Memory.wf s := by
  simp only [Memory.wf, h1, h2]

theorem Memory.wf_setMemByte {s : State} (a : Nat) (v : Byte) (h : Memory.wf s = true) : Memory.wf (setMemByte s a v) = true := by
  simp only [Memory.wf, Bool.and_eq_true] at h
  unfold setMemByte
  split <;> simp only [Memory.wf, Bool.and_eq_true]
  · exact ⟨Tab.wf_set _ _ _ _ h.1, h.2⟩
  · exact ⟨h.1, Tab.rising_put _ _ _ _ (Nat.zero_le _) h.2⟩
  · exact h

theorem Memory.wf_putMem {s : State} (a : Nat) (vs : List Byte) (h : Memory.wf s = true) : Memory.wf (putMem s a vs) = true := by
  induction vs generalizing s a with
  | nil => exact h
  | cons v vs ih => exact ih _ (Memory.wf_setMemByte a v h)

theorem Memory.wf_clearPoison {s : State} (a n : Nat) (h : Memory.wf s = true) : Memory.wf (clearPoison s a n) = true := h

theorem Memory.wf_poisonLine {s : State} (a : Nat) (h : Memory.wf s = true) : Memory.wf (poisonLine s a) = true := h

theorem Memory.wf_memWrite {s : State} (a : Nat) (vs : List Byte) (h : Memory.wf s = true) : Memory.wf (memWrite s a vs) = true :=
  Memory.wf_putMem a vs (Memory.wf_clearPoison a vs.length h)

/-- A partition's memory made fresh (10 R237, R242). -/
theorem Memory.wf_freshMemory {s : State} (ws : List (BitVec 128)) (h : Memory.wf s = true) : Memory.wf (freshMemory s ws) = true := by
  simp only [Memory.wf, Bool.and_eq_true] at h
  simp only [freshMemory, Memory.wf, Bool.and_eq_true]
  exact ⟨Tab.wf_filter _ _ _ h.1, Tab.rising_filter _ _ _ h.2⟩

/-- The bytes of a block's SRAM group lost (20 R458). -/
theorem Memory.wf_dropSram {s : State} (f : Host.Cell → Bool) (l : List Nat) (h : Memory.wf s = true) :
    Memory.wf { s with sram := s.sram.filter f, poison := l } = true := by
  simp only [Memory.wf, Bool.and_eq_true] at *
  exact ⟨Tab.wf_filter _ _ _ h.1, h.2⟩

/-- Reset lists no byte. -/
theorem Memory.wf_reset : Memory.wf State.reset = true := rfl

end Sys2Proof.Machine
end

