-- ==== Sys2Proof/Laws/Wdp.lean ====
section
/-! SUPPORT. What a fresh request for device memory waits for (01 R23, 17 R400). -/

namespace Sys2Proof.Machine

open Sys2Proof

/-- A fresh request whose access passes its checks waits for what the memory needs, and for nothing else. -/
theorem memWaits_fresh (s : State) (q : Req) (m : WdpMsg) (j a n : Nat) (wr : Bool) (h : Byte) (hf : Fresh s q m j)
    (hc : memCheck s (s.sess j) a n = .ok h) :
    let gate := tileGate ((tileSpans a n).map fun t => (t.1, t.2.1, t.2.2, wr)) s
    (wdpHeld s a n = true → memWaits s q m a n wr = some s) ∧
      (wdpHeld s a n = false → extentReady s a n = false → memWaits s q m a n wr = some (wakeExtent s a n)) ∧
      (wdpHeld s a n = false → extentReady s a n = true → ∀ t,
        (gate = .wait t → memWaits s q m a n wr = some t) ∧ (gate = .ready t → memWaits s q m a n wr = none)) := by
  obtain ⟨hr, hl, hp, hs, ht, hq⟩ := hf
  have e : (!reached s q.iface q.dst || decide (1408 < m.len.toNat) || decide (1408 < m.pay.length)) = false := by
    simp [hr]; omega
  simp +contextual [memWaits, e, hs, ht, hq, hc]

end Sys2Proof.Machine
end

