-- ==== Sys2Proof/Machine/Encoding.lean ====
section
/-! DEFINITION. The instruction words of a cell (09 R205 to R220): the command that a 32-bit word of a cell spells. A word with a
reserved encoding spells none (09 R210). -/

namespace Sys2Proof.Machine

/-- Bits [lo + n − 1 : lo] of a word. -/
def wf (w : W32) (lo n : Nat) : Nat := fieldN w.toNat lo n
/-- A bit of a word. -/
def wb (w : W32) (i : Nat) : Bool := w.getLsbD i
/-- A 5-bit register field (09 R206). -/
def wReg (w : W32) (lo : Nat) : Reg := Fin.ofNat 32 (wf w lo 5)
/-- A predicate named in the low 4 bits of a 5-bit field (09 R208). -/
def wPred (w : W32) (lo : Nat) : PReg := Fin.ofNat 16 (wf w lo 4)
/-- SIZE (04 R84). -/
def sizeOf (n : Nat) : Size := if n = 0 then .b else if n = 1 then .h else if n = 2 then .w else .d
/-- SIZE names .W or .D, the sizes of binary32 and binary64. -/
def fpSize (n : Nat) : Bool := n == 2 || n == 3
/-- A command where a word obeys the rules of its row. -/
def legal (b : Bool) (i : Instr) : Option Instr := if b then some i else none

/-- The governing predicate in the C field of VA and VX (09 R207). -/
def wGovC (w : W32) : Gov := ⟨Fin.ofNat 8 (wf w 8 3), wb w 12, wb w 11⟩
/-- The governing predicate of VM, VN and VS (09 R206). -/
def wGov (w : W32) : Gov := ⟨Fin.ofNat 8 (wf w 10 3), wb w 9, false⟩

/-- SYS (09, system family). -/
def decSys (c : CellId) (w : W32) : Option Instr :=
  let fn := wf w 22 6
  let d0 := wf w 17 5 == 0
  let a0 := wf w 12 5 == 0
  let x : BitVec 12 := BitVec.ofNat 12 (wf w 0 12)
  let pip : BitVec 6 := BitVec.ofNat 6 (wf w 0 6)
  let pipGood := decide (pip.toNat < 48)
  let bare := d0 && a0 && x == 0
  if fn = 0x01 then legal bare (.fence c)
  else if fn = 0x02 then legal bare (.fetchsync c)
  else if fn = 0x03 then legal a0 (.srd c (wReg w 17) x)
  else if fn = 0x04 then legal d0 (.swr c x (wReg w 12) 0)
  else if fn = 0x05 then legal (d0 && a0) (.trap c x)
  else if fn = 0x06 then legal bare (.brk c)
  else if fn = 0x07 then legal bare (.tret c)
  else if fn = 0x10 then legal (d0 && wf w 0 7 == 0) (.pipsig c (wReg w 12) (wReg w 7))
  else if fn = 0x11 then legal (d0 && wf w 6 6 == 0 && pipGood) (.pipwait c pip (wReg w 12))
  else if fn = 0x12 then legal (d0 && wf w 6 1 == 0 && pipGood) (.pipwatch c pip (wReg w 7) (wReg w 12))
  else if fn = 0x13 then legal (d0 && wf w 6 6 == 0 && pipGood) (.pipbar c pip (wReg w 12))
  else if fn = 0x18 then legal (wf w 1 11 == 0) (.cpq c (wReg w 17) (wReg w 12) (Fin.ofNat 2 (wf w 0 1)) .clean)
  else none

/-- IR (09, integer family). -/
def decIr (c : CellId) (w : W32) : Option Instr :=
  legal (decide (wf w 0 7 ≤ 0x14) && wf w 7 6 == 0)
    (.integerRegOp c (BitVec.ofNat 7 (wf w 0 7)) (wReg w 23) (wReg w 18) (wReg w 13) 0)

/-- II (09, integer family): a shift's IMM[13:6] is reserved. -/
def decIi (c : CellId) (w : W32) : Option Instr :=
  let fn := wf w 14 4
  legal (decide (fn ≤ 8) && (decide (fn < 6) || wf w 6 8 == 0))
    (.integerImmOp c (BitVec.ofNat 4 fn) (wReg w 23) (wReg w 18) (BitVec.ofNat 14 (wf w 0 14)))

/-- UJ (09, jump family). -/
def decUj (c : CellId) (w : W32) : Option Instr :=
  let fn := wf w 26 2
  let imm : BitVec 21 := BitVec.ofNat 21 (wf w 0 21)
  if fn = 0 then some (.movhi c (wReg w 21) imm)
  else if fn = 1 then some (.pcrel c (wReg w 21) imm)
  else if fn = 2 then some (.call c (wReg w 21) imm)
  else some (.jumpr c (wReg w 21) (wReg w 16) (BitVec.ofNat 16 (wf w 0 16)))

/-- BR (09, branch family). -/
def decBr (c : CellId) (w : W32) : Option Instr :=
  let off : BitVec 15 := BitVec.ofNat 15 (wf w 0 15)
  let br (k : BrCond) : Option Instr := some (.brCond c k (wReg w 20) (wReg w 15) off)
  match wf w 25 3 with
  | 0 => br .eq
  | 1 => br .ne
  | 2 => br .lt
  | 3 => br .ge
  | 4 => br .lo
  | 5 => br .hs
  | 6 => legal (wf w 15 3 == 0) (.brsomeBrnone c (wb w 24) (wPred w 20) (sizeOf (wf w 18 2)) off)
  | _ => none

/-- SM (09 R215). -/
def decSm (c : CellId) (w : W32) : Option Instr :=
  let d := wReg w 23
  let a := wReg w 18
  let n := wf w 13 2
  let dbl := n == 3
  let imm : BitVec 13 := BitVec.ofNat 13 (wf w 0 13)
  let b := wReg w 8
  let atm := fpSize n && wf w 0 4 == 0
  match wf w 15 3 with
  | 0 => some (.ld c false d a (sizeOf n) imm .clean)
  | 1 => legal (n != 3) (.ld c true d a (sizeOf n) imm .clean)
  | 2 => some (.st c d a (sizeOf n) imm .clean)
  | 3 => legal (fpSize n) (.fld c d a dbl imm .clean)
  | 4 => legal (fpSize n) (.fst c d a dbl imm .clean)
  | 5 => legal (fpSize n) (.ldAq c d a dbl imm .clean)
  | 6 => legal (fpSize n) (.stRl c d a dbl imm .clean)
  | _ =>
    match wf w 6 2 with
    | 0 => legal atm (.atmadd c d a b dbl (wb w 5) (wb w 4) .clean)
    | 1 => legal atm (.atmswap c d a b dbl (wb w 5) (wb w 4) .clean)
    | 2 => legal atm (.atmcas c d a b dbl (wb w 5) (wb w 4) .clean)
    | _ => none

/-- SF (09 R216): FN, and whether it reads B and C. -/
def decSf (c : CellId) (w : W32) : Option Instr :=
  let fn := wf w 0 6
  let fused := decide (0x09 ≤ fn) && decide (fn ≤ 0x0C)
  let two := decide (fn ≤ 3) || fn == 5 || fn == 6 || fused || (decide (0x14 ≤ fn) && decide (fn ≤ 0x16))
  legal (decide (fn ≤ 0x16) && decide (wf w 6 2 ≤ 1) && (two || wf w 13 5 == 0) && (fused || wf w 8 5 == 0))
    (.scalarFpOp c (BitVec.ofNat 6 fn) (BitVec.ofNat 2 (wf w 6 2)) (wReg w 23) (wReg w 18) (wReg w 13) (wReg w 8))

/-- The integer operations of VA 0x00–0x09. -/
def vIntOf : List VIntOp := [.add, .sub, .mul, .and, .orr, .xor, .bic, .sll, .srl, .sra]
/-- The floating-point operations of VA 0x10–0x1C. -/
def vFpOf : List VFpOp := [.add, .sub, .mul, .div, .sqrt, .min, .max, .abs, .neg, .fma, .fms, .fnma, .fnms]
/-- The conversions of VA 0x1D–0x20. -/
def vCvtOf : List VCvtOp := [.fi, .fu, .toI, .toU]

/-- VA (09, vector arithmetic). -/
def decVa (c : CellId) (w : W32) : Option Instr :=
  let fn := wf w 0 6
  let n := wf w 6 2
  let z := sizeOf n
  let d := wReg w 23
  let a := wReg w 18
  let b := wReg w 13
  let b0 := wf w 13 5 == 0
  let g := wGovC w
  let ok := !g.rsv
  if fn < 0x0A then (vIntOf[fn]?).bind fun o => legal ok (.vectorIntOp c o z d a b g)
  else if fn < 0x0C then legal (ok && (n == 1 || n == 2)) (.vfxmul c (fn == 0x0A) z d a b g)
  else if fn < 0x10 then legal ok (.vsataddVsatsub c (fn % 2 == 1) (decide (0x0E ≤ fn)) z d a b g)
  else if fn < 0x1D then
    (vFpOf[fn - 0x10]?).bind fun o => legal (ok && fpSize n && (!(fn == 0x14 || fn == 0x17 || fn == 0x18) || b0)) (.vectorFpOp c o false z d a b g)
  else if fn < 0x21 then (vCvtOf[fn - 0x1D]?).bind fun o => legal (ok && fpSize n && b0) (.vcvt c o z d a g)
  else if fn < 0x23 then legal (ok && fpSize n && b0) (.vfwiden c (fn == 0x22) z d a g)
  else if fn = 0x23 then legal (ok && fpSize n) (.vfnarrow c z d a b g)
  else if 0x30 ≤ fn ∧ fn < 0x3D then
    (vFpOf[fn - 0x30]?).bind fun o => legal (ok && fpSize n && !(fn == 0x34 || fn == 0x37 || fn == 0x38)) (.vectorFpOp c o true z d a b g)
  else none

/-- The comparisons of VX 0x00–0x10, the reductions of 0x11–0x1B, the logic of 0x25–0x29, the permutations of 0x2C–0x2F. -/
def vCmpOf : List VCmpOp := [.eq, .ne, .lt, .le, .gt, .ge, .lo, .ls, .hi, .hs, .feq, .fne, .flt, .fle, .fgt, .fge, .fuo]
def vRedOf : List VRedOp := [.add, .maxS, .maxU, .minS, .minU, .and, .or, .xor, .fadd, .fmax, .fmin]
def pLogicOf : List PLogic := [.and, .or, .xor, .andn, .inv]
def weaveOf : List WeaveOp := [.lo, .hi, .ev, .od]

/-- VX 0x00–0x1F: compares, reductions, VMAP (09, vector families). -/
def decVxLow (c : CellId) (w : W32) (fn : Nat) : Option Instr :=
  let n := wf w 6 2
  let z := sizeOf n
  let d := wReg w 23
  let a := wReg w 18
  let b0 := wf w 13 5 == 0
  let g := wGovC w
  let plain := !g.rsv && !g.zero
  if fn < 0x11 then
    (vCmpOf[fn]?).bind fun o => legal (plain && wf w 27 1 == 0 && (decide (fn < 0x0A) || fpSize n)) (.vcmp c o z (wPred w 23) a (wReg w 13) g)
  else if fn < 0x1C then (vRedOf[fn - 0x11]?).bind fun o => legal (plain && b0 && (decide (fn < 0x19) || fpSize n)) (.vred c o z d a g)
  else if fn = 0x1C then legal (plain && fpSize n) (.vredo c z d a (wReg w 13) g)
  else if fn < 0x1F then legal (plain && b0 && (fn == 0x1D || fpSize n)) (.vlast c (fn == 0x1E) z d a g)
  else legal (!g.rsv && n == 2 && wf w 15 3 == 0) (.vmap c d a (Fin.ofNat 4 (wf w 13 2)) g)

/-- VX 0x20–0x33: predicates and permutations (09, vector families). -/
def decVxHigh (c : CellId) (w : W32) (fn : Nat) : Option Instr :=
  let n := wf w 6 2
  let z := sizeOf n
  let d := wReg w 23
  let a := wReg w 18
  let b := wReg w 13
  let a0 := wf w 18 5 == 0
  let b0 := wf w 13 5 == 0
  let c0 := wf w 8 5 == 0
  let pd := wPred w 23
  let pd0 := wf w 27 1 == 0
  let g := wGovC w
  if fn = 0x20 then legal (!g.rsv && !g.zero && a0 && b0) (.ppop c z d g)
  else if fn = 0x21 then legal (a0 && b0 && c0) (.velems c z d)
  else if fn = 0x22 then legal (pd0 && a0 && b0 && c0) (.pset c pd z)
  else if fn = 0x23 then legal (pd0 && a0 && b0 && c0 && n == 0) (.pclr c pd)
  else if fn = 0x24 then legal (pd0 && b0 && c0) (.ptail c pd a z)
  else if fn < 0x2A then
    (pLogicOf[fn - 0x25]?).bind fun o => legal (pd0 && wf w 22 1 == 0 && wf w 17 1 == 0 && c0 && n == 0 && (fn != 0x29 || b0))
      (.predicateLogic c o pd (wPred w 18) (wPred w 13))
  else if fn = 0x2A then legal c0 (.vshuf c false z d a 0 b)
  else if fn = 0x2B then some (.vshuf c true z d a b (wReg w 8))
  else if fn < 0x30 then (weaveOf[fn - 0x2C]?).bind fun o => legal c0 (.vweaveVsift c o z d a b)
  else if fn = 0x30 then legal (b0 && c0) (.vreverse c z d a)
  else if fn = 0x31 then some (.vwindow c z d a b (wReg w 8))
  else if fn < 0x34 then legal (b0 && c0 && (fn == 0x32 || fpSize n)) (.vbcast c (fn == 0x33) z d a)
  else none

/-- VX. -/
def decVx (c : CellId) (w : W32) : Option Instr :=
  let fn := wf w 0 6
  if fn < 0x20 then decVxLow c w fn else decVxHigh c w fn

/-- VM (09, vector memory). -/
def decVm (c : CellId) (w : W32) : Option Instr :=
  let d := wReg w 23
  let a := wReg w 18
  let i := wReg w 13
  let g := wGov w
  let z := sizeOf (wf w 7 2)
  let b0 := wf w 13 5 == 0 && wf w 1 2 == 0
  let r0 := wf w 0 1 == 0
  let pz0 := wf w 7 6 == 0
  if wb w 6 then some (.vgatherff c d a i (wPred w 2) z g (wb w 1) (wb w 0) .clean)
  else match wf w 3 3 with
    | 0 => legal (b0 && r0) (.vld c d a z g .clean)
    | 1 => legal (b0 && r0 && !g.zero) (.vst c d a z g .clean)
    | 2 => legal r0 (.vgather c d a i z g (wb w 2) (wb w 1) .clean)
    | 3 => legal (r0 && !g.zero) (.vscatter c d a i z g (wb w 2) (wb w 1) .clean)
    | 4 => legal (b0 && r0 && pz0 && wf w 27 1 == 0) (.pldPst c false (wPred w 23) a .clean)
    | 5 => legal (b0 && r0 && pz0 && wf w 27 1 == 0) (.pldPst c true (wPred w 23) a .clean)
    | 6 => legal (b0 && r0 && pz0 && wf w 25 3 == 0) (.sld c (Fin.ofNat 4 (wf w 23 2)) a .clean)
    | _ => none

/-- TM (09 R220). -/
def decTm (c : CellId) (w : W32) : Option Instr :=
  some (.tmma c (Fin.ofNat 16 (wf w 24 4)) (Fin.ofNat 64 (wf w 18 6)) (Fin.ofNat 64 (wf w 12 6)) (Fin.ofNat 64 (wf w 6 6))
    (BitVec.ofNat 4 (wf w 2 4)) (BitVec.ofNat 2 (wf w 0 2)) [])

/-- TX (09 R220). One TCVT encoding serves both directions. -/
def decTx (c : CellId) (w : W32) : Option Instr :=
  let td : TReg := Fin.ofNat 64 (wf w 18 6)
  let ts : TReg := Fin.ofNat 64 (wf w 12 6)
  let xa := wReg w 7
  let xb := wReg w 2
  let r0 := wf w 0 2 == 0
  let ts0 := wf w 12 6 == 0
  let xa0 := wf w 7 5 == 0
  let xb0 := wf w 2 5 == 0
  match wf w 24 4 with
  | 0 => legal (r0 && ts0 && xb0) (.tld c td xa .clean false)
  | 1 => legal (r0 && ts0 && xb0) (.tst c td xa [] .clean)
  | 2 => legal (r0 && ts0 && xa0 && xb0) (.tzero c td false)
  | 3 => legal (r0 && ts0 && xa0 && xb0) (.tzeroQ c td false)
  | 4 => legal (r0 && ts0 && xb0) (.tscale c td xa [])
  | 5 => legal r0 (.tcvtNarrow c td ts xa xb [])
  | 6 => legal (r0 && ts0) (.tdrain c td xa xb [])
  | _ => none

/-- VN (09 R218). -/
def decVn (c : CellId) (w : W32) : Option Instr :=
  let v : PackVar := if wf w 7 2 = 0 then .ss else if wf w 7 2 = 1 then .su else .uu
  legal (wf w 7 2 != 3 && wf w 4 3 != 7) (.vpacks c v (BitVec.ofNat 7 (wf w 0 7)) (wb w 28) (wReg w 23) (wReg w 18) (wReg w 13) (wGov w))

/-- The operations of VS (09 R219). -/
def scanOf : List ScanOp := [.add, .maxS, .maxU, .minS, .minU, .fadd, .fmax, .fmin]

/-- VS (09 R219). -/
def decVs (c : CellId) (w : W32) : Option Instr :=
  let op := wf w 2 3
  let n := wf w 0 2
  (scanOf[op]?).bind fun o =>
    legal (decide (op < 5) || fpSize n) (.vscan c (wb w 28) o (sizeOf n) (wReg w 23) (wReg w 18) (wReg w 13) (wGov w) (wPred w 5))

/-- The command that a word of cell `c` spells (09 R205). -/
def decodeWord (c : CellId) (w : W32) : Option Instr :=
  match wf w 28 4 with
  | 0x0 => decSys c w
  | 0x1 => decIr c w
  | 0x2 => decIi c w
  | 0x3 => decUj c w
  | 0x4 => decBr c w
  | 0x5 => decSm c w
  | 0x6 => decSf c w
  | 0x7 => decVa c w
  | 0x8 => decVx c w
  | 0x9 => decVm c w
  | 0xA => decTm c w
  | 0xB => decTx c w
  | 0xC => decVn c w
  | 0xD => decVn c w
  | _ => decVs c w

end Sys2Proof.Machine
end

