-- ==== Sys2Proof/Machine/CellStep.lean ====
section
/-! DEFINITION. What a cell does with a word of its program (09 R205 to R211, 03 R58, R62): the commands of the instruction rows, as
a program in memory issues them. No command of the table fetches; these definitions compose rows into a cell's own run. -/

namespace Sys2Proof.Machine

/-- A word presented to a cell: the command it spells, or illegal instruction (09 R210). -/
def wordStep (c : CellId) (w : W32) (s : State) : Ans :=
  match decodeWord c w with
  | some i => exec i s
  | none => next (issue s c illegal)

/-- A cell fetches the word at its PC and runs it; a fetch raises what a load of it would (03 R58, R62). -/
def cellStep (c : CellId) (s : State) : Ans :=
  if canIssue s c.val && (dueInterrupt s c.val).isNone then
    match cellRead s c.val (s.cell c.val).pc 4 .clean with
    | .raise e s => next (issueTile s c fun s => .exc e s)
    | .hold s => next s
    | .go as s => wordStep c (BitVec.ofNat 32 (leNat (cellBytes s c.val as))) s
  else next (issueTile s c .stay)

end Sys2Proof.Machine
end

