-- ==== Sys2Proof/Machine/Sm4.lean ====
section
/-! DEFINITION. What an LPDDR5X controller stores (10 R241): SM4 in XTS mode over lines of 128 bytes. The manual names the
standards and does not spell the functions out: PRESUMED from GB/T 32907 and IEEE 1619 (log entry 108). -/

namespace Sys2Proof.Machine

/-- The SM4 S-box, entry i in bits 8i+7 to 8i. -/
def sm4Box : Nat :=
  0x4839cbd73e5fee79204ddc3aec7df01884c66ec509f1b9657e77960c4a976989b0b4e5b812d0742dbd7bcda58831c10ad85a101f415cd9117fbcddbb92af1b8d515b6c6d726aff032f8efdde4537dbd56f4e530dab2329c060ca66822ee2f61de3b18cf5303293ad551a349ba45daee0a11561f9cef2f7a3b538c740d28abfea9ec8c4a0e702364c5227d39f574600d4877821013b7c2225a2d158635e0e241e359d56704b0febf88bda6471b2816b68a84f85e6193c5983ba1773f3fca70747a63f8f75fa94df8095e808c9a91cb3e462accfed430b54337a98ef91f450429c99068649261344aac304be2a769a672b052cfb28c214b616b73de1ccfee990d6

/-- The S-box applied to the four bytes of a word. -/
def sm4Tau (x : W32) : W32 :=
  let b (i : Nat) : Nat := fieldN sm4Box (8 * fieldN x.toNat (8 * i) 8) 8 * 2 ^ (8 * i)
  BitVec.ofNat 32 (b 0 + b 1 + b 2 + b 3)

/-- The mixing of a round, and that of the key schedule. -/
def sm4L (x : W32) : W32 := x ^^^ x.rotateLeft 2 ^^^ x.rotateLeft 10 ^^^ x.rotateLeft 18 ^^^ x.rotateLeft 24
/-- The mixing of the key schedule. -/
def sm4Lk (x : W32) : W32 := x ^^^ x.rotateLeft 13 ^^^ x.rotateLeft 23

/-- The constant of round i of the key schedule. -/
def sm4Ck (i : Nat) : W32 :=
  let b (j : Nat) : Nat := (7 * (4 * i + j)) % 256
  BitVec.ofNat 32 (b 0 * 2 ^ 24 + b 1 * 2 ^ 16 + b 2 * 2 ^ 8 + b 3)

/-- Four words in a row: of the key schedule, or of a block. -/
structure Sm4 where
  a : W32
  b : W32
  c : W32
  d : W32
  deriving DecidableEq, Repr

/-- The four words of 128 bits, the highest first. -/
def Sm4.of (v : BitVec 128) : Sm4 :=
  ⟨v.extractLsb' 96 32, v.extractLsb' 64 32, v.extractLsb' 32 32, v.extractLsb' 0 32⟩

/-- The words moved on by one round with the round's word `k` and its mixing. -/
def Sm4.next (x : Sm4) (k : W32) (mix : W32 → W32) : Sm4 := ⟨x.b, x.c, x.d, x.a ^^^ mix (sm4Tau (x.b ^^^ x.c ^^^ x.d ^^^ k))⟩

/-- The round keys of a key, `n` left, in order. -/
def sm4Keys : Nat → Sm4 → List W32
  | 0, _ => []
  | n + 1, x =>
    let y := x.next (sm4Ck (31 - n)) sm4Lk
    y.d :: sm4Keys n y

/-- The round keys of a 128-bit key. -/
def sm4Schedule (key : BitVec 128) : List W32 := sm4Keys 32 (Sm4.of (key ^^^ 0xA3B1BAC656AA3350677D9197B27022DC#128))

/-- SM4 of a block, its first byte the highest. -/
def sm4 (key v : BitVec 128) : BitVec 128 :=
  let y := (sm4Schedule key).foldl (fun x k => x.next k sm4L) (Sm4.of v)
  y.d ++ y.c ++ y.b ++ y.a

/-- Sixteen bytes as a block, the first the highest. -/
def blockOfBytes (bs : List Byte) : BitVec 128 := BitVec.ofNat 128 (leNat bs.reverse)
/-- A block as sixteen bytes. -/
def bytesOfBlock (v : BitVec 128) : List Byte := (leBytes 16 v.toNat).reverse

/-- The tweak of an XTS unit after one more block: doubled in its field, byte 0 the least significant. -/
def xtsDouble (t : Nat) : Nat := if t < 2 ^ 127 then 2 * t else (2 * t - 2 ^ 128) ^^^ 0x87

/-- The blocks of an XTS unit enciphered, `n` left: `t` is the tweak of the next. -/
def xtsBlocks (k : BitVec 128) : Nat → Nat → List Byte → List Byte
  | 0, _, _ => []
  | n + 1, t, bs =>
    let mask := blockOfBytes (leBytes 16 t)
    bytesOfBlock (sm4 k (blockOfBytes (bs.take 16) ^^^ mask) ^^^ mask) ++ xtsBlocks k n (xtsDouble t) (bs.drop 16)

/-- A line of 128 bytes enciphered under a key pair (10 R241): the tweak is the line number, the least significant byte first. -/
def xtsLine (keys : BitVec 128 × BitVec 128) (line : Nat) (bs : List Byte) : List Byte :=
  let t := bytesOfBlock (sm4 keys.2 (blockOfBytes (leBytes 16 (line % 2 ^ 41))))
  xtsBlocks keys.1 8 (leNat t) bs

/-- The bytes that the LPDDR5X dies hold for a line that a partition has written (10 R241); none where no partition holds its keys. -/
def storedLine (s : State) (line : Nat) : Option (List Byte) :=
  match placeOf (128 * line) with
  | .lpddr _ => ((ownerOfMem s (128 * line)).bind fun p => (s.part p).keys).map fun k => xtsLine k line (memBytes s (128 * line) 128)
  | _ => none

end Sys2Proof.Machine
end

