-- ==== Sys2Proof/WellFormed.lean ====
section
/-! DEFINITION. Well-formed commands: operands that can stand in the message, packet, flit or measurement a row names. -/

namespace Sys2Proof

/-- A list of a given length. -/
def hasLen {α : Type} (n : Nat) (l : List α) : Bool := l.length == n

/-- A digest of 32 bytes (16 R388). -/
def isDigest (d : List Byte) : Bool := d.length == 32

/-- The length of an IP address. -/
def ipLen (v6 : Bool) : Nat := if v6 then 16 else 4

/-- The length of an address. -/
def Udp.wf (x : Udp) : Bool := x.addr.length == ipLen x.v6

/-- A RoCEv2 message whose data fits its packets (19 R443). -/
def RoceMsg.wf : RoceMsg → Bool
  | .write _ _ data _ => decide (data.length ≤ 4096)
  | .send data _ => decide (data.length < 2147483649)
  | _ => true

/-- Whether a command's operands are well formed. -/
def Instr.wf : Instr → Bool
  -- a window access moves at least one byte and stays inside the 64 KiB window (01 R24)
  | .tileWindowAccess _ _ off (.rd len) _ => decide (0 < len) && decide (off.toNat + len ≤ 65536)
  | .tileWindowAccess _ _ off (.wr data) _ => decide (0 < data.length) && decide (off.toNat + data.length ≤ 65536)
  -- a flit carries 248 payload bytes (14 R338)
  | .flitReceive _ f => hasLen 248 f.payload
  -- a measurement round names every oscillator (02 R47)
  | .calibrationRound _ kr kb kc => hasLen 4 kr && hasLen 64 kb && hasLen 512 kc
  -- every region's sensors and rate (02 R39)
  | .sensorUpdate tj rate _ => hasLen 4 tj && hasLen 4 rate
  -- four region meters, and the activity of every block (16 R393)
  | .energyCharge meters _ act => hasLen 4 meters && hasLen 64 act
  -- a WDP payload holds at most 1,408 bytes (17 R399)
  | .write _ _ v => decide (v.length ≤ 1408)
  | .writeSeg _ _ _ _ v => decide (v.length ≤ 1408)
  | .readSeg _ _ _ _ len => decide (len.toNat ≤ 1408)
  -- a HELLO carries a 64-byte key and a 32-byte nonce (17 R403)
  | .hello m => hasLen 64 m.key && hasLen 32 m.nonce && m.src.wf && m.dst.wf
  | .keyx m => m.src.wf && m.dst.wf && match m.body with
    | .ra key => hasLen 64 key
    | .sa conf => hasLen 32 conf
  -- a RoCEv2 packet carries at most the path MTU (19 R443)
  | .rdmaWriteReceive _ _ rk rva data h chk => (RoceMsg.write rk rva data chk).wf && h.dst.wf
  | .rdmaReadRequest _ _ _ _ _ h => h.dst.wf
  | .sendReceive _ _ data h chk => (RoceMsg.send data chk).wf && h.dst.wf
  | .roceAckReceive _ _ _ h _ => h.dst.wf
  | .cnpReceive _ _ h => h.dst.wf
  -- addresses of 16 bytes (18 R433)
  | .frameReceive f => match f.body with
    | .arp _ _ asker => hasLen 4 asker
    | .neighbour _ a asker => hasLen 16 a && hasLen 16 asker
    | .echo _ v6 a asker _ => hasLen (ipLen v6) a && hasLen (ipLen v6) asker
    | .udp _ src dst _ => src.wf && dst.wf
    | .roce _ h _ _ m => h.dst.wf && m.wf
    | _ => true
  -- digests of 32 bytes (16 R388)
  | .bootStageEnd r => r.digests.all isDigest
  | .bootStageTimeout r => r.digests.all isDigest
  -- an access of at most 8 bytes (01 R26)
  | .registerWrite _ _ len _ => decide (0 < len.val)
  | _ => true

end Sys2Proof
end

