-- ==== Sys2Proof/Tests/Slice0.lean ====
section
/-! SUPPORT. Small tests, and for each statement of Certificates/Slice0/Obligations.lean witnesses: concrete states and operands that
meet its hypotheses together. Expected values come from the manual's tables and worked examples or are worked out by hand. -/

open Sys2Proof Sys2Proof.Machine

namespace Sys2Proof.Tests

set_option Elab.async false

/-- A partition of one block with hallmark 1 and one 64 MB window of SRAM at partition-relative address 0. -/
def part0 : Part :=
  { Part.reset with
    st := .active, hall := 1, blocks := 1, keys := some (1, 2)
    wins := (Vector.replicate 16 0).set 0 (BitVec.ofNat 128 (0x10000000000 + 2 ^ 48 + 2 * 2 ^ 56)) }

/-- A powered module with that partition, whose block runs and whose cell 0 executes. -/
def run0 : State :=
  { State.reset with
    ctl := { Ctl.reset with st := .active }
    parts := (Vector.replicate 16 Part.reset).set 0 part0
    blocks := [(0, { Block.reset with st := .run, group := .on })]
    cells := [(0, { Cell.reset with held := false, chall := 1 })] }

/-- `run0` with its cell changed. -/
def withCell (f : Cell → Cell) : State := run0.updCell 0 f

/-- `run0` with registers G1, G2 and G3. -/
def withG (a b d : W64) : State := withCell fun k => { k with g := ((k.g.set 1 a).set 2 b).set 3 d }

/-- The state after a command, for tests (the state before where it does not complete). -/
def after (i : Instr) (s : State) : State :=
  match exec i s with
  | .next t => t
  | _ => s

/-- What a table gives at a key is its default or one of its entries. -/
theorem get_default_or_mem {α : Type} (d : α) (m : Tab α) (x : Nat) : Tab.get d m x = d ∨ (x, Tab.get d m x) ∈ m := by
  induction m with
  | nil => exact .inl rfl
  | cons e rest ih =>
    obtain ⟨k, v⟩ := e
    by_cases h : k = x
    · subst h; simp [Tab.get]
    · simp only [Tab.get, h, if_false, List.mem_cons, Prod.mk.injEq]
      rcases ih with ih | ih
      · exact .inl ih
      · exact .inr (.inr ih)

/-- `Coherent`, of the entries listed. -/
theorem coherent_of (s : State) (hc : (s.cells.all fun e => e.2.l1d.lines.all fun l => l.2.data.isNone) = true)
    (hb : (s.blocks.all fun e => e.2.l2.lines.all fun l => l.2.data.isNone) = true) : Coherent s := by
  constructor
  · intro c e he
    rcases get_default_or_mem Cell.reset s.cells c with h | h
    · rw [State.cell, h] at he; simp [Cell.reset, Cache.reset] at he
    · have := List.all_eq_true.mp (List.all_eq_true.mp hc _ h) e he
      simpa using this
  · intro b e he
    rcases get_default_or_mem Block.reset s.blocks b with h | h
    · rw [State.block, h] at he; simp [Block.reset, Cache.reset] at he
    · have := List.all_eq_true.mp (List.all_eq_true.mp hb _ h) e he
      simpa using this

/-- `Unpoisoned`, of the entries listed. -/
theorem unpoisoned_of (s : State) (hp : s.poison = [])
    (hc : (s.cells.all fun e => e.2.l1d.lines.all fun l => !l.2.poison) = true)
    (hb : (s.blocks.all fun e => e.2.l2.lines.all fun l => !l.2.poison) = true) : Unpoisoned s := by
  refine ⟨hp, ?_, ?_⟩
  · intro c e he
    rcases get_default_or_mem Cell.reset s.cells c with h | h
    · rw [State.cell, h] at he; simp [Cell.reset, Cache.reset] at he
    · have := List.all_eq_true.mp (List.all_eq_true.mp hc _ h) e he
      simpa using this
  · intro b e he
    rcases get_default_or_mem Block.reset s.blocks b with h | h
    · rw [State.block, h] at he; simp [Block.reset, Cache.reset] at he
    · have := List.all_eq_true.mp (List.all_eq_true.mp hb _ h) e he
      simpa using this

/-- The device addresses of `n` bytes at a partition-relative address of the window. -/
def devs (va n : Nat) : List Nat := (List.range n).map (0x10000000000 + va + ·)

/-- Sixteen active elements, the rest inactive, for .D elements at 0, 8, …; G1 = 0, and V2 holds the element numbers. -/
def vec1 : State :=
  { withCell fun k => { k with
      p := k.p.set 1 0xFF, v := (k.v.set 2 0x0000000000000003000000000000000200000000000000010000000000000000).set 3 0x11 } with
    sram := [(0x10000000000, 0x21), (0x10000000009, 0x43)] }

/-- All bits of P1 from element 1 on clear, governing with zeroing. -/
def gov1 : Gov := ⟨1, false, false⟩

/-- A cell with T8 to T15 tagged BF16, a dirty resident quad 5, and G1 = 0x1000, G2 = 0. -/
def tile0 : State := withCell fun k => { k with
  tcfg := k.tcfg.set 0 0x1111111100000000, res := some 5, accDirty := true, acc := 0x3F800000, g := k.g.set 1 0x1000,
  t := k.t.set 8 0x3F803F80, pc := 0x40 }

/-- `run0` with a receive window of job 5 over the first 64 KiB of the partition's memory. -/
def win0 : State :=
  { run0 with parts := run0.parts.set 0 { part0 with
      rwins := (Vector.replicate 4 0).set 0 (BitVec.ofNat 128 (0x10000000000 + 5 * 2 ^ 48 + 0x10000 * 2 ^ 64 + 2 ^ 127)) } }

/-- FADD of the first two inputs into OUT0 (05 R113, R116). -/
def strandA : Strand := ⟨0, false, List.replicate 8 0, [⟨1, 12, 8, 9, 0⟩]⟩

/-- The bytes of that strand's image, at an SRAM address. -/
def strandImage (a : Nat) : List Host.Cell := [(a, 1), (a + 0x28, 1), (a + 0x29, 12), (a + 0x2A, 8), (a + 0x2B, 9)]

/-- A module whose partition also has the first GiB of LPDDR5X; in SRAM a strand at 0x100, a group table of one group of 32
elements at 0x200 (parameters at LPDDR5X 0, gradient at 0x1000) and a schedule of one point 0 at 0x400; element 0 has parameter 1.0
and gradient 3.0. -/
def setMem : State :=
  { run0 with
    parts := run0.parts.set 0 { part0 with wins := part0.wins.set 1 (BitVec.ofNat 128 (2 ^ 48 + 2 ^ 56 + 0x100000000 * 2 ^ 64)) }
    sram := strandImage 0x10000000100 ++ [(0x10000000209, 0x10), (0x1000000020D, 1), (0x10000000238, 32), (0x10000000400, 1), (0x10000001002, 0x40), (0x10000001003, 0x40)]
    lpddr := (List.range 128).map fun a => (a, if a = 2 then 0x80 else if a = 3 then 0x3F else 0) }

/-- A Setter context 0 of controller 0, assigned to hallmark 1, over that memory. -/
def setCtx (f : SetCtx → SetCtx) : State :=
  setMem.setSetter 0 (f { SetCtx.reset with
    own := 0x101, strandA := 0x10000000100, gtab := 0x10000000200 + 2 ^ 48, sched := 0x10000000400, pip := 3 + 7 * 2 ^ 6 + 2 ^ 15 })

/-- An adder context 0 of controller 0 with job 5 and hallmark 1, its bucket table of two entries at SRAM 0x2000: bucket 0 has two
tiles of FP32 at DST 0x4000 (SRC 0x10000), in tile or layer mode. -/
def addMem (tileMode : Bool) : State :=
  { run0 with
    fab := { Fab.reset with dx := 2 }
    sram := [(0x10000002001, 0x40), (0x10000002005, 1), (0x1000000200A, 1), (0x1000000200D, 1), (0x10000002010, 1)] ++
      (if tileMode then [(0x10000002014, 1)] else []) ++ [(0x10000010000, 0x55)] }

def addCtx (tileMode : Bool) (f : AddCtx → AddCtx) : State :=
  (addMem tileMode).setAdder 0 (f { AddCtx.reset with
    own := 0x101, cfg := 5 + 16 * 2 ^ 16 + 3 * 2 ^ 24, btab := 0x10000002000 + 2 * 2 ^ 48 })

/-- The same enabled, on a ring of two modules: this one is at position 0, both neighbours are module 1. -/
def addOn (f : AddCtx → AddCtx) : State :=
  addCtx true fun x => f { x with
    enable := true, st := .active, ring := 1 * 2 ^ 14 + 1 * 2 ^ 28 + 1 * 2 ^ 46, credits := 3, rnd := 1 }

/-- The bucket's descriptor as that memory holds it. -/
def bdesc (tileMode : Bool) : BDesc :=
  ⟨0x10000002000, 0x10000004000, 0x10000010000, if tileMode then 2 ^ 32 + 1 else 1, 0, 0⟩

/-- Slot 0 of the unit open for bucket 0. -/
def openSlot (s : State) (f : ASlot → ASlot) : State := s.setASlot 0 (f { ASlot.reset with st := 1 })

/-- A tile of bucket 0. -/
def tileZ (n : W16) : Tile := ⟨5, 0, n, 0, false, false, [0]⟩


theorem test_ready : Ready run0 0 := by unfold Ready; decide

/-- The highest functions of the IR and II tables are defined, and the fields beyond them are reserved. -/
theorem test_integer_forms : Ready run0 0 ∧ (irValue 0x14 5 7).isSome ∧ (iiValue 8 5 63).isSome ∧ (irValue 0x15 5 7).isNone ∧
    (iiValue 9 5 1).isNone ∧ (3 : Reg) ≠ 0 := ⟨test_ready, by decide +kernel⟩

/-- 09, the IR table: the most negative dividend by −1, and a division by 0. -/
theorem test_div_corners : irValue 0x0D (2 ^ 63) (-1) = some (2 ^ 63) ∧ irValue 0x0F (2 ^ 63) (-1) = some 0 ∧
    irValue 0x0D 7 0 = some 0 ∧ irValue 0x0F 7 0 = some 7 := by decide +kernel

theorem test_branch_taken : (after (.brCond 0 .lo 1 2 3) (withG 1 2 0)).cell 0 = ((withG 1 2 0).cell 0 |> fun k => { k with pc := 12 }) := by
  decide +kernel

/-- A reserved encoding at NEST = 0 and at NEST = 1. -/
theorem test_reserved_traps : Ready run0 0 ∧ (run0.cell 0).kstate.getLsbD 0 = false ∧ 0x14 < (0x15 : BitVec 7).toNat ∧
    Ready (withCell fun k => { k with kstate := 9 }) 0 ∧
    ((withCell fun k => { k with kstate := 9 }).cell 0).kstate.getLsbD 0 = true := by
  unfold Ready; decide +kernel

/-- A misaligned ordered load: va = 4 with .D. -/
theorem test_misaligned : Ready (withG 4 0 0) 0 ∧ ((withG 4 0 0).cell 0).kstate.getLsbD 0 = false ∧
    (((withG 4 0 0).cell 0).rdG 1).toNat % wdBytes true ≠ 0 := by unfold Ready; decide +kernel

/-- A cell at U, for TRET. -/
theorem test_user : Ready (withCell fun k => { k with sup := false }) 0 ∧
    ((withCell fun k => { k with sup := false }).cell 0).sup = false ∧ (run0.cell 0).sup = true := by
  unfold Ready; decide +kernel

/-- The first and the last scalar floating-point function. -/
theorem test_scalar_fp : Ready run0 0 ∧ sfLegal 0 1 0 0 = true ∧ sfLegal 0x16 0 3 0 = true ∧ sfLegal 0x0C 1 2 3 = true := by
  unfold Ready; decide +kernel

theorem test_reads : Reads run0 0 8 4 [0x10000000008, 0x10000000009, 0x1000000000A, 0x1000000000B] := by
  unfold Reads PathOpen; decide +kernel

/-- The byte at 9, of which no cache of the cell's holds a line. -/
theorem test_read_error : ([0x10000000008, 0x10000000009] : List Nat)[1]? = some 0x10000000009 ∧
    inL1 run0 0 (0x10000000009 / 128) = false ∧ l2Holder run0 0 (0x10000000009 / 128) = none := by decide +kernel

theorem test_coherent : Coherent run0 := coherent_of _ (by decide +kernel) (by decide +kernel)

/-- A store to the last eight bytes of the window, and one byte load with sign extension at its first. -/
theorem test_writes : Writes (withG 0x3FFFFF8 0 0) 0 0x3FFFFF8 8
    [0x10003FFFFF8, 0x10003FFFFF9, 0x10003FFFFFA, 0x10003FFFFFB, 0x10003FFFFFC, 0x10003FFFFFD, 0x10003FFFFFE, 0x10003FFFFFF] := by
  unfold Writes PathOpen; decide +kernel

/-- Control space (01 R27, 03 R58): a cell's own CTIME and COUNT of pip 3 at S, a register that is only for S at U, a write of CTIME, and a
cell whose hallmark is not that of its block. -/
theorem test_control_space :
    (let s := withG 0x30020000000 0 0
     Ready s 0 ∧ isCtl ((s.cell 0).rdG 1) = true ∧ ctlFault s 0 false ((s.cell 0).rdG 1) 8 = none ∧ ctlPathHeld s 0 0x30020000000 = false ∧
       ctlRefused s (s.cell 0).hall 0x30020000000 8 = none ∧ hallOk (hallOfBlock s 0) (s.cell 0).hall = true ∧
       (s.cell 0).kstate.getLsbD 0 = false ∧ (ctlFault s 0 true ((s.cell 0).rdG 1) 8).isSome = true) ∧
    (let s := withG 0x300200010C0 7 0
     Ready s 0 ∧ (s.cell 0).sup = true ∧ ctlFault s 0 true ((s.cell 0).rdG 1) 4 = none ∧
       ctlAccepts s (placeOf 0x300200010C0) (s.cell 0).hall = true ∧
       Ready (s.updCell 0 fun k => { k with sup := false }) 0 ∧
       ctlAccepts (s.updCell 0 fun k => { k with chall := 2 }) (placeOf 0x300200010C0) 2 = false ∧
       ctlRefused (s.updCell 0 fun k => { k with chall := 2 }) 2 0x300200010C0 4 = some 0x300200010C0) := by
  unfold Ready; decide +kernel

/-- The rows of 03 R58 at their limits: the last read-only byte, another cell of the partition and one of no partition. -/
theorem test_control_rows : placeOf 0x3002000000F = .cellCtl 0 15 ∧ ctlDetail run0 0 false 0x3002000000F = none ∧
    ctlDetail run0 0 true 0x3002000000F = some 4 ∧ placeOf 0x30020070000 = .cellCtl 7 0 ∧ ctlDetail run0 0 true 0x30020070000 = none ∧
    ctlDetail run0 0 true 0x30020080000 = some 4 ∧ ctlDetail run0 0 false 0x30000000000 = some 4 := by decide +kernel

/-- An atomic on the first word of the window. -/
theorem test_atomic : Ready run0 0 ∧ Coherent run0 ∧
    Reads run0 0 ((run0.cell 0).rdG 1) (wdBytes false) [0x10000000000, 0x10000000001, 0x10000000002, 0x10000000003] ∧
    Writes run0 0 ((run0.cell 0).rdG 1) (wdBytes false) [0x10000000000, 0x10000000001, 0x10000000002, 0x10000000003] ∧
    ((run0.cell 0).rdG 1).toNat % wdBytes false = 0 := by
  refine ⟨by unfold Ready; decide +kernel, test_coherent, by unfold Reads PathOpen; decide +kernel, by unfold Writes PathOpen; decide +kernel, by
    decide +kernel⟩

/-- A cell with an enabled doorbell and a refusal returning to it. -/
def bell0 : State :=
  { withCell fun k => { k with kien := 0x1E, kstate := 2, bell := some (5, 0), pc := 0x100, kentry := 0x2003 } with
    hmrefs := [⟨0, 1, 0x40⟩] }

theorem test_interrupt_due : dueInterrupt bell0 0 = some 4 ∧ (bell0.cell 0).held = false ∧ (bell0.cell 0).faulted = false ∧
    (bell0.cell 0).wait = none ∧ (bell0.block (blockOfCell 0)).st = .run ∧ (bell0.block (blockOfCell 0)).oos = false ∧
    bell0.hmrefs[0]? = some ⟨0, 1, 0x40⟩ := by decide +kernel

/-- The same doorbell where PIPWAIT waits, where PIPBAR has not yet arrived, and where it has. -/
theorem test_interrupt_waits :
    (let s := bell0.updCell 0 fun k => { k with wait := some ⟨3, .wait, none, .none⟩ }
     dueInterrupt s 0 = some 4 ∧ ∀ w, (s.cell 0).wait = some w → w.kind ≠ .bar) ∧
    (let s (arr : Bool) := bell0.updCell 0 fun k => { k with
       wait := some ⟨4, .bar, none, .none⟩, pips := [(4, { Pip.reset with cfg := 1, arr := arr })] }
     dueInterrupt (s true) 0 = some 4 ∧ dueInterrupt (s false) 0 = some 4 ∧ ((s false).cell 0).wait = some ⟨4, .bar, none, .none⟩ ∧
       (((s true).cell 0).pip 4).arr = true ∧ (((s false).cell 0).pip 4).arr = false) := by
  refine ⟨⟨by decide +kernel, ?_⟩, by decide +kernel⟩
  intro w h
  have : w = ⟨3, .wait, none, .none⟩ := by
    have e : ((bell0.updCell 0 fun k => { k with wait := some ⟨3, .wait, none, .none⟩ }).cell 0).wait = some ⟨3, .wait, none, .none⟩ := by
      decide +kernel
    rw [e] at h; exact (Option.some.inj h).symm
  subst this; decide

/-- 03 R62, R65: KCAUSE of doorbell 5 is 0x00010504. -/
theorem test_interrupt_cause : ((after (.interruptTake 0) bell0).cell 0).kcause = 0x00010504 ∧
    ((after (.interruptTake 0) bell0).cell 0).krpc = 0x100 ∧ ((after (.interruptTake 0) bell0).cell 0).pc = 0x2000 := by
  decide +kernel

/-- Numbers that the level may and may not read or write: KSTATE at S and at U, and an unknown one. -/
theorem test_system_registers : Ready run0 0 ∧ (run0.cell 0).sup = true ∧
    Ready (withCell fun k => { k with sup := false }) 0 ∧ ((withCell fun k => { k with sup := false }).cell 0).kstate.getLsbD 0 = false := by
  unfold Ready; decide +kernel

/-- A TCFG write at each legal value 8, with a resident quad whose accumulator is dirty. -/
def tcfg0 : State := withCell fun k => { k with g := k.g.set 1 0x8888888888888888, res := some 3, accDirty := true, acc := 7 }

theorem test_tcfg_write : Ready tcfg0 0 ∧ (tcfg0.cell 0).sup = true ∧
    (∀ i < 16, fieldN ((tcfg0.cell 0).rdG 1).toNat (4 * i) 4 ≤ 8) ∧ (tcfg0.cell 0).accDirty = true := by
  unfold Ready; decide +kernel

/-- A block whose L2 and whose cell's L1 caches are disabled and stale. -/
def stale0 : State :=
  { withCell fun k => { k with l1d := ⟨false, true, []⟩, l1i := ⟨false, true, []⟩ } with
    blocks := [(0, { Block.reset with st := .run, group := .on, l2 := ⟨false, true, []⟩ })] }

/-- The same with the L2 enabled, and a line in the L1D. -/
def stale1 : State :=
  { withCell fun k => { k with l1d := ⟨false, true, [(0x200000000, ⟨some [1], false, false⟩)]⟩, l1i := ⟨false, true, []⟩ } with
    blocks := [(0, { Block.reset with st := .run, group := .on })] }

theorem test_caches : Ready run0 0 ∧ (run0.cell 0).sup = true ∧ hallOk (hallOfBlock run0 0) 1 = true ∧ (run0.block 0).l2.en = true ∧
    Ready stale1 0 ∧ (stale1.cell 0).l1d.en = false ∧ (stale1.cell 0).l1d.stale = true ∧ (stale1.cell 0).l1i.en = false ∧
    (stale1.cell 0).l1i.stale = true ∧ (stale1.block 0).l2.en = true := by
  unfold Ready; decide +kernel

theorem test_caches_l2 : Ready stale0 0 ∧ (stale0.cell 0).sup = true ∧ (stale0.block 0).l2.en = false ∧
    (stale0.block 0).l2.stale = true ∧ (stale0.cell 0).l1d.en = false ∧ (stale0.cell 0).l1i.en = false ∧
    (ownerOfBlock stale0 0).isSome = true ∧ (stale0.cell 0).hall = hallOfBlock stale0 0 ∧ hallOfBlock stale0 0 ≠ 0 := by
  unfold Ready; decide +kernel

/-- A vector-ready cell. -/
theorem test_vready : VReady run0 0 := by unfold VReady Ready; decide +kernel

/-- 04 R91, R92 at the ends of the ranges: bytes 0x80 + 0xFF saturate to −128 signed and 255 unsigned. -/
theorem test_saturation : vSatElem .b false false 0x80 0xFF = (0x80, true) ∧ vSatElem .b false true 0x80 0xFF = (0xFF, true) ∧
    vSatElem .b true true 1 2 = (0, true) := by decide +kernel

/-- 04 R92 at the ends of the ranges: −32,768 squared exceeds .H; 0x4000 · 1 rounds up to 1 with R and to 0 without; 0x7FFF and −1 as .H
narrowed to a byte. -/
theorem test_fixed_point : vFxElem true 16 (-32768) (-32768) = (0x7FFF, true) ∧ (vFxElem true 16 0x4000 1).1 = 1 ∧
    (vFxElem false 16 0x4000 1).1 = 0 ∧ vPackElem .ss .h 0 true 0x7FFF = (0x7F, true) ∧ vPackElem .su .h 0 true 0xFFFF = (0, true) ∧
    vPackElem .uu .h 8 true 0xFFFF = (0xFF, true) ∧ vPackElem .uu .h 8 false 0xFFFF = (0xFF, false) := by decide +kernel

/-- Operands of the width changes: VPACKS has a legal SZSH 3 and SZSH 0x7F is reserved. -/
theorem test_width_forms : VReady run0 0 ∧ szFp .w = true ∧ (szsh 3).isSome ∧ PackVar.su ≠ .reserved := by
  refine ⟨test_vready, by decide +kernel, by decide +kernel, by decide +kernel⟩

/-- Reading and writing: P1 has element 0 active (.D), at the first bytes of the window; VRESUME.IDX is 0. -/
theorem test_vector_memory : VReady vec1 0 ∧ gov1.rsv = false ∧ gov1.zero = false ∧ Coherent vec1 ∧ Unpoisoned vec1 ∧
    (∀ i < szElems .d, active .d ((vec1.cell 0).gov gov1) i = true →
      Reads vec1 0 ((vec1.cell 0).rdG 1 + BitVec.ofNat 64 (szBytes .d * i)) (szBytes .d) (devs (8 * i) 8)) ∧
    (∀ i < szElems .d, (vec1.cell 0).resumeIdx ≤ i → active .d ((vec1.cell 0).gov gov1) i = true →
      Reads vec1 0 (indexAddr (vec1.cell 0) 1 2 .d false true i) (szBytes .d) (devs (8 * i) 8)) := by
  have h0 : ∀ i < szElems .d, active .d ((vec1.cell 0).gov gov1) i = true → i = 0 := by decide +kernel
  refine ⟨by unfold VReady Ready; decide +kernel, rfl, rfl, coherent_of _ (by decide +kernel) (by decide +kernel),
    unpoisoned_of _ rfl (by decide +kernel) (by decide +kernel), ?_, ?_⟩
  · intro i hi ha; obtain rfl := h0 i hi ha; unfold Reads PathOpen; decide +kernel
  · intro i hi _ ha; obtain rfl := h0 i hi ha; unfold Reads PathOpen; decide +kernel

/-- Writing: element 0 of V3 at the first bytes of the window. -/
theorem test_vector_stores : ∀ i < szElems .d, active .d ((vec1.cell 0).gov gov1) i = true →
    Writes vec1 0 ((vec1.cell 0).rdG 1 + BitVec.ofNat 64 (szBytes .d * i)) (szBytes .d) (devs (8 * i) 8) ∧
    Writes vec1 0 (indexAddr (vec1.cell 0) 1 2 .d false true i) (szBytes .d) (devs (8 * i) 8) := by
  have h0 : ∀ i < szElems .d, active .d ((vec1.cell 0).gov gov1) i = true → i = 0 := by decide +kernel
  intro i hi ha; obtain rfl := h0 i hi ha; unfold Writes PathOpen; constructor <;> decide +kernel

/-- A gather whose first active element lies outside the window: index 0x800000 scaled by 8 is 0x4000000. -/
def vec2 : State := withCell fun k => { k with p := k.p.set 1 0xFF, v := k.v.set 2 0x800000 }

theorem test_gather_fault : VReady vec2 0 ∧ (vec2.cell 0).kstate.getLsbD 0 = false ∧ (vec2.cell 0).resumeIdx ≤ 0 ∧
    active .d ((vec2.cell 0).gov gov1) 0 = true ∧
    xlate vec2 0 (indexAddr (vec2.cell 0) 1 2 .d false true 0).toNat = .error 0x01 := by
  unfold VReady Ready; decide +kernel


/-- The same with an active element 0 at the first bytes of the window, below element 1 outside it. -/
def vec3 : State := withCell fun k => { k with p := k.p.set 1 0xFFFF, v := k.v.set 2 (0x800000 * 2 ^ 64) }

theorem test_gather_below : VReady vec3 0 ∧ (vec3.cell 0).kstate.getLsbD 0 = false ∧ (vec3.cell 0).resumeIdx ≤ 0 ∧
    active .d ((vec3.cell 0).gov gov1) 0 = true ∧ active .d ((vec3.cell 0).gov gov1) 1 = true ∧
    Reads vec3 0 (indexAddr (vec3.cell 0) 1 2 .d false true 0) (szBytes .d) (devs 0 8) ∧
    xlate vec3 0 (indexAddr (vec3.cell 0) 1 2 .d false true 1).toNat = .error 0x01 := by
  unfold VReady Ready Reads PathOpen; decide +kernel

/-- That strand in slot 0 and its image in memory at 0x100, G1 pointing at it; V1 element 0 is 1.0 and V2 element 0 is 3.0. -/
def strand0 : State :=
  { withCell fun k => { k with
      p := k.p.set 1 0xF, g := k.g.set 1 0x100, ss := k.ss.set 0 (some strandA), v := (k.v.set 1 0x3F800000).set 2 0x40400000 } with
    sram := [(0x10000000100, 1), (0x10000000128, 1), (0x10000000129, 12), (0x1000000012A, 8), (0x1000000012B, 9)] }

theorem test_strand : VReady strand0 0 ∧ Coherent strand0 ∧ Unpoisoned strand0 ∧ Reads strand0 0 ((strand0.cell 0).rdG 1) 32 (devs 0x100 32) ∧
    Writes strand0 0 ((strand0.cell 0).rdG 1) 32 (devs 0x100 32) ∧ ((strand0.cell 0).rdG 1).toNat % 8 = 0 ∧
    Reads strand0 0 ((strand0.cell 0).rdG 1) 8 (devs 0x100 8) ∧ headerOk (leNat ((devs 0x100 8).map (memByte strand0))) = true ∧
    Reads strand0 0 ((strand0.cell 0).rdG 1) (strandBytes (leNat ((devs 0x100 8).map (memByte strand0)))) (devs 0x100 48) ∧
    strandOf ((devs 0x100 48).map (memByte strand0)) = .ok strandA ∧ (strand0.cell 0).ss[0] = some strandA ∧
    strandA.namesOut2 = none ∧ strandA.trapnv = false := by
  refine ⟨by unfold VReady Ready; decide +kernel, coherent_of _ (by decide +kernel) (by decide +kernel),
    unpoisoned_of _ rfl (by decide +kernel) (by decide +kernel), by unfold Reads PathOpen; decide +kernel, by unfold Writes PathOpen; decide +kernel, by decide +kernel, by unfold Reads PathOpen; decide +kernel, by decide +kernel, by
    unfold Reads PathOpen; decide +kernel, by decide +kernel, rfl, by decide +kernel, rfl⟩

/-- 1.0 + 3.0 = 4.0 in the element that VMAP writes. -/
theorem test_vmap : elemAt .w ((after (.vmap 0 3 1 0 gov1) strand0).cell 0).v[3] 0 = 0x40800000 := by decide +kernel

/-- The vector datapaths: may be gated, gated, and waking. -/
theorem test_vector_power : (run0.cell 0).held = false ∧ (run0.cell 0).vpwr.getLsbD 0 = true ∧ (run0.cell 0).vwaking = false ∧
    Ready (withCell fun k => { k with vgated := true }) 0 ∧ ((withCell fun k => { k with vgated := true }).cell 0).vgated = true ∧
    ((withCell fun k => { k with vwaking := true, vgated := true, vzero := [1] }).cell 0).vwaking = true := by
  unfold Ready; decide +kernel

theorem test_tile_forms : Ready tile0 0 ∧ Coherent tile0 ∧ (tile0.cell 0).tpend.length < 4 ∧ (tile0.cell 0).mmaLegal 0 8 10 0 0 0 = true ∧
    (tile0.cell 0).quadLegal 4 = true ∧ fieldN ((tile0.cell 0).rdG 2).toNat 44 2 ≠ 3 ∧ ((tile0.cell 0).rdG 2).getLsbD 8 = false ∧
    (tile0.cell 0).cvtNarrowLegal 8 4 = true ∧ (tile0.cell 0).cvtNarrowLegal 4 8 = false ∧ (tile0.cell 0).cvtWidenLegal 4 8 = true ∧
    (tile0.cell 0).storePending = false := by
  have ready : Ready tile0 0 := by unfold Ready; decide +kernel
  have coherent : Coherent tile0 := coherent_of _ (by decide +kernel) (by decide +kernel)
  exact ⟨ready, coherent, by decide +kernel⟩

/-- 06 R138 applies: a quad that overlaps its operand, a misaligned quad, a reserved wire format, and no conversion. -/
theorem test_tile_illegal : Ready tile0 0 ∧ (tile0.cell 0).kstate.getLsbD 0 = false ∧ (tile0.cell 0).mmaLegal 2 8 10 0 0 0 = false ∧
    (tile0.cell 0).quadLegal 5 = false ∧ ((tile0.cell 0).rdG 2).getLsbD 8 = false ∧ (tile0.cell 0).cvtNarrowLegal 8 8 = false ∧
    (tile0.cell 0).cvtWidenLegal 8 8 = false := by unfold Ready; decide +kernel

theorem test_tile_memory : Reads tile0 0 ((tile0.cell 0).rdG 1) 1024 (devs 0x1000 1024) := by unfold Reads PathOpen; decide +kernel

theorem test_tile_store : Writes tile0 0 ((tile0.cell 0).rdG 1) 1024 (devs 0x1000 1024) := by
  refine ⟨by decide +kernel, by decide +kernel, ?_, by unfold PathOpen; decide +kernel⟩
  exact (List.nodup_range (n := 1024)).map (fun a b h => by simpa using h)

/-- A cell with one uncommitted tile instruction. -/
def tile1 (op : TileOp) : State := tile0.updCell 0 fun k => { k with tpend := [⟨0x40, op⟩] }

theorem test_commit_ready : (∀ op ∈ [TileOp.zero 9, .load 9 5, .zeroQ 6, .mma 0 8 10 0 0 0, .scale 15 0, .widen 15 8 0, .narrow 8 15 0 0,
      .drain 15 0 (2 ^ 46), .store 31 0x1000 .clean],
    ((tile1 op).cell 0).held = false ∧ ((tile1 op).cell 0).faulted = false ∧ ((tile1 op).cell 0).tpend = [⟨0x40, op⟩] ∧
    ((tile1 op).cell 0).commitHeld op = false ∧ storeHeld (tile1 op) 0 op = false ∧ ((tile1 op).cell 0).accBad = false ∧
    ((tile1 op).cell 0).meetsBad op = none ∧ ((tile1 op).cell 0).accDirty = true) ∧ ((tile0.cell 0).shape 8 10).isSome ∧
    (8 : TReg).val % narrowRegs ((tile0.cell 0).tag 8) = 0 := by decide +kernel

/-- The accumulator clean, so that its file copy has its value (06 R141, R144), with a TZERO of another quad to commit. -/
theorem test_commit_clean : (let s := (tile1 (.zeroQ 6)).updCell 0 fun k => { k with accDirty := false }
    (s.cell 0).tpend = [⟨0x40, .zeroQ 6⟩] ∧ (s.cell 0).res = some 5 ∧ (s.cell 0).accDirty = false ∧ (s.cell 0).accBad = false ∧
      (s.cell 0).commitHeld (.zeroQ 6) = false ∧ (s.cell 0).meetsBad (.zeroQ 6) = none) := by decide +kernel

/-- Gating: no uncommitted instruction and a dirty accumulator; a waking array. -/
theorem test_tile_gate : (tile0.cell 0).held = false ∧ (tile0.cell 0).faulted = false ∧ (tile0.cell 0).tpwr.getLsbD 0 = true ∧
    (tile0.cell 0).twaking = false ∧ (tile0.cell 0).tpend = [] ∧ (tile0.cell 0).accDirty = true ∧ (tile0.cell 0).res.isSome = true ∧
    ((withCell fun k => { k with twaking := true, tgated := true }).cell 0).twaking = true := by decide +kernel

/-- A cell with a drained tile for bucket 25, whose home is controller 1, while a local buffer is free there. -/
def drain0 : State := withCell fun k => { k with drain := some ⟨2, 25, 0, 0, false, false, [1]⟩ }

theorem test_drain : (drain0.cell 0).drain = some ⟨2, 25, 0, 0, false, false, [1]⟩ ∧
    localUsed drain0 ((25 : W16).toNat % 24) < localCap drain0 ((25 : W16).toNat % 24) ∧
    pathHeld drain0 (blockOfCell 0) 0 (regionOfCtl ((25 : W16).toNat % 24)) = false ∧ regionOfCtl ((25 : W16).toNat % 24) = regionOfCell 0 := by
  decide +kernel

/-- Tile-window accesses at the end of the window, in a running block and in one in Nap. -/
theorem test_tile_window : hallOk (hallOfBlock run0 0) (Agent.hall run0 (.debug 0)) = true ∧ (run0.block 0).oos = false ∧
    (run0.block 0).st = .run ∧ (run0.cell 0).tpend = [] ∧ (65534 : BitVec 16).toNat + 2 ≤ 65536 ∧ (run0.cell 0).res = none ∧
    tileReadBad ((run0.cell 0).windowRead 65534 2) 65534 2 = none ∧ windowPathHeld run0 (.debug 0) 0 = false ∧
    windowPathHeld (run0.setArb 1368 { run0.arb 1368 with freeze := true }) (.debug 0) 0 = true := by decide +kernel

theorem test_tile_window_asleep : hallOk (hallOfBlock run0 0) (Agent.hall run0 (.debug 0)) = true ∧
    ((run0.setBlock 0 { run0.block 0 with st := .nap }).block 0).st = .nap ∧
    (let s := run0.setBlock 0 { run0.block 0 with st := .dormant }
     (s.block 0).st = .dormant ∧ (s.block 0).oos = false ∧ hallOk (hallOfBlock s 0) (Agent.hall s (.debug 0)) = true) ∧
    hallOk (hallOfBlock run0 0) (Agent.hall run0 (.debug 1)) = false := by decide +kernel

/-- Slot 3 of region 0, assigned to hallmark 1, with data in its step. -/
def slot0 : State := run0.setSlot 3 { Slot.reset with own := 0x101, step := Slot.reset.step.set 0 7, amaxv := 0x40000000 }

theorem test_slots : (slot0.slot 3).assigned = true ∧ (slot0.slot 3).hall = 1 ∧ (slot0.slot 3).fmt = 2 ∧ (slot0.slot 3).pushes = true ∧
    (v32 (slot0.slot 3).scur).sign = false ∧ (v32 (slot0.slot 3).scur).isZero = false ∧ slotFmtOk 15 = false ∧ slotFmtOk 2 = true ∧
    (run0.slot 3).assigned = false := by decide +kernel

/-- 08 R195: the counters saturate. -/
theorem test_slot_saturates :
    ((Slot.reset.add 0 5).step[0] = 5) ∧ (({ Slot.reset with step := Slot.reset.step.set 0 (-1) }).add 0 5).step[0] = -1 := by
  decide +kernel

/-- CPQ with its descriptor at 0x1000, to an engine whose queue is empty. -/
def cpq0 : State := withCell fun k => { k with g := k.g.set 1 0x1000 }

theorem test_cpq : Ready cpq0 0 ∧ ((cpq0.cell 0).rdG 1).toNat % 64 = 0 ∧ Reads cpq0 0 ((cpq0.cell 0).rdG 1) 64 (devs 0x1000 64) ∧
    arbFrozen cpq0 (4 * blockOfCell 0 + 2 + 1) = false ∧ (cpq0.engine 1).queue.length < 16 ∧ Coherent cpq0 := by
  refine ⟨by unfold Ready; decide +kernel, by decide +kernel, by unfold Reads PathOpen; decide +kernel, by decide +kernel, by decide +kernel,
    coherent_of _ (by decide +kernel) (by decide +kernel)⟩

/-- The same with a full queue. -/
theorem test_cpq_full : arbFrozen (cpq0.setArb 3 { cpq0.arb 3 with freeze := true }) (4 * blockOfCell 0 + 2 + 1) = true ∧
    16 ≤ ((cpq0.setEngine 1 { Engine.reset with queue := List.replicate 16 ⟨⟨0, 0, 0, 0, 0, 0, 0, 0⟩, 0, 0⟩ }).engine 1).queue.length := by
  decide +kernel

/-- A byte copy of four bytes from 0x10000000000 to 0x10000000100 with its completion pip 3 of cell 7 enabled. -/
def job0 : Job :=
  ⟨⟨0x10000000000, 0x10000000100, 4 + 2 ^ 24 + 2 ^ 44, 0, 0, 0, 0, 3 + 7 * 2 ^ 6 + 2 ^ 15⟩, 0, 9⟩

/-- The same with N0 = 0, which the checks refuse (10 R225). -/
def job1 : Job := { job0 with desc := { job0.desc with shape := 0 } }

/-- The same to module 9. -/
def job2 : Job := { job0 with desc := { job0.desc with done := 2 ^ 34 + 9 * 2 ^ 16 } }

def copyQ (j : Job) : State := run0.setEngine 1 { Engine.reset with queue := [j], acc := 10 }
def copyR : State := { run0.setEngine 1 { Engine.reset with run := some job0, acc := 10 } with
  sram := [(0x10000000000, 1), (0x10000000001, 2), (0x10000000003, 4)] }

theorem test_descriptor_start : ((copyQ job0).engine 1).queue = [job0] ∧ ((copyQ job0).engine 1).run = none ∧
    ((copyQ job0).block 0).oos = false ∧ ((copyQ job0).block 0).st = .run ∧ descErr (copyQ job0) 0 job0.desc = none ∧
    job0.desc.remote = false ∧ descErr (copyQ job1) 0 job1.desc = some (4, 1, 0) ∧ descErr (copyQ job2) 0 job2.desc = none ∧
    job2.desc.remote = true ∧ fabReachable (copyQ job2) job2.desc.modId = false := by decide +kernel

/-- Descriptors that run: that copy; two planes of two rows with strides; four FP32 values to BF16 and four BF16 values to FP32 in two rows;
a group of 32 FP32 values to W2T codes with its scale at 0x10000000300 (10 R221 to R223). -/
def rowsD : Desc := { job0.desc with
  shape := 4 + 2 * 2 ^ 24 + 2 * 2 ^ 44, sstr := 8 + 32 * 2 ^ 32, dstr := 16 + 64 * 2 ^ 32 }
def narrowD : Desc := { job0.desc with
  shape := 4 + 2 * 2 ^ 24 + 2 ^ 44, sstr := 16, dstr := 8, conv := 0x3F800000 * 2 ^ 32 + 0x110 }
def widenD : Desc := { narrowD with sstr := 8, dstr := 16, conv := 0x3F800000 * 2 ^ 32 + 0x101 }
def weightD : Desc := { job0.desc with
  shape := 32 + 2 ^ 24 + 2 ^ 44, dst := 0x10000000200, scale := 0x10000000300, conv := 0x3F800000 * 2 ^ 32 + 0x140 }
def copyOf (d : Desc) : State := { copyR with engines := (run0.setEngine 1 { Engine.reset with run := some { job0 with desc := d }, acc := 10 }).engines }

theorem test_copy_kinds : job0.desc.kind = .bytes ∧ rowsD.kind = .bytes ∧ narrowD.kind = .narrow ∧ widenD.kind = .widen ∧ weightD.kind = .weight ∧
    weightD.n0 % weightD.gsz = 0 ∧ rowsD.n2 = 2 := by decide +kernel

/-- What a copy that completes needs, for each of them (Laws: every extent is accepted memory, and no destination meets another). -/
theorem test_copy : ∀ d ∈ [job0.desc, rowsD, narrowD, widenD, weightD],
    ((copyOf d).engine 1).run = some { job0 with desc := d } ∧ d.remote = false ∧ d.kind ≠ .invalid ∧ 0 < d.n0 ∧ 0 < d.n1 ∧ 0 < d.n2 ∧
    d.cv 9 2 < 2 ∧ copyHeld (copyOf d) 1 d = false ∧ extsReady (wakeExts (copyOf d) d) d = true ∧
    (∀ y ∈ d.exts, 0 ≤ y.1 ∧ ∀ m < y.2.1, isMem (y.1.toNat + m) = true ∧ memAccepts (copyOf d) 1 (y.1.toNat + m) 1 = true) ∧
    d.exts.Pairwise (fun y z => y.2.2 = true ∨ z.2.2 = true → y.1 + (y.2.1 : Int) ≤ z.1 ∨ z.1 + (z.2.1 : Int) ≤ y.1) ∧
    (∀ y ∈ d.exts, ∀ m < y.2.1, memBad (copyOf d) (y.1.toNat + m) = none) := by decide +kernel

/-- A frozen bank, and a group without power; an arbiter that the copy owns, bitten before its last beat, and one that another owns. -/
theorem test_copy_waits : copyHeld (copyR.setArb 272 { copyR.arb 272 with freeze := true }) 1 job0.desc = true ∧
    (let s := copyR.setBlock 0 { copyR.block 0 with group := .off }
     copyHeld s 1 job0.desc = false ∧ extsReady (wakeExts s job0.desc) job0.desc = false) ∧
    portOfArb (arbKey (.block 0 1)) = none ∧ causeOf (.copy 0 1) = .copy 0 1 ∧ causeOf (.load 3 0) ≠ .copy 0 1 := by decide +kernel

theorem test_copy_places : (∀ g, placeOf 0x10000000003 = .sram g → (ownerOfBlock copyR g).isSome = true) ∧ l2Of copyR 0x10000000003 = none ∧
    ctlAccepts copyR (placeOf (engineReg 0 1 0x28)) 1 = true ∧ ctlAccepts copyR (placeOf (engineReg 0 1 0x28)) 2 = false := by
  have e : placeOf 0x10000000003 = .sram 0 := by decide +kernel
  have h : (ownerOfBlock copyR 0).isSome = true ∧ l2Of copyR 0x10000000003 = none ∧ ctlAccepts copyR (placeOf (engineReg 0 1 0x28)) 1 = true ∧
      ctlAccepts copyR (placeOf (engineReg 0 1 0x28)) 2 = false := by decide +kernel
  exact ⟨fun g hg => by rw [e] at hg; injection hg with hg; exact hg ▸ h.1, h.2⟩

/-- A source whose first line is poisoned; a copy whose destination another partition's block holds. -/
theorem test_copy_stops : memBad { copyR with poison := [0x10000000000 / 128] } job0.desc.srcA = some (job0.desc.srcA, 1) ∧
    (let d : Desc := { job0.desc with dst := 0x10010000000 }
     let s := (run0.setEngine 1 { Engine.reset with run := some { job0 with desc := d } }).setBlock 4 { Block.reset with group := .on }
     tileGate (extTiles d.exts) (wakeExts s d) = .ready (wakeExts s d) ∧ copyHeld s 1 d = false ∧ d.remote = false ∧
       extsReady (wakeExts s d) d = true ∧
       firstInExts (fun a _ => unitAccepts s (hallOfBlock s 0) a) d.exts = some 0x10010000000) := by
  exact ⟨by decide +kernel, rfl, by decide +kernel⟩

/-- A WRITE data packet to 0x10000000200, its finish packet, and the WACK of a remote copy that engine 1 runs. -/
def wpkt : Packet := ⟨kWrite, 1, mkHdr 0 5 0x10000000200 9 0, [7, 8, 9], 0⟩
def fpkt : Packet := ⟨kWrite, 1, mkHdr 1 5 (3 + 7 * 2 ^ 6 + 2 ^ 15) 9 0, [], 0⟩
def apkt : Packet := ⟨kWack, 0, mkHdr 0 5 (1 * 2 ^ 60) 9 0, [], 0⟩
def inbox0 (p : Packet) : State := { win0 with inbox := [⟨p, 0⟩] }
def wack0 : State := (inbox0 apkt).setEngine 1 { Engine.reset with run := some job2, fin := true }

/-- A copy to module 9 before it sends; a packet whose descriptor has been refused; a WACK that a dropped copy still awaits. -/
theorem test_remote_copy : (let s := copyR.setEngine 1 { Engine.reset with run := some job2 }
      (s.engine 1).run = some job2 ∧ (s.engine 1).fin = false ∧ job2.desc.remote = true ∧ copyHeld s 1 job2.desc = false ∧
      extsReady (wakeExts s job2.desc) job2.desc = true ∧
      (∀ m < job2.desc.n0, isMem (job2.desc.srcA + m) = true ∧ memAccepts s (hallOfBlock s 0) (job2.desc.srcA + m) 1 = true ∧
        memBad s (job2.desc.srcA + m) = none)) ∧
    ({ win0 with wrefused := [remoteKey wpkt] } : State).wrefused.contains (remoteKey wpkt) = true ∧
    ((wack0.setEngine 1 { wack0.engine 1 with stale := [9] }).engine 1).stale.contains apkt.src = true := by decide +kernel

theorem test_remote_write : takePacket (inbox0 wpkt) 0 (fun q => q.kind == kWrite && q.sub == 0) = some (⟨wpkt, 0⟩, win0) ∧
    acceptsWrite win0 wpkt.job.toNat (wpkt.fld 16 48) wpkt.pay.length = some 0 ∧
    (∀ m < wpkt.pay.length, isMem (wpkt.fld 16 48 + m) = true) ∧ acceptsWrite run0 wpkt.job.toNat (wpkt.fld 16 48) 3 = none ∧
    inHeld (inbox0 wpkt) (regionOfPlace (placeOf (wpkt.fld 16 48))) = false ∧ unitsHeld (inbox0 wpkt) (wpkt.fld 16 48) 3 0 = false ∧
    extentReady (wakeExtent (inbox0 wpkt) (wpkt.fld 16 48) 3) (wpkt.fld 16 48) 3 = true := by decide +kernel

/-- The same at a frozen bridge port, at a frozen bank, and where the group has no power. -/
theorem test_remote_write_waits : inHeld ((inbox0 wpkt).setArb 1368 { run0.arb 1368 with freeze := true }) 0 = true ∧
    unitsHeld ((inbox0 wpkt).setArb 276 { run0.arb 276 with freeze := true }) (wpkt.fld 16 48) 3 0 = true ∧
    (let s := (inbox0 wpkt).setBlock 0 { run0.block 0 with group := .off }
     extentReady (wakeExtent s (wpkt.fld 16 48) 3) (wpkt.fld 16 48) 3 = false) := by decide +kernel

theorem test_remote_finish : takePacket (inbox0 fpkt) 0 (fun q => q.kind == kWrite && q.sub == 1) = some (⟨fpkt, 0⟩, win0) ∧
    win0.wrefused.contains (remoteKey fpkt) = false ∧ finishOwner run0 fpkt = none ∧ finishOwner win0 fpkt = some 0 ∧ fpkt.hdr.getLsbD 31 = true ∧
    ({ win0 with wtaken := [(remoteKey fpkt, 1)] } : State).wtaken.find? (fun y => y.1 == remoteKey fpkt) = some (remoteKey fpkt, 1) ∧
    fpkt.fld 16 6 < 48 := by decide +kernel

theorem test_wack : (takePacket wack0 0 (fun q => q.kind == kWack)).isSome ∧ (wack0.engine (apkt.fld 76 7)).run = some job2 ∧
    job2.desc.remote = true ∧ job2.desc.modId = apkt.src ∧ apkt.sub = 0 ∧ (wack0.engine (apkt.fld 76 7)).stale.contains apkt.src = false ∧
    (wack0.engine (apkt.fld 76 7)).fin = true ∧ inHeld wack0 0 = false ∧
    inHeld (wack0.setArb 1368 { wack0.arb 1368 with freeze := true }) (regionOfBlock (blockOfEngine 1)) = true := by decide +kernel

/-- A word of SRAM at the end of region 0's memory, and a line of the last controller. -/
theorem test_scrub : (run0.block (16 * 0 + 0x7FFFFFF / 2 ^ 23)).groupOos = false ∧
    ((run0.setBlock 15 { Block.reset with group := .retention }).block 15).group = .retention ∧
    powered run0 = true ∧ groupReady run0 0x10000000000 = true ∧ unitHeld run0 0x10000000000 3 = false ∧
    (run0.block 0).groupOos = false ∧ unitHeld run0 (ctlRangeBase 23 + 128 * 0xFFFFFFF) 3 = false ∧
    (run0.region (23 / 6)).selfRef.getLsbD (23 % 6) = false ∧
    (0x10000000000 + 8 * 0x7FFFFFF) / 128 ∉ run0.poison ∧ (run0.region (23 / 6)).ctlOos.getLsbD (23 % 6) = false := by decide +kernel

/-- A cell whose pip 3 counts, pip 4 is a member and pip 5 a root home with two participants (11 R245). -/
def pips0 (f : Cell → Cell) : State := withCell fun k =>
  f { k with
    g := ((k.g.set 1 0x5).set 2 0x10003).set 3 100
    pips := [(3, { Pip.reset with count := 0xFFFE }), (4, { Pip.reset with cfg := 1 + 7 * 2 ^ 16 + 2 * 2 ^ 32 }),
      (5, { Pip.reset with cfg := 2 + 2 * 2 ^ 32, bmask := 3 })] }

/-- Signals: PIPSIG's operand, a signal of 5 at a count of 0xFFFE, and one with a foreign hallmark. -/
def sig0 (h : Byte) : State := { pips0 id with sigs := [⟨2, 0, 3, 5, h, none⟩] }

theorem test_pipsig : Ready (pips0 id) 0 ∧ ((((pips0 id).cell 0).rdG 1).truncate 6 : BitVec 6).toNat < 48 ∧
    (((pips0 id).cell 0).rdG 1).getLsbD 15 = false ∧
    (let s := (pips0 fun k => { k with g := k.g.set 1 (0x8005 + 9 * 2 ^ 16) })
     ((s.cell 0).rdG 1).getLsbD 15 = true ∧ fabReachable s 9 = false ∧ fabReachable s 0 = true) ∧ 48 ≤ (((pips0 fun k => { k with g := k.g.set 1 0x30 }).cell 0).rdG 1).toNat % 64 := by
  unfold Ready; decide +kernel

theorem test_signal_arrives : (sig0 1).sigs[0]? = some ⟨2, 0, 3, 5, 1, none⟩ ∧ ((sig0 1).block 0).st ≠ .dormant ∧
    (((sig0 1).cell 0).pip 3).mode = 0 ∧ hallOk (hallOfBlock (sig0 1) 0) 1 = true ∧ ((sig0 1).cell 0).wait = none ∧
    msgHeld (sig0 1) 2 0 = false ∧ (((sig0 1).setBlock 0 { (sig0 1).block 0 with st := .dormant }).block 0).st = .dormant ∧
    hallOk (hallOfBlock (sig0 2) 0) 2 = false := by decide +kernel

/-- Signals with REMOTE = 1 that name this module (14 R336): to pip 6, which accepts job 9, and to pip 3, which accepts none; and a frozen
bridge port on the way of what is remote. -/
theorem test_signal_home : (let s (g : Sig) := { pips0 fun k => { k with pips := k.pips ++ [(6, { Pip.reset with cfg := 8 + 9 * 16 })] } with sigs := [g] }
      let g : Sig := ⟨2, 0, 6, 5, 0, some 9⟩
      sigHeld (s g) g = false ∧ (((s g).cell 0).pip 6).mode = 0 ∧ (((s g).cell 0).pip 6).rsig = true ∧ (((s g).cell 0).pip 6).rjob = 9 ∧
        ((s g).block 0).st ≠ .dormant ∧ (((s g).cell 0).pip 3).rsig = false ∧ sigHeld (s g) ⟨2, 0, 3, 5, 0, some 9⟩ = false) ∧
    (let s := (sig0 1).setArb 1368 { run0.arb 1368 with freeze := true }
     sigHeld s ⟨2, 0, 3, 5, 1, some 9⟩ = true ∧ msgHeld s 8192 0 = true ∧ msgHeld (sig0 1) 8192 0 = false) ∧
    sigHeld (sig0 1) ⟨2, 0, 3, 5, 1, none⟩ = false := by decide +kernel

/-- 11 R247: the count clamps at 65,535 and OVF is set. -/
theorem test_signal_clamps : (((after (.pipSignalArrive 0) (sig0 1)).cell 0).pip 3).count = 65535 ∧
    (((after (.pipSignalArrive 0) (sig0 1)).cell 0).pip 3).ovf = true := by decide +kernel

/-- The same signal while PIPWAIT waits for pip 3, and while PIPWATCH waits for 65,535. -/
def sigW (kd : WaitKind) : State := { pips0 fun k => { k with wait := some ⟨3, kd, none, .none⟩ } with sigs := [⟨2, 0, 3, 5, 1, none⟩] }

theorem test_signal_completes : ((sigW .wait).cell 0).wait = some ⟨3, .wait, none, .none⟩ ∧
    ((sigW (.watch 65535)).cell 0).wait = some ⟨3, .watch 65535, none, .none⟩ ∧ (sigW .wait).sigs[0]? = some ⟨2, 0, 3, 5, 1, none⟩ ∧
    1 ≤ (((sigW .wait).cell 0).pip 3).count.toNat + 5 ∧
    (65535 : W16).toNat ≤ min 65535 ((((sigW .wait).cell 0).pip 3).count.toNat + 5) := by decide +kernel

/-- A SIGNAL packet to pip 6 of cell 0, which accepts job 9, and one to a pip that does not. -/
def spkt (pip : Nat) : Packet := ⟨kSignal, 0, mkHdr 0 9 (pip + 0 * 2 ^ 6 + 4 * 2 ^ 15) 5 0, [], 0⟩
def rsig0 (pip : Nat) : State :=
  { pips0 fun k => { k with pips := k.pips ++ [(6, { Pip.reset with cfg := 8 + 9 * 16 })] } with inbox := [⟨spkt pip, 1⟩] }

theorem test_remote_signal : (takePacket (rsig0 6) 0 fun p => p.kind == kSignal).isSome ∧ ((rsig0 6).block 0).st ≠ .dormant ∧
    (spkt 6).fld 22 9 = 0 ∧ (spkt 6).fld 16 6 = 6 ∧ (((rsig0 6).cell 0).pip 6).mode = 0 ∧ (((rsig0 6).cell 0).pip 6).rsig = true ∧
    (((rsig0 6).cell 0).pip 6).rjob = (spkt 6).job ∧ ((rsig0 6).cell 0).wait = none ∧ (((rsig0 3).cell 0).pip 3).rsig = false := by
  decide +kernel

/-- PIPWAIT and PIPWATCH that pass and that wait, PIPBAR that arrives, and PIPBAR whose generation is complete. -/
theorem test_pip_waits : Ready (pips0 id) 0 ∧ (((pips0 id).cell 0).pip 3).mode = 0 ∧ 1 ≤ (((pips0 id).cell 0).pip 3).count.toNat ∧
    (((pips0 id).cell 0).pip 47).count = 0 ∧ fieldN (((pips0 id).cell 0).rdG 3).toNat 0 32 ≠ 0 ∧
    (((pips0 id).cell 0).rdG 2).truncate 16 = (3 : W16) ∧ (((pips0 id).cell 0).pip 4).mode ≠ 0 ∧ (((pips0 id).cell 0).pip 4).barDone = false := by
  unfold Ready; decide +kernel

/-- A member whose generation 0 has been released. -/
def bar0 : State := pips0 fun k => { k with pips := [(4, { Pip.reset with cfg := 1, cmpl := 1, arr := true })] }
theorem test_pipbar_done : Ready bar0 0 ∧ ((bar0.cell 0).pip 4).mode ≠ 0 ∧ ((bar0.cell 0).pip 4).barDone = true := by
  unfold Ready; decide +kernel

/-- A wait that can expire. -/
def tmo0 : State := pips0 fun k => { k with wait := some ⟨3, .wait, some 500, .none⟩ }
theorem test_pip_timeout : (tmo0.cell 0).wait = some ⟨3, .wait, some 500, .none⟩ ∧ (tmo0.cell 0).held = false ∧
    (tmo0.cell 0).faulted = false ∧ (tmo0.cell 0).kstate.getLsbD 0 = false ∧ WaitKind.wait ≠ .bar ∧
    hallOk (hallOfBlock tmo0 0) 1 = true ∧ hallOk (hallOfBlock tmo0 0) 2 = false := by decide +kernel

/-- A PIPBAR that waits after its arrival. -/
theorem test_pipbar_timeout : (let s := pips0 fun k => { k with
        wait := some ⟨4, .bar, some 500, .none⟩, pips := [(4, { Pip.reset with cfg := 1, arr := true })] }
      (s.cell 0).wait = some ⟨4, .bar, some 500, .none⟩ ∧ ((s.cell 0).pip 4).arr = true) := by decide +kernel

/-- Barrier messages: an arrival at the home, and at a pip in count mode; a release, a withdrawal and its acceptance. -/
def bmsg0 (m : BMsg) (f : Cell → Cell) : State := { pips0 f with bmsgs := [m] }
def waitBar (wd : WdSt) (k : Cell) : Cell := { k with wait := some ⟨4, .bar, some 9, wd⟩ }
def homeAt (a : BitVec 10) (k : Cell) : Cell := { k with pips := [(5, { Pip.reset with cfg := 2 + 2 * 2 ^ 32, a0 := a })] }

theorem test_barrier_messages : barHeld (pips0 id) ⟨.arrival, 8, 0, 5, 0, 1, 0⟩ = false ∧ hallOk (hallOfBlock (pips0 id) 0) 1 = true ∧ ((pips0 id).block 0).st ≠ .dormant ∧
    (((pips0 id).cell 0).pip 5).mode = 2 ∧ (((pips0 id).cell 0).pip 5).a0.toNat + 1 < (((pips0 id).cell 0).pip 5).npart ∧
    (((pips0 (homeAt 1)).cell 0).pip 5).a0.toNat + 1 = (((pips0 (homeAt 1)).cell 0).pip 5).npart ∧
    (((pips0 (homeAt 1)).cell 0).pip 5).parent = none ∧ (((pips0 (homeAt 1)).cell 0).pip 5).a1.toNat ≠ (((pips0 (homeAt 1)).cell 0).pip 5).npart ∧
    (((pips0 id).cell 0).pip 3).mode ≠ 2 ∧ (((pips0 id).cell 0).pip 4).mode = 1 ∧
    ((pips0 (waitBar .none)).cell 0).wait = some ⟨4, .bar, some 9, .none⟩ ∧ (((pips0 id).cell 0).pip 4).split = false ∧
    ((pips0 (waitBar .sent)).cell 0).wait = some ⟨4, .bar, some 9, .sent⟩ ∧ dueInterrupt (pips0 (waitBar .sent)) 0 = none ∧
    ((pips0 (waitBar .sent)).cell 0).kstate.getLsbD 0 = false := by decide +kernel

/-- A TREE arrival through port 1 for pip 5, whose tree holds that port, and whose RJOB is the packet's or another. -/
def tpkt (kd : Nat) : Packet := ⟨kTree, 0, mkHdr kd 9 5 1 0, [], 0⟩
def tree0 (kd job : Nat) : State :=
  { pips0 fun k => { k with pips := [(5, { Pip.reset with cfg := BitVec.ofNat 64 (2 + 8 + 16 * job + 2 * 2 ^ 32 + 2 ^ 46) })] } with
    inbox := [⟨tpkt kd, 1⟩] }

theorem test_tree : (takePacket (tree0 0 9) 0 fun q => q.kind == kTree && (treeKind q.sub == .arrival)).isSome ∧
    ((tree0 0 9).block (blockOfCell (treeMsg (tpkt 0) 1).cell.val)).st ≠ .dormant ∧
    treeOk (((tree0 0 9).cell 0).pip 5) (treeMsg (tpkt 0) 1) = true ∧ treeOk (((tree0 0 8).cell 0).pip 5) (treeMsg (tpkt 0) 1) = false ∧
    (treeMsg (tpkt 0) 1).gen = (((tree0 0 9).cell 0).pip 5).cmpl ∧
    (((tree0 0 9).cell 0).pip 5).a0.toNat + 1 < (((tree0 0 9).cell 0).pip 5).npart ∧ (treeMsg (tpkt 3) 1).kind = .accepted := by
  decide +kernel

/-- A release of the parent at a home where a withdrawal waits. -/
theorem test_tree_release : (let s := { pips0 fun k => { k with pips := [(5, { Pip.reset with
        cfg := BitVec.ofNat 64 (2 + 8 + 16 * 9 + 2 * 2 ^ 32 + 2 * 2 ^ 42), a0 := 2, wd := [(0, 7)] })] } with inbox := [⟨tpkt 1, 1⟩] }
      let m := treeMsg (tpkt 1) 1
      treeOk ((s.cell 0).pip 5) m = true ∧ m.kind = .release ∧ m.gen = ((s.cell 0).pip 5).cmpl ∧
        ((s.cell 0).pip 5).a1.toNat ≠ ((s.cell 0).pip 5).npart ∧ (∀ e ∈ ((s.cell 0).pip 5).wd, e.2 < 512)) := by decide +kernel

/-- A home of port 2's tree whose withdrawal has gone up the link. -/
def ride0 : State := pips0 fun k => { k with pips := [(5, { Pip.reset with cfg := 2 + 2 * 2 ^ 32 + 3 * 2 ^ 42, a0 := 2, wd := [(0, 7)] })] }

theorem test_withdrawal_ride : ((ride0.cell 0).pip 5).wd ≠ [] ∧ ((ride0.cell 0).pip 5).parent = some 2 ∧
    (∀ e ∈ ((ride0.cell 0).pip 5).wd, e.2 < 512) ∧ ((ride0.cell 0).pip 5).wd.length ≤ ((ride0.cell 0).pip 5).a0.toNat := by
  decide +kernel

/-- A signal to a pip in member mode. -/
def sigM : State := { pips0 id with sigs := [⟨2, 0, 4, 5, 1, none⟩] }

theorem test_pip_misuse : sigHeld sigM ⟨2, 0, 4, 5, 1, none⟩ = false ∧ sigM.sigs[0]? = some ⟨2, 0, 4, 5, 1, none⟩ ∧ hallOk (hallOfBlock sigM 0) 1 = true ∧ (sigM.block 0).st ≠ .dormant ∧
    ((sigM.cell 0).pip 4).mode ≠ 0 := by decide +kernel

/-- A disabled context whose enable passes, a waiting one, and local verdicts. -/
theorem test_setter_enable : hallOk (((setCtx id).setter 0).own.truncate 8) 1 = true ∧ ((setCtx id).setter 0).enable = false ∧
    ctlRetired (setCtx id) 0 = false ∧ setterCheck1 (setCtx id) 0 ((setCtx id).setter 0) = none ∧
    setterCheck1 (setCtx fun x => { x with tmo := 9 }) 0 ((setCtx fun x => { x with tmo := 9 }).setter 0) = some (1, 1) ∧
    hallOk (((setCtx id).setter 0).own.truncate 8) 2 = false ∧
    setterStrand (wakeExtent (setCtx id) (((setCtx id).setter 0).strandA.toNat % 2 ^ 48) 8) 0 ((setCtx id).setter 0) = .ok strandA ∧
    1 ≤ ((setCtx id).setter 0).ngrp ∧ ((setCtx id).setter 0).ngrp ≤ 4096 := by decide +kernel

/-- A waiting context with VSRC, armed, and a verdict. -/
def setW (w : W16) (sk : Bool) : State := setCtx fun x => { x with
  enable := true, st := .wait, armed := true, strand := some strandA, verdicts := [w], cfg := if sk then 0x3000 else 0x1000 }

theorem test_setter_wait : ((setW 0 false).setter 0).enable = true ∧ ((setW 0 false).setter 0).st = .wait ∧
    ((setW 0 false).setter 0).vsrc = true ∧ ((setW 0 false).setter 0).verdicts.length < 2 ∧ ((setW 0 false).setter 0).armed = true ∧
    2 ≤ ((setCtx fun x => { x with enable := true, st := .wait, cfg := 0x1000, verdicts := [0, 1] }).setter 0).verdicts.length ∧
    ((setW 0 false).setter 0).due = true ∧ passOf (setW 0 false) 0 = none ∧
    (∀ k < 8, ((setW 0 false).setter (8 * 0 + k)).st ≠ .check ∧ ((setW 0 false).setter (8 * 0 + k)).st ≠ .run) ∧
    ((setCtx id).setter 0).vsrc = false := by decide +kernel

/-- TAINT; SAT with SATSKIP; neither (12 R281). -/
theorem test_setter_verdicts : ((setW 1 false).setter 0).verdicts = [1] ∧ (1 : W16).getLsbD 0 = true ∧ (2 : W16).getLsbD 0 = false ∧
    (2 : W16).getLsbD 1 = true ∧ ((setW 2 true).setter 0).cfg.getLsbD 13 = true ∧ ((setW 2 false).setter 0).cfg.getLsbD 13 = false := by
  decide +kernel

/-- The same context in CHECK and in RUN. -/
def setR (st : SetSt) (gs : List PGroup) : State := setCtx fun x => { x with
  enable := true, st := st, strand := some strandA, groups := gs, deadline := some 100 }

/-- The group that CHECK reads. -/
def pg0 : PGroup := ⟨[0, 0x10000001000, 0, 0, 0, 0, 0, 32], List.replicate 6 0, 0⟩

/-- What CHECK has read before it tests the groups. -/
def setU : State :=
  let es := checkExtents (setR .check []) ((setR .check []).setter 0)
  countBulk (wakeExtents (setR .check []) es) (partOfHall (setR .check []) ((setR .check []).setter 0).hall) ((es.map (·.2)).sum)

theorem test_setter_check : passOf (setR .check []) 0 = some 0 ∧ ((setR .check []).setter 0).st = .check ∧
    ((setR .check []).setter 0).strand = some strandA ∧
    setterHeld (setR .check []) (checkExtents (setR .check []) ((setR .check []).setter 0)) = false ∧
    allReady setU (checkExtents (setR .check []) ((setR .check []).setter 0)) = true ∧
    setterGroups setU 0 ((setR .check []).setter 0) strandA 0 1 = .ok [pg0] ∧
    (setterGroups { setU with sram := [] } 0 ((setR .check []).setter 0) strandA 0 1).toOption = none := by decide +kernel

theorem test_setter_pass : passOf (setR .run [pg0]) 0 = some 0 ∧ ((setR .run [pg0]).setter 0).st = .run ∧
    ((setR .run [pg0]).setter 0).cnt = false ∧ ((setR .run [pg0]).setter 0).groups = [pg0] ∧ pg0.cfmt = 0 ∧ pg0.gbf16 = false ∧
    pg0.frz = false ∧ (strandA.writer 12).isSome = true ∧ strandA.writer 13 = none ∧ strandA.writer 14 = none ∧
    (setR .run [pg0]).poison = [] ∧ (∀ n < 4 * pg0.count, isMem (pg0.wd 0 % 2 ^ 48 + n) = true) ∧
    setterHeld (setR .run [pg0]) (runExtents ((setR .run [pg0]).setter 0)) = false ∧
    allReady (wakePass (setR .run [pg0]) ((setR .run [pg0]).setter 0)) (runExtents ((setR .run [pg0]).setter 0)) = true ∧
    (runExtents ((setR .run [pg0]).setter 0)).any (fun e => insideRange 127 1 e.1 e.2) = true ∧
    ((setR .run [pg0]).setter 0).deadline = some 100 := by decide +kernel

/-- What a pass of one group answers, in the group's elements: whether one traps, and whether one met an uncorrectable input. -/
theorem run_one (x : SetCtx) (st : Strand) (p : PGroup) (s : State) :
    let g := groupPass s x st p none
    (runGroups x st none 0 [p] s).2.2.isSome = g.trap.isSome ∧ (g.trap = none → (runGroups x st none 0 [p] s).2.1 = [(p, g)]) := by
  simp only [runGroups]
  split <;> simp_all

/-- A group of one element. -/
def pg1 : PGroup := ⟨[0, 0x10000001000, 0, 0, 0, 0, 0, 1], List.replicate 6 0, 0⟩

/-- The elements of the one group of the running pass. -/
def elemsOf (s : State) (st : Strand) : List ElemOut := (groupPass (wakePass s (s.setter 0)) (s.setter 0) st pg1 none).elems

/-- None stops; a poisoned parameter; a strand that traps (05 R125: +∞ − ∞ is invalid). -/
theorem test_setter_runs : ((elemsOf (setR .run [pg1]) strandA).findIdx? fun e => e.trap.isSome) = none ∧
    ((elemsOf (setR .run [pg1]) strandA).findSome? (·.bad)) = none ∧
    ((elemsOf { setR .run [pg1] with poison := [0] } strandA).findSome? (·.bad)).isSome = true ∧
    ((elemsOf { setR .run [pg1] with
      lpddr := (List.range 4).map fun a => (a, if a = 2 then 0x80 else if a = 3 then 0x7F else 0)
      sram := [(0x10000001002, 0x80), (0x10000001003, 0xFF)] } { strandA with trapnv := true }).findIdx? fun e => e.trap.isSome).isSome =
        true := by decide +kernel

/-- A group of 32 elements with a freeze bitmap that freezes element 1, W2T codes and their scale; and two groups. -/
def pgC : PGroup :=
  ⟨[0, 0x10000001000, 0, 0, 0x10000002000 + 2 ^ 48, 0x10000003000, 0x10000003100, BitVec.ofNat 64 (32 + 4 * 2 ^ 44)], List.replicate 6 0, 0⟩
def setC : State := { setR .run [pgC] with sram := [(0x10000001002, 0x40), (0x10000001003, 0x40), (0x10000002000, 2)] }

theorem test_setter_codes : passOf setC 0 = some 0 ∧ (setC.setter 0).st = .run ∧ (setC.setter 0).strand = some strandA ∧ Coherent setC ∧
    Unpoisoned setC ∧ setterHeld setC (runExtents (setC.setter 0)) = false ∧
    allReady (wakePass setC (setC.setter 0)) (runExtents (setC.setter 0)) = true ∧
    (runExtents (setC.setter 0)).Pairwise (fun a b => rangesMeet a.1 a.2 b.1 b.2 = false) ∧
    (∀ a ∈ runExtents (setC.setter 0), ∀ n < a.2, isMem (a.1 + n) = true) ∧ pgC.count % pgC.g = 0 ∧
    (pgC.frz && (memByte setC (pgC.addr 4)).getLsbD 1) = true ∧
    (∀ e < pgC.count, (strandA.run .rne [BitVec.ofNat 32 (leNat (memBytes setC (4 * e) 4)),
      BitVec.ofNat 32 (leNat (memBytes setC (0x10000001000 + 4 * e) 4)), BitVec.ofNat 32 (leNat (memBytes setC (4 * e) 4)),
      BitVec.ofNat 32 (leNat (memBytes setC (4 * e) 4))] (passScalars (setC.setter 0) pgC)).trap = none) := by
  refine ⟨by decide +kernel, by decide +kernel, by decide +kernel, coherent_of _ (by decide +kernel) (by decide +kernel),
    unpoisoned_of _ rfl (by decide +kernel) (by decide +kernel), ?_⟩
  decide +kernel

theorem test_setter_stops : (let s := setR .run [pg0, pgC]
    passOf s 0 = some 0 ∧ (s.setter 0).st = .run ∧ (s.setter 0).enable = true ∧ (s.setter 0).deadline.isSome = true ∧
      (s.setter 0).err = false ∧ (s.setter 0).groups.length = 2 ∧ (s.setter 0).strand = some strandA) := by decide +kernel

/-- Eight contexts of a unit with nothing waiting (premise of the adder statements). -/
theorem test_adder_quiet : ∀ k < 8, ((addOn id).adder (8 * 0 + k)).inq = [] ∧ ((addOn id).adder (8 * 0 + k)).localQ = [] := by
  decide +kernel

theorem test_adder_enable : hallOk (((addCtx true id).adder 0).own.truncate 8) 1 = true ∧ ((addCtx true id).adder 0).enable = false ∧
    adderCheck (addCtx true id) 0 ((addCtx true id).adder 0) = none ∧ fieldN ((addCtx true id).adder 0).rnd.toNat 0 12 = 0 ∧
    ctlRetired (addCtx true id) 0 = false ∧ hallOk (((addCtx true id).adder 0).own.truncate 8) 2 = false ∧
    adderCheck (addCtx true fun x => { x with own := 1 }) 0 ((addCtx true fun x => { x with own := 1 }).adder 0) = some 0 ∧
    slotsHeld (openSlot (addOn id) id) 0 ≠ [] ∧ (24 : W16).toNat % 24 = (0 : CtlId).val := by
  decide +kernel

theorem test_adder_disable : hallOk (((addOn id).adder 0).own.truncate 8) 1 = true ∧ ((addOn id).adder 0).enable = true ∧
    slotsHeld (addOn id) 0 = [] ∧ ((addOn id).adder 0).await = [] := by decide +kernel

/-- AJPUB of a layer bucket, with room and with a full queue. -/
def pub0 (q : List W16) : State := addCtx false fun x => { x with enable := true, st := .active, pubq := q, rnd := 1 }

theorem test_ajpub : hallOk (((pub0 []).adder 0).own.truncate 8) 1 = true ∧ ((pub0 []).adder 0).enable = true ∧
    ((pub0 []).adder 0).pubq.length < 32 ∧ bucketDesc (pub0 []) 0 0 = .ok (bdesc false) ∧ (bdesc false).tileMode = false ∧
    32 ≤ ((pub0 (List.replicate 32 0)).adder 0).pubq.length ∧ ((pub0 (List.replicate 32 0)).adder 0).err = false := by decide +kernel

theorem test_layer_tile : ((pub0 [0]).adder 0).pubq = [0] ∧ (∀ n ∈ slotsHeld (pub0 [0]) 0, ((pub0 [0]).aslot n).pubNext = none) ∧
    adderHeld (pub0 [0]) 0 0 = false ∧ localUsed (pub0 [0]) 0 < localCap (pub0 [0]) 0 ∧
    slotOf (pub0 [0]) 0 0 = none ∧ awaitOf ((pub0 [0]).adder 0) 0 = none ∧ (freeSlot (pub0 [0]) 0).isSome = true ∧
    bucketCheck (pub0 [0]) 0 ((pub0 [0]).adder 0) (bdesc false) = none ∧
    (bdesc false).nrnd % 256 ≠ (((pub0 [0]).adder 0).seq.toNat + 2) % 256 ∧ (bdesc false).wire = 0 ∧ (bdesc false).rbf16 = false ∧
    ((pub0 [0]).adder 0).rlast = 0 ∧ ((pub0 [0]).adder 0).rpos = 0 ∧ (bdesc false).owner = 0 ∧ (pub0 [0]).poison = [] ∧
    firstBadPage (fun y => memAccepts (pub0 [0]) ((pub0 [0]).adder 0).hall y 1) (bdesc false).src 4096 = none ∧
    firstBadPage (fun y => memAccepts (pub0 [0]) ((pub0 [0]).adder 0).hall y 1) (bdesc false).dst 4096 = none := by decide +kernel

/-- A local tile for the open slot, and one of a foreign hallmark. -/
def local0 (h : Byte) : State := { openSlot (addOn id) id with tiles := [⟨3, h, tileZ 0⟩] }

theorem test_local_tile : takeMsg (fun x y => x.cell == y.cell) 0 (local0 1).tiles = some (⟨3, 1, tileZ 0⟩, []) ∧
    adderOf (local0 1) (0 % 24) 5 = some 0 ∧ ((local0 1).adder 0).hall = 1 ∧ bucketDesc (local0 1) 0 0 = .ok (bdesc true) ∧
    (bdesc true).tileMode = true ∧ slotOf (local0 1) 0 0 = some 0 ∧ 0 ∉ ((local0 1).aslot 0).got ∧
    ((local0 1).adder 0).rpos ≠ ((bdesc true).owner + 1) % (((local0 1).adder 0).rlast + 1) ∧ ((local0 2).adder 0).hall ≠ 2 := by
  decide +kernel

/-- A local tile at START, at a frozen arbiter of its cell's block, where the bucket's descriptor lies in a frozen bank, two rounds early, and
with no context to take it. -/
theorem test_local_forms :
    (let s := { openSlot (addOn fun x => { x with ring := 1 + 1 * 2 ^ 14 + 1 * 2 ^ 28 + 1 * 2 ^ 46 }) id with tiles := [⟨3, 1, tileZ 0⟩] }
     (s.adder 0).rpos = ((bdesc true).owner + 1) % ((s.adder 0).rlast + 1) ∧ (s.adder 0).rpos ≠ (bdesc true).owner ∧ (s.adder 0).outq = [] ∧
       (s.aslot 0).locals = [] ∧ (tileZ 0).taint = false ∧ (tileZ 0).wire.toNat = (bdesc true).wire ∧ slotOf s 0 0 = some 0 ∧
       awaitOf (s.adder 0) 0 = none) ∧
    pathHeld (local0 1) 0 3 0 = false ∧ pathHeld ((local0 1).setArb 1 { run0.arb 1 with freeze := true }) 0 3 0 = true ∧
    adderHeld (local0 1) 0 0 = false ∧ adderHeld ((local0 1).setArb 272 { run0.arb 272 with freeze := true }) 0 0 = true ∧
    (bdesc true).nrnd % 256 = (((local0 1).setAdder 0 { (local0 1).adder 0 with seq := 254 }).adder 0).seq.toNat + 2 - 256 ∧
    adderOf run0 (0 % 24) 5 = none := by decide +kernel

/-- DATA, CREDIT and REFUSE for bucket 0 from module 1. -/
def rpkt (t fields : Nat) (pay : List Byte) : Packet := ⟨kReduce, reduceCls t, mkHdr t 5 fields 1 0, pay, 0⟩
def redIn (p : Packet) : State := { openSlot (addOn id) id with inbox := [⟨p, 0⟩] }
def dataP : Packet := rpkt 1 (1 * 2 ^ 16) [0]

theorem test_data : takePacket (redIn dataP) 0 (isReduce 1) = some (⟨dataP, 0⟩, openSlot (addOn id) id) ∧
    adderOf (redIn dataP) (dataP.fld 16 16 % 24) dataP.job.toNat = some 0 ∧ ((redIn dataP).adder 0).inbuf < ((redIn dataP).adder 0).cred ∧
    dataP.fld 57 8 = (bdesc true).nrnd ∧ pktVet (openSlot (addOn id) id) 0 (bdesc true) dataP true = none ∧ dataP.fld 32 16 = 1 := by
  decide +kernel

/-- The DATA packet's tile with its local tile at OWNER, and, on a ring of three modules, between START and OWNER. -/
def sum0 (f : AddCtx → AddCtx) : State :=
  let l : Tile := { tileZ 1 with payload := List.replicate 4096 0 }
  let s := addOn f
  { openSlot { s with fab := { s.fab with dx := 3 } } fun y => { y with locals := [l] } with
    inbox := [⟨rpkt 1 (1 * 2 ^ 16) (List.replicate 4096 0), 0⟩] }

theorem test_data_sums : (((sum0 id).aslot 0).locals.map (·.tile) = [1] ∧
      (((sum0 id).aslot 0).locals.find? (fun l => l.tile.toNat == 1)).isSome = true) ∧
    fabReachable (sum0 id) ((sum0 id).adder 0).prevMod = true ∧ ((sum0 id).adder 0).rpos = (bdesc true).owner ∧
    (let a := (sum0 fun x => { x with ring := 2 + 2 * 2 ^ 14 + 1 * 2 ^ 28 + 1 * 2 ^ 46 }).adder 0
     a.rpos ≠ (bdesc true).owner ∧ a.rpos ≠ ((bdesc true).owner + 1) % (a.rlast + 1) ∧ a.outq = []) ∧
    firstBadPage (fun y => memAccepts (sum0 id) 1 y 1) ((bdesc true).dst + (bdesc true).rsize * 1) 4096 = none ∧
    inHeld (sum0 id) 0 = false ∧ inHeld ((sum0 id).setArb 1368 { run0.arb 1368 with freeze := true }) (regionOfCtx 0) = true := by
  decide +kernel

/-- 13 R312, R313: 1.5 + 0.25 in F32, infinities of both signs, and a block of 100 + 100 at bump 0, which takes bump 1. -/
theorem test_tile_sums : (wireSum fp32 .rne 0x3FC00000 0x3E800000).bits = 0x3FE00000 ∧
    (wireSum fp32 .rne 0x7F800000 0xFF800000).bits = fp32.nan ∧
    bs8SumBlock .rne (List.replicate 32 100) 0 (List.replicate 32 100) 0 = (List.replicate 32 100, 1, false) := by decide +kernel

theorem test_credit_refuse : takePacket (redIn (rpkt 4 (2 * 2 ^ 16) [])) 0 (isReduce 4) =
      some (⟨rpkt 4 (2 * 2 ^ 16) [], 0⟩, openSlot (addOn id) id) ∧
    takePacket (redIn (rpkt 5 (2 * 2 ^ 16) [])) 0 (isReduce 5) = some (⟨rpkt 5 (2 * 2 ^ 16) [], 0⟩, openSlot (addOn id) id) ∧
    openIn (redIn (rpkt 5 (2 * 2 ^ 16) [])) 0 0 ((rpkt 5 (2 * 2 ^ 16) []).fld 57 8) = true ∧
    openIn (redIn (rpkt 5 (2 * 2 ^ 16 + 9 * 2 ^ 41) [])) 0 0 ((rpkt 5 (2 * 2 ^ 16 + 9 * 2 ^ 41) []).fld 57 8) = false := by decide +kernel

/-- A context with one DATA packet to send, with and without a credit. -/
def send0 (n : Nat) : State :=
  openSlot (addOn fun x => { x with credits := n, outq := [⟨kReduce, 1, mkHdr 1 5 0 0 1, [1], 0⟩] }) id

theorem test_data_send : ((send0 1).adder (ctxIx 0 0)).outq = [⟨kReduce, 1, mkHdr 1 5 0 0 1, [1], 0⟩] ∧ fabReachable (send0 1) 1 = true ∧
    0 < ((send0 1).adder 0).credits ∧ slotOf (send0 1) 0 0 = some 0 ∧ ((send0 1).aslot 0).tiles.length + 1 < (bdesc true).ntile ∧
    ((send0 0).adder 0).credits = 0 := by decide +kernel

/-- RESULT packets: of a DONE slot, of a slot's own results, one passed on with no slot, and one to a module that cannot be reached. -/
def res0 (f : AddCtx → AddCtx) (g : ASlot → ASlot) : State := openSlot (addOn fun x => f { x with credits := 1 }) g
def rp (d : Nat) : Packet := ⟨kReduce, 1, mkHdr 2 5 0 0 d, [1], 0⟩
theorem test_result_send : (let s := res0 id fun y => { y with results := [rp 1] }
      (s.adder 0).outq = [] ∧ (slotsHeld s 0).find? (fun q => !(s.aslot q).results.isEmpty) = some 0 ∧ (s.aslot 0).results = [rp 1] ∧
        fabReachable s (rp 1).dst = true ∧ 0 < (s.adder 0).credits) ∧
    (let s := res0 (fun x => { x with outq := [rp 1, rp 1] }) fun y => { y with st := 2 }
     slotOf s 0 0 = some 0 ∧ (s.aslot 0).st = 2 ∧ resultsLeft { s.adder 0 with outq := [rp 1] } 0 = true ∧
       resultsLeft { s.adder 0 with outq := [] } 0 = false ∧ fabReachable s (s.adder 0).nextMod = true) ∧
    (let s := res0 (fun x => { x with outq := [rp 1] }) fun y => { y with st := 0 }
     passedOn s 0 0 = true ∧ fabReachable s (s.adder 0).prevMod = true ∧ (rp 1).sub = 2) ∧
    fabReachable (res0 id id) (rp 9).dst = false ∧ (∀ n ∈ slotsHeld (res0 id id) 0, ((res0 id id).aslot n).results = []) := by decide +kernel

/-- The tiles that a layer bucket reads and writes are memory. -/
theorem test_layer_tile_memory : ∀ n < 4096, isMem ((bdesc false).dst + n) = true := by
  intro n h
  have : (bdesc false).dst = 0x10000004000 := by decide +kernel
  rw [this]; exact isMem_sram (by omega) (by omega)

/-- A bucket of one module's ring whose tiles are written, and one with a RESULT still to be sent. -/
def done0 (q : List Packet) : State :=
  openSlot (addCtx true fun x => { x with enable := true, st := .active, rnd := 1, outq := q }) fun y => { y with tiles := [1, 0] }

theorem test_bucket_done : (∀ q < 8, ((done0 []).adder (8 * 0 + q)).inq = [] ∧ ((done0 []).adder (8 * 0 + q)).localQ = []) ∧
    ((done0 []).aslot 0).st = 1 ∧ ((done0 []).aslot 0).ctx = 0 ∧ bucketDesc (done0 []) 0 0 = .ok (bdesc true) ∧
    ((done0 []).adder 0).rpos = (bdesc true).owner ∧ (bdesc true).ntile ≤ ((done0 []).aslot 0).tiles.length ∧
    resultsLeft ((done0 []).adder 0) 0 = false ∧ resultsLeft ((done0 [⟨kReduce, 1, mkHdr 2 5 0 0 1, [], 0⟩]).adder 0) 0 = true ∧
    adderHeld (done0 []) 0 0 = false ∧ adderHeld ((done0 []).setArb 272 { run0.arb 272 with freeze := true }) 0 0 = true ∧
    (∃ r ∈ [rp 1], r.sub = 2 ∧ r.fld 16 16 = 0) ∧ ((addOn id).adder 0).succPos ≠ (bdesc true).owner ∧
    (bdesc true).nrnd % 256 ≠ (((done0 []).adder 0).seq.toNat + 1) % 256 ∧ (∀ o < 8, isMem ((bdesc true).addr + 0x20 + o) = true) := by
  decide +kernel

/-- A RESULT and a SUMMARY of the open round. -/
def resP : Packet := rpkt 2 (1 * 2 ^ 16) (List.replicate 4096 0)
def sumP : Packet := rpkt 3 (1 * 2 ^ 35 + 3 * 2 ^ 37) []

theorem test_result : adderOf (redIn resP) (resP.fld 16 16 % 24) resP.job.toNat = some 0 ∧ resP.fld 57 8 = (bdesc true).nrnd ∧
    bucketDesc (redIn resP) 0 0 = .ok (bdesc true) ∧ (isReduce 2 resP = true) ∧ ((redIn resP).adder 0).inbuf < ((redIn resP).adder 0).cred ∧
    pktVet (openSlot (addOn id) id) 0 (bdesc true) resP false = none ∧ (bdesc true).wire = 0 ∧ (bdesc true).rbf16 = false ∧
    firstBadPage (fun y => memAccepts (redIn resP) ((redIn resP).adder 0).hall y 1)
      ((bdesc true).dst + (bdesc true).rsize * resP.fld 32 16) 4096 = none := by decide +kernel

theorem test_result_length : resP.pay.length = 4096 := List.length_replicate

theorem test_result_memory : ∀ o < 4096, isMem ((bdesc true).dst + (bdesc true).rsize * resP.fld 32 16 + o) = true := by
  intro o h
  have : (bdesc true).dst + (bdesc true).rsize * resP.fld 32 16 = 0x10000005000 := by decide +kernel
  rw [this]; exact isMem_sram (by omega) (by omega)

theorem test_summary : takePacket (redIn sumP) 0 (isReduce 3) = some (⟨sumP, 0⟩, openSlot (addOn id) id) ∧ sumP.hdr.getLsbD 52 = false ∧
    sumP.fld 57 8 = (bdesc true).nrnd ∧ (bdesc true).nrnd % 256 ≠ (((redIn sumP).adder 0).seq.toNat + 1) % 256 := by decide +kernel

/-- A bucket with a deadline. -/
theorem test_bucket_deadline : deadlineOf (openSlot (addOn id) fun y => { y with deadline := some 77 }) 0 0 = some 77 ∧
    ((addOn id).adder 0).err = false := by decide +kernel

/-- A verdict home over regions 0 and 1 with one child on port 2 and its parent on port 4. -/
def home0 (h : VHome) : State :=
  (addMem true).setAdder 0 { AddCtx.reset with
    own := 0x101, cfg := 5 + 2 ^ 12, enable := true, st := .active, vcfg := 3 * 2 ^ 26 + 5 * 2 ^ 30 + 4 * 2 ^ 33, vhome := h }

theorem test_ready_word : (let s := { home0 VHome.zero with readies := [⟨0, 0, 5, 0x30⟩] }
    takeMsg (fun x y => x.unit == y.unit && x.ctx == y.ctx) 0 s.readies = some (⟨0, 0, 5, 0x30⟩, []) ∧
    (∀ v ∈ s.gathered, v.unit.val / 6 = 0 → v.job ≠ 5) ∧ ∀ q ∈ regionAdders s 0 5, q = 8 * 0 + 0) := by decide +kernel

/-- No mesh stop or bridge port frozen, and every stop of region 0, wherever a unit stands. -/
def stops0 : State :=
  (List.range 16).foldl (fun s f => s.setArb (256 + f) { run0.arb (256 + f) with freeze := true }) (home0 VHome.zero)

theorem test_verdict_paths : unitPathHeld (home0 VHome.zero) 0 0 0 = false ∧ unitPathHeld (home0 VHome.zero) 25 1 0 = false ∧
    unitPathHeld stops0 0 0 0 = true ∧ unitPathHeld stops0 24 0 0 = true ∧ inHeld (home0 VHome.zero) (regionOfCtx 0) = false ∧
    inHeld ((home0 VHome.zero).setArb 1368 { run0.arb 1368 with freeze := true }) (regionOfCtx 0) = true := by
  have h : ∀ f : Fin 16, arbHolds (home0 VHome.zero) (256 + 278 * 0 + f.val) 4 = false ∧
      arbHolds (home0 VHome.zero) (256 + 278 * 1 + f.val) 4 = false ∧ arbHolds stops0 (256 + 278 * 0 + f.val) 4 = true := by decide +kernel
  have g : arbHolds (home0 VHome.zero) (1368 + 0) 1 = false := by decide +kernel
  simp only [unitPathHeld, (h _).1, (h _).2.1, (h _).2.2, g]
  decide +kernel

theorem test_ready_word_gathers :
    ∃ q ∈ regionAdders ((home0 VHome.zero).setAdder 9 { AddCtx.reset with cfg := 5, enable := true }) 0 5, q ≠ 8 * 0 + 0 := by
  decide +kernel

theorem test_verdict_contribution : verdictHome (home0 VHome.zero) 5 = some 0 ∧ ((home0 VHome.zero).adder 0).rmask 1 = true ∧
    (0x30 : W16) >>> 8 = ((home0 VHome.zero).adder 0).seq.zeroExtend 16 ∧
    (∃ q < 4, ((home0 VHome.zero).adder 0).rmask q = true ∧ q ≠ 1 ∧ q ∉ ((home0 VHome.zero).adder 0).vhome.regions) ∧
    ((home0 VHome.zero).adder 0).child 2 = true ∧ ((home0 VHome.zero).adder 0).parent = some 4 := by decide +kernel

/-- VUP from the child and VDOWN from the parent, for round 0. -/
def vIn (p : Packet) (via : Nat) : State := { home0 VHome.zero with inbox := [⟨p, via⟩] }
theorem test_vup_vdown : takePacket (vIn (rpkt 6 (0x32 * 2 ^ 16) []) 2) 0 (isReduce 6) = some (⟨rpkt 6 (0x32 * 2 ^ 16) [], 2⟩, home0 VHome.zero) ∧
    takePacket (vIn (rpkt 7 (0x32 * 2 ^ 16) []) 4) 0 (isReduce 7) = some (⟨rpkt 7 (0x32 * 2 ^ 16) [], 4⟩, home0 VHome.zero) ∧
    (∀ q < 192, ((home0 VHome.zero).adder q).inq = [] ∧ ((home0 VHome.zero).adder q).localQ = []) := by decide +kernel

theorem test_verdict_deadline : ((home0 ⟨[0], [], some 0x30, false, some 9⟩).adder 0).vhome.deadline = some 9 ∧
    ((home0 ⟨[0], [], some 0x30, false, some 9⟩).adder 0).err = false := by decide +kernel

/-- A module of a 4 × 1 × 1 torus whose X ports are UP with module 1, port 0 with something in its replay buffer. -/
def fab0 (f : Port → Port) : State :=
  let p : Port := { Port.reset with st := .up, partner := 1 }
  { run0 with
    fab := { Fab.reset with dx := 4 }
    ports := (run0.ports.set 0 (f { p with
      txSeq := 2, replay := [⟨0, mkFlit 0 [], ⟨kSignal, 0, 0, [], 0⟩, true⟩, ⟨1, mkFlit 1 [], ⟨kSignal, 0, 0, [], 0⟩, true⟩] })).set 1 p }

/-- A whole packet in one flit with SEQ 0 that acknowledges flit 0, of class 1 and KIND SIGNAL (14 R338, R344). -/
def flit0 : Flit := mkFlit (BitVec.ofNat 32 (2 ^ 12 + 2 ^ 24 + 4 * 2 ^ 26 + 2 ^ 29 + 2 ^ 30)) (List.replicate 248 0)

theorem test_flit : ((fab0 id).port 0).linked = true ∧ ((fab0 id).port 0).discard = false ∧ fieldN flit0.hdr.toNat 24 2 < 3 ∧
    flit0.hdr.getLsbD 31 = false ∧ fieldN flit0.hdr.toNat 0 12 = ((fab0 id).port 0).rxNext.toNat ∧ flit0.fecOk = true ∧
    flit0.hdr.getLsbD 29 = true ∧ flit0.hdr.getLsbD 30 = true ∧ ((fab0 id).port 0).replay ≠ [] ∧
    ((fab0 fun x => { x with rxNext := 1 }).port 0).rxNext.toNat ≠ 0 ∧ ((fab0 fun x => { x with st := .down }).port 0).linked = false ∧
    fieldN (mkFlit (BitVec.ofNat 32 (3 * 2 ^ 24)) []).hdr.toNat 24 2 = 3 ∧ Instr.wf (.flitReceive 0 flit0) = true := by decide +kernel

/-- 14 R338: the CRC-32 of flits this module builds is the one that it wants, and of the ASCII digits 1 to 9 it is 0xCBF43926. -/
theorem test_flit_crc : flitGood flit0 = true ∧ crc32 [0x31, 0x32, 0x33, 0x34, 0x35, 0x36, 0x37, 0x38, 0x39] = 0xCBF43926 :=
  ⟨beq_self_eq_true _, by decide +kernel⟩

/-- A packet for this module, and one for module 2 through port 0 (X +, distance 2 of 4). -/
def pktTo (d : Nat) : Packet := ⟨kSignal, 0, mkHdr 0 9 0 1 d, [], 0⟩
theorem test_packet : ((fab0 fun x => { x with rx := [pktTo 0] }).port 0).rx = [pktTo 0] ∧ (pktTo 0).kind ≠ kLink ∧
    (pktTo 0).dst = (fab0 id).modId ∧ packetReserved (pktTo 0) = false ∧ (pktTo 0).kind ≠ kTree ∧ (pktTo 2).dst ≠ (fab0 id).modId ∧
    routeOf (fab0 id) (pktTo 2).dst = .port 0 ∧ routeOf (fab0 fun x => { x with st := .down }) (pktTo 2).dst = .drop 1 ∧
    packetReserved ⟨kSignal, 0, mkHdr 7 9 0 1 0, [], 0⟩ = true := by decide +kernel

/-- NOTICEs: of a dropped WRITE of engine 1, and of a dropped SIGNAL to pip 3 of cell 7 of module 9 by cell 0. -/
def noteW : Packet := ⟨kNotice, 0, mkHdr 0 5 (2 + 1 * 2 ^ 7 + 9 * 2 ^ 23) 9 0, [], 0⟩
def noteS : Packet := ⟨kNotice, 0, mkHdr 0 5 (4 + (64 * 7 + 3) * 2 ^ 7 + 9 * 2 ^ 23) 9 0, [], 0⟩
def noticeIn (p : Packet) : State :=
  { run0.setEngine 1 { Engine.reset with run := some job2 } with inbox := [⟨p, 0⟩], rsigs := [⟨0, 9, 64 * 7 + 3, 5⟩] }

theorem test_notice : (takePacket (noticeIn noteW) 0 (fun q => q.kind == kNotice)).isSome ∧ noteW.fld 16 3 = 2 ∧
    ((noticeIn noteW).engine (noteW.fld 23 7)).run = some job2 ∧ job2.desc.remote = true ∧ job2.desc.modId = noteW.fld 39 18 ∧
    (run0.engine (noteW.fld 23 7)).run = none ∧ noteS.fld 16 3 = 4 ∧
    (noticeIn noteS).rsigs.filter (fun g => g.dst.toNat == noteS.fld 39 18 && g.ref.toNat == noteS.fld 23 16 && g.job == noteS.job) =
      [⟨0, 9, 64 * 7 + 3, 5⟩] := by decide +kernel

/-- NOTICEs of a dropped DATA packet of bucket 0, and of a dropped WITHDRAW of pip 5 of cell 0. -/
def noteR : Packet := ⟨kNotice, 0, mkHdr 0 5 (1 + 1 * 2 ^ 3 + 9 * 2 ^ 23) 9 0, [], 0⟩
def noteT : Packet := ⟨kNotice, 0, mkHdr 0 5 (5 + 2 * 2 ^ 3 + 5 * 2 ^ 7 + 9 * 2 ^ 23) 9 0, [], 0⟩
theorem test_notice_kinds : noteR.fld 16 3 = 1 ∧ adderOf (redIn noteR) (noteR.fld 23 16 % 24) noteR.job.toNat = some 0 ∧
    bucketOpen (redIn noteR) 0 (noteR.fld 23 16) = true ∧ noteR.fld 19 4 ≤ 5 ∧ ((redIn noteR).adder 0).err = false ∧
    adderOf run0 (noteR.fld 23 16 % 24) noteR.job.toNat = none ∧ noteT.fld 16 3 = 5 ∧ noteT.fld 19 4 = 2 := by decide +kernel

/-- A NOTICE about a copy to module 9 whose WACK is still owed to an older one (log entry 48); one that names its cell; one that is held at
the bridge; one with no copy, and one of a kind that names nothing here. -/
theorem test_notice_forms : (let s := (noticeIn noteW).setEngine 1 { Engine.reset with run := some job2, stale := [9] }
      (s.engine (noteW.fld 23 7)).stale.contains (noteW.fld 39 18) = true ∧ noteW.fld 19 4 = 0) ∧
    inHeld (noticeIn noteW) (noticeRegion noteW) = false ∧
    inHeld ((noticeIn noteW).setArb 1368 { run0.arb 1368 with freeze := true }) (noticeRegion noteW) = true ∧
    (noticeIn noteS).rsigs.filter (fun g => g.dst.toNat == noteS.fld 39 18 && g.ref.toNat == noteS.fld 23 16 && g.job == noteS.job &&
      (noteS.issuer == 0 || noteS.issuer == g.cell.val + 1)) = [⟨0, 9, 64 * 7 + 3, 5⟩] ∧
    run0.rsigs = [] ∧ (⟨kNotice, 0, mkHdr 0 5 3 9 0, [], 0⟩ : Packet).fld 16 3 = 3 := by decide +kernel

/-- An IDENT of module 1 whose torus is `dx` × 1 × 1. -/
def identOf (dx : Nat) : BitVec 128 := BitVec.ofNat 128 (1 * 2 ^ 16 + dx * 2 ^ 34 + 2 ^ 39 + 2 ^ 44)

/-- The states of a port, with no JOIN running. -/
theorem test_port_events : runner (fab0 id) 0x0020 = none ∧ ((fab0 id).port 0).st = .up ∧
    ((fab0 fun x => { x with st := .ride, rideAt := some 7 }).port 0).rideAt = some 7 ∧
    ((fab0 fun x => { x with st := .ride, rideAt := some 7 }).port 0).trains = true ∧
    ((fab0 fun x => { x with st := .training }).port 0).trains = true ∧ ((fab0 id).port 0).trains = false ∧
    partnerOk (fab0 fun x => { x with st := .training }) 0 (identOf 4) = true ∧
    partnerOk (fab0 fun x => { x with st := .training }) 0 (identOf 5) = false ∧
    ((fab0 fun x => { x with st := .ride }).port 0).partner = BitVec.ofNat 32 (identId (identOf 4)) ∧
    ((fab0 fun x => { x with st := .ride }).port 0).replay.length < 4095 ∧
    (let s := fab0 fun x => { x with st := .ride, partner := 2, rideAt := some 7 }
     (s.port 0).trains = true ∧ (s.port 0).partner ≠ BitVec.ofNat 32 (identId (identOf 4)) ∧ (s.port 0).st ≠ .training) := by decide +kernel

/-- A pair whose clasps are to be read, commanded closed and held open. -/
def clasp0 (hold : BitVec 6) : State := { fab0 id with fab := { Fab.reset with dx := 4, checkAt := #v[some 50, none, none], hold := hold } }

theorem test_clasps : vget (clasp0 3).fab.checkAt 0 = some 50 ∧ vget (clasp0 3).fab.checkAt 1 = none ∧ true = (clasp0 3).fab.hold.getLsbD 0 ∧ runner (clasp0 3) 0x0020 = none ∧
    false ≠ (clasp0 3).fab.hold.getLsbD 0 := by decide +kernel

/-- A JOIN of the X pair: before its clasps open, and with its pair UP; a WITHDRAW before and after its drain begins. -/
def joinS (st : PortSt) : State :=
  { run0 with
    fab := { Fab.reset with dx := 4 }
    ports := (run0.ports.set 0 { Port.reset with st := st }).set 1 { Port.reset with st := st }
    cmds := run0.cmds.set 2 { CmdSlot.reset with st := .running, code := 0x0020, args := [1], due := 5 } }
def wdrS (drain : Bool) : State :=
  { joinS .up with
    fab := { Fab.reset with dx := 4, hold := 3, opened := 3, drain := drain }
    cmds := run0.cmds.set 2 { CmdSlot.reset with st := .running, code := 0x0021, due := 5 } }

theorem test_join : running (joinS .off) 2 0x0020 = true ∧ ((joinS .off).cmd 2).aux = 0 ∧ ((joinS .off).cmd 2).abort = false ∧
    joinMask (joinS .off) 2 = 2 ^ 0 ∧ pairUp (joinS .off) 0 = false ∧ ((joinS .off).cmd 3).st ≠ .running ∧
    pairUp (joinS .up) 0 = true ∧ joinMask (joinS .up) 2 = 2 ^ 0 ∧ pairFault (joinS .off) 0 = false ∧
    pairFault { joinS .off with fab := { Fab.reset with dx := 4, fault := 2 } } 0 = true := by decide +kernel

/-- A JOIN that waits for the clasps of the X pair. -/
theorem test_join_clasps : (let s := (after (.join 2) (joinS .off))
      (vget s.fab.checkAt 0).isSome = true ∧ runner s 0x0020 = some 2 ∧ s.fab.hold.getLsbD 0 = true ∧ 64 ≤ (s.cmd 2).aux ∧
      (s.cmd 2).aux / 8 % 4 = 0 ∧ (s.port 0).st = .off ∧ (s.port 1).st = .off ∧ pairFault s 0 = false) := by decide +kernel

theorem test_withdraw : running (wdrS false) 2 0x0021 = true ∧ (wdrS false).fab.drain = false ∧ running (wdrS true) 2 0x0021 = true ∧
    (wdrS true).fab.drain = true ∧ (wdrS true).ctl.st ≠ .standby ∧
    ({ wdrS true with ctl := { (wdrS true).ctl with st := .standby } } : State).ctl.st = .standby ∧ 0 < ((wdrS false).port 0).room ∧
    ((wdrS false).port 0).st = .up := by decide +kernel

/-- The crossbar of block 0's L2 idle, frozen and owned by a copy of port 8; a load of port 3, and a signal of the cell of port 2. -/
def arbS (f : Arb → Arb) : State := { run0.setArb 1 (f (run0.arb 1)) with sigs := [⟨2, 0, 3, 5, 1, none⟩] }
def arbA : ArbId := .block 0 1
def rqB : ArbReq := ⟨8, .copy 0 0, 1⟩
def rqL : ArbReq := ⟨3, .load 3 0, 1⟩
def rqS : ArbReq := ⟨2, .signal 0, 1⟩

theorem test_arbiters : arbKey arbA = 1 ∧ ((arbS id).arb 1).owner = none ∧ mayGrant (arbS id) 1 = true ∧ unfinished (arbS id) 1 = false ∧
    ((((arbS id).arb 1).waiting ++ [rqB, rqL]).filter (reqOk (arbS id) 1)).eraseDups = [rqB, rqL] ∧
    arbFrozen (arbS fun x => { x with freeze := true }) 1 = true ∧ ((arbS fun x => { x with owner := some rqB }).arb 1).owner = some rqB ∧
    clsOf rqB.what = .bulk ∧ clsOf rqS.what = .urgent ∧ reqOk (arbS id) 1 rqS = true ∧ reqOk (arbS id) 1 ⟨8, .load 3 0, 1⟩ = false ∧
    biteCounts (arbS fun x => { x with owner := some rqB }) 1 = true ∧ ctlAccepts (arbS id) (placeOf (arbAddr 1)) 1 = true ∧
    ctlAccepts (arbS id) (placeOf (arbAddr 1)) 2 = false ∧
    ((arbS id).arb 1).masked = false ∧ ((arbS fun x => { x with ucnt := 48, wcnt := 50 }).arb 1).masked = true ∧ portOfArb 1 = none := by
  decide +kernel

/-- The queue of copy engine 1 with the CPQs of two cells; an owner with beats to go, and one whose last beat has moved. -/
theorem test_arbiter_queue : queueOfArb (arbKey (.block 0 3)) = some 1 ∧ queueOfArb 1 = none ∧ mayGrant run0 3 = true ∧
    mayGrant (run0.setArb 3 { run0.arb 3 with freeze := true }) 3 = false ∧
    (let s := { run0 with cells := [(0, { Cell.reset with held := false, chall := 1 }), (2, { Cell.reset with held := false, chall := 1 })] }
     (([⟨2, .cpq 2 1 2 .clean, 1⟩, ⟨0, .cpq 0 1 2 .clean, 1⟩] : List ArbReq).filter (reqOk s 3)).length = 2) ∧
    (let s := arbS fun x => { x with owner := some { rqB with beats := 3 } }
     biteCounts s 1 = true ∧ reqOk s 1 rqS = true ∧ mayGrant s 1 = true ∧ (s.arb 1).masked = false ∧ 2 < { rqB with beats := 3 }.beats ∧
       { rqB with beats := 3 }.beats ≤ 3 ∧ (s.block 0).st ≠ .dormant ∧ (s.arb 1).waiting = []) := by decide +kernel

/-- A fabric port's arbiter whose owner's packet has more flits to send, and room for them: a bite counts. -/
theorem test_port_arbiter : (let p : Packet := ⟨kWrite, 2, 0, List.replicate 1000 0, 0⟩
      let s := fab0 fun x => { x with sent := some (⟨p, 6, false⟩, 1), txq := [⟨p, 6, false⟩] }
      portOfArb (arbKey (.module 7)) = some 0 ∧ (s.port 0).sent.isSome = true ∧ 1 + 1 < (flitPays p).length ∧ 0 < (s.port 0).room) := by
  decide +kernel

/-- Command slot 2 running a command on partition 1, whose configuration passes the checks: one block, one SRAM window, no image. -/
def partS (code : W16) (f : Part → Part) : State :=
  { run0 with
    parts := run0.parts.set 1 (f { Part.reset with
      blocks := 2, entry := 0x40, tenant := List.replicate 64 7
      wins := (Vector.replicate 16 0).set 0 (BitVec.ofNat 128 (0x10004000000 + 2 ^ 48 + 2 * 2 ^ 56)) })
    cmds := run0.cmds.set 2 { CmdSlot.reset with st := .running, code := code, args := [1], due := 5 } }

theorem test_part_create : running (partS 0x0030 id) 2 0x0030 = true ∧ ((partS 0x0030 id).cmd 2).arg 0 = 1 ∧
    ((partS 0x0030 id).part 1).st = .free ∧ partCreateError (partS 0x0030 id) 1 = none := by decide +kernel

/-- No TENANT key: check 4 fails with ERROR 0x23 (16 R380). -/
theorem test_part_create_fails : partCreateError (partS 0x0030 fun x => { x with tenant := [] }) 1 = some 0x23 := by decide +kernel

/-- A LOADING partition 1 with hallmark 2 for PART_START, PART_RESET and PART_CLOSE, and a CLOSING one. -/
def partL (code : W16) (st : PartSt) : State := partS code fun x => { x with st := st, hall := 2, keys := some (1, 2) }

theorem test_part_commands : running (partL 0x0031 .loading) 2 0x0031 = true ∧ ((partL 0x0031 .loading).cmd 2).abort = false ∧
    imageBad (partL 0x0031 .loading) ((partL 0x0031 .loading).part 1) = false ∧ running (partL 0x0032 .active) 2 0x0032 = true ∧
    imageReady (partL 0x0031 .loading) ((partL 0x0031 .loading).part 1) = true ∧
    (let x := { (partL 0x0031 .loading).part 1 with image := leBytes 8 0x10004000000 ++ leBytes 8 128 }
     imageBad (partL 0x0031 .loading) x = false ∧ imageReady (partL 0x0031 .loading) x = false) ∧
    running (partL 0x0033 .active) 2 0x0033 = true ∧ ((partL 0x0033 .active).part 1).st ≠ .closing ∧
    ((partL 0x0033 .closing).part 1).st = .closing ∧ ((partL 0x0033 .closing).cmd 2).arg 0 = 1 := by decide +kernel

/-- ATTEST with a nonce, EXTEND of register 15, ACCT_NOW of partition 0. -/
def cmdS (code : W16) (args : List Byte) : State :=
  { run0 with cmds := run0.cmds.set 2 { CmdSlot.reset with st := .running, code := code, args := args, due := 5 } }

theorem test_measure_commands : running (cmdS 0x0040 (List.replicate 36 1)) 2 0x0040 = true ∧
    ((cmdS 0x0040 (List.replicate 36 1)).cmd 2).args.length = 36 ∧ running (cmdS 0x0042 (15 :: List.replicate 35 1)) 2 0x0042 = true ∧
    ((cmdS 0x0042 (15 :: List.replicate 35 1)).cmd 2).arg 0 = 15 ∧ running (cmdS 0x0041 [0]) 2 0x0041 = true ∧
    ((cmdS 0x0041 [0]).cmd 2).arg 0 = 0 ∧ (run0.part 0).held = true ∧ run0.ctl.st ≠ .off ∧ (run0.part 0).hall ≠ 0 ∧
    (0 : Rat) ≤ (run0.part 0).carry := by decide +kernel

/-- An established session of the Owner in entry 0, and one of the Tenant of partition 0 in entry 1, on a host port with an address; what a
request from a host carries, and the same under the key of a session that has none (its TAG is what the session's key gives). -/
def wdp0 : State :=
  let o : Sess := { Sess.reset with st := .up, role := 1, id := 7, seq := 4 }
  { run0 with
    eth := { run0.eth with host := { run0.eth.host with ip4 := 0x0A000001 } }
    sessions := (run0.sessions.set 0 o).set 1 { o with role := 2, part := 0, id := 8 } }
def me : Udp := ⟨false, [10, 0, 0, 1], 47013⟩
def peer : Udp := ⟨false, [10, 0, 0, 2], 5000⟩
def req (id : W32) : Req := ⟨.host, peer, me, id, 5, []⟩
def signed (id : W32) (m : Req → WdpMsg) : Req := { req id with tag := tagOf [] (msgBytes (m (req id))) }

/-- A READ and a WRITE of 0x2000.01, a WRITE_SEG, and a BYE, by the Owner. -/
def mRead (q : Req) : WdpMsg := reqMsg q 1 0x2000 1 0 0 []
def mWrite (q : Req) : WdpMsg := writeMsg q 0x2000 1 [2]
def mSeg (q : Req) : WdpMsg := reqMsg q 4 0x2000 1 0 1 [2]
def mBye (q : Req) : WdpMsg := reqMsg q 0x12 0 0 0 0 []

/-- What `signed` gives as a TAG is right in a session without a key. -/
theorem tag_signed (z : Sess) (id : W32) (m : Req → WdpMsg) (hk : z.keyIn = []) (hm : m (signed id m) = m (req id)) :
    (signed id m).tag = tagOf z.keyIn (msgBytes (m (signed id m))) := by
  rw [hk, hm]; rfl

/-- A request signed so is fresh at session `j`. -/
theorem fresh_signed (s : State) (id : W32) (m : Req → WdpMsg) (j : Nat) (hm : m (signed id m) = m (req id))
    (h : reached s .host me = true ∧ (m (req id)).len.toNat ≤ 1408 ∧ (m (req id)).pay.length ≤ 1408 ∧ sessOf s id = some j ∧
      (s.sess j).keyIn = [] ∧ 5 = (s.sess j).seq + 1) : Fresh s (signed id m) (m (signed id m)) j :=
  ⟨h.1, hm ▸ h.2.1, hm ▸ h.2.2.1, h.2.2.2.1, tag_signed _ _ _ h.2.2.2.2.1 hm, h.2.2.2.2.2⟩

theorem test_fresh : Fresh wdp0 (signed 7 mRead) (mRead (signed 7 mRead)) 0 ∧ Fresh wdp0 (signed 7 mWrite) (mWrite (signed 7 mWrite)) 0 ∧
    Fresh wdp0 (signed 7 mSeg) (mSeg (signed 7 mSeg)) 0 ∧ Fresh wdp0 (signed 7 mBye) (mBye (signed 7 mBye)) 0 := by
  refine ⟨fresh_signed _ _ _ _ rfl ?_, fresh_signed _ _ _ _ rfl ?_, fresh_signed _ _ _ _ rfl ?_, fresh_signed _ _ _ _ rfl ?_⟩ <;> decide +kernel

/-- A request that does not reach the module, of no session, with a wrong TAG, and with the last SEQ. -/
theorem test_requests_fail : reached wdp0 .host { me with port := 1 } = false ∧ reached wdp0 .host me = true ∧ sessOf wdp0 99 = none ∧
    sessOf wdp0 7 = some 0 ∧ (req 7).tag ≠ tagOf (wdp0.sess 0).keyIn (msgBytes (mRead (req 7))) ∧ (4 : W32) = (wdp0.sess 0).seq ∧
    (4 : W32) ≠ (wdp0.sess 0).seq + 1 ∧ (wdp0.sess 0).cached = none ∧
    ((wdp0.setSess 0 { wdp0.sess 0 with cached := some (mRead (req 7)) }).sess 0).cached = some (mRead (req 7)) := by decide +kernel

/-- What an Owner's request finds when it acts. -/
def owner0 : State := heard wdp0 (req 7) 0

/-- READ and WRITE of entries that the Owner may and may not reach, and of a command slot. -/
theorem test_requests : reachCheck owner0 (owner0.sess 0) 0x2000 1 false = none ∧ reachCheck owner0 (owner0.sess 0) 0x0001 1 false = some 1 ∧
    (entVal owner0 0 0x2000 1).length ≤ 1408 ∧ reachCheck owner0 (owner0.sess 0) 0x2000 1 true = none ∧
    putType 0x2000 1 1 = true ∧ putType 0x2000 1 2 = false ∧ isSlotObj 0x2000 = false ∧ putRange (owner0.sess 0) 0x2000 1 [2] = true ∧
    putRange (owner0.sess 0) 0x2000 1 [3] = false ∧ putLegal owner0 .host 0x2000 1 [2] = true ∧
    putLegal { owner0 with ctl := { owner0.ctl with st := .withdrawn } } .host 0x2000 1 [2] = false ∧
    reachCheck owner0 (owner0.sess 0) 0x8000 1 true = none ∧ putType 0x8000 1 4 = true ∧ isSlotObj 0x8000 = true ∧
    (owner0.sess 0).snap = none ∧ (owner0.sess 0).staging = none := by decide +kernel

/-- A session whose READ_SEG holds a snapshot, and whose WRITE_SEG has staged a byte. -/
theorem test_segments : (let z := { owner0.sess 0 with snap := some [1], staging := some (0x2000, 1, [2]) }
      z.snap = some [1] ∧ z.staging = some (0x2000, 1, [2]) ∧ ((owner0.setSess 0 z).sess 0) = z ∧ (1 : W16).toNat = [(2 : Byte)].length ∧
      [(2 : Byte)].length + 1 ≤ 65535) := by decide +kernel

/-- An entry longer than a payload: 64 accounting records. -/
theorem test_long_entry : (let s := { owner0 with parts := owner0.parts.set 0 { part0 with records := List.replicate 64 (List.replicate 240 0) } }
      reachCheck s (s.sess 0) 0x6110 1 false = none ∧ 1408 < (entVal s 0 0x6110 1).length) := by decide +kernel

theorem memExtent_length (wr : Bool) (a n : Nat) : (Config.memExtent wr a n).length ≤ 16 := by
  simp only [Config.memExtent, List.length_map, List.length_range]; omega

/-- A READ and a WRITE of the last four bytes of the Tenant's window. -/
def mGet (q : Req) : WdpMsg :=
  let pay := Config.memExtent false 0x10003FFFFFC 4; reqMsg q 1 0 0 0 (BitVec.ofNat 16 pay.length) pay
def mPut (q : Req) : WdpMsg := writeMsg q 0 0 (Config.memExtent true 0x10003FFFFFC 4 ++ [1, 2, 3, 4])

theorem test_memory_fresh : Fresh wdp0 (signed 8 mGet) (mGet (signed 8 mGet)) 1 ∧ Fresh wdp0 (signed 8 mPut) (mPut (signed 8 mPut)) 1 := by
  have h := memExtent_length false 0x10003FFFFFC 4
  have h' := memExtent_length true 0x10003FFFFFC 4
  have e {n : Nat} (hn : n ≤ 20) : (BitVec.ofNat 16 n).toNat ≤ 1408 := by
    rw [BitVec.toNat_ofNat]; exact Nat.le_trans (Nat.mod_le _ _) (by omega)
  have p : (Config.memExtent true 0x10003FFFFFC 4 ++ [1, 2, 3, 4]).length ≤ 20 := by
    rw [List.length_append]; simp only [List.length_cons, List.length_nil]; omega
  exact ⟨fresh_signed wdp0 8 mGet 1 rfl ⟨by decide +kernel, e (by omega), Nat.le_trans h (by omega), by decide +kernel⟩,
    fresh_signed wdp0 8 mPut 1 rfl ⟨by decide +kernel, e p, Nat.le_trans p (by omega), by decide +kernel⟩⟩

theorem test_memory_requests : (let u := heard wdp0 (req 8) 1
      memCheck u (u.sess 1) 0x10003FFFFFC 4 = .ok 1 ∧ memCheck u (u.sess 1) 0x10003FFFFFC 4 = .ok 1) ∧
    wdpHeld wdp0 0x10003FFFFFC 4 = false ∧ (∀ m < 4, isMem (0x10003FFFFFC + m) = true ∧ memBad wdp0 (0x10003FFFFFC + m) = none) := by
  refine ⟨⟨rfl, rfl⟩, by decide +kernel, by decide +kernel⟩

/-- A frozen bridge port, an Owner's access to a Tenant's memory, and one to a reserved address. -/
theorem test_memory_requests_fail :
    wdpHeld (wdp0.setArb 1368 { wdp0.arb 1368 with freeze := true }) 0x10003FFFFFC 4 = true ∧
    (match memCheck owner0 (owner0.sess 0) 0x10003FFFFFC 4 with | .error (_, e) => e | .ok _ => 0) = 3 ∧
    (match memCheck owner0 (owner0.sess 0) 0x50000000000 4 with | .error (_, e) => e | .ok _ => 0) = 5 := by decide +kernel

/-- The same READ where nothing holds it, at a frozen bridge port, and where the SRAM has no power; at the host port it is one frame. -/
theorem test_memory_waits : memWaits wdp0 (signed 8 mGet) (mGet (signed 8 mGet)) 0x10003FFFFFC 4 false = none ∧
    (let s := wdp0.setArb 1368 { wdp0.arb 1368 with freeze := true }
     memWaits s (signed 8 mGet) (mGet (signed 8 mGet)) 0x10003FFFFFC 4 false = some s) ∧
    (let s := wdp0.setBlock 0 { wdp0.block 0 with group := .off }
     wdpHeld s 0x10003FFFFFC 4 = false ∧ extentReady s 0x10003FFFFFC 4 = false) ∧
    (framesIn wdp0 .host 1).eth.rx = 1 := by
  have hf := test_memory_fresh.1
  refine ⟨?_, ?_, by decide +kernel, by decide +kernel⟩
  · have e : tileSpans 0x10003FFFFFC 4 = [] := by decide +kernel
    have h := memWaits_fresh wdp0 _ _ 1 0x10003FFFFFC 4 false 1 hf rfl
    simp only [e, List.map_nil, tileGate] at h
    exact (h.2.2 (by decide +kernel) (by decide +kernel) wdp0).2 rfl
  · intro s
    have hf' : Fresh s (signed 8 mGet) (mGet (signed 8 mGet)) 1 :=
      ⟨by decide +kernel, hf.2.1, hf.2.2.1, by decide +kernel, hf.2.2.2.2.1, by decide +kernel⟩
    have hc : memCheck s (s.sess 1) 0x10003FFFFFC 4 = .ok 1 := rfl
    exact (memWaits_fresh s _ _ 1 _ 4 false 1 hf' hc).1 (by decide +kernel)

/-- Enrolled keys: the Owner's in 0x1110.01, and the Tenant's of partition 0; no session. -/
def key0 : List Byte := List.replicate 64 3
def hello0 : State :=
  { run0 with
    ctl := { run0.ctl with ownerKeys := run0.ctl.ownerKeys.set 0 key0 }
    eth := { run0.eth with field := { run0.eth.field with ip4 := 0x0A000001 } } }
def fieldAddr : Udp := ⟨false, [10, 0, 0, 1], 47013⟩
def helloM : HelloMsg := ⟨.field, peer, fieldAddr, 0, 0, 1, 0xFF, key0, List.replicate 32 9⟩

theorem test_hello : reached hello0 .field fieldAddr = true ∧ reached hello0 .host fieldAddr = false ∧ enrolled hello0 1 0xFF key0 = true ∧
    claims hello0 helloM = false ∧ claims { hello0 with ctl := run0.ctl } helloM = true ∧ enrolled hello0 2 0 key0 = false ∧ (hello0.sess 0).st = .none ∧
    (∀ i < 16, ((State.sess { hello0 with sessions := Vector.replicate 16 { Sess.reset with st := .up } } i).st ≠ SessSt.none)) ∧
    Instr.wf (.hello helloM) = true := by decide +kernel

/-- Sessions in HELLO, keyed, and established, in entry 15, the last. -/
def sessS (st : SessSt) : State := { wdp0 with sessions := run0.sessions.set 15 { Sess.reset with st := st, id := 9, role := 1, seq := 4 } }

theorem test_keyx : reached (sessS .hello) .host me = true ∧ ((sessS .hello).sess 15).id = 9 ∧
    (∀ i < 15, ((sessS .hello).sess i).id ≠ 9) ∧ ((sessS .keyed).sess 15).st = .keyed ∧ ((sessS .hello).sess 15).st = .hello ∧
    ((sessS .up).sess 15).st = .up ∧ sm2OnCurve (sm2Point (List.replicate 64 0)) = false := by decide +kernel

theorem test_bye : Fresh (sessS .up) (signed 9 mBye) (mBye (signed 9 mBye)) 15 := fresh_signed _ _ _ _ rfl (by decide +kernel)

/-- Command slot 15 in each state, held by the Owner class, with the session of entry 15. -/
def slotS (st : CmdSt) (code : W16) : State :=
  { sessS .up with cmds := run0.cmds.set 15 { CmdSlot.reset with st := st, code := code, holder := some 0xFF, due := 5, args := [0] } }
def mAbort (q : Req) : WdpMsg := writeMsg q 0x800F 5 [1]

theorem test_command_slots : mayStart (slotS .queued 0x0032) 15 = true ∧ cmdLegal (slotS .queued 0x0032) 0x0032 [0] = true ∧
    cmdLegal (slotS .queued 0x0031) 0x0031 [0] = false ∧ mayStart (slotS .idle 0x0031) 15 = false ∧
    holderIs ((slotS .queued 0x0032).sess 15) ((slotS .queued 0x0032).cmd 15).holder = true ∧ ((slotS .running 0x0031).cmd 15).st = .running ∧
    abortable 0x0031 = true ∧ abortable 0x0032 = false ∧ holderIs ((slotS .queued 0x0032).sess 15) (some 0) = false ∧
    ((slotS .done 0x0031).cmd 15).ended = true ∧ ((slotS .queued 0x0032).cmd 15).ended = false ∧ ((slotS .running 0x0020).cmd 15).code = 0x0020 ∧ running (slotS .running 0x0001) 15 0x0001 = true ∧
    (slotS .running 0x0001).ctl.resetAt = none ∧
    (let s := { slotS .queued 0x0030 with parts := (partS 0 id).parts, cmds := run0.cmds.set 15 { CmdSlot.reset with
        st := .queued, code := 0x0030, holder := some 0xFF, args := [1] } }
     mayStart s 15 = true ∧ cmdLegal s 0x0030 [1] = true ∧ partCreateError s 1 = none) := by decide +kernel

theorem test_command_fresh : Fresh (slotS .queued 0x0032) (signed 9 mAbort) (mAbort (signed 9 mAbort)) 15 := by
  exact fresh_signed _ _ _ _ rfl (by decide +kernel)

/-- The module controller: a hot and a cool module, an armed watchdog, the Owner's requests. -/
def hot0 : State := { run0 with ctl := { run0.ctl with tj := run0.ctl.tj.set 3 0x42C80000, opNow := 2, opReq := 2 } }
def mClear (q : Req) : WdpMsg := writeMsg q 0x7000 5 [1]
def mOp (q : Req) : WdpMsg := writeMsg q 0x2000 1 [2]
def mTol (q : Req) : WdpMsg := writeMsg q 0x2104 1 (leBytes 4 500)

theorem test_module_control : ((sessS .up).sess 15).role = 1 ∧ (sessS .up).ctl.st = .active ∧ working (sessS .up).ctl.st = true ∧
    working .withdrawn = false ∧ ((sessS .up).part 0).st ≠ .free ∧ ((sessS .up).part 15).st = .free ∧ tooHot hot0 = true ∧
    run0.ctl.calDue = 1000 ∧ tooHot run0 = false ∧ coolEnough run0 = true ∧ coolEnough hot0 = false ∧ run0.ctl.armed = false ∧
    ({ run0 with ctl := { run0.ctl with cap := 1, armed := true } } : State).ctl.armed = true ∧
    Instr.wf (.sensorUpdate [1, 2, 3, 4] [1, 2, 3, 4] 750) = true := by decide +kernel

theorem test_control_fresh : Fresh (sessS .up) (signed 9 mClear) (mClear (signed 9 mClear)) 15 ∧
    Fresh (sessS .up) (signed 9 mOp) (mOp (signed 9 mOp)) 15 ∧ Fresh (sessS .up) (signed 9 mTol) (mTol (signed 9 mTol)) 15 := by
  refine ⟨fresh_signed _ _ _ _ rfl ?_, fresh_signed _ _ _ _ rfl ?_, fresh_signed _ _ _ _ rfl ?_⟩ <;> decide +kernel

/-- Blocks: an idle one in Run whose partition tolerates every latency, and a waking one of each kind. -/
def idle0 (f : Block → Block) : State :=
  { run0 with
    parts := run0.parts.set 0 { part0 with tol := 2000000 }
    cells := []
    blocks := [(0, f { Block.reset with st := .run, group := .on })] }

theorem test_power_states : mayDescend (idle0 id) 0 = true ∧ mayDescend (idle0 fun x => { x with st := .poise }) 0 = true ∧
    mayDescend (idle0 fun x => { x with st := .nap }) 0 = true ∧ mayDescend (idle0 fun x => { x with st := .doze, group := .retention }) 0 = true ∧
    mayDescend run0 0 = false ∧ wakes (idle0 fun x => { x with st := .nap }) 0 .interrupt = true ∧
    wakes (idle0 fun x => { x with st := .dormant }) 0 .interrupt = false ∧
    ((idle0 fun x => { x with st := .dormant, waking := true }).block 0).waking = true ∧ ownerOfBlock (idle0 id) 0 = some 0 ∧
    ((idle0 fun x => { x with st := .dormant, waking := true }).block 0).oos = false ∧
    (let s := { withCell fun k => { k with res := some 5, accDirty := true } with
        parts := (idle0 id).parts, blocks := [(0, { Block.reset with st := .poise, group := .on })] }
     mayDescend { s with cells := s.cells.map fun e => (e.1, { e.2 with held := true }) } 0 = true) ∧
    powered run0 = true ∧ regionSleeps run0 3 = true ∧ regionSleeps run0 0 = false := by decide +kernel

/-- 20 R455: the dwells of Nap and Doze, 100 µs and 20 ms, from the entry to Poise at count 5. -/
theorem test_dwell :
    ((after (.blockDescend 0 0 []) (idle0 fun x => { x with st := .poise, timer := 5, idleAt := 5 })).block 0).timer = 105 ∧
    ((after (.blockDescend 0 0 []) (idle0 fun x => { x with st := .nap, timer := 105, idleAt := 5 })).block 0).timer = 20005 := by decide +kernel

/-- Queue pair 0 of block 0 with rings of 16 entries at SRAM 0x8000 and 0x9000, and memory window 3 over SRAM 0xA000. -/
def ring0 (a : Nat) : W64 := BitVec.ofNat 64 (0x10000000000 + a + 4 * 2 ^ 48)
def qp0 (f : Qp → Qp) : State :=
  { (run0.setQp 0 (f { Qp.reset with sq := ring0 0x8000, rq := ring0 0x9000 })).setMw 3 ⟨0x1000000A000, 0x1000, 0x17⟩ with
    sram := [(0x10000008001, 0xB0), (0x10000008005, 1), (0x10000008008, 4), (0x1000000800C, 0), (0x10000009001, 0xC0), (0x10000009005, 1), (0x10000009008, 8)] }
def qpRts (f : Qp → Qp) : State := qp0 fun x => f { x with cfg := 1, st := .rts, idx := 0x00010001 }
/-- The same with the operation of its send entry 0, and its length 4 at a local address that is memory or reserved. -/
def qpOp (op : Byte) (ok : Bool) (f : Qp → Qp) : State :=
  { qpRts f with sram := [(0x10000008001, 0xB0), (0x10000008005, if ok then 1 else 3), (0x10000008008, 4), (0x1000000800C, op)] }

theorem test_queue_pairs : hallOk (hallOfBlock (qp0 id) 0) 1 = true ∧ hallOk (hallOfBlock (qp0 id) 0) 2 = false ∧
    ((qp0 id).qp 0).cfg.getLsbD 0 = false ∧
    ringOk (qp0 id) (some 0) ((qp0 id).qp 0).sq = true ∧ ringOk (qp0 id) (some 0) ((qp0 id).qp 0).rq = true ∧
    ringOk (qp0 id) (some 0) (ring0 0x8020) = false ∧ ((qpRts id).qp 0).cfg.getLsbD 0 = true ∧ ((qpRts id).qp 0).st = .rts ∧
    ((qpRts id).mw 3).cfg.getLsbD 0 = true ∧ ((qpRts id).mw 4).cfg.getLsbD 0 = false ∧
    localErr (qpRts id) (some 0) 0x1000000A000 0x1000 false = none ∧ localErr (qpRts id) (some 0) 0x30000000000 4 false ≠ none ∧
    ((qpRts fun x => { x with started := 1 }).qp 0).oldest = some 0 ∧ ((qpRts id).qp 0).oldest = none ∧
    isMem (entryAddr ((qpRts id).qp 0).sq 0 + 0x1C) = true ∧ isMem (entryAddr ((qpRts id).qp 0).rq 0 + 0x1C) = true := by decide +kernel

/-- Send entries: a WRITE, a READ, a SEND, one whose local extent is reserved, and the reserved operation. -/
theorem test_send_entries : ((qpRts id).qp 0).started ≠ ((qpRts id).qp 0).sqpi ∧
    (∀ op ∈ [(0 : Byte), 1, 2], (readEntry (qpOp op true id) ((qpOp op true id).qp 0).sq 0).op = op.toNat ∧
      localErr (qpOp op true id) (some 0) (readEntry (qpOp op true id) ((qpOp op true id).qp 0).sq 0).laddr 4 (op != 1) = none) ∧
    localErr (qpOp 0 false id) (some 0) (readEntry (qpOp 0 false id) ((qpOp 0 false id).qp 0).sq 0).laddr 4 true ≠ none ∧
    (readEntry (qpOp 3 true id) ((qpOp 3 true id).qp 0).sq 0).op = 3 ∧
    (readEntry (qpOp 1 true id) ((qpOp 1 true id).qp 0).sq 0).len = 4 := by decide +kernel

/-- A packet to the port's own address and to UDP 4791 (19 R441), and to another port; what its memory waits for: nothing, a frozen bridge
port, the power of its group. -/
def roceH (port : W16) : RoceHdr := ⟨⟨false, [10, 0, 0, 1], port⟩, true⟩
def roce0 (f : Qp → Qp) : State := { qpRts f with eth := wdp0.eth }
theorem test_roce_reach : roceReached (roce0 id) (roceH 4791) = true ∧ roceReached (roce0 id) (roceH 4790) = false ∧
    (let m : RoceMsg := .write (3 * 2 ^ 22 + 1) 0xFFC [1, 2, 3, 4] .clean
     engineWaits (roce0 id) (roceExtents (roce0 id) 0 m) = none ∧
       (let s := (roce0 id).setArb 1368 { run0.arb 1368 with freeze := true }
        (engineWaits s (roceExtents s 0 m)).isSome = true ∧ (engineWaits s (sendExtents s 0 0)).isSome = true) ∧
       (let s := (roce0 id).setBlock 0 { run0.block 0 with group := .off }
        (engineWaits s (roceExtents s 0 m)).isSome = true)) ∧
    engineWaits (roce0 id) (sendExtents (roce0 id) 0 0) = none ∧
    engineWaits (roce0 id) (((roce0 fun x => { x with started := 1 }).qp 0).outstanding.flatMap (sendExtents (roce0 id) 0)) = none ∧
    engineWaits (roce0 id) (roceExtents (roce0 id) 0 (.send [1] .clean)) = none ∧
    engineWaits (roce0 id) (roceExtents (roce0 id) 0 (.readRequest (3 * 2 ^ 22 + 1) 0 4)) = none ∧
    (let s := roce0 fun x => { x with started := 1 }
     engineWaits s (roceExtents s 0 (.answer .ack .clean)) = none) := by decide +kernel

/-- SM2: the base point lies on the curve, and twice it does. -/
theorem test_sm2 : sm2OnCurve sm2G = true ∧ sm2OnCurve (sm2Add sm2G sm2G) = true := by decide +kernel

/-- A completion that is the next of the send ring, and a queue pair in ERROR with an entry of each ring. -/
def comp0 : State := qpRts fun x => { x with cfg := 1 + 2 ^ 17, started := 1, comps := [⟨true, 0, 1, 0⟩] }
theorem test_completion_due : (comp0.qp 0).due? = some ⟨true, 0, 1, 0⟩ ∧ ((qpRts id).qp 0).due? = none ∧
    ringOpen comp0 0 (comp0.qp 0).sq (entryAddr (comp0.qp 0).sq 0) = true ∧
    engineWaits comp0 [(entryAddr (comp0.qp 0).sq 0, 32)] = none ∧
    (let s := qp0 fun x => { x with cfg := 1, st := .error, err := 1, sq := ring0 0x8020, idx := 0x00010001 }
     (s.qp 0).due? = some ⟨true, 0, 8, 0⟩ ∧ ringOpen s 0 (s.qp 0).sq (entryAddr (s.qp 0).sq 0) = false) ∧
    (let s := comp0.setArb 1368 { run0.arb 1368 with freeze := true }
     (engineWaits s [(entryAddr (comp0.qp 0).sq 0, 32)]).isSome = true) := by decide +kernel

theorem test_completion : (comp0.qp 0).comps.find? (fun c => c.idx == (if c.send then (comp0.qp 0).sqci else (comp0.qp 0).rqci)) =
    some ⟨true, 0, 1, 0⟩ ∧ isMem (entryAddr (comp0.qp 0).sq (comp0.qp 0).sqci + 0x1C) = true ∧
    (let x := (qpRts fun x => { x with st := .error }).qp 0
     x.st = .error ∧ x.sqci ≠ x.sqpi ∧ x.rqci ≠ x.rqpi) ∧
    (let x := (qpRts fun x => { x with st := .error, sqci := 1 }).qp 0
     x.sqci = x.sqpi ∧ x.rqci ≠ x.rqpi) := by decide +kernel

/-- What a peer sends: a WRITE that window 3 admits and one that no window admits, a READ, a SEND with and without a receive entry, one that
is too long for its entry, and one whose entry lies in reserved space. -/
theorem test_peer : mwAccess (qpRts id) 0 (3 * 2 ^ 22 + 1) 0xFFC 4 true = some 0x1000000AFFC ∧
    mwAccess (qpRts id) 0 (3 * 2 ^ 22 + 1) 0xFFD 4 true = none ∧ mwAccess (qpRts id) 0 (3 * 2 ^ 22 + 1) 0 4 false = some 0x1000000A000 ∧
    ((qpRts id).qp 0).nextRecv = some 0 ∧ (readEntry (qpRts id) ((qpRts id).qp 0).rq 0).len = 8 ∧
    localErr (qpRts id) (some 0) (readEntry (qpRts id) ((qpRts id).qp 0).rq 0).laddr 4 false = none ∧
    ((qpRts fun x => { x with idx := 1 }).qp 0).nextRecv = none ∧ (∀ m < 4, isMem (0x1000000AFFC + m) = true) ∧
    (let s := { qpRts id with sram := [(0x10000009005, 3), (0x10000009008, 8)] }
     (localErr s (some 0) (readEntry s (s.qp 0).rq 0).laddr 4 false).isSome = true) := by decide +kernel

/-- A frame of each kind at the host port with an address, and one that is too long. -/
theorem test_frames : powered wdp0 = true ∧ answers wdp0.ctl.st .host = true ∧ tooLong ⟨60, none, .arp .host 0x0A000001 [10, 0, 0, 2], 0, 0⟩ = false ∧
    tooLong ⟨4201, none, .other .host, 0, 0⟩ = true ∧ tooLong ⟨60, none, .echo .host false [10, 0, 0, 1] [10, 0, 0, 2] (List.replicate 4155 0), 0, 0⟩ = true ∧
    ip4Mine wdp0 .host 0x0A000001 = true ∧ reached wdp0 .host me = true := by decide +kernel
/-- An echo's way back on the link and to no gateway, and a RoCEv2 frame that the port takes (19 R441). -/
theorem test_frame_ways : addrMine wdp0 .host false [10, 0, 0, 1] = true ∧ nextHop wdp0 .host false [10, 0, 0, 2] = some [10, 0, 0, 2] ∧
    nextHop wdp0 .host false [11, 0, 0, 2] = none ∧ tooLong ⟨60, none, .echo .host false [10, 0, 0, 1] [10, 0, 0, 2] [1], 0, 0⟩ = false ∧
    tooLong ⟨60, none, .roce .host (roceH 4791) 0 0 .cnp, 0, 0⟩ = false ∧
    engineWaits (roce0 id) (roceExtents (roce0 id) (qpIx 0 0) .cnp) = none ∧ powered { run0 with ctl := { run0.ctl with st := .off } } = false := by
  decide +kernel
theorem test_link_local : ip6Mine wdp0 .field linkLocal = true := by simp [ip6Mine]

/-- Start-up: OFF, each stage, and the digests of a stage that succeeds. -/
def boot0 (n : Nat) : State := { State.reset with ctl := { Ctl.reset with stage := n } }
def bootR (ok : Bool) : BootResult := ⟨ok, 0, 0x800001, 0, 0, [], [List.replicate 32 1, List.replicate 32 2]⟩
theorem test_startup : booting (boot0 3) = true ∧ booting run0 = false ∧ (boot0 3).ctl.pinHeld = false ∧
    (bootR true).digests.length = (stageMeas 3).length ∧ nothingServes (boot0 7) = false ∧ stageCause 2 7 ≠ none ∧ stageCause 1 0 = none ∧
    nothingServes { boot0 7 with blocks := (List.range 64).map fun b => (b, { Block.reset with oos := true }) } = true ∧
    ({ run0 with ctl := { run0.ctl with st := .off } } : State).ctl.st = .off ∧ powered run0 = true ∧ powered (boot0 3) = false ∧
    Instr.wf (.bootStageEnd (bootR true)) = true := by decide +kernel

/-- A report at its block's collector, and one at the module log that the latest record takes, or a full log's none. -/
def rep0 : Report := ⟨some 0, 5, 5, 6, 0, 0, 0, 2⟩
def rec0 : LogRec := ⟨1, 0, 0, 5, 6, 0, 0, 1, 5, 0⟩
theorem test_reports : takeMsg (fun x y => x.col == y.col) 0 [rep0] = some (rep0, []) ∧ rep0.block = some 0 ∧
    (∀ x ∈ run0.log.recs, x.takes rep0 run0.ctl.timer = false) ∧ rec0.takes rep0 0 = true ∧ { rec0 with origin := 6 }.takes rep0 0 = false ∧
    (List.replicate 1024 { rec0 with origin := 6 }).all (fun x => !x.takes rep0 0) = true ∧ classFlag 0x10 = some 3 ∧
    LogOk { run0 with log := ⟨[rec0], 1, 0⟩ } := by
  unfold LogOk; decide +kernel

/-- A Setter context that accepts hallmark 1 and not hallmark 2, and its registers. -/
theorem test_register_write : hallOk (((run0.setSetter 191 { SetCtx.reset with own := 0x101 }).setter 191).own.truncate 8) 1 = true ∧
    ((run0.setSetter 191 { SetCtx.reset with own := 0x101 }).setter 191).enable = false ∧
    ctlAccepts (setCtx id) (placeOf (setterPage 0 0x48)) 1 = true ∧ ctlAccepts (setCtx id) (placeOf (setterPage 0 0x48)) 2 = false := by
  decide +kernel

/-- A memory with entries, in its canonical form (log entry 11). -/
theorem test_memory_form : Memory.wf { setMem with lpddr := [(0, 1)] } = true ∧ isMem 0x10000000000 = true ∧ isMem 0x100FFFFFFFF = true ∧
    isMem 0x10100000000 = false := by decide +kernel

/-- A step from a state whose log is well formed. -/
theorem test_step_answers : LogOk { run0 with pending := [.resetPinRelease] } ∧
    ∃ t, step { run0 with pending := [.resetPinRelease] } = .next t := by
  exact ⟨by unfold LogOk; decide +kernel, _, rfl⟩

/-- A word from its fields, most significant first: value and width. -/
def word (fs : List (Nat × Nat)) : W32 := BitVec.ofNat 32 (fs.foldl (fun w f => w * 2 ^ f.2 + f.1) 0)

/-- 09, the worked examples, and R210: the word of zeros is reserved. -/
theorem test_words_of_the_manual : decodeWord 0 0x710461B9 = some (.vectorFpOp 0 .fma true .w 2 1 3 ⟨1, false, false⟩) ∧
    decodeWord 0 0xA1414600 = some (.tmma 0 1 16 20 24 0 0 []) ∧ decodeWord 0 0xA1414603 = some (.tmma 0 1 16 20 24 0 3 []) ∧
    decodeWord 0 0 = none := by decide +kernel

/-- 09 R206, one word of each family, its fields in order. SYS: PIPWATCH 5, G2, G3. -/
theorem test_word_sys : decodeWord 3 (word [(0, 4), (0x12, 6), (0, 5), (3, 5), (2, 5), (0, 1), (5, 6)]) = some (.pipwatch 3 5 2 3) := by
  decide +kernel
/-- IR: MAXU G1, G2, G3. -/
theorem test_word_ir : decodeWord 0 (word [(1, 4), (1, 5), (2, 5), (3, 5), (0, 6), (0x14, 7)]) = some (.integerRegOp 0 0x14 1 2 3 0) ∧
    decodeWord 0 (word [(1, 4), (1, 5), (2, 5), (3, 5), (1, 6), (0x14, 7)]) = none := by decide +kernel
/-- II: SAR.I G1, G2, 63; a shift with IMM[6] set is reserved. -/
theorem test_word_ii : decodeWord 0 (word [(2, 4), (1, 5), (2, 5), (8, 4), (63, 14)]) = some (.integerImmOp 0 8 1 2 63) ∧
    decodeWord 0 (word [(2, 4), (1, 5), (2, 5), (8, 4), (64, 14)]) = none := by decide +kernel
/-- UJ: CALL G31, −1 and JUMPR G5, G6, −1. -/
theorem test_word_uj : decodeWord 0 (word [(3, 4), (2, 2), (31, 5), (0x1FFFFF, 21)]) = some (.call 0 31 (-1)) ∧
    decodeWord 0 (word [(3, 4), (3, 2), (5, 5), (6, 5), (0xFFFF, 16)]) = some (.jumpr 0 5 6 (-1)) := by decide +kernel
/-- BR: BHS G1, G2, 7 and BRNONE P3.W, 7. -/
theorem test_word_br : decodeWord 0 (word [(4, 4), (5, 3), (1, 5), (2, 5), (7, 15)]) = some (.brCond 0 .hs 1 2 7) ∧
    decodeWord 0 (word [(4, 4), (6, 3), (1, 1), (3, 4), (2, 2), (0, 3), (7, 15)]) = some (.brsomeBrnone 0 true 3 .w 7) := by decide +kernel
/-- SM: ST.H G1, [G2 − 1] and ATMCAS.D.AQ G1, [G2], G3. -/
theorem test_word_sm : decodeWord 0 (word [(5, 4), (1, 5), (2, 5), (2, 3), (1, 2), (0x1FFF, 13)]) = some (.st 0 1 2 .h (-1) .clean) ∧
    decodeWord 0 (word [(5, 4), (1, 5), (2, 5), (7, 3), (3, 2), (3, 5), (2, 2), (1, 1), (0, 1), (0, 4)]) =
      some (.atmcas 0 1 2 3 true true false .clean) := by decide +kernel
/-- SF: FNMS.D F1, F2, F3, F4. -/
theorem test_word_sf : decodeWord 0 (word [(6, 4), (1, 5), (2, 5), (3, 5), (4, 5), (1, 2), (0x0C, 6)]) =
    some (.scalarFpOp 0 0x0C 1 1 2 3 4) := by decide +kernel
/-- VX: PTAIL P15.B, G4 and VLAST.D to F. -/
theorem test_word_vx : decodeWord 0 (word [(8, 4), (15, 5), (4, 5), (0, 5), (0, 5), (0, 2), (0x24, 6)]) = some (.ptail 0 15 4 .b) ∧
    decodeWord 0 (word [(8, 4), (1, 5), (4, 5), (0, 5), (5, 5), (3, 2), (0x1E, 6)]) = some (.vlast 0 true .d 1 4 ⟨5, false, false⟩) := by
  decide +kernel
/-- VM: VGATHER.W V1, P2.zero, [G3, V4 EXT SC] and VGATHERFF. -/
theorem test_word_vm : decodeWord 0 (word [(9, 4), (1, 5), (3, 5), (4, 5), (2, 3), (1, 1), (2, 2), (0, 1), (2, 3), (1, 1), (1, 1), (0, 1)]) =
      some (.vgather 0 1 3 4 .w ⟨2, true, false⟩ true true .clean) ∧
    decodeWord 0 (word [(9, 4), (1, 5), (3, 5), (4, 5), (2, 3), (0, 1), (2, 2), (1, 1), (9, 4), (0, 1), (1, 1)]) =
      some (.vgatherff 0 1 3 4 9 .w ⟨2, false, false⟩ false true .clean) := by decide +kernel
/-- TX: TDRAIN T4, F2, G3. -/
theorem test_word_tx : decodeWord 0 (word [(0xB, 4), (6, 4), (4, 6), (0, 6), (2, 5), (3, 5), (0, 2)]) = some (.tdrain 0 4 2 3 []) := by
  decide +kernel
/-- VN: VPACKS.UU with RND; VS: VSCANX.MAX.U with segments P7. -/
theorem test_word_vn_vs : decodeWord 0 (word [(0xD, 4), (1, 5), (2, 5), (3, 5), (4, 3), (1, 1), (2, 2), (3, 7)]) =
      some (.vpacks 0 .uu 3 true 1 2 3 ⟨4, true, false⟩) ∧
    decodeWord 0 (word [(0xF, 4), (1, 5), (2, 5), (3, 5), (4, 3), (0, 1), (7, 4), (2, 3), (1, 2)]) =
      some (.vscan 0 true .maxU .h 1 2 3 ⟨4, false, false⟩ 7) := by decide +kernel

/-- No row of the opcode table has bits (log entry 1). -/
theorem test_no_table_words : decodeTableWord 32 0x710461B9 = none ∧ decodeTableWord 0 0 = none := by decide +kernel

/-- Each check of `Instr.wf` refuses an ill-formed command. -/
theorem test_wf_tile : Instr.wf (.tileWindowAccess (.debug 0) 0 65535 (.rd 2) false) = false ∧
    Instr.wf (.tileWindowAccess (.debug 0) 0 0 (.rd 0) false) = false ∧ Instr.wf (.tileWindowAccess (.debug 0) 0 65535 (.wr [1, 2]) false) = false ∧
    Instr.wf (.tileWindowAccess (.debug 0) 0 0 (.wr []) false) = false ∧ Instr.wf (.tileWindowAccess (.debug 0) 0 65535 (.wr [1]) false) = true := by
  decide +kernel
theorem test_wf_flit : Instr.wf (.flitReceive 0 (mkFlit 0 [])) = false := by decide +kernel
theorem test_wf_rounds : Instr.wf (.calibrationRound 0 [1, 2, 3] [] []) = false ∧
    Instr.wf (.calibrationRound 0 [1, 2, 3, 4] (List.replicate 64 0) []) = false ∧
    Instr.wf (.calibrationRound 0 [1, 2, 3, 4] [] (List.replicate 512 0)) = false ∧ Instr.wf (.sensorUpdate [1] [1, 2, 3, 4] 0) = false ∧
    Instr.wf (.sensorUpdate [1, 2, 3, 4] [1] 0) = false ∧ Instr.wf (.energyCharge [1] 0 []) = false ∧
    Instr.wf (.energyCharge [1, 2, 3, 4] 0 []) = false := by decide +kernel
theorem test_wf_wdp : Instr.wf (.write (req 0) (.entry 0 0) (List.replicate 1409 0)) = false ∧
    Instr.wf (.writeSeg (req 0) 0 0 0 (List.replicate 1409 0)) = false ∧
    Instr.wf (.readSeg (req 0) 0 0 0 1409) = false ∧ Instr.wf (.hello { helloM with key := [] }) = false ∧
    Instr.wf (.hello { helloM with nonce := [] }) = false ∧ Instr.wf (.keyx ⟨.host, peer, me, 0, 0, .ra []⟩) = false ∧
    Instr.wf (.keyx ⟨.host, peer, me, 0, 0, .sa (List.replicate 32 0)⟩) = true := by decide +kernel
theorem test_wf_ethernet : Instr.wf (.rdmaWriteReceive 0 0 0 0 (List.replicate 4097 0) ⟨me, false⟩ .clean) = false ∧
    Instr.wf (.frameReceive ⟨60, none, .neighbour .host [] (List.replicate 16 0), 0, 0⟩) = false ∧
    Instr.wf (.frameReceive ⟨60, none, .echo .host false (List.replicate 16 0) [10, 0, 0, 2] [], 0, 0⟩) = false ∧
    Instr.wf (.frameReceive ⟨60, none, .udp .host ⟨true, [], 0⟩ me [], 0, 0⟩) = false := by
  decide +kernel
theorem test_wf_digests : Instr.wf (.bootStageEnd ⟨true, 0, 0, 0, 0, [], [[1]]⟩) = false ∧
    Instr.wf (.bootStageTimeout ⟨true, 0, 0, 0, 0, [], [[1]]⟩) = false ∧ Instr.wf (.registerWrite 0 0 0 0) = false := by decide +kernel
theorem test_wf_send (n : Nat) (h : 2147483648 < n) : Instr.wf (.sendReceive 0 0 (List.replicate n 0) ⟨me, false⟩ .clean) = false := by
  have : RoceMsg.wf (.send (List.replicate n 0) .clean) = false := by
    simp only [RoceMsg.wf, List.length_replicate, decide_eq_false_iff_not]; omega
  simp only [Instr.wf, this, Bool.false_and]

end Sys2Proof.Tests
end

section
/-! PROOFS. Bytes of memory: what a byte reads as after a write of it and after a write beside it (03 R67), and O58. -/

namespace Sys2Proof.Machine

/-- A byte of memory depends on its entries in the two lists of bytes and on the partitions alone. -/
theorem memByte_congr {s t : State} {a : Nat} (sram : Tab.get 0 t.sram a = Tab.get 0 s.sram a)
    (lpddr : Tab.get 0 t.lpddr a = Tab.get 0 s.lpddr a) (listed : Tab.has t.lpddr a = Tab.has s.lpddr a)
    (parts : t.parts = s.parts) : memByte t a = memByte s a := by
  have part : ∀ p, t.part p = s.part p := fun p => by simp only [State.part, parts]
  have owner : ownerOfMem t a = ownerOfMem s a := by simp only [ownerOfMem, part]
  simp only [memByte, sram, lpddr, listed, owner, part]

/-- A place that is not memory holds no byte (01 R22): it reads 0 in every state. -/
theorem memByte_of_not_isMem (s : State) {a : Nat} (h : isMem a = false) : memByte s a = 0 := by
  cases place : placeOf a <;> simp [isMem, place] at h <;> simp only [memByte, place]

theorem memByte_setMemByte_same (s : State) {a : Nat} (v : Byte) (h : isMem a = true) : memByte (setMemByte s a v) a = v := by
  cases place : placeOf a <;> simp [isMem, place] at h <;>
    simp [memByte, setMemByte, place, Tab.get_put, Tab.has_put]

theorem memByte_setMemByte_ne (s : State) {a b : Nat} (v : Byte) (h : b ≠ a) :
    memByte (setMemByte s a v) b = memByte s b := by
  unfold setMemByte
  split
  · exact memByte_congr (Tab.get_set_ne 0 0 s.sram v h.symm) rfl rfl rfl
  · exact memByte_congr rfl (by simp [Tab.get_put, h.symm]) (by simp [Tab.has_put, h.symm]) rfl
  · rfl

theorem memByte_putMem_outside (s : State) (a : Nat) (bs : List Byte) {b : Nat} (h : b < a ∨ a + bs.length ≤ b) :
    memByte (putMem s a bs) b = memByte s b := by
  induction bs generalizing s a with
  | nil => rfl
  | cons v vs ih =>
    rw [List.length_cons] at h
    rw [putMem, ih _ _ (by omega), memByte_setMemByte_ne s v (by omega)]

theorem memBytes_putMem (s : State) (a : Nat) (bs : List Byte) (h : ∀ m < bs.length, isMem (a + m) = true) :
    memBytes (putMem s a bs) a bs.length = bs := by
  induction bs generalizing s a with
  | nil => rfl
  | cons v vs ih =>
    have first : memByte (putMem (setMemByte s a v) (a + 1) vs) a = v := by
      rw [memByte_putMem_outside _ _ _ (by omega), memByte_setMemByte_same s v (by simpa using h 0 (by simp))]
    have rest := ih (setMemByte s a v) (a + 1) fun m hm => by
      rw [Nat.add_right_comm]; exact h (m + 1) (by simpa using hm)
    simp only [List.length_cons, memBytes, putMem, first, rest]

/-- Settles O58: poison aside, a write is `putMem`, a `setMemByte` for each byte, of which none meets the address of another. -/
theorem memoryReadsAsWritten : Obligations.MemoryReadsAsWritten := by
  intro s a v bs wf
  exact ⟨Memory.wf_setMemByte a v wf, Memory.wf_memWrite a bs wf, memByte_setMemByte_same s v,
    fun b => memByte_setMemByte_ne s v, memBytes_putMem _ a bs,
    fun b outside => memByte_putMem_outside _ a bs outside⟩

end Sys2Proof.Machine
end

section
/-! PROOFS. A memory window that names no memory, and O9. -/

namespace Sys2Proof.Machine

/-- A partition with hallmark 1 and block 0 whose one memory window (16 R373) names, from partition-relative address 0 on, the tile windows
from cell 0 on (01 R24) where it should name memory. -/
def tileWindowPart : Part :=
  { Part.reset with
    st := .active, hall := 1, blocks := 1, keys := some (1, 2)
    wins := (Vector.replicate 16 0).set 0 (BitVec.ofNat 128 (0x20000000000 + 2 ^ 48 + 2 * 2 ^ 56)) }

/-- Its block runs, and its cell 0 executes with G1 = 1. -/
def tileWindowState : State :=
  { State.reset with
    parts := (Vector.replicate 16 Part.reset).set 0 tileWindowPart
    blocks := [(0, { Block.reset with st := .run })]
    cells := [(0, { Cell.reset with held := false, chall := 1, g := Cell.reset.g.set 1 1 })] }

theorem tileWindowState_ready : Ready tileWindowState 0 := by unfold Ready; decide

theorem tileWindowState_writes : Writes tileWindowState 0 0 1 [0x20000000000] := by
  unfold Writes PathOpen; decide

theorem tileWindowState_coherent : Coherent tileWindowState := by
  constructor
  · intro c e he
    by_cases h : 0 = c <;> simp [State.cell, tileWindowState, Tab.get, h, Cell.reset, Cache.reset] at he
  · intro b e he
    by_cases h : 0 = b <;> simp [State.block, tileWindowState, Tab.get, h, Block.reset, Cache.reset] at he

/-- Refutes O9. Nothing that `Writes` asks for makes its addresses memory (`isMem`): they translate through the windows of the cell's
partition, and in a state as such those may name anything. In `tileWindowState` a ST.B of G1 = 1 at partition-relative address 0 would
have to leave the byte 1 at a tile window's address, which holds no byte of memory. (Check 2 of 16 R380 refuses such a window, but the
statement speaks of every state.) -/
theorem not_storesComplete : ¬ Obligations.StoresComplete := by
  intro h
  obtain ⟨stores, -⟩ := h
  obtain ⟨storesReg, -⟩ := stores tileWindowState 0 1 0 0 1 [0x20000000000] tileWindowState_ready tileWindowState_writes
  obtain ⟨t, -, -, whenCoherent⟩ := storesReg .b rfl
  obtain ⟨bytes, -⟩ := whenCoherent tileWindowState_coherent
  have written : [memByte t 0x20000000000] = [1] := bytes
  rw [memByte_of_not_isMem t (by decide)] at written
  exact absurd written (by decide)

end Sys2Proof.Machine
end

section
/-! PROOFS. Status flags, reports on their way to the log (21 R472 to R479), registers written through their addresses (01 R26, R27),
and O57. -/

namespace Sys2Proof.Machine

/-! ### Flags and notifications -/

/-- A fold of changes that keep a part of the state keeps it. -/
theorem foldl_keeps {α β : Type} (part : State → β) (f : State → α → State) (keep : ∀ s x, part (f s x) = part s)
    (l : List α) (s : State) : part (l.foldl f s) = part s := by
  induction l generalizing s with
  | nil => rfl
  | cons x xs ih => rw [List.foldl_cons, ih, keep]

section
variable {β : Type} (part : State → β) (emitKeeps : ∀ s o, part (emit s o) = part s)
include emitKeeps

/-- What neither the Ethernet port nor the sessions hold, a NOTIFY leaves alone. -/
theorem notify_keeps (setSessKeeps : ∀ s j x, part (State.setSess s j x) = part s) (s : State) (j idx sub : Nat) (pay : List Byte) :
    part (notify s j idx sub pay) = part s := by
  simp only [notify, sendWdp]
  split
  · rw [emitKeeps, setSessKeeps]
  · exact setSessKeeps _ _ _

theorem notifyAll_keeps (setSessKeeps : ∀ s j x, part (State.setSess s j x) = part s) (s : State) (who : Sess → Bool) (idx sub : Nat)
    (pay : List Byte) : part (notifyAll s who idx sub pay) = part s := by
  refine foldl_keeps part _ (fun s j => ?_) _ s
  split
  · exact notify_keeps part emitKeeps setSessKeeps s j idx sub pay
  · rfl
end

theorem setFlag_flags (s : State) (f : Nat) : (setFlag s f).ctl.flags = s.ctl.flags ||| (1#32 <<< f) := by
  simp only [setFlag, notifyAll_keeps State.ctl emit_ctl State.setSess_ctl]

@[simp] theorem setFlag_timer (s : State) (f : Nat) : (setFlag s f).ctl.timer = s.ctl.timer := by
  simp only [setFlag, notifyAll_keeps State.ctl emit_ctl State.setSess_ctl]

@[simp] theorem setFlag_lreps (s : State) (f : Nat) : (setFlag s f).lreps = s.lreps := by
  simp only [setFlag, notifyAll_keeps State.lreps emit_lreps State.setSess_lreps]

theorem setFlag_sets (s : State) {f : Nat} (h : f < 32) : (setFlag s f).ctl.flags.getLsbD f = true := by
  simp [setFlag_flags, h]

theorem setFlag_keepsSet {s : State} (f : Nat) {g : Nat} (h : s.ctl.flags.getLsbD g = true) :
    (setFlag s f).ctl.flags.getLsbD g = true := by
  simp [setFlag_flags, h]

/-! ### The log -/

theorem classFlag_lt {cls : W16} {f : Nat} (h : classFlag cls = some f) : f < 32 := by
  unfold classFlag at h
  split_ifs at h <;> cases h <;> decide

@[simp] theorem flagEvents_lreps (s : State) (r : Report) : (flagEvents s r).lreps = s.lreps := by
  unfold flagEvents
  split
  · exact foldl_keeps State.lreps _ (fun s _ => setFlag_lreps s _) _ s
  · rfl

theorem foldl_setFlag_keepsSet (f : Nat) (l : List Nat) {s : State} {g : Nat} (h : s.ctl.flags.getLsbD g = true) :
    (l.foldl (fun s _ => setFlag s f) s).ctl.flags.getLsbD g = true := by
  induction l generalizing s with
  | nil => exact h
  | cons x xs ih => rw [List.foldl_cons]; exact ih (setFlag_keepsSet f h)

theorem flagEvents_keepsSet {s : State} (r : Report) {g : Nat} (h : s.ctl.flags.getLsbD g = true) :
    (flagEvents s r).ctl.flags.getLsbD g = true := by
  unfold flagEvents
  split
  · exact foldl_setFlag_keepsSet _ _ h
  · exact h

/-- One event is enough: the first sets the flag, and the others keep it. -/
theorem flagEvents_sets (s : State) {r : Report} {f : Nat} (hf : classFlag r.cls = some f) (hc : r.count ≠ 0) :
    (flagEvents s r).ctl.flags.getLsbD f = true := by
  obtain ⟨n, hn⟩ : ∃ n, r.count.toNat = n + 1 :=
    Nat.exists_eq_succ_of_ne_zero fun zero => hc (by rw [← BitVec.toNat_inj, zero]; rfl)
  simp only [flagEvents, hf, hn, List.range_succ_eq_map, List.foldl_cons]
  exact foldl_setFlag_keepsSet f _ (setFlag_sets s (classFlag_lt hf))

@[simp] theorem countSent_lreps (s : State) (r : Report) : (countSent s r).lreps = s.lreps := by
  unfold countSent; split <;> rfl

@[simp] theorem countSent_ctl (s : State) (r : Report) : (countSent s r).ctl = s.ctl := by
  unfold countSent; split <;> rfl

theorem makeRoom_of_lt {s : State} (h : s.log.recs.length < 1024) : makeRoom s = s := if_pos h

theorem makeRoom_log_of_full {s : State} (h : 1024 ≤ s.log.recs.length) : (makeRoom s).log =
    { s.log with
      recs := s.log.recs.eraseIdx (discardIx s.log.recs)
      lost := BitVec.ofNat 64 (satAdd max64 s.log.lost.toNat 1) } := by
  simp only [makeRoom, Nat.not_lt.mpr h, if_false, setFlag_log]

theorem makeRoom_flag_of_full {s : State} (h : 1024 ≤ s.log.recs.length) : (makeRoom s).ctl.flags.getLsbD 9 = true := by
  simp only [makeRoom, Nat.not_lt.mpr h, if_false]
  exact setFlag_sets _ (by decide)

@[simp] theorem makeRoom_timer (s : State) : (makeRoom s).ctl.timer = s.ctl.timer := by
  unfold makeRoom; split <;> simp

@[simp] theorem makeRoom_lreps (s : State) : (makeRoom s).lreps = s.lreps := by
  unfold makeRoom; split <;> simp

@[simp] theorem openRecord_lreps (s : State) (r : Report) : (openRecord s r).lreps = s.lreps := rfl
@[simp] theorem openRecord_ctl (s : State) (r : Report) : (openRecord s r).ctl = s.ctl := rfl

theorem toNat_satAdd_max64 (a n : Nat) : (BitVec.ofNat 64 (satAdd max64 a n)).toNat = min (2 ^ 64 - 1) (a + n) := by
  rw [BitVec.toNat_ofNat, satAdd, max64]
  omega

theorem enterLog_of_none_takes {s : State} {r : Report} (h : ∀ x ∈ s.log.recs, x.takes r s.ctl.timer = false) :
    enterLog s r = flagEvents (countSent (openRecord (makeRoom s) r) r) r := by
  have noRecord : s.log.recs.findIdx? (fun x => x.takes r s.ctl.timer) = none := List.findIdx?_eq_none_iff.mpr h
  simp only [enterLog, noRecord]

theorem modifyNth_length_append {α : Type} (f : α → α) (pre l : List α) (x : α) :
    modifyNth f pre.length (pre ++ x :: l) = pre ++ f x :: l := by
  induction pre with
  | nil => rfl
  | cons y ys ih => simp only [List.length_cons, List.cons_append, modifyNth, ih]

theorem enterLog_of_takes {s : State} {r : Report} {pre l : List LogRec} {x : LogRec} (recs : s.log.recs = pre ++ x :: l)
    (before : ∀ y ∈ pre, y.takes r s.ctl.timer = false) (takes : x.takes r s.ctl.timer = true) : enterLog s r =
      flagEvents (countSent { s with log := { s.log with recs := pre ++ x.merge r s.ctl.timer :: l } } r) r := by
  have first : s.log.recs.findIdx? (fun x => x.takes r s.ctl.timer) = some pre.length := by
    rw [recs, List.findIdx?_append, List.findIdx?_eq_none_iff.mpr before]
    simp [List.findIdx?_cons, takes]
  simp only [enterLog, first]
  rw [recs, modifyNth_length_append]

@[simp] theorem enterLog_lreps (s : State) (r : Report) : (enterLog s r).lreps = s.lreps := by
  unfold enterLog; split <;> simp

theorem enterLog_log_of_room {s : State} {r : Report} (noneTakes : ∀ x ∈ s.log.recs, x.takes r s.ctl.timer = false)
    (room : s.log.recs.length < 1024) : (enterLog s r).log = (openRecord s r).log := by
  rw [enterLog_of_none_takes noneTakes, flagEvents_log, countSent_log, makeRoom_of_lt room]

/-- A record opened in a full log stands behind the others, of which one is gone. -/
theorem enterLog_log_of_full {s : State} {r : Report} (noneTakes : ∀ x ∈ s.log.recs, x.takes r s.ctl.timer = false)
    (full : 1024 ≤ s.log.recs.length) : (enterLog s r).log =
      { recs := s.log.recs.eraseIdx (discardIx s.log.recs) ++
          [⟨s.log.last + 1, s.ctl.timer, s.ctl.timer, r.origin, r.cls, r.sev, r.own, r.count, r.reporter, r.detail⟩]
        last := s.log.last + 1
        lost := BitVec.ofNat 64 (satAdd max64 s.log.lost.toNat 1) } := by
  rw [enterLog_of_none_takes noneTakes, flagEvents_log, countSent_log]
  simp only [openRecord, makeRoom_log_of_full full, makeRoom_timer]

theorem enterLog_flag_of_full {s : State} {r : Report} (noneTakes : ∀ x ∈ s.log.recs, x.takes r s.ctl.timer = false)
    (full : 1024 ≤ s.log.recs.length) : (enterLog s r).ctl.flags.getLsbD 9 = true := by
  rw [enterLog_of_none_takes noneTakes]
  refine flagEvents_keepsSet r ?_
  rw [countSent_ctl, openRecord_ctl]
  exact makeRoom_flag_of_full full

theorem enterLog_log_of_takes {s : State} {r : Report} {pre l : List LogRec} {x : LogRec} (recs : s.log.recs = pre ++ x :: l)
    (before : ∀ y ∈ pre, y.takes r s.ctl.timer = false) (takes : x.takes r s.ctl.timer = true) :
    (enterLog s r).log = { s.log with recs := pre ++ x.merge r s.ctl.timer :: l } := by
  rw [enterLog_of_takes recs before takes, flagEvents_log, countSent_log]

theorem enterLog_sets (s : State) {r : Report} {f : Nat} (hf : classFlag r.cls = some f) (hc : r.count ≠ 0) :
    (enterLog s r).ctl.flags.getLsbD f = true :=
  flagEvents_sets _ hf hc

/-! ### Reports taken -/

theorem exec_logReport_none {s : State} {k : Nat} (h : takeMsg (fun x y => x.col == y.col) k s.lreps = none) :
    exec (.logReport k) s = .next s := by
  show execLogReport k s = _
  simp only [execLogReport, h, next]

theorem exec_logReport_some {s : State} {k : Nat} {r : Report} {rest : List Report}
    (h : takeMsg (fun x y => x.col == y.col) k s.lreps = some (r, rest)) :
    exec (.logReport k) s = .next (enterLog { s with lreps := rest } r) := by
  show execLogReport k s = _
  simp only [execLogReport, h, next]

theorem exec_blockCollectorReport_none {s : State} {k : Nat} (h : takeMsg (fun x y => x.col == y.col) k s.breps = none) :
    exec (.blockCollectorReport k) s = .next s := by
  show execBlockCollectorReport k s = _
  simp only [execBlockCollectorReport, h, next]

theorem exec_blockCollectorReport_no_block {s : State} {k : Nat} {r : Report} {rest : List Report}
    (h : takeMsg (fun x y => x.col == y.col) k s.breps = some (r, rest)) (block : r.block = none) :
    exec (.blockCollectorReport k) s = .next s := by
  show execBlockCollectorReport k s = _
  simp only [execBlockCollectorReport, h, block, next]

theorem exec_blockCollectorReport_some {s : State} {k : Nat} {r : Report} {rest : List Report} {b : BlockId}
    (h : takeMsg (fun x y => x.col == y.col) k s.breps = some (r, rest)) (block : r.block = some b) :
    exec (.blockCollectorReport k) s = .next (collect { s with breps := rest } b.val r) := by
  show execBlockCollectorReport k s = _
  simp only [execBlockCollectorReport, h, block, next]

@[simp] theorem collect_breps (s : State) (b : Nat) (r : Report) : (collect s b r).breps = s.breps := by
  simp only [collect]; split <;> simp

theorem collect_lreps (s : State) (b : Nat) (r : Report) :
    (collect s b r).lreps = queueReport { r with block := none } s.lreps := by
  simp only [collect]; split <;> simp

theorem collect_becnt (s : State) (b : Nat) (r : Report) :
    ((collect s b r).block b).becnt = (s.block b).becnt + r.count.zeroExtend 64 := by
  have block : ∀ (t : State) (l : List Report), ({ t with lreps := l }).block b = t.block b := fun _ _ => rfl
  simp only [collect, block]; split <;> simp

theorem sendSig_sigs (s : State) (src cell pip n : Nat) (h : Byte) : (sendSig s src cell pip n h).sigs =
    s.sigs ++ [⟨src, Fin.ofNat 512 cell, BitVec.ofNat 6 pip, BitVec.ofNat 16 n, h, none⟩] := by
  simp only [sendSig, countBridge_sigs]

theorem hallOfBlock_setBlock (s : State) (b : Nat) (x : Block) (c : Nat) : hallOfBlock (s.setBlock b x) c = hallOfBlock s c := rfl

theorem collect_sigs (s : State) (b : Nat) (r : Report) : (collect s b r).sigs = s.sigs ++ (if errorPip (s.block b) r then
    [⟨640 + b, Fin.ofNat 512 (fieldN (s.block b).becfg.toNat 6 9), BitVec.ofNat 6 (fieldN (s.block b).becfg.toNat 0 6),
      BitVec.ofNat 16 (min r.count.toNat 65535), hallOfBlock s b, none⟩] else []) := by
  simp only [collect]
  split <;> simp [sendSig_sigs, hallOfBlock_setBlock]

/-! ### Register writes -/

theorem exec_registerWrite_accepted {s : State} {h : Byte} {addr : BitVec 48} (len : Fin 9) (v : W64)
    (accepts : ctlAccepts s (placeOf addr.toNat) h = true) :
    exec (.registerWrite h addr len v) s = .next (ctlPut s h addr.toNat (leBytes len.val v.toNat)) := by
  show execRegisterWrite h addr len v s = _
  simp only [execRegisterWrite, regAccess, accepts, if_true, next]

theorem exec_registerWrite_refused {s : State} {h : Byte} {addr : BitVec 48} (len : Fin 9) (v : W64)
    (refuses : ctlAccepts s (placeOf addr.toNat) h = false) :
    exec (.registerWrite h addr len v) s = .next (refusedAtUnit s addr.toNat) := by
  show execRegisterWrite h addr len v s = _
  simp only [execRegisterWrite, regAccess, refuses, Bool.false_eq_true, if_false, next]

/-- The offset in its region's range of a register of a Setter context's page (12 R267). -/
def setterOffset (i off : Nat) : Nat := 0x400000 + 0x10000 * (i / 8 % 6) + 0x1000 * (i % 8) + off

/-- Control space finds the context again by the offset (01 R26). -/
theorem context_of_setterOffset {i off : Nat} (ho : off < 0x1000) :
    8 * (6 * (i / 48) + (setterOffset i off - 0x400000) / 0x10000) + setterOffset i off % 0x10000 / 0x1000 = i := by
  unfold setterOffset; omega

theorem setterOffset_mod {i off : Nat} (ho : off < 0x1000) : setterOffset i off % 0x1000 = off := by
  unfold setterOffset; omega

theorem setterOffset_range {i off : Nat} (ho : off < 0x1000) :
    0x400000 ≤ setterOffset i off ∧ setterOffset i off < 0x460000 ∧ setterOffset i off % 0x10000 < 0x8000 := by
  unfold setterOffset; omega

theorem placeOf_setterPage {i off : Nat} (hi : i < 192) (ho : off < 0x1000) : placeOf (setterPage i off) =
    .regionCtl (i / 48) (setterOffset i off) := by
  unfold placeOf setterPage ctlOfCtx setterOffset
  rw [if_neg (by omega), if_neg (by omega), if_neg (by omega), if_pos (by omega)]
  dsimp only
  rw [if_neg (by omega), if_pos (by omega)]
  exact congrArg₂ Place.regionCtl (by omega) (by omega)

theorem length_leBytes (n v : Nat) : (leBytes n v).length = n := by
  induction n generalizing v with
  | zero => rfl
  | succ n ih => rw [leBytes, List.length_cons, ih]

theorem leNat_leBytes (n v : Nat) : leNat (leBytes n v) = v % 256 ^ n := by
  induction n generalizing v with
  | zero => rw [leBytes, leNat, Nat.pow_zero, Nat.mod_one]
  | succ n ih => rw [leBytes, leNat, ih, BitVec.toNat_ofNat, Nat.pow_succ' (n := n)]; exact Nat.mod_mul.symm

theorem foldr_bytes (bs : List Byte) : bs.foldr (fun b acc => acc * 256 + b.toNat) 0 = leNat bs := by
  induction bs with
  | nil => rfl
  | cons b bs ih => rw [List.foldr_cons, ih, leNat]; omega

theorem foldr_ones (bs : List Byte) : bs.foldr (fun _ acc => acc * 256 + 255) 0 = 256 ^ bs.length - 1 := by
  induction bs with
  | nil => rfl
  | cons b bs ih =>
    have pos : 0 < 256 ^ bs.length := Nat.pow_pos (by decide)
    rw [List.foldr_cons, ih, List.length_cons, Nat.pow_succ]; omega

/-- A write of every byte of a register gives it their number, under a mask of ones. -/
theorem overlay_whole (off : Nat) (bs : List Byte) :
    overlay off bs.length off bs = (BitVec.ofNat 64 (leNat bs), BitVec.ofNat 64 (256 ^ bs.length - 1)) := by
  have bytes : ((List.range bs.length).map fun i =>
      if insideRange (off + i) 1 off bs.length then ((bs.getD (off + i - off) 0).toNat, 255) else (0, 0)) =
      bs.map fun b => (b.toNat, 255) := by
    refine List.ext_getElem (by simp) fun i hi _ => ?_
    have lt : i < bs.length := by simpa using hi
    have inside : insideRange (off + i) 1 off bs.length = true := by
      simp only [insideRange, Bool.and_eq_true, decide_eq_true_eq]; omega
    simp [inside, lt]
  simp only [overlay, bytes, List.foldr_map, foldr_bytes, foldr_ones]

theorem masked_allOnes {n : Nat} (old v : BitVec n) : masked old v (BitVec.allOnes n) = v := by
  simp [masked]

theorem pageWrite_of_apart (wr : State → Nat → W64 → W64 → State) {a : Nat} {bs : List Byte} {regs : List RegAt}
    (apart : ∀ r ∈ regs, rangesMeet r.1 r.2 a bs.length = false) (s : State) : pageWrite wr a bs regs s = s := by
  induction regs with
  | nil => rfl
  | cons r rs ih =>
    rw [pageWrite, if_neg (by simp [apart r]), ih fun x hx => apart x (List.mem_cons_of_mem r hx)]

/-- A write that meets one register of a page and covers it. -/
theorem pageWrite_one (wr : State → Nat → W64 → W64 → State) {off : Nat} {bs : List Byte} (pre post : List RegAt)
    (before : ∀ r ∈ pre, rangesMeet r.1 r.2 off bs.length = false) (after : ∀ r ∈ post, rangesMeet r.1 r.2 off bs.length = false)
    (nonempty : 0 < bs.length) (s : State) : pageWrite wr off bs (pre ++ (off, bs.length) :: post) s =
      wr s off (BitVec.ofNat 64 (leNat bs)) (BitVec.ofNat 64 (256 ^ bs.length - 1)) := by
  induction pre with
  | nil =>
    have meets : rangesMeet off bs.length off bs.length = true := by
      simp only [rangesMeet, Bool.and_eq_true, decide_eq_true_eq]; omega
    rw [List.nil_append, pageWrite, if_pos meets, overlay_whole]
    exact pageWrite_of_apart wr after _
  | cons r rs ih =>
    rw [List.cons_append, pageWrite, if_neg (by simp [before r]), ih fun x hx => before x (List.mem_cons_of_mem r hx)]

/-- No register of a context's page but STEP, at 0x048, meets a write of its four bytes. -/
theorem pageWrite_setter_step (i v : Nat) (s : State) : pageWrite (setterWrite i) 0x048 (leBytes 4 v) setterRegs s =
    setterWrite i s 0x048 (BitVec.ofNat 64 (v % 2 ^ 32)) 0xFFFFFFFF := by
  have regs : setterRegs = setterRegs.take 9 ++ (0x048, (leBytes 4 v).length) :: setterRegs.drop 10 := rfl
  have one := pageWrite_one (setterWrite i) (off := 0x048) (bs := leBytes 4 v) (setterRegs.take 9) (setterRegs.drop 10)
    (by rw [length_leBytes]; decide) (by rw [length_leBytes]; decide) (by rw [length_leBytes]; decide) s
  rw [← regs, leNat_leBytes, length_leBytes] at one
  exact one

theorem setterWrite_step {s : State} {i : Nat} (disabled : (s.setter i).enable = false) (v : W64) :
    setterWrite i s 0x048 (BitVec.ofNat 64 (v.toNat % 2 ^ 32)) 0xFFFFFFFF =
      s.setSetter i { s.setter i with step := v.truncate 32 } := by
  have value : (BitVec.ofNat 64 (v.toNat % 2 ^ 32)).truncate 32 = v.truncate 32 := by
    apply BitVec.eq_of_toNat_eq
    simp
  have mask : (0xFFFFFFFF : W64).truncate 32 = BitVec.allOnes 32 := by decide
  have cfg : setterCfgWrite (s.setter i) 0x048 (BitVec.ofNat 64 (v.toNat % 2 ^ 32)) 0xFFFFFFFF =
      { s.setter i with step := v.truncate 32 } := by
    rw [← masked_allOnes (s.setter i).step (v.truncate 32), ← value, ← mask]
    rfl
  simp only [setterWrite, disabled, cfg]
  rfl

theorem setterPage_lt {i off : Nat} (hi : i < 192) (ho : off < 0x1000) : setterPage i off < 2 ^ 48 := by
  unfold setterPage ctlOfCtx
  omega

/-- The page of a Setter context, reached through its address in control space (01 R26, 12 R267). -/
theorem pageOf_setterPage (s : State) (h : Byte) {i off : Nat} (hi : i < 192) (ho : off < 0x1000) :
    pageOf s h (placeOf (setterPage i off)) = some ⟨setterRegs, setterRead (s.setter i), setterWrite i, off⟩ := by
  have range := setterOffset_range (i := i) ho
  rw [placeOf_setterPage hi ho, pageOf, if_neg (by omega), if_pos range]
  simp only [context_of_setterOffset ho, setterOffset_mod ho]

/-- A Setter context's page belongs to the partition that holds the context (01 R499). -/
theorem ctlAccepts_setterPage (s : State) (h : Byte) {i off : Nat} (hi : i < 192) (ho : off < 0x1000) :
    ctlAccepts s (placeOf (setterPage i off)) h = hallOk ((s.setter i).own.truncate 8) h := by
  have range := setterOffset_range (i := i) ho
  have unit : aslotUnit (i / 48) (setterOffset i off) = none := by rw [aslotUnit, if_neg (by omega)]
  simp only [placeOf_setterPage hi ho, ctlAccepts, unit, regionPageHall]
  rw [if_neg (by omega), if_pos range, context_of_setterOffset ho]

/-- A write that ends in the 32-byte piece it begins in is one write of a page. -/
theorem ctlPut_of_piece {s : State} {h : Byte} {a : Nat} {bs : List Byte} {p : Page} (nonempty : bs ≠ [])
    (fits : bs.length ≤ 32 - a % 32) (page : pageOf s h (placeOf a) = some p) : ctlPut s h a bs = pageWrite p.wr p.off bs p.regs s := by
  have isEmpty : bs.isEmpty = false := by simpa using nonempty
  simp only [ctlPut, ctlWrite, isEmpty, page, List.take_of_length_le fits, List.drop_of_length_le fits, List.isEmpty_nil,
    Bool.false_eq_true, if_false, if_true]

/-- 12 R268: STEP of a disabled context, written through its address. -/
theorem ctlPut_setter_step {s : State} (h : Byte) {i : Nat} (hi : i < 192) (disabled : (s.setter i).enable = false) (v : W64) :
    ctlPut s h (setterPage i 0x48) (leBytes 4 v.toNat) = s.setSetter i { s.setter i with step := v.truncate 32 } := by
  have piece : (leBytes 4 v.toNat).length ≤ 32 - setterPage i 0x48 % 32 := by
    rw [length_leBytes, setterPage]; omega
  have nonempty : leBytes 4 v.toNat ≠ [] := List.cons_ne_nil _ _
  rw [ctlPut_of_piece nonempty piece (pageOf_setterPage s h hi (by decide))]
  exact (pageWrite_setter_step i v.toNat s).trans (setterWrite_step disabled v)

/-- Settles O57: each clause is what the lemmas above say of a report at its collector (`collect`), of a report at the log (`enterLog`),
or of a register's page. -/
theorem reportsAndRegistersComplete : Obligations.ReportsAndRegistersComplete := by
  intro s k r rest h m j addr len v take new
  refine ⟨exec_blockCollectorReport_none, exec_blockCollectorReport_no_block, ?collected, exec_logReport_none, ?logged, ?step,
    exec_registerWrite_refused len v, exec_registerWrite_accepted len v⟩
  case collected =>
    intro b taken block
    exact ⟨_, exec_blockCollectorReport_some taken block, collect_breps _ _ _, collect_becnt _ _ _, collect_lreps _ _ _,
      collect_sigs _ _ _⟩
  case logged =>
    intro taken
    refine ⟨fun noneTakes => ⟨fun room => ?_, fun full => ?_⟩, fun pre x l recs before takes => ?_, fun f hf hc => ?_⟩
    · exact ⟨_, exec_logReport_some taken, enterLog_lreps _ _, enterLog_log_of_room noneTakes room⟩
    · have log := enterLog_log_of_full (s := { s with lreps := rest }) noneTakes full
      refine ⟨_, exec_logReport_some taken, enterLog_lreps _ _, by rw [log], by rw [log], ?_, enterLog_flag_of_full noneTakes full⟩
      rw [log]
      exact toNat_satAdd_max64 _ _
    · exact ⟨_, exec_logReport_some taken, enterLog_lreps _ _, enterLog_log_of_takes recs before takes⟩
    · exact ⟨_, exec_logReport_some taken, enterLog_sets _ hf hc⟩
  case step =>
    intro i x accepts disabled
    have hi : i < 192 := by have := m.isLt; have := j.isLt; simp only [i, ctxIx]; omega
    have addr : (BitVec.ofNat 48 (setterPage i 0x48)).toNat = setterPage i 0x48 :=
      BitVec.toNat_ofNat _ _ ▸ Nat.mod_eq_of_lt (setterPage_lt hi (by decide))
    rw [exec_registerWrite_accepted, addr]
    · exact congrArg _ (ctlPut_setter_step h hi disabled v)
    · rw [addr, ctlAccepts_setterPage s h hi (by decide)]; exact accepts

end Sys2Proof.Machine
end

section
/-! PROOFS. The tile file of a cell: what a register, a quad and a window byte hold after a write (06 R143 to R145, 01 R24), and O27. -/

namespace Sys2Proof.Machine

/-! ### Registers and quads -/

theorem vget_setIfInBounds_ne {α : Type} {n : Nat} [Inhabited α] (v : Vector α n) {i j : Nat} (x : α) (h : i ≠ j) :
    vget (v.setIfInBounds i x) j = vget v j := by
  simp only [vget, Vector.getElem?_setIfInBounds_ne h]

theorem vget_setIfInBounds_same {α : Type} {n : Nat} [Inhabited α] (v : Vector α n) {i : Nat} (x : α) (h : i < n) :
    vget (v.setIfInBounds i x) i = x := by
  simp [vget, h]

/-- Values cut from a number and put together again. -/
theorem packN_unpackN (w n v : Nat) : packN w (unpackN w n v) = v % 2 ^ (w * n) := by
  induction n generalizing v with
  | zero => rw [Nat.mul_zero, Nat.pow_zero, Nat.mod_one]; rfl
  | succ n ih =>
    have rest : packN w (unpackN w (n + 1) v) = packN w (unpackN w n (v >>> w)) * 2 ^ w + v % 2 ^ w % 2 ^ w := rfl
    rw [rest, ih, Nat.mod_mod, Nat.shiftRight_eq_div_pow, Nat.mul_succ, Nat.add_comm (w * n), Nat.pow_add, Nat.mod_mul,
      Nat.mul_comm, Nat.add_comm]

theorem length_unpackN (w n v : Nat) : (unpackN w n v).length = n := by
  induction n generalizing v with
  | zero => rfl
  | succ n ih => rw [unpackN, List.length_cons, ih]

theorem toNat_of_mem_unpackN {w n v x : Nat} (h : x ∈ unpackN w n v) : (BitVec.ofNat w x).toNat = x := by
  induction n generalizing v with
  | zero => cases h
  | succ n ih =>
    rcases List.mem_cons.mp h with rfl | h
    · exact (BitVec.toNat_ofNat _ _).trans (Nat.mod_mod _ _)
    · exact ih h

theorem Cell.vget_writeRegs_outside (k : Cell) (t : Nat) (vs : List Nat) {i : Nat} (h : i < t ∨ t + vs.length ≤ i) :
    vget (k.writeRegs t vs).t i = vget k.t i := by
  induction vs generalizing k t with
  | nil => rfl
  | cons v vs ih =>
    rw [List.length_cons] at h
    rw [Cell.writeRegs, ih _ _ (by omega), vget_setIfInBounds_ne _ _ (by omega)]

theorem Cell.vget_writeRegs (k : Cell) (t : Nat) (vs : List Nat) (room : t + vs.length ≤ 64) (i : Nat) (h : i < vs.length) :
    vget (k.writeRegs t vs).t (t + i) = BitVec.ofNat 8192 vs[i] := by
  induction vs generalizing k t i with
  | nil => cases h
  | cons v vs ih =>
    rw [List.length_cons] at room h
    cases i with
    | zero => rw [Cell.writeRegs, Cell.vget_writeRegs_outside _ _ _ (by omega)]; exact vget_setIfInBounds_same _ _ (by omega)
    | succ i =>
      have place : t + (i + 1) = t + 1 + i := by omega
      rw [Cell.writeRegs, place]
      exact ih _ (t + 1) (by omega) i (by omega)

/-- A group depends on its own registers alone. -/
theorem Cell.group_congr {k k' : Cell} {t n : Nat} (h : ∀ i < n, vget k'.t (t + i) = vget k.t (t + i)) : k'.group t n = k.group t n := by
  unfold Cell.group
  exact congrArg _ (List.map_congr_left fun i hi => by rw [h i (List.mem_range.mp hi)])

/-- A group written with the registers of a number is that number. -/
theorem Cell.group_writeRegs (k : Cell) (t n v : Nat) (room : t + n ≤ 64) :
    (k.writeRegs t (unpackN 8192 n v)).group t n = v % 2 ^ (8192 * n) := by
  have regs : ((List.range n).map fun i => (vget (k.writeRegs t (unpackN 8192 n v)).t (t + i)).toNat) = unpackN 8192 n v := by
    refine List.ext_getElem (by simp [length_unpackN]) fun i hi hi' => ?_
    rw [List.getElem_map, List.getElem_range, Cell.vget_writeRegs _ _ _ (by rwa [length_unpackN]) _ hi']
    exact toNat_of_mem_unpackN (List.getElem_mem hi')
  rw [Cell.group, regs, packN_unpackN]

/-- A group beside the registers written keeps its value. -/
theorem Cell.group_writeRegs_apart (k : Cell) {t u n : Nat} {vs : List Nat} (h : u + n ≤ t ∨ t + vs.length ≤ u) :
    (k.writeRegs t vs).group u n = k.group u n :=
  Cell.group_congr fun i hi => k.vget_writeRegs_outside t vs (by omega)

/-- The cell apart from its tile file: tile registers, their parity, and what is resident. -/
def Cell.offFile (k : Cell) : Cell :=
  { k with t := Vector.replicate 64 0, tbad := [], res := none, accDirty := false, accBad := false }

/-- A change of the tile file alone. -/
theorem Cell.eq_of_offFile {k k' : Cell} (h : k'.offFile = k.offFile) :
    k' = { k with t := k'.t, tbad := k'.tbad, res := k'.res, accDirty := k'.accDirty, accBad := k'.accBad } :=
  congrArg (fun x : Cell => { x with t := k'.t, tbad := k'.tbad, res := k'.res, accDirty := k'.accDirty, accBad := k'.accBad }) h

/-- What a write of registers leaves alone: all but the registers and their parity. -/
theorem Cell.writeRegs_keeps {α : Type} (f : Cell → α) (keep : ∀ (k : Cell) t tbad, f { k with t := t, tbad := tbad } = f k)
    (k : Cell) (t : Nat) (vs : List Nat) : f (k.writeRegs t vs) = f k := by
  induction vs generalizing k t with
  | nil => rfl
  | cons v vs ih => rw [Cell.writeRegs, ih, keep]

/-- What a write-back leaves alone: all but the registers, their parity and the mark of a newer accumulator. -/
theorem Cell.writeBack_keeps {α : Type} (f : Cell → α)
    (keep : ∀ (k : Cell) t tbad d, f { k with t := t, tbad := tbad, accDirty := d } = f k) (k : Cell) : f k.writeBack = f k := by
  unfold Cell.writeBack
  split
  · split
    · have regs := Cell.writeRegs_keeps (fun k : Cell => f { k with accDirty := false })
        (fun k t tbad => (keep k t tbad false).trans (keep k k.t k.tbad false).symm)
      exact (regs _ _ _).trans (keep k k.t k.tbad false)
    · rfl
  · rfl

@[simp] theorem Cell.writeBack_offFile (k : Cell) : k.writeBack.offFile = k.offFile :=
  Cell.writeBack_keeps _ (fun _ _ _ _ => rfl) k
@[simp] theorem Cell.writeBack_res (k : Cell) : k.writeBack.res = k.res := Cell.writeBack_keeps _ (fun _ _ _ _ => rfl) k
@[simp] theorem Cell.writeBack_accBad (k : Cell) : k.writeBack.accBad = k.accBad := Cell.writeBack_keeps _ (fun _ _ _ _ => rfl) k
@[simp] theorem Cell.writeBack_acc (k : Cell) : k.writeBack.acc = k.acc := Cell.writeBack_keeps _ (fun _ _ _ _ => rfl) k

/-- 06 R144: after a write-back the file holds the accumulator in the registers of the resident quad, and the rest as before. -/
theorem Cell.writeBack_group (k : Cell) (q : Fin 16) :
    k.writeBack.group (4 * q.val) 4 = if k.res = some q ∧ k.accDirty = true then k.acc.toNat else k.group (4 * q.val) 4 := by
  have apart : ∀ (k : Cell) d, ({ k with accDirty := d } : Cell).group (4 * q.val) 4 = k.group (4 * q.val) 4 := fun _ _ => rfl
  unfold Cell.writeBack
  cases resident : k.res with
  | none => simp
  | some r =>
    cases dirty : k.accDirty with
    | false => simp
    | true =>
      by_cases same : r = q
      · subst same
        simp only [apart, if_true, and_self]
        rw [Cell.group_writeRegs _ _ _ _ (by omega), Nat.mod_eq_of_lt k.acc.isLt]
      · have ne : r.val ≠ q.val := fun h => same (Fin.ext h)
        simp only [apart, if_true, Option.some.injEq, same, false_and, if_false]
        exact Cell.group_writeRegs_apart _ (by rw [length_unpackN]; omega)

/-- 06 R144: a write-back changes no quad's value. -/
@[simp] theorem Cell.writeBack_quad (k : Cell) (q : Fin 16) : k.writeBack.quad q = k.quad q := by
  rw [Cell.quad, Cell.quad, Cell.writeBack_res, Cell.writeBack_acc, Cell.writeBack_group]
  by_cases h : k.res = some q <;> simp [h]

@[simp] theorem Cell.endRes_offFile (k : Cell) : k.endRes.offFile = k.offFile := k.writeBack_offFile

/-- 06 R144, R145: the end of residency after the write-back that it needs; a quad that the file holds already is read there. -/
theorem Cell.endRes_quad (k : Cell) (q : Fin 16) :
    k.endRes.quad q = if k.res = some q ∧ k.accDirty = false then k.group (4 * q.val) 4 else k.quad q := by
  have group : k.endRes.quad q = k.writeBack.group (4 * q.val) 4 := rfl
  rw [group, Cell.writeBack_group, Cell.quad]
  by_cases h : k.res = some q <;> cases dirty : k.accDirty <;> simp [h]

/-! ### Tile windows -/

/-- 01 R25: a window read changes nothing that a write-back does not. -/
theorem Cell.windowRead_keeps {α : Type} (f : Cell → α) (keep : ∀ k : Cell, f k.writeBack = f k) (k : Cell) (off n : Nat) :
    f (k.windowRead off n) = f k := by
  unfold Cell.windowRead
  induction tileRegsOf off n generalizing k with
  | nil => rfl
  | cons t ts ih =>
    rw [List.foldl_cons, ih, Cell.forRead]
    split
    · exact keep k
    · rfl

/-- The residency that a write of registers ends (06 R145), and nothing but the tile file. -/
theorem Cell.foldl_forWrite_offFile (ts : List Nat) (k : Cell) : (ts.foldl (fun k t => k.forWrite t 1) k).offFile = k.offFile := by
  induction ts generalizing k with
  | nil => rfl
  | cons t ts ih =>
    rw [List.foldl_cons, ih, Cell.forWrite]
    split
    · exact k.endRes_offFile
    · rfl

theorem Cell.setTileBytes_offFile (k : Cell) (off : Nat) (bs : List Byte) : (k.setTileBytes off bs).offFile = k.offFile := by
  induction bs generalizing k off with
  | nil => rfl
  | cons v vs ih => rw [Cell.setTileBytes, ih]; rfl

theorem Cell.clearWords_keeps {α : Type} (f : Cell → α) (keep : ∀ (k : Cell) tbad, f { k with tbad := tbad } = f k)
    (k : Cell) (off n : Nat) : f (k.clearWords off n) = f k := by
  unfold Cell.clearWords
  induction List.range (n / 8 + 1) generalizing k with
  | nil => rfl
  | cons i is ih =>
    rw [List.foldl_cons, ih]
    dsimp only
    split
    · exact keep _ _
    · rfl

/-- 01 R24, R25: a window write changes the tile file alone. -/
theorem Cell.windowWrite_offFile (k : Cell) (off : Nat) (bs : List Byte) : (k.windowWrite off bs).offFile = k.offFile := by
  rw [Cell.windowWrite, Cell.clearWords_keeps Cell.offFile (fun _ _ => rfl), Cell.setTileBytes_offFile, Cell.foldl_forWrite_offFile]

/-- Byte `i` of a tile window (01 R24). -/
def Cell.tileByte (k : Cell) (i : Nat) : Byte := BitVec.ofNat 8 ((vget k.t (i / 1024)).toNat >>> (8 * (i % 1024)))

theorem tileBytes_eq (k : Cell) (off n : Nat) : tileBytes k off n = (List.range n).map fun i => k.tileByte (off + i) := rfl

/-- A field of a number that wraps beyond the field. -/
theorem mod_div_mod_pow {x w sh n : Nat} (h : sh + n ≤ w) : x % 2 ^ w / 2 ^ sh % 2 ^ n = x / 2 ^ sh % 2 ^ n := by
  rw [← Nat.mod_mul_right_div_self, ← Nat.mod_mul_right_div_self, ← Nat.pow_add, Nat.mod_mod_of_dvd _ (Nat.pow_dvd_pow 2 h)]

/-- A number with the byte at a bit replaced. -/
def replaceByte (x sh : Nat) (v : Byte) : Nat := x - fieldN x sh 8 * 2 ^ sh + v.toNat * 2 ^ sh

theorem replaceByte_div (x sh : Nat) (v : Byte) : replaceByte x sh v / 2 ^ sh % 2 ^ 8 = v.toNat := by
  have cut : (x - fieldN x sh 8 * 2 ^ sh) / 2 ^ sh = x / 2 ^ sh - fieldN x sh 8 := by rw [Nat.mul_comm, Nat.sub_mul_div]
  have byte := v.isLt
  rw [replaceByte, Nat.add_mul_div_right _ _ (Nat.two_pow_pos sh), cut, fieldN, Nat.shiftRight_eq_div_pow]
  omega

theorem replaceByte_mod (x sh : Nat) (v : Byte) : replaceByte x sh v % 2 ^ sh = x % 2 ^ sh := by
  have le : 2 ^ sh * fieldN x sh 8 ≤ x := by
    rw [fieldN, Nat.shiftRight_eq_div_pow]
    exact (Nat.mul_le_mul_left _ (Nat.mod_le _ _)).trans (Nat.mul_div_le x _)
  rw [replaceByte, Nat.add_mul_mod_self_right, Nat.mul_comm, Nat.sub_mul_mod le]

/-- A byte of a register after the byte was replaced. -/
theorem byte_replaceByte_same {w sh : Nat} (x : Nat) (v : Byte) (room : sh + 8 ≤ w) :
    BitVec.ofNat 8 ((BitVec.ofNat w (replaceByte x sh v)).toNat >>> sh) = v := by
  apply BitVec.eq_of_toNat_eq
  rw [BitVec.toNat_ofNat, BitVec.toNat_ofNat, Nat.shiftRight_eq_div_pow, mod_div_mod_pow room, replaceByte_div]

/-- A byte of a register after a higher one was replaced. -/
theorem byte_replaceByte_below {w sh lo : Nat} (x : Nat) (v : Byte) (room : sh + 8 ≤ w) (below : lo + 8 ≤ sh) :
    BitVec.ofNat 8 ((BitVec.ofNat w (replaceByte x sh v)).toNat >>> lo) = BitVec.ofNat 8 (x >>> lo) := by
  have cut (y : Nat) : y / 2 ^ lo % 2 ^ 8 = y % 2 ^ sh / 2 ^ lo % 2 ^ 8 := (mod_div_mod_pow below).symm
  apply BitVec.eq_of_toNat_eq
  rw [BitVec.toNat_ofNat, BitVec.toNat_ofNat, BitVec.toNat_ofNat, Nat.shiftRight_eq_div_pow, Nat.shiftRight_eq_div_pow,
    mod_div_mod_pow (by omega), cut, replaceByte_mod, ← cut]

theorem Cell.setTileByte_t (k : Cell) (i : Nat) (v : Byte) : (k.setTileByte i v).t =
    k.t.setIfInBounds (i / 1024) (BitVec.ofNat 8192 (replaceByte (vget k.t (i / 1024)).toNat (8 * (i % 1024)) v)) := rfl

theorem Cell.tileByte_setTileByte (k : Cell) {i : Nat} (v : Byte) (h : i < 65536) : (k.setTileByte i v).tileByte i = v := by
  rw [Cell.tileByte, Cell.setTileByte_t, vget_setIfInBounds_same _ _ (by omega)]
  exact byte_replaceByte_same _ v (by omega)

theorem Cell.tileByte_setTileByte_lt (k : Cell) {i j : Nat} (v : Byte) (h : i < j) : (k.setTileByte j v).tileByte i = k.tileByte i := by
  rw [Cell.tileByte, Cell.tileByte, Cell.setTileByte_t]
  by_cases same : j / 1024 = i / 1024
  · by_cases inFile : j / 1024 < 64
    · rw [← same, vget_setIfInBounds_same _ _ inFile]
      exact byte_replaceByte_below _ v (by omega) (by omega)
    · rw [Vector.setIfInBounds_eq_of_size_le (by omega)]
  · rw [vget_setIfInBounds_ne _ _ same]

theorem Cell.tileByte_setTileBytes_lt (k : Cell) {i off : Nat} (bs : List Byte) (h : i < off) :
    (k.setTileBytes off bs).tileByte i = k.tileByte i := by
  induction bs generalizing k off with
  | nil => rfl
  | cons v vs ih => rw [Cell.setTileBytes, ih _ (by omega), Cell.tileByte_setTileByte_lt _ _ h]

/-- 01 R24: the bytes written to a tile window are the bytes that it holds. -/
theorem tileBytes_setTileBytes (k : Cell) (off : Nat) (bs : List Byte) (room : off + bs.length ≤ 65536) :
    tileBytes (k.setTileBytes off bs) off bs.length = bs := by
  induction bs generalizing k off with
  | nil => rfl
  | cons v vs ih =>
    rw [List.length_cons] at room
    have first : (k.setTileBytes off (v :: vs)).tileByte off = v := by
      rw [Cell.setTileBytes, Cell.tileByte_setTileBytes_lt _ _ (by omega), Cell.tileByte_setTileByte _ _ (by omega)]
    have rest := ih (k.setTileByte off v) (off + 1) (by omega)
    rw [tileBytes_eq] at rest ⊢
    rw [List.length_cons, List.range_succ_eq_map, List.map_cons, List.map_map, Nat.add_zero, first]
    refine congrArg _ (Eq.trans (List.map_congr_left fun i _ => ?_) rest)
    show Cell.tileByte _ (off + (i + 1)) = _
    rw [Nat.add_comm i, ← Nat.add_assoc]
    rfl

theorem tileBytes_windowWrite (k : Cell) (off : Nat) (bs : List Byte) (room : off + bs.length ≤ 65536) :
    tileBytes (k.windowWrite off bs) off bs.length = bs := by
  rw [Cell.windowWrite, Cell.clearWords_keeps (tileBytes · off bs.length) (fun _ _ => rfl)]
  exact tileBytes_setTileBytes _ off bs room

/-! ### Gating, waking and draining -/

theorem exec_tileArrayGate {s : State} {c : CellId} (held : (s.cell c).held = false) (faulted : (s.cell c).faulted = false)
    (mode : (s.cell c).tpwr.getLsbD 0 = true) (waking : (s.cell c).twaking = false) (idle : (s.cell c).tpend = []) :
    exec (.tileArrayGate c false) s = .next (s.setCell c { (s.cell c).endRes with tgated := true }) := by
  show execTileArrayGate c false s = _
  simp [execTileArrayGate, held, faulted, mode, waking, idle, next]

theorem exec_tileArrayGate_accBad {s : State} {c : CellId} (held : (s.cell c).held = false) (faulted : (s.cell c).faulted = false)
    (mode : (s.cell c).tpwr.getLsbD 0 = true) (waking : (s.cell c).twaking = false) (idle : (s.cell c).tpend = [])
    (resident : (s.cell c).res.isSome = true) (dirty : (s.cell c).accDirty = true) :
    exec (.tileArrayGate c true) s = .next (accFault s c) := by
  show execTileArrayGate c true s = _
  simp [execTileArrayGate, held, faulted, mode, waking, idle, resident, dirty, next]

theorem exec_tileArrayWakeEnd {s : State} {c : CellId} (waking : (s.cell c).twaking = true) :
    exec (.tileArrayWakeEnd c) s = .next (s.updCell c fun k => { k with tgated := false, twaking := false }) := by
  show execTileArrayWakeEnd c s = _
  simp only [execTileArrayWakeEnd, State.updCell, waking, if_true, next]

/-- The gated cell: the tile file as the end of residency leaves it, and nothing else. -/
theorem Cell.gated_eq (k : Cell) : { k.endRes with tgated := true } = { k with
    tgated := true, res := none, accDirty := false, accBad := false, t := k.endRes.t, tbad := k.endRes.tbad } :=
  congrArg (fun x : Cell => { x with tgated := true }) (Cell.eq_of_offFile k.endRes_offFile)

/-- The traffic of a drained tile, counted where it crosses the inter-region bridge (16 R392). -/
def countDrain (s : State) (c : CellId) (x : Tile) : State :=
  if regionOfCtl (x.bucket.toNat % 24) = regionOfCell c then s
  else countPart s (ownerOfBlock s (blockOfCell c)) 11 (16 + x.payload.length)

theorem countPart_eq (s : State) (p : Option Nat) (k n : Nat) : countPart s p k n = { s with parts := (countPart s p k n).parts } := by
  cases p <;> rfl

theorem countDrain_eq (s : State) (c : CellId) (x : Tile) : countDrain s c x = { s with parts := (countDrain s c x).parts } := by
  unfold countDrain
  split
  · rfl
  · exact countPart_eq _ _ _ _

theorem exec_drainPacketSend {s : State} {c : CellId} {x : Tile} (filled : (s.cell c).drain = some x)
    (room : localUsed s (x.bucket.toNat % 24) < localCap s (x.bucket.toNat % 24))
    (free : pathHeld s (blockOfCell c) (c.val % 8) (regionOfCtl (x.bucket.toNat % 24)) = false) :
    exec (.drainPacketSend c) s = .next { (countDrain s c x).setCell c { s.cell c with drain := none } with
      tiles := s.tiles ++ [⟨c, (s.cell c).hall, x⟩] } := by
  have tiles : (countDrain s c x).tiles = s.tiles := by rw [countDrain_eq]
  show execDrainPacketSend c s = _
  rw [← tiles]
  simp only [execDrainPacketSend, filled, room, free, and_self, if_true, next, countDrain]

/-! ### Accesses to a tile window -/

theorem commitAll_wakeBlock {s : State} {c : Nat} (b : Nat) (idle : (s.cell c).tpend = []) :
    commitAll (wakeBlock s b) c = wakeBlock s b := by
  refine commitAll_nil _ _ (Eq.trans (congrArg Cell.tpend ?_) idle)
  unfold wakeBlock
  dsimp only
  split <;> rfl

theorem wakeBlock_cell (s : State) (b c : Nat) : (wakeBlock s b).cell c = s.cell c := by
  unfold wakeBlock
  dsimp only
  split <;> rfl

/-- The bytes that a window access names. -/
def accessLen : WinOp → Nat
  | .rd n => n
  | .wr data => data.length

section
variable {s : State} {ag : Agent} {c : CellId} {off : BitVec 16}

theorem exec_tileWindowAccess_held (op : WinOp) (acc : Bool) (held : windowPathHeld s ag c = true) :
    exec (.tileWindowAccess ag c off op acc) s = .next s := by
  show execTileWindowAccess ag c off op acc s = _
  simp only [execTileWindowAccess, held, Bool.or_true, if_true, next]

theorem exec_tileWindowAccess_refused (op : WinOp) (acc : Bool) (free : windowPathHeld s ag c = false)
    (room : off.toNat + accessLen op ≤ 65536) (service : (s.block (blockOfCell c)).oos = false)
    (refuses : hallOk (hallOfBlock s (blockOfCell c)) (Agent.hall s ag) = false) :
    let a := 0x20000000000 + 0x10000 * c.val + off.toNat
    exec (.tileWindowAccess ag c off op acc) s = .next (windowEnd (refusedAtUnit s a) ag 2 0 a) := by
  have fits : ¬ off.toNat + accessLen op > 65536 := by omega
  show execTileWindowAccess ag c off op acc s = _
  cases op <;> simp only [accessLen] at fits <;> simp [execTileWindowAccess, free, fits, service, refuses, next]

/-- An access to a running block's cell none of whose tile instructions waits is performed. -/
theorem exec_tileWindowAccess_do (op : WinOp) (acc : Bool) (free : windowPathHeld s ag c = false)
    (room : off.toNat + accessLen op ≤ 65536) (service : (s.block (blockOfCell c)).oos = false)
    (accepts : hallOk (hallOfBlock s (blockOfCell c)) (Agent.hall s ag) = true)
    (awake : (s.block (blockOfCell c)).st = .run ∨ (s.block (blockOfCell c)).st = .poise) (idle : (s.cell c).tpend = []) :
    exec (.tileWindowAccess ag c off op acc) s = .next (windowDo (wakeBlock s (blockOfCell c)) ag c off.toNat op acc) := by
  have fits : ¬ off.toNat + accessLen op > 65536 := by omega
  have commits := commitAll_wakeBlock (blockOfCell c) idle
  show execTileWindowAccess ag c off op acc s = _
  cases op <;> simp only [accessLen] at fits <;> rcases awake with awake | awake <;>
    simp [execTileWindowAccess, free, fits, service, accepts, awake, commits, Cell.windowHeld, wakeBlock_cell, idle, next]

/-- A block in Nap or Doze wakes first; one in Dormant fails the access. -/
theorem exec_tileWindowAccess_asleep (op : WinOp) (acc : Bool) (free : windowPathHeld s ag c = false)
    (room : off.toNat + accessLen op ≤ 65536) (service : (s.block (blockOfCell c)).oos = false)
    (accepts : hallOk (hallOfBlock s (blockOfCell c)) (Agent.hall s ag) = true) :
    ((s.block (blockOfCell c)).st = .nap ∨ (s.block (blockOfCell c)).st = .doze →
      exec (.tileWindowAccess ag c off op acc) s = .next (wakeBlock s (blockOfCell c))) ∧
    ((s.block (blockOfCell c)).st = .dormant → exec (.tileWindowAccess ag c off op acc) s =
      .next (windowEnd s ag 1 3 (0x20000000000 + 0x10000 * c.val + off.toNat))) := by
  have fits : ¬ off.toNat + accessLen op > 65536 := by omega
  constructor
  · intro asleep
    show execTileWindowAccess ag c off op acc s = _
    cases op <;> simp only [accessLen] at fits <;> rcases asleep with asleep | asleep <;>
      simp [execTileWindowAccess, free, fits, service, accepts, asleep, next]
  · intro dormant
    show execTileWindowAccess ag c off op acc s = _
    cases op <;> simp only [accessLen] at fits <;> simp [execTileWindowAccess, free, fits, service, accepts, dormant, next]
end

theorem windowDo_wr (s : State) (ag : Agent) (c : CellId) (off : Nat) (data : List Byte) :
    windowDo s ag c off (.wr data) false = s.setCell c ((s.cell c).windowWrite off data) := rfl

theorem windowDo_rd {s : State} (ag : Agent) {c : CellId} {off n : Nat}
    (good : tileReadBad ((s.cell c).windowRead off n) off n = none) :
    windowDo s ag c off (.rd n) false = s.setCell c ((s.cell c).windowRead off n) := by
  simp only [windowDo, Bool.false_and, Bool.false_eq_true, if_false, good]

/-- The cell after a window read: the write-back alone (01 R25). -/
theorem Cell.windowRead_eq (k : Cell) (off n : Nat) : k.windowRead off n = { k with
    t := (k.windowRead off n).t, tbad := (k.windowRead off n).tbad, accDirty := (k.windowRead off n).accDirty } := by
  have res := Cell.windowRead_keeps Cell.res Cell.writeBack_res k off n
  have accBad := Cell.windowRead_keeps Cell.accBad Cell.writeBack_accBad k off n
  have file := Cell.eq_of_offFile (Cell.windowRead_keeps Cell.offFile Cell.writeBack_offFile k off n)
  rwa [res, accBad] at file

/-- Settles O27: gating is `Cell.endRes`, a window write `Cell.windowWrite` and a window read `Cell.windowRead`, whose effects on
registers, quads and window bytes the lemmas above give. -/
theorem tileFileComplete : Obligations.TileFileComplete := by
  refine ⟨fun s c => ⟨fun held faulted mode waking idle => ⟨?gate, fun resident dirty => ?fault⟩, exec_tileArrayWakeEnd, ?drain⟩,
    fun s ag c off data n op acc => ⟨exec_tileWindowAccess_held op acc, fun service free => ⟨fun accepts => ⟨fun awake idle =>
      ⟨fun room => ?write, fun room good => ?read⟩, fun room => ?asleep⟩, fun refuses room => ?refused⟩⟩⟩
  case gate =>
    refine ⟨_, exec_tileArrayGate held faulted mode waking idle, ?_⟩
    rw [State.cell_setCell_same]
    exact ⟨rfl, rfl, (s.cell c).endRes_quad, congrArg (s.setCell c) (Cell.gated_eq _)⟩
  case fault => exact exec_tileArrayGate_accBad held faulted mode waking idle resident dirty
  case drain =>
    intro x filled m room free
    refine ⟨_, exec_drainPacketSend filled room free, rfl, State.cell_setCell_same _ _ _, fun y ne => ?_, fun near => ?_, ?_⟩
    · exact (State.cell_setCell_ne (countDrain s c x) _ ne.symm).trans (by rw [countDrain_eq]; rfl)
    · show (countDrain s c x).parts = s.parts
      rw [countDrain, if_pos near]
    · rw [countDrain_eq]; rfl
  case write =>
    refine ⟨_, exec_tileWindowAccess_do (.wr data) false free room service accepts awake idle, ?_⟩
    rw [windowDo_wr, State.cell_setCell_same, wakeBlock_cell]
    refine ⟨tileBytes_windowWrite _ _ _ room, congrArg (State.setCell _ c) ?_⟩
    rw [wakeBlock_cell]
    exact Cell.eq_of_offFile (Cell.windowWrite_offFile _ _ _)
  case read =>
    refine ⟨_, exec_tileWindowAccess_do (.rd n) false free room service accepts awake idle, ?_⟩
    rw [windowDo_rd ag (by rwa [wakeBlock_cell]), State.cell_setCell_same, wakeBlock_cell]
    refine ⟨Cell.windowRead_keeps Cell.res Cell.writeBack_res _ _ _,
      fun q => Cell.windowRead_keeps (Cell.quad · q) (Cell.writeBack_quad · q) _ _ _, congrArg (State.setCell _ c) ?_⟩
    rw [wakeBlock_cell]
    exact Cell.windowRead_eq _ _ _
  case asleep => exact exec_tileWindowAccess_asleep op acc free (by cases op <;> exact room) service accepts
  case refused => exact exec_tileWindowAccess_refused op acc free (by cases op <;> exact room) service refuses

end Sys2Proof.Machine
end

section
/-! PROOFS. What moving lines through the caches leaves alone (03 R67, R74 to R79): the units beside the caches and memory, the cells' own
state, and, while no cache holds bytes of its own, the bytes of memory. -/

namespace Sys2Proof.Machine

/-! ### Partition counters -/

theorem vector_getElem?_setIfInBounds {α : Type} {n : Nat} (v : Vector α n) (i j : Nat) (x : α) :
    (v.setIfInBounds i x)[j]? = if i = j ∧ j < n then some x else v[j]? := by
  by_cases h : i = j
  · subst h
    by_cases hn : i < n
    · simp [hn]
    · simp [Vector.setIfInBounds_eq_of_size_le (Nat.le_of_not_lt hn), hn]
  · simp [Vector.getElem?_setIfInBounds_ne h, h]

/-- What a partition's counters do not hold, a count leaves alone (16 R392). -/
theorem countPart_part_keeps {α : Type} (f : Part → α) (keep : ∀ (x : Part) cnt, f { x with cnt := cnt } = f x) (s : State)
    (p : Option Nat)
    (k n q : Nat) : f ((countPart s p k n).part q) = f (s.part q) := by
  cases p with
  | none => rfl
  | some p =>
    by_cases same : p = q
    · subst same
      by_cases inside : p < 16
      · exact (congrArg f (s.part_setPart_same _ inside)).trans (keep _ _)
      · simp only [countPart, State.setPart, State.part, Vector.setIfInBounds_eq_of_size_le (Nat.le_of_not_lt inside)]
    · exact congrArg f (s.part_setPart_ne _ same)

/-- A byte of memory depends on its entries in the two lists of bytes and, of the partitions, on their windows, hallmarks and epochs. -/
theorem memByte_congr_parts {s t : State} (sram : t.sram = s.sram) (lpddr : t.lpddr = s.lpddr)
    (part : ∀ p, ((t.part p).hall, (t.part p).wins, (t.part p).epoch) = ((s.part p).hall, (s.part p).wins, (s.part p).epoch)) (a : Nat) :
    memByte t a = memByte s a := by
  simp only [Prod.mk.injEq] at part
  have owner : ownerOfMem t a = ownerOfMem s a := by simp only [ownerOfMem, part]
  simp only [memByte, sram, lpddr, owner, part]

@[simp] theorem memByte_countPart (s : State) (p : Option Nat) (k n a : Nat) : memByte (countPart s p k n) a = memByte s a :=
  memByte_congr_parts (countPart_sram _ _ _ _) (countPart_lpddr _ _ _ _)
    (countPart_part_keeps (fun x => (x.hall, x.wins, x.epoch)) (fun _ _ => rfl) s p k n) a

/-! ### The relation -/

/-- A cell apart from its caches and its deferred error. -/
def Cell.offCaches (k : Cell) : Cell := { k with l1i := Cache.reset, l1d := Cache.reset, defErr := none }

theorem apart_of_offCaches {k k' : Cell} (h : k'.offCaches = k.offCaches) : apart k k' = k :=
  congrArg (fun x : Cell => { x with l1i := k.l1i, l1d := k.l1d, defErr := k.defErr }) h

/-- The state apart from what moving lines may change: cells, blocks, regions, partitions, memory, reports to the block collectors, and the
free values drawn. -/
def State.offCaches (s : State) : State :=
  { s with
    cells := [], blocks := [], regions := Vector.replicate 4 Region.reset, parts := Vector.replicate 16 Part.reset
    sram := [], lpddr := [], poison := [], breps := [], draws := 0 }

/-- A line is no worse than those of a state: it is poisoned only where some line there is, and has bytes of its own only where some cache
there has. -/
def CLine.Quiet (s : State) (x : CLine) : Prop := (Unpoisoned s → x.poison = false) ∧ (Coherent s → x.data = none)

/-- So are all lines of a cache. -/
def Cache.Quiet (s : State) (k : Cache) : Prop := ∀ e ∈ k.lines, e.2.Quiet s

/-- From `s` to `t` lines moved through the caches, and no byte of memory below `lo` was written. -/
structure Moves (lo : Nat) (s t : State) : Prop where
  units : t.offCaches = s.offCaches
  cell : ∀ c, (t.cell c).offCaches = (s.cell c).offCaches
  below : ∀ a < lo, memByte t a = memByte s a
  clean : Unpoisoned s → Unpoisoned t ∧ ∀ c, (t.cell c).defErr = (s.cell c).defErr
  same : Coherent s → Coherent t ∧ ∀ a, memByte t a = memByte s a

variable {lo : Nat} {s t : State}

theorem Moves.refl (lo : Nat) (s : State) : Moves lo s s :=
  ⟨rfl, fun _ => rfl, fun _ _ => rfl, fun h => ⟨h, fun _ => rfl⟩, fun h => ⟨h, fun _ => rfl⟩⟩

theorem Moves.trans {u : State} (m : Moves lo s t) (n : Moves lo t u) : Moves lo s u where
  units := n.units.trans m.units
  cell c := (n.cell c).trans (m.cell c)
  below a h := (n.below a h).trans (m.below a h)
  clean h :=
    have ⟨mClean, mErr⟩ := m.clean h
    have ⟨nClean, nErr⟩ := n.clean mClean
    ⟨nClean, fun c => (nErr c).trans (mErr c)⟩
  same h :=
    have ⟨mSame, mByte⟩ := m.same h
    have ⟨nSame, nByte⟩ := n.same mSame
    ⟨nSame, fun a => (nByte a).trans (mByte a)⟩

/-- A change of what neither caches, cells nor bytes of memory depend on. -/
theorem Moves.aside {u : State} (m : Moves lo s t) (units : u.offCaches = t.offCaches) (cells : u.cells = t.cells)
    (l2 : ∀ b, (u.block b).l2 = (t.block b).l2) (poison : t.poison = [] → u.poison = []) (byte : ∀ a, memByte u a = memByte t a) :
    Moves lo s u := by
  have cell (c : Nat) : u.cell c = t.cell c := by rw [State.cell, State.cell, cells]
  refine m.trans ⟨units, fun c => by rw [cell], fun a _ => byte a, fun h => ?_, fun h => ?_⟩
  · obtain ⟨none, l1, block⟩ := h
    exact ⟨⟨poison none, fun c => by rw [cell]; exact l1 c, fun b => by rw [l2]; exact block b⟩, fun c => by rw [cell]⟩
  · obtain ⟨l1, block⟩ := h
    exact ⟨⟨fun c => by rw [cell]; exact l1 c, fun b => by rw [l2]; exact block b⟩, byte⟩

theorem Moves.countPart (m : Moves lo s t) (p : Option Nat) (k n : Nat) : Moves lo s (countPart t p k n) :=
  m.aside (by rw [countPart_eq]; rfl) (countPart_cells _ _ _ _) (fun b => by rw [countPart_block])
    (fun h => (countPart_poison _ _ _ _).trans h) (memByte_countPart t p k n)

theorem Moves.draw (m : Moves lo s t) : Moves lo s (draw t).2 :=
  m.aside rfl rfl (fun _ => rfl) id fun _ => rfl

/-- A change of a block that keeps its L2. -/
theorem Moves.setBlock (m : Moves lo s t) (b : Nat) {x : Block} (l2 : x.l2 = (t.block b).l2) : Moves lo s (t.setBlock b x) := by
  refine m.aside rfl rfl (fun g => ?_) id fun _ => rfl
  rw [State.block_setBlock]
  split
  · next h => rw [l2, h]
  · rfl

theorem Moves.wakeGroup (m : Moves lo s t) (a : Nat) : Moves lo s (wakeGroup t a) := by
  unfold Machine.wakeGroup
  split
  · dsimp only
    split
    · exact m.setBlock _ rfl
    · exact m.setBlock _ rfl
    · exact m
  · exact m.aside rfl rfl (fun _ => rfl) id fun _ => rfl
  · exact m

theorem Moves.clearPoison (m : Moves lo s t) (a n : Nat) : Moves lo s (clearPoison t a n) :=
  m.aside rfl rfl (fun _ => rfl) (fun h => by rw [Machine.clearPoison, h]; rfl) fun _ => rfl

/-- A change that cannot happen where nothing is poisoned and that writes no byte of memory: a record, a deferred error, a poisoned line. -/
theorem Moves.poisoning {u : State} (m : Moves lo s t) (bad : ¬ Unpoisoned s) (units : u.offCaches = t.offCaches)
    (cell : ∀ c, (u.cell c).offCaches = (t.cell c).offCaches ∧ (u.cell c).l1d = (t.cell c).l1d) (blocks : u.blocks = t.blocks)
    (byte : ∀ a, memByte u a = memByte t a) : Moves lo s u := by
  have block (b : Nat) : u.block b = t.block b := by rw [State.block, State.block, blocks]
  refine ⟨units.trans m.units, fun c => (cell c).1.trans (m.cell c), fun a h => (byte a).trans (m.below a h), fun h => absurd h bad,
    fun h => ?_⟩
  obtain ⟨⟨l1, l2⟩, same⟩ := m.same h
  exact ⟨⟨fun c => by rw [(cell c).2]; exact l1 c, fun b => by rw [block]; exact l2 b⟩, fun a => (byte a).trans (same a)⟩

theorem Moves.poisonLine (m : Moves lo s t) (bad : ¬ Unpoisoned s) (a : Nat) : Moves lo s (poisonLine t a) :=
  m.poisoning bad rfl (fun _ => ⟨rfl, rfl⟩) rfl fun _ => rfl

theorem Moves.deferError (m : Moves lo s t) (bad : ¬ Unpoisoned s) (d : Byte) (a : Nat) : Moves lo s (deferError t d a) := by
  unfold Machine.deferError
  split
  · refine m.poisoning bad rfl (fun c => ?_) rfl fun _ => rfl
    rw [deferAt, State.cell_updCell]
    split
    · next h => subst h; exact ⟨rfl, rfl⟩
    · exact ⟨rfl, rfl⟩
  · exact m

theorem Moves.reportBlock (m : Moves lo s t) (b : Nat) (origin : W32) (cls : W16) (own : Option Nat) (detail : W64) :
    Moves lo s (reportBlock t b origin cls own detail) := by
  unfold Machine.reportBlock reportBlockVia
  split
  · exact m.aside rfl rfl (fun _ => rfl) id fun _ => rfl
  · exact m

theorem Moves.noteBadLine (m : Moves lo s t) (bad : ¬ Unpoisoned s) (b a : Nat) : Moves lo s (noteBadLine t b a) :=
  (m.reportBlock b _ _ _ _).deferError bad 0 a

/-- A byte of memory written changes the two lists of bytes alone. -/
theorem setMemByte_keeps {β : Type} (f : State → β) (sram : ∀ s l, f { s with sram := l } = f s)
    (lpddr : ∀ s l, f { s with lpddr := l } = f s) (s : State) (a : Nat) (v : Byte) : f (setMemByte s a v) = f s := by
  unfold setMemByte
  split
  · exact sram _ _
  · exact lpddr _ _
  · rfl

/-- Bytes written to memory from `lo` on, which no cache that follows memory does. -/
theorem Moves.putMem (m : Moves lo s t) (own : ¬ Coherent s) {a : Nat} (h : lo ≤ a) (bs : List Byte) : Moves lo s (putMem t a bs) := by
  induction bs generalizing a t with
  | nil => exact m
  | cons v vs ih =>
    have cells := setMemByte_keeps State.cells (fun _ _ => rfl) (fun _ _ => rfl) t a v
    have blocks := setMemByte_keeps State.blocks (fun _ _ => rfl) (fun _ _ => rfl) t a v
    have poison := setMemByte_keeps State.poison (fun _ _ => rfl) (fun _ _ => rfl) t a v
    have cell (c : Nat) : (setMemByte t a v).cell c = t.cell c := by rw [State.cell, State.cell, cells]
    have block (b : Nat) : (setMemByte t a v).block b = t.block b := by rw [State.block, State.block, blocks]
    refine ih ⟨(setMemByte_keeps State.offCaches (fun _ _ => rfl) (fun _ _ => rfl) t a v).trans m.units,
      fun c => by rw [cell]; exact m.cell c,
      fun x hx => (memByte_setMemByte_ne _ _ (by omega)).trans (m.below x hx), fun hs => ?_, fun hs => absurd hs own⟩ (by omega)
    obtain ⟨⟨none, l1, l2⟩, err⟩ := m.clean hs
    exact ⟨⟨poison.trans none, fun c => by rw [cell]; exact l1 c, fun b => by rw [block]; exact l2 b⟩,
      fun c => by rw [cell]; exact err c⟩

theorem Moves.l2_quiet (m : Moves lo s t) (b : Nat) : (t.block b).l2.Quiet s := fun e he =>
  ⟨fun h => (m.clean h).1.2.2 b e he, fun h => (m.same h).1.2 b e he⟩

theorem Moves.l1_quiet (m : Moves lo s t) (c : Nat) : (t.cell c).l1d.Quiet s := fun e he =>
  ⟨fun h => (m.clean h).1.2.1 c e he, fun h => (m.same h).1.1 c e he⟩

/-- The lines of a block's L2 changed. -/
theorem Moves.setL2 (m : Moves lo s t) (b : Nat) {k : Cache} (quiet : k.Quiet s) :
    Moves lo s (t.setBlock b { t.block b with l2 := k }) := by
  have lines (g : Nat) : ((t.setBlock b { t.block b with l2 := k }).block g).l2.Quiet s := by
    rw [State.block_setBlock]
    split
    · exact quiet
    · exact m.l2_quiet g
  refine ⟨m.units, m.cell, m.below, fun h => ?_, fun h => ?_⟩
  · obtain ⟨⟨none, l1, -⟩, err⟩ := m.clean h
    exact ⟨⟨none, l1, fun g e he => (lines g e he).1 h⟩, err⟩
  · obtain ⟨⟨l1, -⟩, byte⟩ := m.same h
    exact ⟨⟨l1, fun g e he => (lines g e he).2 h⟩, byte⟩

/-- The lines of a cell's L1 data cache changed. -/
theorem Moves.setL1 (m : Moves lo s t) (c : Nat) {f : Cache → Cache} (quiet : (f (t.cell c).l1d).Quiet s) :
    Moves lo s (t.updCell c fun y => { y with l1d := f y.l1d }) := by
  have cell (g : Nat) : ((t.updCell c fun y => { y with l1d := f y.l1d }).cell g).offCaches = (t.cell g).offCaches ∧
      ((t.updCell c fun y => { y with l1d := f y.l1d }).cell g).defErr = (t.cell g).defErr := by
    rw [State.cell_updCell]
    split
    · next h => subst h; exact ⟨rfl, rfl⟩
    · exact ⟨rfl, rfl⟩
  have lines (g : Nat) : ((t.updCell c fun y => { y with l1d := f y.l1d }).cell g).l1d.Quiet s := by
    rw [State.cell_updCell]
    split
    · exact quiet
    · exact m.l1_quiet g
  refine ⟨m.units, fun g => (cell g).1.trans (m.cell g), m.below, fun h => ?_, fun h => ?_⟩
  · obtain ⟨⟨none, -, l2⟩, err⟩ := m.clean h
    exact ⟨⟨none, fun g e he => (lines g e he).1 h, l2⟩, fun g => (cell g).2.trans (err g)⟩
  · obtain ⟨⟨-, l2⟩, byte⟩ := m.same h
    exact ⟨⟨fun g e he => (lines g e he).2 h, l2⟩, byte⟩

/-! ### Lines found, put and dropped -/

theorem Cache.mem_of_find {k : Cache} {l : Nat} {x : CLine} (h : k.find l = some x) : ∃ i, (i, x) ∈ k.lines := by
  unfold Cache.find at h
  split at h
  · next e found => exact ⟨e.1, Option.some.inj h ▸ List.mem_of_find?_eq_some found⟩
  · cases h

theorem Cache.Quiet.find {k : Cache} (quiet : k.Quiet s) {l : Nat} {x : CLine} (h : k.find l = some x) : x.Quiet s :=
  have ⟨_, mem⟩ := Cache.mem_of_find h
  quiet _ mem

theorem Cache.Quiet.putLine {k : Cache} (quiet : k.Quiet s) (l : Nat) {x : CLine} (h : x.Quiet s) : (k.putLine l x).Quiet s := by
  intro e he
  rcases Tab.mem_put _ _ _ _ he with rfl | he
  · exact h
  · exact quiet e he

theorem Cache.Quiet.dropLine {k : Cache} (quiet : k.Quiet s) (l : Nat) : (k.dropLine l).Quiet s :=
  fun e he => quiet e (Tab.mem_erase _ _ _ he)

theorem CLine.Quiet.unpoisoned {x : CLine} (h : x.Quiet s) (p : x.poison = true) : ¬ Unpoisoned s := fun hs => by
  rw [h.1 hs] at p; cases p

theorem CLine.Quiet.notCoherent {x : CLine} (h : x.Quiet s) {bs : List Byte} (d : x.data = some bs) : ¬ Coherent s := fun hs => by
  rw [h.2 hs] at d; cases d

/-! ### Lines moved -/

/-- A dirty line written back to memory (03 R67, R74). -/
theorem Moves.writeBackLine (m : Moves lo s t) (b : Nat) {l : Nat} {x : CLine} (quiet : x.Quiet s) (h : lo ≤ 128 * l) :
    Moves lo s (writeBackLine t b l x) := by
  unfold Machine.writeBackLine
  split
  · exact m
  · have powered := (m.wakeGroup (128 * l)).countPart (ownerOfBlock t b) 10 128
    have written : Moves lo s (match x.data with
        | some bs => memWrite (countBulk (Machine.wakeGroup t (128 * l)) (ownerOfBlock t b) 128) (128 * l) bs
        | none => Machine.clearPoison (countBulk (Machine.wakeGroup t (128 * l)) (ownerOfBlock t b) 128) (128 * l) 128) := by
      split
      · next bs own => exact (powered.clearPoison _ _).putMem (quiet.notCoherent own) h bs
      · exact powered.clearPoison _ _
    dsimp only
    split
    · next bad => exact (written.poisonLine (quiet.unpoisoned bad) _).noteBadLine (quiet.unpoisoned bad) b _
    · exact written

/-- A dirty line of an L1 moved to the L2 of its block, or to memory (03 R74). -/
theorem Moves.writeBackL1 (m : Moves lo s t) (b : Nat) {l : Nat} {x : CLine} (quiet : x.Quiet s) (h : lo ≤ 128 * l) :
    Moves lo s (writeBackL1 t b l x) := by
  have put {u : State} (n : Moves lo s u) {y : CLine} (hy : y.Quiet s) :
      Moves lo s (if x.poison = true then
        Machine.noteBadLine (u.setBlock b { u.block b with l2 := (u.block b).l2.putLine l y }) b (128 * l)
      else u.setBlock b { u.block b with l2 := (u.block b).l2.putLine l y }) := by
    have moved := n.setL2 b ((n.l2_quiet b).putLine l hy)
    split
    · next bad => exact moved.noteBadLine (quiet.unpoisoned bad) b _
    · exact moved
  unfold Machine.writeBackL1
  dsimp only
  split
  · exact m
  · split
    · exact m.writeBackLine b quiet h
    · next y found =>
      have hy : y.Quiet s := by
        split at found
        · exact (m.l2_quiet b).find found
        · cases found
      split
      · exact put m ⟨quiet.1, hy.2⟩
      · next own _ => exact put m ⟨quiet.1, fun hs => absurd hs (quiet.notCoherent own)⟩
      · next own _ => exact put (m.putMem (quiet.notCoherent own) h _) ⟨quiet.1, fun _ => rfl⟩

theorem Moves.dropL1 (m : Moves lo s t) (c : Nat) {l : Nat} (h : lo ≤ 128 * l) : Moves lo s (dropL1 t c l) := by
  unfold Machine.dropL1
  dsimp only
  split
  · exact m
  · split
    · exact m
    · next x found =>
      have moved := m.writeBackL1 (blockOfCell c) ((m.l1_quiet c).find found) h
      exact moved.setL1 c (f := fun k => k.dropLine l) ((moved.l1_quiet c).dropLine l)

theorem Moves.dropL1s (m : Moves lo s t) {l : Nat} (h : lo ≤ 128 * l) (c n : Nat) : Moves lo s (dropL1s t l c n) := by
  induction n generalizing t c with
  | zero => exact m
  | succ n ih => exact ih (m.dropL1 c h) (c + 1)

theorem Moves.dropL2 (m : Moves lo s t) (b : Nat) {l : Nat} (h : lo ≤ 128 * l) : Moves lo s (dropL2 t b l) := by
  unfold Machine.dropL2
  dsimp only
  split
  · exact m
  · have inner := m.dropL1s h (8 * b) 8
    split
    · exact inner
    · next x found =>
      have moved := inner.writeBackLine b ((inner.l2_quiet b).find found) h
      exact moved.setL2 b ((moved.l2_quiet b).dropLine l)

theorem Moves.dropL2s (m : Moves lo s t) {l : Nat} (h : lo ≤ 128 * l) (b n : Nat) : Moves lo s (dropL2s t l b n) := by
  induction n generalizing t b with
  | zero => exact m
  | succ n ih => exact ih (m.dropL2 b h) (b + 1)

/-- The snoop filter of a block's region makes room for a line (03 R74). -/
def roomInFilter (s : State) (b l : Nat) : State :=
  let f := filterSet s (regionOfBlock b) l
  if 16 ≤ f.length ∧ !f.contains l then
    let (v, s) := victimOf s f
    dropL2s s v (16 * regionOfBlock b) 16
  else s

/-- A block's L2 makes room for a line. -/
def roomInL2 (s : State) (b l : Nat) : State :=
  match (s.block b).l2.fullSet 2048 16 l with
  | some ls => let (v, s) := victimOf s ls; dropL2 s b v
  | none => s

/-- A line that an enabled L2 lacks is brought in once the snoop filter and the L2 have made room. -/
theorem fillL2_absent (b l : Nat) (wr bad : Bool) (en : (s.block b).l2.en = true) (absent : (s.block b).l2.find l = none) :
    fillL2 s b l wr bad =
      (let u := roomInL2 (roomInFilter s b l) b l
       let v := countBulk u (ownerOfBlock u b) 128
       v.setBlock b { v.block b with l2 := (v.block b).l2.putLine l ⟨none, wr, bad⟩ }) := by
  simp only [fillL2, en, absent, Bool.not_true, Bool.false_eq_true, if_false]
  rfl

theorem Moves.roomInFilter (m : Moves 0 s t) (b l : Nat) : Moves 0 s (roomInFilter t b l) := by
  unfold Machine.roomInFilter
  dsimp only
  split
  · exact m.draw.dropL2s (Nat.zero_le _) _ _
  · exact m

theorem Moves.roomInL2 (m : Moves 0 s t) (b l : Nat) : Moves 0 s (roomInL2 t b l) := by
  unfold Machine.roomInL2
  split
  · exact m.draw.dropL2 b (Nat.zero_le _)
  · exact m

/-- A line brought into an L2 (03 R74). `bad`: it comes poisoned, which some line of `s` is. -/
theorem Moves.fillL2 (m : Moves 0 s t) (b l : Nat) (wr : Bool) {bad : Bool} (clean : Unpoisoned s → bad = false) :
    Moves 0 s (fillL2 t b l wr bad) := by
  cases en : (t.block b).l2.en with
  | false =>
    simp only [Machine.fillL2, en, Bool.not_false, if_true]
    exact m.countPart _ 10 128
  | true =>
    cases found : (t.block b).l2.find l with
    | none =>
      have room := (m.roomInFilter b l).roomInL2 b l
      have counted := room.countPart (ownerOfBlock (Machine.roomInL2 (Machine.roomInFilter t b l) b l) b) 10 128
      rw [fillL2_absent b l wr bad en found]
      exact counted.setL2 b ((counted.l2_quiet b).putLine l ⟨clean, fun _ => rfl⟩)
    | some x =>
      have quiet := (m.l2_quiet b).find found
      simp only [Machine.fillL2, en, found, Bool.not_true, Bool.false_eq_true, if_false]
      split
      · exact m.setL2 b ((m.l2_quiet b).putLine l ⟨quiet.1, quiet.2⟩)
      · exact m

/-- While nothing is poisoned no byte comes from a poisoned line. -/
theorem viaPoison_of_unpoisoned (h : Unpoisoned s) (c a : Nat) : viaPoison s c a = none := by
  have quietL1 := (Moves.refl 0 s).l1_quiet c
  have quietL2 (g : Nat) := (Moves.refl 0 s).l2_quiet g
  unfold viaPoison
  dsimp only
  split
  · next x found =>
    split at found
    · rw [(quietL1.find found).1 h]; rfl
    · cases found
  · split
    · next g _ =>
      cases found : (s.block g).l2.find (a / 128) with
      | none => simp [badIn, found]
      | some x => simp [badIn, found, ((quietL2 g).find found).1 h]
    · rw [h.1]; rfl

/-- A cell's L1 data cache makes room for a line (03 R74). -/
def roomInL1 (s : State) (c l : Nat) : State :=
  match (s.cell c).l1d.fullSet 64 8 l with
  | some ls => let (v, s) := victimOf s ls; dropL1 s c v
  | none => s

theorem touchLine_absent (c l : Nat) (wr : Bool) (en : (s.cell c).l1d.en = true) (absent : (s.cell c).l1d.find l = none) :
    touchLine s c l wr =
      (roomInL1 (fillL2 s (blockOfCell c) l false (viaPoison s c (128 * l)).isSome) c l).updCell c
        fun y => { y with l1d := y.l1d.putLine l ⟨none, wr, (viaPoison s c (128 * l)).isSome⟩ } := by
  simp only [touchLine, en, absent, Bool.not_true, Bool.false_eq_true, if_false]
  rfl

theorem Moves.roomInL1 (m : Moves 0 s t) (c l : Nat) : Moves 0 s (roomInL1 t c l) := by
  unfold Machine.roomInL1
  split
  · exact m.draw.dropL1 c (Nat.zero_le _)
  · exact m

/-- A line brought into the caches of a cell (03 R74). -/
theorem Moves.touchLine (m : Moves 0 s t) (c l : Nat) (wr : Bool) : Moves 0 s (touchLine t c l wr) := by
  have clean (h : Unpoisoned s) : (viaPoison t c (128 * l)).isSome = false := by
    rw [viaPoison_of_unpoisoned (m.clean h).1]; rfl
  cases en : (t.cell c).l1d.en with
  | false =>
    simp only [Machine.touchLine, en, Bool.not_false, if_true]
    exact m.fillL2 _ l wr clean
  | true =>
    cases found : (t.cell c).l1d.find l with
    | none =>
      have room := (m.fillL2 (blockOfCell c) l false clean).roomInL1 c l
      rw [touchLine_absent c l wr en found]
      exact room.setL1 c (f := fun k => k.putLine l _) ((room.l1_quiet c).putLine l ⟨clean, fun _ => rfl⟩)
    | some x =>
      have quiet := (m.l1_quiet c).find found
      simp only [Machine.touchLine, en, found, Bool.not_true, Bool.false_eq_true, if_false]
      split
      · exact m.setL1 c (f := fun k => k.putLine l _) ((m.l1_quiet c).putLine l ⟨quiet.1, quiet.2⟩)
      · exact m

theorem Moves.touchLines (m : Moves 0 s t) (c l : Nat) (wr : Bool) (n : Nat) : Moves 0 s (touchLines t c l wr n) := by
  induction n generalizing t l with
  | zero => exact m
  | succ n ih => exact ih (m.touchLine c l wr) (l + 1)

theorem Moves.touchRuns (m : Moves 0 s t) (c : Nat) (wr : Bool) (rs : List (Nat × Nat)) : Moves 0 s (touchRuns t c wr rs) := by
  induction rs generalizing t with
  | nil => exact m
  | cons r rs ih => exact ih (m.touchLines c _ wr _)

theorem Moves.wakeAll (m : Moves lo s t) (rs : List (Nat × Nat)) : Moves lo s (wakeAll t rs) := by
  induction rs generalizing t with
  | nil => exact m
  | cons r rs ih => exact ih ((m.wakeGroup _).wakeGroup _)

/-- While no cache holds bytes of its own a cell sees the bytes of memory (03 R69). -/
theorem viaByte_of_coherent (h : Coherent s) (c a : Nat) : viaByte s c a = memByte s a := by
  have own {k : Cache} (quiet : k.Quiet s) {bs : List Byte} {d p en : Bool}
      (found : (if en = true then k.find (a / 128) else none) = some ⟨some bs, d, p⟩) :
      False := by
    split at found
    · cases (quiet.find found).2 h
    · cases found
  have none : ownLine s c (a / 128) = none := by
    unfold ownLine
    dsimp only
    split
    · next found => exact (own ((Moves.refl 0 s).l1_quiet c) found).elim
    · split
      · next found => exact (own ((Moves.refl 0 s).l2_quiet _) found).elim
      · rfl
  rw [viaByte, none]

end Sys2Proof.Machine
end

section
/-! PROOFS. Loads of memory and of control space (09 R215, 03 R58), and O8. -/

namespace Sys2Proof.Machine

/-! ### Reads of memory -/

variable {s t : State}

theorem groupReady_wakeGroup {a : Nat} (b : Nat) (ready : groupReady s a = true) : groupReady (wakeGroup s b) a = true := by
  have kept {g : Nat} {x : Block} (on : (s.block g).group = .on ∨ (s.block g).group = .retention → x.group = .on) :
      groupReady (s.setBlock g x) a = true := by
    revert ready
    unfold groupReady
    split
    · rw [State.block_setBlock]
      split
      · next h =>
        subst h
        intro ready
        simp only [Bool.or_eq_true, decide_eq_true_eq] at ready
        simp [on ready]
      · exact id
    · exact id
  unfold wakeGroup
  split
  · dsimp only
    split
    · exact kept fun _ => rfl
    · next off => exact kept fun h => by rcases h with h | h <;> rw [off] at h <;> cases h
    · exact ready
  · exact ready
  · exact ready

theorem groupReady_wakeAll {a : Nat} (rs : List (Nat × Nat)) (ready : groupReady s a = true) : groupReady (wakeAll s rs) a = true := by
  induction rs generalizing s with
  | nil => exact ready
  | cons r rs ih => exact ih (groupReady_wakeGroup _ (groupReady_wakeGroup _ ready))

/-- What powering memory leaves alone: all but the blocks' groups and the controllers' self-refresh. -/
theorem wakeGroup_keeps {α : Type} (f : State → α) (block : ∀ (s : State) b x, x.l2 = (s.block b).l2 → f (s.setBlock b x) = f s)
    (region : ∀ (s : State) r x, f (s.setRegion r x) = f s) (s : State) (a : Nat) : f (wakeGroup s a) = f s := by
  unfold wakeGroup
  split
  · dsimp only
    split
    · exact block _ _ _ rfl
    · exact block _ _ _ rfl
    · rfl
  · exact region _ _ _
  · rfl

theorem wakeAll_keeps {α : Type} (f : State → α) (block : ∀ (s : State) b x, x.l2 = (s.block b).l2 → f (s.setBlock b x) = f s)
    (region : ∀ (s : State) r x, f (s.setRegion r x) = f s) (s : State) (rs : List (Nat × Nat)) : f (wakeAll s rs) = f s := by
  induction rs generalizing s with
  | nil => rfl
  | cons r rs ih => rw [wakeAll, ih, wakeGroup_keeps f block region, wakeGroup_keeps f block region]

/-- The L2s of two states hold the same lines. -/
theorem setBlock_l2 (s : State) {b : Nat} {x : Block} (l2 : x.l2 = (s.block b).l2) (g : Nat) :
    ((s.setBlock b x).block g).l2 = (s.block g).l2 := by
  rw [State.block_setBlock]
  split
  · next h => rw [l2, h]
  · rfl

@[simp] theorem l2_wakeAll (s : State) (rs : List (Nat × Nat)) (g : Nat) : ((wakeAll s rs).block g).l2 = (s.block g).l2 :=
  wakeAll_keeps (fun s => (s.block g).l2) (fun s _ _ l2 => setBlock_l2 s l2 g) (fun _ _ _ => rfl) s rs
@[simp] theorem cells_wakeAll (s : State) (rs : List (Nat × Nat)) : (wakeAll s rs).cells = s.cells :=
  wakeAll_keeps State.cells (fun _ _ _ _ => rfl) (fun _ _ _ => rfl) s rs
@[simp] theorem poison_wakeAll (s : State) (rs : List (Nat × Nat)) : (wakeAll s rs).poison = s.poison :=
  wakeAll_keeps State.poison (fun _ _ _ _ => rfl) (fun _ _ _ => rfl) s rs

/-- Which copy of a line answers a cell depends on the L1 data caches and the L2s alone. -/
theorem l2Holder_congr (l2 : ∀ g, (t.block g).l2 = (s.block g).l2) (c l : Nat) : l2Holder t c l = l2Holder s c l := by
  simp only [l2Holder, regionHolder, l2]

theorem viaPoison_congr (cells : t.cells = s.cells) (l2 : ∀ g, (t.block g).l2 = (s.block g).l2) (poison : t.poison = s.poison)
    (c a : Nat) :
    viaPoison t c a = viaPoison s c a := by
  have cell : t.cell c = s.cell c := by rw [State.cell, State.cell, cells]
  simp only [viaPoison, cell, l2Holder_congr l2, badIn, l2, poison]
  rfl

theorem firstPoisoned_none {c : Nat} {as : List Nat} (clean : ∀ a ∈ as, viaPoison s c a = none) (i : Nat) :
    firstPoisoned s c i as = none := by
  induction as generalizing i with
  | nil => rfl
  | cons a as ih =>
    rw [firstPoisoned, clean a List.mem_cons_self]
    exact ih (fun x hx => clean x (List.mem_cons_of_mem a hx)) _

theorem firstRefused_none {h : Byte} {as : List Nat} (accepts : ∀ a ∈ as, memAccepts s h a 1 = true) : firstRefused s h as = none := by
  have none : as.zipIdx.find? (fun e => !memAccepts s h e.1 1) = none := by
    rw [List.find?_eq_none]
    intro e he
    rw [accepts e.1 (List.fst_mem_of_mem_zipIdx he)]
    decide
  rw [firstRefused, none]
  rfl

theorem cellHeld_of_pathOpen {c a : Nat} (free : PathOpen s c a) : cellHeld s c a = false := by
  obtain ⟨port, wide, narrow, unit⟩ := free
  unfold cellHeld
  dsimp only
  split
  · rfl
  · cases (s.block (blockOfCell c)).l2.en <;> simp [port, wide, narrow, unit]

/-- A read that `Reads` allows comes to the words it reads, and to what their check bits show. -/
theorem cellRead_reads {c : CellId} {va : W64} {n : Nat} {as : List Nat} (reads : Reads s c va n as) (chk : Check) :
    cellRead s c va n chk =
      match checkRead (wakeAll s (runs as)) c as chk with
      | (s, some (i, d)) => .raise ⟨5, d, va + BitVec.ofNat 64 i⟩ s
      | (s, none) => .go as (touchChecked s c false (runs as) chk) := by
  obtain ⟨-, translates, each⟩ := reads
  have refused := firstRefused_none fun a ha => (each a ha).1
  have free : as.any (cellHeld s c) = false := by
    rw [List.any_eq_false]; exact fun a ha => by rw [cellHeld_of_pathOpen (each a ha).2.1]; decide
  have ready : as.any (fun a => !groupReady (wakeAll s (runs as)) a) = false := by
    rw [List.any_eq_false]; exact fun a ha => by rw [groupReady_wakeAll _ (each a ha).2.2.1]; decide
  have clean : firstPoisoned (wakeAll s (runs as)) c 0 as = none := firstPoisoned_none (fun a ha => by
    rw [viaPoison_congr (cells_wakeAll _ _) (l2_wakeAll _ _) (poison_wakeAll _ _)]; exact (each a ha).2.2.2) 0
  simp only [cellRead, translates, refused, free, ready, clean, Bool.false_eq_true, if_false] <;> rfl

theorem checkRead_clean (s : State) (c : Nat) (as : List Nat) : checkRead s c as .clean = (s, none) := by
  have word (a : Nat) : checkWord s c a .clean = (s, none) := by
    unfold checkWord
    split
    · rfl
    · cases l2Holder s c (a / 128) <;> rfl
  unfold checkRead
  dsimp only
  split
  · rfl
  · next a _ => simp only [Check.clean] at word ⊢; rw [word]; rfl

/-- With clean check bits the read goes on, once its lines are in the caches. -/
theorem cellRead_clean {c : CellId} {va : W64} {n : Nat} {as : List Nat} (reads : Reads s c va n as) :
    ∃ t, cellRead s c va n .clean = .go as t ∧ Moves 0 s t := by
  refine ⟨_, ?_, ((Moves.refl 0 s).wakeAll (runs as)).touchRuns c false (runs as)⟩
  rw [cellRead_reads reads, checkRead_clean]
  rfl

theorem length_of_xlates {c n : Nat} {va : W64} {as : List Nat} (h : xlates s c va n = .ok as) : as.length = n := by
  induction n generalizing va as with
  | zero => cases h; rfl
  | succ n ih =>
    unfold xlates at h
    split at h
    · cases h
    · split at h
      · cases h
      · next rest => cases h; rw [List.length_cons, ih rest]

/-- 03 R62, R67: an uncorrectable error in memory raises class 0x05 where no cache answers. -/
theorem cellRead_double {c : CellId} {va : W64} {n i x : Nat} {as : List Nat} (reads : Reads s c va n as) (word : as[i]? = some x)
    (inside : i < n) (l1 : inL1 s c.val (x / 128) = false) (l2 : l2Holder s c.val (x / 128) = none) :
    ∃ t, cellRead s c.val va n ⟨.double, i, false⟩ = .raise ⟨5, memDetail x, va + BitVec.ofNat 64 i⟩ t := by
  have length := length_of_xlates reads.2.1
  have byte : i % max 1 as.length = i := Nat.mod_eq_of_lt (by omega)
  have inL1 : inL1 (wakeAll s (runs as)) c.val (x / 128) = false := by
    rw [← l1]; simp only [Machine.inL1, State.cell, cells_wakeAll]
  have holder : l2Holder (wakeAll s (runs as)) c.val (x / 128) = none := (l2Holder_congr (l2_wakeAll _ _) _ _).trans l2
  refine ⟨foundBad (wakeAll s (runs as)) x, ?_⟩
  rw [cellRead_reads reads]
  simp only [checkRead, byte, word, checkWord, inL1, holder, Bool.false_eq_true, if_false, Option.map_some]

/-! ### Loads of memory -/

/-- A change of a cell's registers alone: it neither sees nor touches the caches and the deferred error. -/
def Architectural (w : Cell → Cell) : Prop :=
  ∀ (k : Cell) i d e, w { k with l1i := i, l1d := d, defErr := e } = { w k with l1i := i, l1d := d, defErr := e }

theorem Architectural.l1d {w : Cell → Cell} (h : Architectural w) (k : Cell) : (w k).l1d = k.l1d :=
  (congrArg Cell.l1d (h k k.l1i k.l1d k.defErr) :)
theorem Architectural.defErr {w : Cell → Cell} (h : Architectural w) (k : Cell) : (w k).defErr = k.defErr :=
  (congrArg Cell.defErr (h k k.l1i k.l1d k.defErr) :)

theorem Architectural.apart_of_offCaches {w : Cell → Cell} (h : Architectural w) {k k' : Cell} (same : k'.offCaches = k.offCaches) :
    apart k (w k') = w k := by
  have caches : apart k (w k') = w (apart k k') := (h k' k.l1i k.l1d k.defErr).symm
  rw [caches, Machine.apart_of_offCaches same]

theorem architectural_wrG (r : Reg) (v : W64) : Architectural fun k => (k.wrG r v).nextPc := by
  intro k i d e
  unfold Cell.wrG
  split <;> rfl

theorem architectural_wrF (r : Reg) (v : W64) : Architectural fun k => (k.wrF r v).nextPc := by
  intro k i d e
  unfold Cell.wrF
  dsimp only
  split <;> rfl

/-- What a cell sees does not change with its registers. -/
theorem cellBytes_updCell {w : Cell → Cell} (h : Architectural w) (c : Nat) (as : List Nat) :
    cellBytes (s.updCell c w) c as = cellBytes s c as := by
  have l1d : ((s.updCell c w).cell c).l1d = (s.cell c).l1d := by rw [State.cell_updCell_same, h.l1d]
  have own (l : Nat) : ownLine (s.updCell c w) c l = ownLine s c l := by
    simp only [ownLine, l1d, State.updCell_block]
    rfl
  exact List.map_congr_left fun a _ => by simp only [viaByte, own]; rfl

/-- A cell whose lines have moved and whose registers then change: nothing else has, and memory is as it was. -/
theorem Moves.onlyCell {w : Cell → Cell} {c : CellId} (m : Moves 0 s t) (h : Architectural w) (as : List Nat) :
    onlyCell s (t.updCell c.val w) c (fun k k' => k' = w k) ∧ readOnly s (t.updCell c.val w) c as := by
  have units {α : Type} (f : State → α) (keep : ∀ s : State, f s.offCaches = f s) : f t = f s := by
    rw [← keep, m.units, keep]
  constructor
  · unfold Sys2Proof.onlyCell
    refine ⟨?_, fun x ne => ?_, fun clean x => ?_, units State.ctl fun _ => rfl, units State.engines fun _ => rfl,
      units State.qps fun _ => rfl, units State.mws fun _ => rfl, units State.slots fun _ => rfl, units State.setters fun _ => rfl,
      units State.adders fun _ => rfl, units State.aslots fun _ => rfl, units State.ports fun _ => rfl, units State.fab fun _ => rfl,
      units State.arbs fun _ => rfl, units State.sessions fun _ => rfl, units State.cmds fun _ => rfl, units State.eth fun _ => rfl,
      units State.log fun _ => rfl, units State.sigs fun _ => rfl, units State.out fun _ => rfl, units State.pending fun _ => rfl⟩
    · rw [State.cell_updCell_same]
      exact h.apart_of_offCaches (m.cell c)
    · rw [State.cell_updCell_ne _ _ fun eq => ne (Fin.ext eq.symm)]
      exact apart_of_offCaches (m.cell x)
    · rw [State.cell_updCell]
      split
      · next eq => rw [h.defErr, (m.clean clean).2, eq]
      · exact (m.clean clean).2 x
  · intro coherent
    obtain ⟨coherent', byte⟩ := m.same coherent
    rw [cellBytes_updCell h]
    exact ⟨List.map_congr_left fun a _ => (viaByte_of_coherent coherent' _ _).trans (byte a), byte⟩

/-- A load whose read goes on changes registers by the bytes that the cell sees. -/
theorem load_completes {c : CellId} {va : W64} {n : Nat} {as : List Nat} (reads : Reads s c va n as) (w : List Byte → Cell → Cell)
    (architectural : ∀ bs, Architectural fun k => (w bs k).nextPc) :
    ∃ t, finish c.val (loadRes s c va n .clean fun bs s => onCell s c (w bs)) = t ∧
      onlyCell s t c (fun k k' => k' = (w (cellBytes t c.val as) k).nextPc) ∧ readOnly s t c as := by
  obtain ⟨u, go, moves⟩ := cellRead_clean reads
  have done : finish c.val (loadRes s c va n .clean fun bs s => onCell s c (w bs)) =
      u.updCell c.val fun k => (w (cellBytes u c.val as) k).nextPc := by
    rw [loadRes, reads.1, if_neg Bool.false_ne_true, go, ← State.updCell_updCell]
    rfl
  have h := architectural (cellBytes u c.val as)
  refine ⟨_, done, ?_⟩
  rw [cellBytes_updCell h]
  exact moves.onlyCell h as

/-! ### Control space -/

/-- What a record of a refusal leaves alone (03 R82, 21 R472). -/
theorem refusedAtUnit_keeps {α : Type} (f : State → α) (block : ∀ (s : State) l, f { s with breps := l } = f s)
    (log : ∀ (s : State) l, f { s with lreps := l } = f s) (s : State) (a : Nat) : f (refusedAtUnit s a) = f s := by
  have atBlock (b : Nat) (o : W32) (own : Option Nat) (d : W64) : f (reportBlock s b o 4 own d) = f s := by
    unfold reportBlock reportBlockVia
    split
    · exact block _ _
    · rfl
  have atMemory : f (memRefusal s a) = f s := by
    unfold memRefusal
    split
    · exact log _ _
    · exact log _ _
    · rfl
  unfold refusedAtUnit
  dsimp only
  split
  · exact atBlock _ _ _ _
  · exact atBlock _ _ _ _
  · exact atBlock _ _ _ _
  · exact log _ _
  · exact log _ _
  · exact atMemory

/-- An exception of a ready cell with NEST = 0 is taken (03 R65). -/
theorem finish_exc {c : CellId} (ready : Ready s c) (cell : t.cell c.val = s.cell c.val) (nest : (s.cell c.val).kstate.getLsbD 0 = false)
    (e : Exc) : finish c.val (.exc e t) = trapped t c e.cls e.detail e.addr := by
  have idle : (t.cell c.val).tpend = [] := by rw [cell, ready.2.2]
  simp only [finish, commitAll_nil t c.val idle, cell, ready_not_faulted ready, ready.2.2, takeTrap, nest]
  rfl

theorem ctlFault_cls {c n : Nat} {wr : Bool} {va : W64} {e : Exc} (h : ctlFault s c wr va n = some e) : e.cls = 3 := by
  induction n generalizing va with
  | zero => cases h
  | succ n ih =>
    unfold ctlFault at h
    split at h
    · cases h; rfl
    · exact ih h

theorem countCtl_cell (s : State) (c a n g : Nat) : (countCtl s c a n).cell g = s.cell g := by
  unfold countCtl
  split
  · rfl
  · exact countPart_cell _ _ _ _ _

theorem updCell_congr {c : Nat} {f g : Cell → Cell} (h : f (s.cell c) = g (s.cell c)) : s.updCell c f = s.updCell c g := by
  rw [State.updCell, State.updCell, h]

/-- A load of control space that an instruction `i` makes, with what it does with the number that its bytes spell (03 R58, R82): it reads
the registers, or raises an access fault, or a hallmark fault. -/
def CtlLoads (s : State) (c : CellId) (va : W64) (i : Instr) (n : Nat) (w : Nat → Cell → Cell) : Prop :=
  (ctlFault s c.val false va n = none → ctlPathHeld s c.val va.toNat = false →
    ctlRefused s (s.cell c.val).hall va.toNat n = none → exec i s =
      .next ((countCtl s c.val va.toNat n).updCell c.val fun k => (w (leNat (ctlBytes s k.hall va.toNat n)) k).nextPc)) ∧
  ((s.cell c.val).kstate.getLsbD 0 = false →
    (∀ e, ctlFault s c.val false va n = some e → exec i s = .next (trapped s c 3 e.detail e.addr)) ∧
    (∀ y, ctlFault s c.val false va n = none → ctlPathHeld s c.val va.toNat = false →
      ctlRefused s (s.cell c.val).hall va.toNat n = some y → exec i s = .next (trapped (refusedAtUnit s y) c 4 0 (BitVec.ofNat 64 y))))

theorem ctlLoads_of_exec {c : CellId} {va : W64} {i : Instr} {n : Nat} (ready : Ready s c) (ctl : isCtl va = true)
    (w : Nat → Cell → Cell)
    (run : exec i s = .next (finish c.val (loadRes s c va n .clean fun bs s => onCell s c (w (leNat bs))))) :
    CtlLoads s c va i n w := by
  refine ⟨fun fault path refused => ?_, fun nest => ⟨fun e fault => ?_, fun y fault path refused => ?_⟩⟩ <;>
    refine run.trans (congrArg _ ?_)
  · simp only [loadRes, ctl, fault, path, refused, if_true, Bool.false_eq_true, if_false]
    refine (State.updCell_updCell _ _ _ _).trans (updCell_congr ?_)
    rw [countCtl_cell]
  · simp only [loadRes, ctl, fault, if_true]
    rw [finish_exc ready rfl nest, ctlFault_cls fault]
  · simp only [loadRes, ctl, fault, path, refused, if_true, Bool.false_eq_true, if_false]
    exact finish_exc ready (refusedAtUnit_keeps (fun s => s.cell c.val) (fun _ _ => rfl) (fun _ _ => rfl) s y) nest _

/-- The first byte of an access faults. -/
theorem ctlFault_first {c n : Nat} {wr : Bool} {va : W64} {d : Byte} (detail : ctlDetail s c wr va.toNat = some d) :
    ctlFault s c wr va (n + 1) = some ⟨3, d, va⟩ := by
  simp only [ctlFault, detail]

/-- No byte of an access faults. -/
theorem ctlFault_none {c n : Nat} {wr : Bool} {va : W64} (room : va.toNat + n ≤ 2 ^ 64)
    (allowed : ∀ i < n, ctlDetail s c wr (va.toNat + i) = none) : ctlFault s c wr va n = none := by
  induction n generalizing va with
  | zero => rfl
  | succ n ih =>
    have first := allowed 0 (Nat.succ_pos n)
    rw [Nat.add_zero] at first
    simp only [ctlFault, first]
    cases n with
    | zero => rfl
    | succ n =>
      have next : (va + 1).toNat = va.toNat + 1 := by bv_omega
      refine ih (by omega) fun i hi => ?_
      rw [next, Nat.add_assoc, Nat.add_comm 1]
      exact allowed (i + 1) (by omega)

/-- Bytes of control space that end in the 32-byte piece they begin in are bytes of one page. -/
theorem ctlBytes_of_piece {h : Byte} {a n : Nat} {p : Page} (nonempty : 0 < n) (fits : n ≤ 32 - a % 32)
    (page : pageOf s h (placeOf a) = some p) : ctlBytes s h a n = pageBytes p.regs p.rd p.off n := by
  have whole : min n (32 - a % 32) = n := by omega
  have rest : ctlRead s h (n / 32 + 1) (a + n) 0 = [] := by rw [ctlRead]; rfl
  rw [ctlBytes, ctlRead, if_neg (by omega)]
  simp only [whole, page, Nat.sub_self, rest, List.append_nil]

/-- The bytes of a register from its byte `j` on. -/
theorem pageBytes_of_register {regs : List RegAt} (rd : Nat → W64) {off w : Nat} (j n : Nat)
    (found : ∀ i < n, regs.find? (fun r => insideRange (off + (j + i)) 1 r.1 r.2) = some (off, w)) :
    pageBytes regs rd (off + j) n = leBytes n ((rd off).toNat >>> (8 * j)) := by
  induction n generalizing j with
  | zero => rfl
  | succ n ih =>
    have first : pageByte regs rd (off + j) = BitVec.ofNat 8 ((rd off).toNat >>> (8 * j)) := by
      have here := found 0 (Nat.succ_pos n)
      rw [Nat.add_zero] at here
      simp only [pageByte, here, Nat.add_sub_cancel_left]
    have shift : (rd off).toNat >>> (8 * j) / 256 = (rd off).toNat >>> (8 * (j + 1)) := by
      rw [Nat.mul_succ, Nat.shiftRight_add, Nat.shiftRight_eq_div_pow _ 8]
    rw [pageBytes, leBytes, first, shift]
    refine congrArg _ (ih (j + 1) fun i hi => ?_)
    rw [Nat.add_assoc j, Nat.add_comm 1]
    exact found (i + 1) (by omega)

/-! ### The map of control space -/

/-- 01 R26: the module controller's range. -/
theorem placeOf_module {off : Nat} (h : off < 0x1000000) : placeOf (0x30000000000 + off) = .moduleCtl off := by
  unfold placeOf
  rw [if_neg (by omega), if_neg (by omega), if_neg (by omega), if_pos (by omega)]
  dsimp only
  rw [if_pos (by omega)]
  exact congrArg Place.moduleCtl (by omega)

/-- 01 R26: the regions' ranges. -/
theorem placeOf_region {i off : Nat} (hi : i < 4) (h : off < 0x1000000) :
    placeOf (0x30001000000 + 0x1000000 * i + off) = .regionCtl i off := by
  unfold placeOf
  rw [if_neg (by omega), if_neg (by omega), if_neg (by omega), if_pos (by omega)]
  dsimp only
  rw [if_neg (by omega), if_pos (by omega)]
  exact congrArg₂ Place.regionCtl (by omega) (by omega)

/-- 01 R26: the blocks' ranges. -/
theorem placeOf_block {i off : Nat} (hi : i < 64) (h : off < 0x100000) :
    placeOf (0x30010000000 + 0x100000 * i + off) = .blockCtl i off := by
  unfold placeOf
  rw [if_neg (by omega), if_neg (by omega), if_neg (by omega), if_pos (by omega)]
  dsimp only
  rw [if_neg (by omega), if_neg (by omega), if_pos (by omega)]
  exact congrArg₂ Place.blockCtl (by omega) (by omega)

/-- 01 R26: the cells' ranges. -/
theorem placeOf_cell {i off : Nat} (hi : i < 512) (h : off < 0x10000) :
    placeOf (0x30020000000 + 0x10000 * i + off) = .cellCtl i off := by
  unfold placeOf
  rw [if_neg (by omega), if_neg (by omega), if_neg (by omega), if_pos (by omega)]
  dsimp only
  rw [if_neg (by omega), if_neg (by omega), if_neg (by omega), if_pos (by omega)]
  exact congrArg₂ Place.cellCtl (by omega) (by omega)

/-- 03 R58: a cell reads the first 16 bytes of its own range at either privilege, the rest at S. -/
theorem ctlDetail_ownRange {c : CellId} {off : Nat} (h : off < 0x10000) :
    ctlDetail s c.val false (0x30020000000 + 0x10000 * c.val + off) =
      if off < 16 then none else if (s.cell c.val).sup then none else some 4 := by
  simp only [ctlDetail, placeOf_cell c.isLt h, if_true, Bool.not_false]
  split <;> rfl

/-- A permission of 03 R58 as a condition. -/
theorem allowed_iff {o : Option Byte} (b : Bool) {p : Prop} (h : o = if b then none else some 4) (iff : b = true ↔ p) :
    (p → o = none) ∧ (¬ p → o = some 4) :=
  ⟨fun hp => by rw [h, if_pos (iff.mpr hp)], fun hp => by rw [h, if_neg fun hb => hp (iff.mp hb)]⟩

theorem timerRegs_ctime : ∀ i < 8, timerRegs.find? (fun r => insideRange (0 + (0 + i)) 1 r.1 r.2) = some (0, 8) := by decide

theorem pipRegs_count : ∀ i < 4, pipRegs.find? (fun r => insideRange (0 + (0 + i)) 1 r.1 r.2) = some (0, 4) := by decide

/-- 01 R26, 02 R51: the eight bytes at the start of a cell's own range spell CTIME. -/
theorem leNat_ctime (c : CellId) (h : Byte) :
    BitVec.ofNat 64 (leNat (ctlBytes s h (0x30020000000 + 0x10000 * c.val + 0) 8)) = BitVec.ofNat 64 (ctime s c.val) := by
  have page : pageOf s h (placeOf (0x30020000000 + 0x10000 * c.val + 0)) =
      some ⟨timerRegs, timerRead s c.val, fun s _ _ _ => s, 0⟩ := by
    rw [placeOf_cell c.isLt (by omega)]; rfl
  rw [ctlBytes_of_piece (by omega) (by omega) page, pageBytes_of_register (timerRead s c.val) 0 8 timerRegs_ctime, leNat_leBytes]
  exact BitVec.eq_of_toNat_eq (by simp [timerRead])

/-- 01 R26, 11 R245: the first four bytes of a pip's page spell its COUNT. -/
theorem leNat_pipCount (c : CellId) (h : Byte) {p : Nat} (hp : p < 48) :
    BitVec.ofNat 64 (leNat (ctlBytes s h (0x30020000000 + 0x10000 * c.val + (0x1000 + 0x40 * p)) 4)) =
      ((s.cell c.val).pip p).count.zeroExtend 64 := by
  have number : (0x1000 + 0x40 * p - 0x1000) / 0x40 = p := by omega
  have inPage : (0x1000 + 0x40 * p) % 0x40 = 0 := by omega
  have page : pageOf s h (placeOf (0x30020000000 + 0x10000 * c.val + (0x1000 + 0x40 * p))) =
      some ⟨pipRegs, pipRead (s.cell c.val) p, pipWrite c.val p, 0⟩ := by
    rw [placeOf_cell c.isLt (by omega), pageOf, if_neg (by omega), if_pos (by omega), number, inPage]
  have small := ((s.cell c.val).pip p).count.isLt
  rw [ctlBytes_of_piece (by omega) (by omega) page, pageBytes_of_register (pipRead (s.cell c.val) p) 0 4 pipRegs_count, leNat_leBytes]
  refine BitVec.eq_of_toNat_eq ?_
  simp [pipRead]
  omega

/-- A load of a cell's own range that 03 R58 allows, by a cell whose block accepts its hallmark: no arbiter is on the way, and no byte
crosses a bridge. -/
theorem exec_of_ownRange {c : CellId} {va : W64} {i : Instr} {off n : Nat} {w : Nat → Cell → Cell} (loads : CtlLoads s c va i n w)
    (at_ : va.toNat = 0x30020000000 + 0x10000 * c.val + off) (inside : off + n ≤ 0x10000) (nonempty : 0 < n)
    (accepts : hallOk (hallOfBlock s (blockOfCell c)) (s.cell c.val).hall = true)
    (allowed : ∀ j < n, ctlDetail s c.val false (0x30020000000 + 0x10000 * c.val + (off + j)) = none) :
    exec i s = .next (retired s c fun k =>
      w (leNat (ctlBytes s (s.cell c.val).hall (0x30020000000 + 0x10000 * c.val + off) n)) k) := by
  have hc := c.isLt
  have place (j : Nat) (hj : j < n) : placeOf (va.toNat + j) = .cellCtl c.val (off + j) := by
    rw [at_, Nat.add_assoc]; exact placeOf_cell hc (by omega)
  have start : placeOf va.toNat = .cellCtl c.val off := place 0 nonempty
  have fault : ctlFault s c.val false va n = none := ctlFault_none (by omega) fun j hj => by
    rw [at_, Nat.add_assoc]; exact allowed j hj
  have path : ctlPathHeld s c.val va.toNat = false := by simp [ctlPathHeld, start]
  have refused : ctlRefused s (s.cell c.val).hall va.toNat n = none := by
    rw [ctlRefused, List.find?_eq_none]
    intro x hx
    obtain ⟨j, hj, rfl⟩ := List.mem_map.mp hx
    rw [place j (List.mem_range.mp hj)]
    simp only [ctlAccepts, ctlHall, accepts]
    decide
  have home : countCtl s c.val va.toNat n = s := by rw [countCtl, start]; exact if_pos rfl
  rw [loads.1 fault path refused, home, at_]
  exact congrArg _ (updCell_congr rfl)

/-! ### The instructions -/

/-- The value that LD and LDS give Gd (09 R215). -/
def loadedValue (sgn : Bool) (sz : Size) (bs : List Byte) : W64 :=
  if sgn then sext64 (szBits sz) (leNat bs) else BitVec.ofNat 64 (leNat bs)

section
variable {c : CellId} (d a : Reg) (imm : BitVec 13) (chk : Check) (ready : Ready s c)
include ready

theorem exec_ld {sgn : Bool} {sz : Size} (legal : sgn = true → sz ≠ .d) : exec (.ld c sgn d a sz imm chk) s =
    .next (finish c.val (loadRes s c ((s.cell c.val).rdG a + imm.signExtend 64) (szBytes sz) chk fun bs s =>
      onCell s c fun k => k.wrG d (loadedValue sgn sz bs))) := by
  have legal : (sgn && decide (sz = .d)) = false := by
    cases sgn
    · rfl
    · simpa using legal
  show execLd c sgn d a sz imm chk s = _
  rw [execLd, issue_ready ready, legal]
  rfl

theorem exec_fld (dbl : Bool) : exec (.fld c d a dbl imm chk) s =
    .next (finish c.val (loadRes s c ((s.cell c.val).rdG a + imm.signExtend 64) (wdBytes dbl) chk fun bs s =>
      onCell s c fun k => k.wrF d (BitVec.ofNat 64 (leNat bs)))) := by
  show execFld c d a dbl imm chk s = _
  rw [execFld, issue_ready ready]
  rfl

theorem exec_ldAq {dbl : Bool} (aligned : ((s.cell c.val).rdG a + imm.signExtend 64).toNat % wdBytes dbl = 0) :
    exec (.ldAq c d a dbl imm chk) s =
      .next (finish c.val (loadRes s c ((s.cell c.val).rdG a + imm.signExtend 64) (wdBytes dbl) chk fun bs s =>
        onCell s c fun k => k.wrG d (BitVec.ofNat 64 (leNat bs)))) := by
  have aligned : ¬ (smAddr (s.cell c) a imm).toNat % wdBytes dbl ≠ 0 := not_not.mpr aligned
  show execLdAq c d a dbl imm chk s = _
  rw [execLdAq, issue_ready ready]
  dsimp only
  rw [if_neg aligned]
  rfl

/-- LD and LDS of control space. -/
theorem ctlLoads_ld (ctl : isCtl ((s.cell c.val).rdG a + imm.signExtend 64) = true) {sgn : Bool} {sz : Size}
    (legal : sgn = true → sz ≠ .d) : CtlLoads s c ((s.cell c.val).rdG a + imm.signExtend 64) (.ld c sgn d a sz imm .clean) (szBytes sz)
      fun v k => k.wrG d (if sgn then (BitVec.ofNat (szBits sz) v).signExtend 64 else BitVec.ofNat 64 v) :=
  ctlLoads_of_exec ready ctl _ (exec_ld d a imm .clean ready legal)

/-- An unsigned load of a cell's own range that 03 R58 allows. -/
theorem exec_ld_ownRange {sz : Size} {off : Nat}
    (at_ : ((s.cell c.val).rdG a + imm.signExtend 64).toNat = 0x30020000000 + 0x10000 * c.val + off)
    (inside : off + szBytes sz ≤ 0x10000) (accepts : hallOk (hallOfBlock s (blockOfCell c)) (s.cell c.val).hall = true)
    (allowed : ∀ j < szBytes sz, off + j < 16 ∨ (s.cell c.val).sup = true) : exec (.ld c false d a sz imm .clean) s =
      .next (retired s c fun k => k.wrG d (BitVec.ofNat 64
        (leNat (ctlBytes s (s.cell c.val).hall (0x30020000000 + 0x10000 * c.val + off) (szBytes sz))))) := by
  have ctl : isCtl ((s.cell c.val).rdG a + imm.signExtend 64) = true := by rw [isCtl, decide_eq_true_eq, ctlBase]; omega
  have nonempty : 0 < szBytes sz := by cases sz <;> decide
  refine (exec_of_ownRange (ctlLoads_ld d a imm ready ctl fun h => by cases h) at_ inside nonempty accepts fun j hj => ?_).trans
    (congrArg _ (updCell_congr rfl))
  rw [ctlDetail_ownRange (by omega)]
  rcases allowed j hj with low | sup
  · rw [if_pos low]
  · rw [sup]; exact ite_self _

/-- 02 R51, 03 R58: a cell reads its CTIME. -/
theorem exec_ld_ctime (at_ : ((s.cell c.val).rdG a + imm.signExtend 64).toNat = 0x30020000000 + 0x10000 * c.val)
    (accepts : hallOk (hallOfBlock s (blockOfCell c)) (s.cell c.val).hall = true) : exec (.ld c false d a .d imm .clean) s =
      .next (retired s c fun k => k.wrG d (BitVec.ofNat 64 (ctime s c.val))) := by
  have low (j : Nat) (hj : j < szBytes .d) : 0 + j < 16 ∨ (s.cell c.val).sup = true := by rw [szBytes] at hj; omega
  rw [exec_ld_ownRange (off := 0) d a imm ready at_ (by decide) accepts low, ← leNat_ctime c]
  rfl

/-- 03 R58, 11 R245: at S a cell reads the COUNT of its pips, at U it raises an access fault. -/
theorem exec_ld_pipCount {p : Nat} (hp : p < 48) (at_ : ((s.cell c.val).rdG a + imm.signExtend 64).toNat =
    0x30020000000 + 0x10000 * c.val + 0x1000 + 0x40 * p) :
    ((s.cell c.val).sup = true → hallOk (hallOfBlock s (blockOfCell c)) (s.cell c.val).hall = true →
      exec (.ld c false d a .w imm .clean) s =
        .next (retired s c fun k => k.wrG d (((s.cell c.val).pip p).count.zeroExtend 64))) ∧
    ((s.cell c.val).sup = false → (s.cell c.val).kstate.getLsbD 0 = false →
      exec (.ld c false d a .w imm .clean) s = .next (trapped s c 3 4 ((s.cell c.val).rdG a + imm.signExtend 64))) := by
  have bytes : szBytes .w = 4 := rfl
  rw [Nat.add_assoc _ 0x1000] at at_
  refine ⟨fun sup accepts => ?_, fun user nest => ?_⟩
  · rw [exec_ld_ownRange d a imm ready at_ (by omega) accepts fun _ _ => .inr sup, ← leNat_pipCount c _ hp]
    rfl
  · have ctl : isCtl ((s.cell c.val).rdG a + imm.signExtend 64) = true := by rw [isCtl, decide_eq_true_eq, ctlBase]; omega
    have detail : ctlDetail s c.val false ((s.cell c.val).rdG a + imm.signExtend 64).toNat = some 4 := by
      rw [at_, ctlDetail_ownRange (by omega), if_neg (by omega), user]; rfl
    have fault : ctlFault s c.val false ((s.cell c.val).rdG a + imm.signExtend 64) (szBytes .w) = some _ := ctlFault_first detail
    have legal : false = true → Size.w ≠ .d := fun _ => by decide
    obtain ⟨-, faults⟩ := ctlLoads_ld d a imm ready ctl legal
    obtain ⟨faults, -⟩ := faults nest
    simpa only using faults _ fault
end

/-- Settles O8: a read that `Reads` allows only moves lines (`Moves`) and gives the bytes that the cell sees; a load of control space reads
the registers of a page. -/
theorem loadsComplete : Obligations.LoadsComplete := by
  refine ⟨fun s c d a imm n as ready reads => ⟨?ld, ?fld, ?ldAq, fun i x => cellRead_double reads⟩,
    fun s c d a imm ready => ⟨fun ctl => ⟨fun sgn sz legal => ctlLoads_ld d a imm ready ctl legal,
      fun dbl => ctlLoads_of_exec ready ctl (fun v k => k.wrF d (BitVec.ofNat 64 v)) (exec_fld d a imm .clean ready dbl),
      fun dbl aligned => ctlLoads_of_exec ready ctl (fun v k => k.wrG d (BitVec.ofNat 64 v)) (exec_ldAq d a imm .clean ready aligned)⟩,
      fun accepts at_ => exec_ld_ctime d a imm ready at_ accepts, fun p hp => exec_ld_pipCount d a imm ready hp⟩,
    fun s c wr x => ?permissions, fun i off => ⟨placeOf_module, placeOf_region, placeOf_block, placeOf_cell⟩⟩
  case ld =>
    rintro sgn sz rfl legal
    obtain ⟨t, done, rest⟩ := load_completes reads (fun bs k => k.wrG d (loadedValue sgn sz bs)) fun _ => architectural_wrG d _
    exact ⟨t, (exec_ld d a imm .clean ready legal).trans (congrArg _ done), rest⟩
  case fld =>
    rintro dbl rfl
    obtain ⟨t, done, rest⟩ := load_completes reads (fun bs k => k.wrF d (BitVec.ofNat 64 (leNat bs))) fun _ => architectural_wrF d _
    exact ⟨t, (exec_fld d a imm .clean ready dbl).trans (congrArg _ done), rest⟩
  case ldAq =>
    rintro dbl rfl aligned
    obtain ⟨t, done, rest⟩ := load_completes reads (fun bs k => k.wrG d (BitVec.ofNat 64 (leNat bs))) fun _ => architectural_wrG d _
    exact ⟨t, (exec_ldAq d a imm .clean ready aligned).trans (congrArg _ done), rest⟩
  case permissions =>
    intro sup own h allowed
    refine ⟨fun off place => ?_, fun d off place ne => ?_, fun b off place => ?_, fun r off place => ?_, fun off place => ?_,
      fun place => ?_⟩
    · refine allowed_iff (if off < 16 then !wr else sup) (by simp only [ctlDetail, place, if_true]; rfl) ?_
      split <;> simp [*]; omega
    · refine allowed_iff (sup && own.isSome && ownerOfBlock s (blockOfCell d) == own)
        (by simp only [ctlDetail, place, ne, if_false]; rfl) ?_
      simp [and_assoc]
    · refine allowed_iff (sup && own.isSome && ownerOfBlock s b == own) (by simp only [ctlDetail, place]; rfl) ?_
      simp [and_assoc]
    · refine allowed_iff (sup && decide (h ≠ 0) && (regionPageHall s r off == h ||
        (!wr && (match aslotUnit r off with | some m => holdsAdder s m h | none => false)))) (by simp only [ctlDetail, place]; rfl) ?_
      cases aslotUnit r off <;> simp [and_assoc]
    · exact allowed_iff false (by simp only [ctlDetail, place]; rfl) (by simp)
    · simp only [ctlDetail, place]

end Sys2Proof.Machine
end

section
/-! PROOFS. Bytes of memory that an agent other than a cell writes (01 R23, 03 R69): what they read as, and what they leave as it was. -/

namespace Sys2Proof.Machine

open Sys2Proof

variable {lo : Nat} {s t u : State}

/-! ### Copies dropped and settled -/

/-- Copies of a line that follow memory dropped (03 R69). -/
theorem Moves.snoopL1 (m : Moves lo s t) (c l : Nat) : Moves lo s (snoopL1 t c l) := by
  simp only [Machine.snoopL1]
  split
  · exact m.setL1 c (f := fun k => k.dropLine l) ((m.l1_quiet c).dropLine l)
  · exact m

theorem Moves.snoopL1s (m : Moves lo s t) (l : Nat) (keep : Option Nat) (c n : Nat) : Moves lo s (snoopL1s t l keep c n) := by
  induction n generalizing t c with
  | zero => exact m
  | succ n ih =>
    refine ih ?_ (c + 1)
    split
    · exact m
    · exact m.snoopL1 c l

theorem Moves.snoopBlock (m : Moves lo s t) (b l : Nat) : Moves lo s (snoopBlock t b l) := by
  simp only [Machine.snoopBlock]
  split
  · have inner := m.snoopL1s l none (8 * b) 8
    exact inner.setL2 b ((inner.l2_quiet b).dropLine l)
  · exact m

theorem Moves.snoopBlocks (m : Moves lo s t) (l : Nat) (keep : Option Nat) (b n : Nat) : Moves lo s (snoopBlocks t l keep b n) := by
  induction n generalizing t b with
  | zero => exact m
  | succ n ih =>
    refine ih ?_ (b + 1)
    split
    · exact m
    · exact m.snoopBlock b l

theorem Moves.snoopLines (m : Moves lo s t) (r : Nat) (cell : Option Nat) (l n : Nat) : Moves lo s (snoopLines t r cell l n) := by
  induction n generalizing t l with
  | zero => exact m
  | succ n ih =>
    refine ih (Moves.snoopBlocks ?_ l _ _ _) (l + 1)
    split
    · exact m.snoopL1s l _ _ _
    · exact m

/-- A line of a write that the write does not cover whole leaves the L2 that holds bytes of its own for it. -/
theorem Moves.settleLines (m : Moves lo s t) (a n : Nat) {l : Nat} (h : lo ≤ 128 * l) (k : Nat) : Moves lo s (settleLines t a n l k) := by
  induction k generalizing t l with
  | zero => exact m
  | succ k ih =>
    refine ih ?_ (by omega)
    split
    · exact m.dropL2 _ h
    · exact m

/-! ### Bytes written -/

theorem memBytes_eq_map (s : State) (a n : Nat) : memBytes s a n = (List.range n).map fun i => memByte s (a + i) := by
  induction n generalizing a with
  | zero => rfl
  | succ n ih => simp [memBytes, ih, List.range_succ_eq_map, Function.comp_def, Nat.add_assoc, Nat.add_comm 1]

theorem memBytes_append (s : State) (a n k : Nat) : memBytes s a (n + k) = memBytes s a n ++ memBytes s (a + n) k := by
  simp only [memBytes_eq_map, List.range_add, List.map_append, List.map_map, Function.comp_def, Nat.add_assoc]

theorem memBytes_congr {a n : Nat} (h : ∀ d < n, memByte t (a + d) = memByte s (a + d)) : memBytes t a n = memBytes s a n := by
  simp only [memBytes_eq_map]
  exact List.map_congr_left fun d hd => h d (List.mem_range.mp hd)

/-- From `s` to `t` an agent wrote bytes of memory: they are there. Beginning with a whole line it wrote no byte before them, and where no
cache holds bytes of its own no other byte. -/
structure Stores (s t : State) (a : Nat) (bs : List Byte) : Prop where
  units : t.offCaches = s.offCaches
  bytes : memBytes t a bs.length = bs
  below : 128 ∣ a → ∀ d < a, memByte t d = memByte s d
  same : Coherent s → Coherent t ∧ ∀ d, d < a ∨ a + bs.length ≤ d → memByte t d = memByte s d

theorem Stores.nil (s : State) (a : Nat) : Stores s s a [] := ⟨rfl, rfl, fun _ _ _ => rfl, fun h => ⟨h, fun _ _ => rfl⟩⟩

theorem Stores.append {a b : Nat} {xs ys : List Byte} (x : Stores s t a xs) (y : Stores t u b ys) (next : b = a + xs.length)
    (whole : 128 ∣ b) : Stores s u a (xs ++ ys) where
  units := y.units.trans x.units
  bytes := by
    rw [List.length_append, memBytes_append, ← next, y.bytes, memBytes_congr (fun d hd => y.below whole _ (by omega)), x.bytes]
  below h d hd := (y.below whole d (by omega)).trans (x.below h d hd)
  same h := by
    obtain ⟨coherent, first⟩ := x.same h
    obtain ⟨coherent', second⟩ := y.same coherent
    rw [List.length_append]
    exact ⟨coherent', fun d hd => (second d (by omega)).trans (first d (by omega))⟩

theorem putMem_keeps {β : Type} (f : State → β) (sram : ∀ s l, f { s with sram := l } = f s)
    (lpddr : ∀ s l, f { s with lpddr := l } = f s) (s : State) (a : Nat) (bs : List Byte) : f (putMem s a bs) = f s := by
  induction bs generalizing s a with
  | nil => rfl
  | cons v vs ih => rw [putMem, ih, setMemByte_keeps f sram lpddr]

/-- One write at memory. -/
theorem memWrite_stores (s : State) (a : Nat) (bs : List Byte) (mem : ∀ d < bs.length, isMem (a + d) = true) :
    Stores s (memWrite s a bs) a bs where
  units := (putMem_keeps State.offCaches (fun _ _ => rfl) (fun _ _ => rfl) _ _ _).trans rfl
  bytes := memBytes_putMem _ a bs mem
  below _ d hd := memByte_putMem_outside _ a bs (.inl hd)
  same h := by
    have cells : (memWrite s a bs).cells = s.cells := putMem_keeps State.cells (fun _ _ => rfl) (fun _ _ => rfl) _ _ _
    have blocks : (memWrite s a bs).blocks = s.blocks := putMem_keeps State.blocks (fun _ _ => rfl) (fun _ _ => rfl) _ _ _
    exact ⟨by simpa only [Coherent, State.cell, State.block, cells, blocks] using h, fun d hd => memByte_putMem_outside _ a bs hd⟩

/-- A write of an agent: the lines that it covers in part are settled, the bytes written, and the copies dropped. -/
theorem agentStore_stores (s : State) (a : Nat) (bs : List Byte) (mem : ∀ d < bs.length, isMem (a + d) = true) :
    Stores s (agentStore s a bs) a bs := by
  have settled : Moves (128 * (a / 128)) s (settleLines s a bs.length (a / 128) (lineCount a bs.length)) :=
    (Moves.refl _ s).settleLines a bs.length (Nat.le_refl _) _
  have written := memWrite_stores (settleLines s a bs.length (a / 128) (lineCount a bs.length)) a bs mem
  have snooped (lo : Nat) : Moves lo _ (agentStore s a bs) :=
    (Moves.refl lo _).snoopLines (regionOfPlace (placeOf a)) none (a / 128) (lineCount a bs.length)
  exact {
    units := (snooped 0).units.trans (written.units.trans settled.units)
    bytes := (memBytes_congr fun d hd => (snooped (a + bs.length)).below _ (by omega)).trans written.bytes
    below := fun line d hd => by
      have start : 128 * (a / 128) = a := Nat.mul_div_cancel' line
      exact ((snooped a).below d hd).trans ((written.below line d hd).trans (settled.below d (by omega)))
    same := fun h => by
      obtain ⟨h₁, same₁⟩ := settled.same h
      obtain ⟨h₂, same₂⟩ := written.same h₁
      obtain ⟨h₃, same₃⟩ := (snooped 0).same h₂
      exact ⟨h₃, fun d hd => (same₃ d).trans ((same₂ d hd).trans (same₁ d))⟩ }

/-! ### Pieces written -/

theorem writePart_stores (s : State) (a : Nat) (bs : List CByte) (nonempty : bs ≠ []) (mem : ∀ d < bs.length, isMem (a + d) = true) :
    Stores s (writePart s (a, bs)) a (bs.map (·.1)) := by
  have store := agentStore_stores s a (bs.map (·.1)) (by simpa using mem)
  have first : isMem a = true := mem 0 (List.length_pos_iff.mpr nonempty)
  cases place : placeOf a <;> simp [isMem, place] at first <;> simpa only [writePart, place] using store

/-- The parts into which a piece falls at multiples of 64 KiB, all of which begin a line but the first. -/
theorem split64_stores (fuel : Nat) (s : State) (a : Nat) (bs : List CByte) (enough : a % 65536 + bs.length ≤ 65536 * fuel)
    (mem : ∀ d < bs.length, isMem (a + d) = true) : Stores s ((split64 fuel (a, bs)).foldl writePart s) a (bs.map (·.1)) := by
  induction fuel generalizing s a bs with
  | zero =>
    obtain rfl : bs = [] := List.length_eq_zero_iff.mp (by omega)
    exact Stores.nil s a
  | succ fuel ih =>
    by_cases empty : bs = []
    · subst empty
      exact Stores.nil s a
    · have split : split64 (fuel + 1) (a, bs) =
          (a, bs.take (65536 - a % 65536)) :: split64 fuel (a + (65536 - a % 65536), bs.drop (65536 - a % 65536)) := by
        simp [split64, empty]
      rw [split, List.foldl_cons]
      have firstNonempty : bs.take (65536 - a % 65536) ≠ [] := by
        simp [empty]; omega
      have first := writePart_stores s a (bs.take (65536 - a % 65536)) firstNonempty fun d hd => mem d (by simp at hd; omega)
      by_cases last : bs.length ≤ 65536 - a % 65536
      · rw [List.take_of_length_le last] at first ⊢
        rw [List.drop_of_length_le last]
        have none : split64 fuel (a + (65536 - a % 65536), []) = [] := by cases fuel <;> rfl
        rw [none]
        exact first
      · have taken : ((bs.take (65536 - a % 65536)).map (·.1)).length = 65536 - a % 65536 := by
          simp; omega
        have rest := ih (writePart s (a, bs.take (65536 - a % 65536))) (a + (65536 - a % 65536)) (bs.drop (65536 - a % 65536))
          (by simp; omega) fun d hd => by
            rw [List.length_drop] at hd
            rw [Nat.add_assoc]
            exact mem _ (by omega)
        have both := first.append rest (by rw [taken]) (by omega)
        rwa [← List.map_append, List.take_append_drop] at both

theorem inCtl_of_isMem {a : Nat} (h : isMem a = true) : inCtl a = false := by
  cases place : placeOf a <;> simp [isMem, place] at h <;> simp only [inCtl, place]

/-- A fold of steps that leave every state as it was. -/
theorem foldl_of_keeps {α β : Type} (f : β → α → β) (l : List α) (b : β) (keep : ∀ x ∈ l, ∀ b, f b x = b) :
    l.foldl f b = b := by
  induction l with
  | nil => rfl
  | cons x xs ih =>
    rw [List.foldl_cons, keep x (by simp)]
    exact ih fun y hy => keep y (by simp [hy])

/-- One piece of good bytes written to memory: no byte of it is of control space, and none spoils a line. -/
theorem writePieces_stores (put : State → Nat → List Byte → State) (s : State) (a : Nat) (v : List Byte)
    (mem : ∀ d < v.length, isMem (a + d) = true) : Stores s (writePieces put s [(a, v.map fun b => (b, none))]) a v := by
  have noCtl : ctlPart [(a, v.map fun b => (b, none))] = [] := by
    have none : ((v.map fun b => ((b, none) : CByte)).zipIdx.map fun e => (a + e.2, e.1.1)).filter (fun e => inCtl e.1) = [] := by
      refine List.filter_eq_nil_iff.mpr fun e he => ?_
      obtain ⟨⟨x, i⟩, at_, rfl⟩ := List.mem_map.mp he
      have inside : isMem (a + i) = true := mem i (by simpa using (List.mem_zipIdx' at_).1)
      simp [inCtl_of_isMem inside]
    simp only [ctlPart, List.flatMap_cons, none]
    rfl
  have noSpoil (t : State) : spoilPiece t (a, v.map fun b => (b, none)) = t :=
    foldl_of_keeps _ _ t fun e he u => by
      obtain ⟨b, -, good⟩ := List.mem_map.mp (List.fst_mem_of_mem_zipIdx he)
      simp [← good]
  simp only [writePieces, noCtl, List.foldl_cons, List.foldl_nil, noSpoil, partsOf, joinPieces, List.flatMap_cons, List.flatMap_nil,
    List.append_nil]
  have stores := split64_stores (v.length / 65536 + 2) s a (v.map fun b => (b, none)) (by simp; omega) (by simpa using mem)
  simpa [Function.comp_def] using stores

end Sys2Proof.Machine
end

section
/-! PROOFS. Requests of the dictionary protocol (17 R397 to R410): what a step with one is, by the checks it passes; which of their
actions keep the session that asked; device memory read and written (01 R23); and O49. -/

namespace Sys2Proof.Machine

open Sys2Proof

section
variable {s : State} {q : Req} {m : WdpMsg} {raw : List Byte} {act : State → Nat → State × Reply} {j : Nat}

/-! ### A request by the checks it passes -/

/-- What a state holds of the host port's frames and of the sessions replaced. -/
def State.aside (s : State) (eth : Eth) (sessions : Vector Sess 16) : State := { s with eth := eth, sessions := sessions }

theorem framesIn_eq (s : State) (i : Iface) (n : Nat) : framesIn s i n = s.aside (framesIn s i n).eth s.sessions := by
  unfold framesIn
  split <;> rfl

@[simp] theorem framesIn_ctl (s : State) (i : Iface) (n : Nat) : (framesIn s i n).ctl = s.ctl := by rw [framesIn_eq]; rfl
@[simp] theorem framesIn_sess (s : State) (i : Iface) (n j : Nat) : (framesIn s i n).sess j = s.sess j := by rw [framesIn_eq]; rfl

@[simp] theorem framesIn_ethOf (s : State) (i k : Iface) (n : Nat) : ethOf (framesIn s i n) k = ethOf s k := by
  unfold framesIn
  split <;> rfl

@[simp] theorem reached_framesIn (s : State) (i k : Iface) (n : Nat) (dst : Udp) : reached (framesIn s i n) k dst = reached s k dst := by
  simp only [reached, addrMine, ip4Mine, ip6Mine, framesIn_ctl, framesIn_ethOf]

@[simp] theorem sessOf_framesIn (s : State) (i : Iface) (n : Nat) (id : W32) : sessOf (framesIn s i n) id = sessOf s id := by
  simp only [sessOf, framesIn_sess]

/-- Where an answer goes does not turn on the sessions. -/
theorem sendWdp_heard (t : State) (i : Iface) (dst : Udp) (tag : List Byte) :
    sendWdp (heard s q j) t i dst m tag = sendWdp s t i dst m tag := rfl

theorem sessOf_some {id : W32} (h : sessOf s id = some j) : j < 16 ∧ (s.sess j).live = true ∧ (s.sess j).id = id := by
  have found := List.find?_some h
  have mem := List.mem_of_find?_eq_some h
  simp only [Bool.and_eq_true, beq_iff_eq] at found
  exact ⟨List.mem_range.mp mem, found⟩

theorem heard_sess (h : j < 16) : (heard s q j).sess j =
    { s.sess j with due := moduleDue s (1000 * s.ctl.idle.toNat), peerIf := q.iface, peer := q.src } :=
  State.sess_setSess_same _ _ h

theorem heard_def (s : State) (q : Req) (j : Nat) : s.setSess j { s.sess j with
    due := moduleDue s (1000 * s.ctl.idle.toNat), peerIf := q.iface, peer := q.src } = heard s q j := rfl

theorem request_unheard (h : reached s q.iface q.dst = false ∨ 1408 < m.len.toNat ∨ 1408 < m.pay.length) :
    request s q m raw act = s := by
  have unheard : (!reached s q.iface q.dst || decide (1408 < m.len.toNat) || decide (1408 < m.pay.length)) = true := by
    simpa [or_assoc] using h
  simp only [request, unheard, if_true]

section
variable (here : reached s q.iface q.dst = true) (len : m.len.toNat ≤ 1408) (pay : m.pay.length ≤ 1408)
include here len pay

theorem request_noSession (none : sessOf s q.sess = none) : request s q m raw act = authBad s q.iface q.src m := by
  simp [request, here, Nat.not_lt.mpr len, Nat.not_lt.mpr pay, none]

theorem request_wrongTag (at_ : sessOf s q.sess = some j) (tag : q.tag ≠ tagOf (s.sess j).keyIn raw) :
    request s q m raw act = authBad s q.iface q.src m := by
  simp [request, here, Nat.not_lt.mpr len, Nat.not_lt.mpr pay, at_, tag]

variable (at_ : sessOf s q.sess = some j) (tag : q.tag = tagOf (s.sess j).keyIn raw)
include at_ tag

/-- The request is taken as the session's. -/
theorem request_of_none (cached : (s.sess j).cached = none) : request s q m raw act =
    if q.seq = (s.sess j).seq + 1 then execute (heard s q j) q m j act else seqBad (heard s q j) q m (s.sess j).keyOut := by
  simp only [request, here, Nat.not_lt.mpr len, Nat.not_lt.mpr pay, at_, tag, heard_def]
  simp [cached]

theorem request_of_some {r : WdpMsg} (cached : (s.sess j).cached = some r) : request s q m raw act =
    if q.seq = (s.sess j).seq then sendWdp s (heard s q j) q.iface q.src r (tagOf (s.sess j).keyOut (msgBytes r))
    else if q.seq = (s.sess j).seq + 1 then execute (heard s q j) q m j act
    else seqBad (heard s q j) q m (s.sess j).keyOut := by
  simp only [request, here, Nat.not_lt.mpr len, Nat.not_lt.mpr pay, at_, tag, heard_def, sendWdp_heard]
  simp [cached]

theorem request_wrongSeq (next : q.seq ≠ (s.sess j).seq + 1) (last : q.seq ≠ (s.sess j).seq ∨ (s.sess j).cached = none) :
    request s q m raw act = seqBad (heard s q j) q m (s.sess j).keyOut := by
  cases cached : (s.sess j).cached with
  | none => rw [request_of_none here len pay at_ tag cached, if_neg next]
  | some r => rw [request_of_some here len pay at_ tag cached, if_neg (by simpa [cached] using last), if_neg next]

theorem request_next (next : q.seq = (s.sess j).seq + 1) : request s q m raw act = execute (heard s q j) q m j act := by
  have new : q.seq ≠ (s.sess j).seq := by bv_omega
  cases cached : (s.sess j).cached with
  | none => rw [request_of_none here len pay at_ tag cached, if_pos next]
  | some r => rw [request_of_some here len pay at_ tag cached, if_neg new, if_pos next]
end

/-- What of a session a request's action must keep for its answer to be kept there: that it is established, and its name. -/
def State.seat (s : State) (j : Nat) : SessSt × W32 := ((s.sess j).st, (s.sess j).id)

theorem seat_congr {t : State} (h : t.sessions = s.sessions) (j : Nat) : t.seat j = s.seat j := by
  simp only [State.seat, State.sess, h]

/-- A session written with its state and its name kept. -/
theorem seat_setSess {x : Sess} {k : Nat} (st : x.st = (s.sess k).st) (id : x.id = (s.sess k).id) (j : Nat) :
    (s.setSess k x).seat j = s.seat j := by
  by_cases same : k = j
  · subst same
    by_cases room : k < 16
    · simp only [State.seat, State.sess_setSess_same s x room, st, id]
    · have none : s.sessions.setIfInBounds k x = s.sessions := Vector.setIfInBounds_eq_of_size_le (by omega)
      simp only [State.seat, State.sess, State.setSess, none]
  · simp only [State.seat, State.sess_setSess_ne s x same]

theorem heard_seat (s : State) (q : Req) (j k : Nat) : (heard s q j).seat k = s.seat k := by
  rw [← heard_def]
  exact seat_setSess (by rfl) (by rfl) k

/-- A request whose action keeps its session is answered there, and the answer is kept. -/
theorem execute_heard {t : State} {r : Reply} (at_ : sessOf s q.sess = some j) (acts : act (heard s q j) j = (t, r))
    (seat : t.seat j = s.seat j) : execute (heard s q j) q m j act =
      answer s q m j r (t.setSess j { t.sess j with seq := q.seq, cached := some (respMsg m r) }) := by
  obtain ⟨hj, live, id⟩ := sessOf_some at_
  obtain ⟨st', id'⟩ := Prod.mk.inj seat
  have stands : (t.sess j).live ∧ (t.sess j).id = q.sess := ⟨by rw [Sess.live, st']; exact live, id'.trans id⟩
  simp only [execute, acts, stands, and_self, if_true, heard_sess hj, sendWdp_heard, answer]

/-- The state in which a request as it comes in acts. -/
abbrev acting (s : State) (q : Req) (j : Nat) : State := heard (framesIn s q.iface 1) q j

/-- The state that an answered request leaves: the answer on its way and kept in its session (17 R404). -/
def replied (s : State) (q : Req) (j : Nat) (m : WdpMsg) (r : Reply) (t : State) : State :=
  answer (framesIn s q.iface 1) q m j r (t.setSess j { t.sess j with seq := q.seq, cached := some (respMsg m r) })

theorem askWith_fresh (fresh : Fresh s q m j) {t : State} {r : Reply} (acts : act (acting s q j) j = (t, r))
    (seat : t.seat j = (acting s q j).seat j) : askWith s q m act = replied s q j m r t := by
  obtain ⟨here, len, pay, at_, tag, next⟩ := fresh
  have at_ : sessOf (framesIn s q.iface 1) q.sess = some j := by rw [sessOf_framesIn, at_]
  rw [askWith, request_next (j := j) (by rw [reached_framesIn, here]) len pay at_ (by rw [framesIn_sess, tag])
    (by rw [framesIn_sess, next])]
  exact execute_heard at_ acts (seat.trans (heard_seat _ _ _ _))

end

/-! ### What leaves the sessions as they are -/

section
variable (s : State)

@[simp] theorem flushEth_sessions : (flushEth s).sessions = s.sessions := foldl_keeps State.sessions leaves leaves_sessions _ _

@[simp] theorem queueAt_sessions (p : Nat) (req : Byte) (pkt : Packet) : (queueAt s p req pkt).sessions = s.sessions := by simp [queueAt]

@[simp] theorem deliver_sessions (pkt : Packet) (via : Nat) : (deliver s pkt via).sessions = s.sessions := rfl

@[simp] theorem dropPacket_sessions (pkt : Packet) (sub : Nat) : (dropPacket s pkt sub).sessions = s.sessions := by
  simp only [dropPacket]
  (repeat' split) <;> simp

@[simp] theorem routeVia_sessions (req : Byte) (pkt : Packet) : (routeVia s req pkt).sessions = s.sessions := by
  unfold routeVia
  split <;> simp

@[simp] theorem sendVia_sessions (port : Option Nat) (pkt : Packet) : (sendVia s port pkt).sessions = s.sessions := by
  unfold sendVia
  (repeat' split) <;> simp

@[simp] theorem flushBridge_sessions : (flushBridge s).sessions = s.sessions := by
  unfold flushBridge
  exact foldl_keeps State.sessions (fun s (e : Option Nat × Packet) => sendVia s e.1 e.2) (fun s e => sendVia_sessions s e.1 e.2) _ _

@[simp] theorem setFreeze_sessions (k : Nat) (on : Bool) : (setFreeze s k on).sessions = s.sessions := by
  simp only [setFreeze]
  (repeat' split) <;> simp

@[simp] theorem arbWrite_sessions (k off : Nat) (v m : W64) : (arbWrite k s off v m).sessions = s.sessions := by
  simp only [arbWrite]
  (repeat' split) <;> simp

@[simp] theorem putArb_sessions (x : Sess) (sub v : Nat) : (putArb s x sub v).sessions = s.sessions := by
  unfold putArb
  split <;> simp

@[simp] theorem opSlew_sessions : (opSlew s).sessions = s.sessions := by
  simp only [opSlew]
  split <;> rfl

@[simp] theorem opRequestOp_sessions (v : Byte) : (opRequestOp s v).sessions = s.sessions := opSlew_sessions _

@[simp] theorem beginExit_sessions (b : Nat) : (beginExit s b).sessions = s.sessions := by
  simp only [beginExit]
  split <;> simp

@[simp] theorem toleranceOp_sessions (p : Nat) (v : W32) : (toleranceOp s p v).sessions = s.sessions :=
  foldl_keeps State.sessions _ (fun s b => by split <;> simp) _ _

@[simp] theorem setCellsOf_sessions (b : Nat) (f : Cell → Cell) : (setCellsOf s b f).sessions = s.sessions := by
  unfold setCellsOf
  exact foldl_keeps State.sessions (fun s k => s.updCell (8 * b + k) f) (fun _ _ => rfl) _ _

@[simp] theorem blockDormant_sessions (b : Nat) : (blockDormant s b).sessions = s.sessions := by simp [blockDormant]

@[simp] theorem retireGroup_sessions (g : Nat) : (retireGroup s g).sessions = s.sessions := by
  simp only [retireGroup, blockOut]
  (repeat' split) <;> simp

@[simp] theorem unitOff_sessions (m : Nat) : (unitOff s m).sessions = s.sessions := by
  simp only [unitOff]
  rw [foldl_keeps State.sessions (fun s n => s.setASlot (64 * m + n) ASlot.reset) fun _ _ => rfl]
  exact foldl_keeps State.sessions _ (fun s j => (State.setAdder_sessions _ _ _).trans (State.setSetter_sessions _ _ _)) _ _

@[simp] theorem retireCtl_sessions (m : Nat) : (retireCtl s m).sessions = s.sessions := by
  simp only [retireCtl, ctlOut]
  (repeat' split) <;> simp

@[simp] theorem retireAll_sessions : (retireAll s).sessions = s.sessions :=
  (foldl_keeps State.sessions _ retireCtl_sessions _ _).trans (foldl_keeps State.sessions _ retireGroup_sessions _ _)

@[simp] theorem partBegin_sessions (n : Nat) : (partBegin s n).sessions = s.sessions := by
  simp only [partBegin, partEnter]
  split <;> simp

@[simp] theorem acceptCmd_sessions (x : Sess) (n : Nat) (code : W16) (args : List Byte) :
    (acceptCmd s x n code args).sessions = s.sessions := by simp [acceptCmd]

@[simp] theorem reject_sessions (idx sub code : Nat) (part : Option Nat) (id : W32) :
    (reject s idx sub code part id).sessions = s.sessions := rfl

@[simp] theorem conflict_sessions (x : Sess) (i sub : Nat) : (conflict s x i sub).1.sessions = s.sessions := rfl

@[simp] theorem afterRead_sessions (i : Nat) : (afterRead s i).sessions = s.sessions := by
  unfold afterRead
  split <;> rfl

@[simp] theorem refusedAtUnit_sessions (a : Nat) : (refusedAtUnit s a).sessions = s.sessions :=
  refusedAtUnit_keeps State.sessions (fun _ _ => rfl) (fun _ _ => rfl) s a

theorem seat_afterRead_setSess (i : Nat) (x : Sess) (j : Nat) : ((afterRead s i).setSess j x).seat j = (s.setSess j x).seat j :=
  seat_congr (by simp only [State.setSess, afterRead_sessions]) j

/-! ### What keeps every session's state and name -/

theorem notify_seat (j idx sub : Nat) (pay : List Byte) (k : Nat) : (notify s j idx sub pay).seat k = s.seat k := by
  simp only [notify, sendWdp]
  split
  · exact (seat_congr (emit_sessions _ _) k).trans (seat_setSess (by rfl) (by rfl) k)
  · exact seat_setSess (by rfl) (by rfl) k

theorem notifyAll_seat (who : Sess → Bool) (idx sub : Nat) (pay : List Byte) (k : Nat) :
    (notifyAll s who idx sub pay).seat k = s.seat k := by
  refine foldl_keeps (State.seat · k) _ (fun s j => ?_) _ s
  split
  · exact notify_seat s j idx sub pay k
  · rfl

theorem setFlag_seat (f k : Nat) : (setFlag s f).seat k = s.seat k := by
  simp only [setFlag, notifyAll_seat]
  exact seat_congr (by rfl) k

theorem cmdEnd_seat (n : Nat) (st : CmdSt) (err : Byte) (k : Nat) : (cmdEnd s n st err).seat k = s.seat k := by
  simp only [cmdEnd]
  split <;> simp only [setFlag_seat, notifyAll_seat] <;> exact seat_congr (State.setCmd_sessions _ _ _) k

theorem slotCommand_seat (x : Sess) (n : Nat) (bs : List Byte) (k : Nat) : (slotCommand s x n bs).1.seat k = s.seat k := by
  refine seat_congr ?_ k
  simp only [slotCommand]
  (repeat' split) <;> simp

theorem slotAbort_seat (x : Sess) (n k : Nat) : (slotAbort s x n).1.seat k = s.seat k := by
  simp only [slotAbort]
  split
  · simp only [cmdEnd_seat]
    exact seat_congr (State.setCmd_sessions _ _ _) k
  · split
    · exact seat_congr (State.setCmd_sessions _ _ _) k
    · rfl
  · exact seat_congr (conflict_sessions _ _ _ _) k

theorem slotRelease_seat (x : Sess) (n k : Nat) : (slotRelease s x n).1.seat k = s.seat k := by
  simp only [slotRelease]
  split
  · exact seat_congr (by simp only [cmdIdle, State.setCmd_sessions]) k
  · exact seat_congr (conflict_sessions _ _ _ _) k

theorem ite_seat {c : Prop} [Decidable c] {a b : State} {k : Nat} {x : SessSt × W32} (ha : a.seat k = x) (hb : b.seat k = x) :
    (if c then a else b).seat k = x := by
  split <;> assumption

theorem putDo_seat (j i sub : Nat) (bs : List Byte) (k : Nat) : (putDo s j i sub bs).seat k = s.seat k := by
  have own : ∀ v, (s.setSess j (putSess (s.sess j) i v)).seat k = s.seat k := fun v => by
    unfold putSess
    (repeat' split) <;> exact seat_setSess (by rfl) (by rfl) k
  unfold putDo
  lift_lets
  intro v
  have aside : ∀ {t : State}, t.sessions = s.sessions → t.seat k = s.seat k := fun same => seat_congr same k
  exact ite_seat (aside rfl) <| ite_seat (own v) <| ite_seat (aside (opRequestOp_sessions _ _)) <|
    ite_seat (aside (toleranceOp_sessions _ _ _)) <| ite_seat (aside rfl) <| ite_seat (aside (putArb_sessions _ _ _ _)) <|
    ite_seat (aside rfl) <| ite_seat (aside (State.setPart_sessions _ _ _)) <| ite_seat (aside (retireAll_sessions _)) <|
    ite_seat (aside rfl) <| ite_seat (aside (setFreeze_sessions _ _ _)) <| ite_seat (aside rfl) <| ite_seat (aside rfl) <|
    ite_seat (aside rfl) <| ite_seat (aside rfl) <| ite_seat (aside rfl) (aside rfl)

theorem writeEntry_seat (iface : Iface) (i sub : Nat) (bs : List Byte) (j k : Nat) :
    (writeEntry iface i sub bs s j).1.seat k = s.seat k := by
  simp only [writeEntry]
  split
  · rfl
  · split_ifs
    · rfl
    · exact slotCommand_seat s _ _ _ k
    · exact slotAbort_seat s _ _ k
    · exact slotRelease_seat s _ _ k
    · rfl
    · rfl
    · exact seat_congr (conflict_sessions _ _ _ _) k
    · exact putDo_seat s j i sub bs k
end

/-! ### Entries read and written -/

section
variable {s : State} {j i sub : Nat} {e : Byte}

theorem readEntryOp_refused (h : reachCheck s (s.sess j) i sub false = some e) : readEntryOp i sub s j = (s, .code e) := by
  simp only [readEntryOp, h]

theorem readEntryOp_fits (h : reachCheck s (s.sess j) i sub false = none) (fits : (entVal s j i sub).length ≤ 1408) :
    readEntryOp i sub s j = (afterRead s i, ⟨0, 0, entVal s j i sub⟩) := by
  simp only [readEntryOp, h, Nat.not_lt.mpr fits, if_false]

theorem readEntryOp_long (h : reachCheck s (s.sess j) i sub false = none) (long : 1408 < (entVal s j i sub).length) :
    readEntryOp i sub s j = (s, .code 5) := by
  simp only [readEntryOp, h, long, if_true]

section
variable {iface : Iface} {bs : List Byte}

theorem writeEntry_refused (h : reachCheck s (s.sess j) i sub true = some e) : writeEntry iface i sub bs s j = (s, e) := by
  simp only [writeEntry, h]

variable (reach : reachCheck s (s.sess j) i sub true = none)
include reach

theorem writeEntry_wrongSize (size : putType i sub bs.length = false) : writeEntry iface i sub bs s j = (s, 4) := by
  simp [writeEntry, reach, size]

variable (size : putType i sub bs.length = true)
include size

theorem writeEntry_command (slot : isSlotObj i = true) (one : sub = 1) :
    writeEntry iface i sub bs s j = slotCommand s (s.sess j) (i - 0x8000) bs := by
  subst one
  simp [writeEntry, reach, size, slot]

variable (entry : isSlotObj i = false)
include entry

theorem writeEntry_outOfRange (range : putRange (s.sess j) i sub bs = false) : writeEntry iface i sub bs s j = (s, 5) := by
  simp [writeEntry, reach, size, entry, range]

variable (range : putRange (s.sess j) i sub bs = true)
include range

theorem writeEntry_conflict (legal : putLegal s iface i sub bs = false) :
    writeEntry iface i sub bs s j = conflict s (s.sess j) i sub := by
  simp [writeEntry, reach, size, entry, range, legal]

theorem writeEntry_done (legal : putLegal s iface i sub bs = true) : writeEntry iface i sub bs s j = (putDo s j i sub bs, 0) := by
  simp [writeEntry, reach, size, entry, range, legal]
end

section
variable {off len : Nat}

theorem readSegOp_refused (h : reachCheck s (s.sess j) i sub false = some e) : readSegOp i sub off len s j = (s, .code e) := by
  simp only [readSegOp, h]

variable (reach : reachCheck s (s.sess j) i sub false = none)
include reach

theorem readSegOp_begins : readSegOp i sub 0 len s j =
    ((afterRead s i).setSess j { s.sess j with snap := some ((entVal s j i sub).take 65535) },
      ⟨0, ((entVal s j i sub).take 65535).length, ((entVal s j i sub).take 65535).take len⟩) := by
  simp only [readSegOp, reach, if_true]

theorem readSegOp_noSnapshot (later : off ≠ 0) (none : (s.sess j).snap = none) : readSegOp i sub off len s j = (s, .code 5) := by
  simp only [readSegOp, reach, later, if_false, none]

theorem readSegOp_continues (later : off ≠ 0) {g : List Byte} (snap : (s.sess j).snap = some g) :
    readSegOp i sub off len s j = (s, ⟨0, g.length, (g.drop off).take len⟩) := by
  simp only [readSegOp, reach, later, if_false, snap]
end
end

section
variable {s : State} {j : Nat} {i off : W16} {sub e : Byte} {v : List Byte}

theorem writeSegOp_refused (h : reachCheck s (s.sess j) i.toNat sub.toNat true = some e) :
    writeSegOp i.toNat sub.toNat off.toNat v s j = (s, .code e) := by
  simp only [writeSegOp, h]

section
variable (reach : reachCheck s (s.sess j) i.toNat sub.toNat true = none)
include reach

theorem writeSegOp_begins : writeSegOp i.toNat sub.toNat (0 : W16).toNat v s j =
    (s.setSess j { s.sess j with staging := some (i, sub, v) }, .code 0) := by
  simp [writeSegOp, reach]

theorem writeSegOp_continues (later : off ≠ 0) {g : List Byte} (staging : (s.sess j).staging = some (i, sub, g))
    (next : off.toNat = g.length) (room : g.length + v.length ≤ 65535) : writeSegOp i.toNat sub.toNat off.toNat v s j =
      (s.setSess j { s.sess j with staging := some (i, sub, g ++ v) }, .code 0) := by
  have later : g.length ≠ 0 := fun h => later (BitVec.eq_of_toNat_eq (next.trans h))
  simp only [writeSegOp, reach, next, later, if_false, staging]
  simp [room]

theorem writeSegOp_outOfPlace (later : off ≠ 0)
    (misplaced : ∀ g, (s.sess j).staging = some (i, sub, g) → off.toNat ≠ g.length ∨ 65535 < g.length + v.length) :
    writeSegOp i.toNat sub.toNat off.toNat v s j = (s, .code 5) := by
  have later : off.toNat ≠ 0 := fun h => later (BitVec.eq_of_toNat_eq h)
  cases staging : (s.sess j).staging with
  | none => simp [writeSegOp, reach, later, staging]
  | some x =>
    obtain ⟨i', sub', g⟩ := x
    have apart : ¬(i' = i ∧ sub' = sub ∧ off.toNat = g.length ∧ g.length + v.length ≤ 65535) := by
      rintro ⟨rfl, rfl, next, room⟩
      have := misplaced g staging
      omega
    simp [writeSegOp, reach, later, staging, apart]
end

section
variable {iface : Iface}

theorem commitOp_refused (h : reachCheck s (s.sess j) i.toNat sub.toNat true = some e) :
    commitOp iface i.toNat sub.toNat s j = (s.setSess j { s.sess j with staging := none }, .code e) := by
  simp only [commitOp, h]

variable (reach : reachCheck s (s.sess j) i.toNat sub.toNat true = none)
include reach

theorem commitOp_nothingStaged (unstaged : ∀ g, (s.sess j).staging ≠ some (i, sub, g)) :
    commitOp iface i.toNat sub.toNat s j = (s.setSess j { s.sess j with staging := none }, .code 5) := by
  cases staging : (s.sess j).staging with
  | none => simp only [commitOp, reach, staging]
  | some x =>
    obtain ⟨i', sub', g⟩ := x
    have apart : ¬(i'.toNat = i.toNat ∧ sub'.toNat = sub.toNat) := fun ⟨hi, hsub⟩ =>
      unstaged g (by rw [staging, BitVec.eq_of_toNat_eq hi, BitVec.eq_of_toNat_eq hsub])
    simp only [commitOp, reach, staging, apart, if_false]

theorem commitOp_staged {g : List Byte} (staging : (s.sess j).staging = some (i, sub, g)) :
    commitOp iface i.toNat sub.toNat s j =
      writeEntryOp iface i.toNat sub.toNat g (s.setSess j { s.sess j with staging := none }) j := by
  simp only [commitOp, reach, staging, and_self, if_true]
end
end

section
variable {s : State} {q : Req} {j : Nat} {t : State} {r : Reply} {i : W16} {sub : Byte}

theorem exec_read_entry (fresh : Fresh s q (reqMsg q 1 i.toNat sub.toNat 0 0 []) j)
    (acts : readEntryOp i.toNat sub.toNat (acting s q j) j = (t, r))
    (seat : t.seat j = (acting s q j).seat j) :
    exec (.read q (.entry i sub)) s = .next (replied s q j (reqMsg q 1 i.toNat sub.toNat 0 0 []) r t) :=
  congrArg next (askWith_fresh fresh (by simpa [wdpAct, reqMsg] using acts) seat)

theorem exec_write_entry {v : List Byte} {e : Byte} (fresh : Fresh s q (writeMsg q i.toNat sub.toNat v) j)
    (writes : writeEntry q.iface i.toNat sub.toNat v (acting s q j) j = (t, e)) :
    exec (.write q (.entry i sub) v) s = .next (replied s q j (writeMsg q i.toNat sub.toNat v) (.code e) t) := by
  have seat := writeEntry_seat (acting s q j) q.iface i.toNat sub.toNat v j j
  rw [writes] at seat
  exact congrArg next (askWith_fresh fresh (by simp [wdpAct, writeMsg, reqMsg, writeEntryOp, writes]) seat)

theorem exec_readSeg {off len : W16} (fresh : Fresh s q (reqMsg q 3 i.toNat sub.toNat off len []) j)
    (acts : readSegOp i.toNat sub.toNat off.toNat len.toNat (acting s q j) j = (t, r))
    (seat : t.seat j = (acting s q j).seat j) :
    exec (.readSeg q i sub off len) s = .next (replied s q j (reqMsg q 3 i.toNat sub.toNat off len []) r t) :=
  congrArg next (askWith_fresh fresh (by simpa [wdpAct, reqMsg] using acts) seat)

theorem exec_writeSeg {off : W16} {v : List Byte} (fresh : Fresh s q (reqMsg q 4 i.toNat sub.toNat off (BitVec.ofNat 16 v.length) v) j)
    (acts : writeSegOp i.toNat sub.toNat off.toNat v (acting s q j) j = (t, r))
    (seat : t.seat j = (acting s q j).seat j) : exec (.writeSeg q i sub off v) s =
      .next (replied s q j (reqMsg q 4 i.toNat sub.toNat off (BitVec.ofNat 16 v.length) v) r t) :=
  congrArg next (askWith_fresh fresh (by simpa [wdpAct, reqMsg] using acts) seat)

theorem exec_commit (fresh : Fresh s q (reqMsg q 5 i.toNat sub.toNat 0 0 []) j)
    (acts : commitOp q.iface i.toNat sub.toNat (acting s q j) j = (t, r))
    (seat : t.seat j = (acting s q j).seat j) :
    exec (.commit q i sub) s = .next (replied s q j (reqMsg q 5 i.toNat sub.toNat 0 0 []) r t) :=
  congrArg next (askWith_fresh fresh (by simpa [wdpAct, reqMsg] using acts) seat)

end
/-! ### Device memory read and written -/

theorem memCheck_sessions {s t : State} {x : Sess} {a n : Nat} {e : Byte} (h : memCheck s x a n = .error (t, e)) :
    t.sessions = s.sessions := by
  simp only [memCheck] at h
  repeat' split at h
  · cases h; rfl
  · cases h; rfl
  · cases h; exact refusedAtUnit_sessions _ _
  · cases h

theorem memCheck_ok {s : State} {x : Sess} {a n : Nat} {h : Byte} : memCheck s x a n = .ok h ↔ memHall s x = some h ∧
    ((firstReserved s a n).isSome || dormantTile s a n) = false ∧ firstBadPage (fun b => unitAccepts s h b) a n = none := by
  unfold memCheck
  split
  · next none => simp [none]
  · next h' hall =>
    rw [hall, Option.some.injEq]
    split
    · next refused => simp [refused]
    · next taken =>
      rw [Bool.not_eq_true] at taken
      rw [taken]
      split
      · next b bad =>
        refine ⟨fun no => by simp at no, fun ⟨same, _, accepted⟩ => ?_⟩
        rw [← same, bad] at accepted
        cases accepted
      · next accepted =>
        rw [Except.ok.injEq]
        exact ⟨fun same => ⟨same, rfl, same ▸ accepted⟩, And.left⟩

/-- Which accesses to device memory pass their checks turns on no session but by its role and its partition. -/
theorem memCheck_aside {s : State} {x y : Sess} {a n : Nat} {h : Byte} (eth : Eth) (sessions : Vector Sess 16) (role : y.role = x.role)
    (part : y.part = x.part) : memCheck (s.aside eth sessions) y a n = .ok h ↔ memCheck s x a n = .ok h := by
  have hall : memHall (s.aside eth sessions) y = memHall s x := by
    simp only [memHall, role, part]
    rfl
  have reserved : firstReserved (s.aside eth sessions) a n = firstReserved s a n := rfl
  have dormant : dormantTile (s.aside eth sessions) a n = dormantTile s a n := rfl
  have refused (h : Byte) : firstBadPage (fun b => unitAccepts (s.aside eth sessions) h b) a n =
      firstBadPage (fun b => unitAccepts s h b) a n := rfl
  rw [memCheck_ok, hall, reserved, dormant, refused, memCheck_ok]

/-- An extent of memory holds no byte of a tile window. -/
theorem tileSpans_of_isMem {a n : Nat} (mem : ∀ d < n, isMem (a + d) = true) : tileSpans a n = [] := by
  unfold tileSpans
  split
  · rfl
  · next some =>
    refine List.filterMap_eq_nil_iff.mpr fun k hk => ?_
    have hk := List.mem_range.mp hk
    obtain ⟨d, hd, start⟩ : ∃ d < n, max a (65536 * (a / 65536 + k)) = a + d :=
      ⟨max a (65536 * (a / 65536 + k)) - a, by omega, by omega⟩
    have here := mem d hd
    dsimp only
    rw [start]
    cases place : placeOf (a + d) <;> simp [isMem, place] at here <;> rfl

section
variable {s t u : State} {lo : Nat}

/-- The groups of an extent powered. -/
theorem Moves.wakeExtent (m : Moves lo s t) (a n : Nat) : Moves lo s (wakeExtent t a n) := by
  unfold Machine.wakeExtent
  generalize pageStarts a n = starts
  induction starts generalizing t with
  | nil => exact m
  | cons b bs ih => exact ih (m.wakeGroup b)

theorem Moves.countWdp (m : Moves lo s t) (h : Byte) (a n : Nat) : Moves lo s (countWdp t h a n) :=
  (m.countPart _ _ _).countPart _ _ _

/-- Lines moved, and then bytes written. -/
theorem Moves.stores {a : Nat} {bs : List Byte} (m : Moves a s t) (w : Stores t u a bs) : Stores s u a bs where
  units := w.units.trans m.units
  bytes := w.bytes
  below line d hd := (w.below line d hd).trans (m.below d hd)
  same h := by
    obtain ⟨h', moved⟩ := m.same h
    obtain ⟨h'', written⟩ := w.same h'
    exact ⟨h'', fun d hd => (written d hd).trans (moved d)⟩
end

theorem wakeExtent_keeps {α : Type} (f : State → α) (block : ∀ (s : State) b x, x.l2 = (s.block b).l2 → f (s.setBlock b x) = f s)
    (region : ∀ (s : State) r x, f (s.setRegion r x) = f s) (s : State) (a n : Nat) : f (wakeExtent s a n) = f s :=
  foldl_keeps f wakeGroup (wakeGroup_keeps f block region) _ s

/-- The state in which a WDP access has reached memory. -/
def accessed (s : State) (h : Byte) (a n : Nat) : State := countWdp (wakeExtent s a n) h a n

theorem accessed_keeps {α : Type} (f : State → α) (block : ∀ (s : State) b x, x.l2 = (s.block b).l2 → f (s.setBlock b x) = f s)
    (region : ∀ (s : State) r x, f (s.setRegion r x) = f s) (count : ∀ s p k n, f (countPart s p k n) = f s) (s : State) (h : Byte)
    (a n : Nat) : f (accessed s h a n) = f s := by
  simp only [accessed, countWdp, count, wakeExtent_keeps f block region]

theorem Moves.accessed (lo : Nat) (s : State) (h : Byte) (a n : Nat) : Moves lo s (accessed s h a n) :=
  ((Moves.refl lo s).wakeExtent a n).countWdp h a n

@[simp] theorem memBad_accessed (s : State) (h : Byte) (a n d : Nat) : memBad (accessed s h a n) d = memBad s d := by
  have l2 (g : Nat) : ((accessed s h a n).block g).l2 = (s.block g).l2 :=
    accessed_keeps (fun s => (s.block g).l2) (fun s _ _ l2 => setBlock_l2 s l2 g) (fun _ _ _ => rfl)
      (fun s p k n => by rw [countPart_block]) s h a n
  have poison : (accessed s h a n).poison = s.poison :=
    accessed_keeps State.poison (fun _ _ _ _ => rfl) (fun _ _ _ => rfl) countPart_poison s h a n
  have holder (r l : Nat) : regionHolder (accessed s h a n) r l = regionHolder s r l := by
    simp only [regionHolder, l2]
  have own : l2Of (accessed s h a n) d = l2Of s d := holder _ _
  have bad (g : Nat) : badIn (accessed s h a n) g (d / 128) = badIn s g (d / 128) := by simp only [badIn, l2]
  unfold memBad
  rw [own, poison]
  split
  · rw [bad]
  · rfl

@[simp] theorem memByte_accessed (s : State) (h : Byte) (a n d : Nat) : memByte (accessed s h a n) d = memByte s d :=
  accessed_keeps (memByte · d) (fun _ _ _ _ => rfl) (fun _ _ _ => rfl) (fun s p k n => memByte_countPart s p k n d) s h a n

theorem copyByte_of_isMem (s : State) (ctl : Nat → Byte) {a : Nat} (h : isMem a = true) :
    copyByte s ctl a = (memByte s a, memBad s a) := by
  cases place : placeOf a <;> simp [isMem, place] at h <;> simp only [copyByte, place]

section
variable {s t : State} {j a n : Nat} {chk : Check} {e : Byte}

theorem readMemOp_long (long : 1408 < n) : readMemOp a n chk s j = (s, .code 5) := if_pos long

theorem readMemOp_refused (short : n ≤ 1408) (refused : memCheck s (s.sess j) a n = .error (t, e)) :
    readMemOp a n chk s j = (t, .code e) := by
  simp only [readMemOp, Nat.not_lt.mpr short, if_false, refused]

theorem writeMemOp_refused {v : List Byte} (refused : memCheck s (s.sess j) a v.length = .error (t, e)) :
    writeMemOp a v chk s j = (t, .code e) := by
  simp only [writeMemOp, refused]
end

theorem readMemOp_reads {s : State} {j a n : Nat} {h : Byte} {chk : Check} (short : n ≤ 1408) (ok : memCheck s (s.sess j) a n = .ok h)
    (clean : chk.ecc = .clean) (mem : ∀ d < n, isMem (a + d) = true ∧ memBad s (a + d) = none) :
    readMemOp a n chk s j = ({ accessed s h a n with draws := (accessed s h a n).draws + n }, ⟨0, 0, memBytes s a n⟩) := by
  have bytes : copyBytes (copyReader (accessed s h a n) h) a n = (List.range n).map fun d => (memByte s (a + d), none) := by
    refine List.map_congr_left fun d hd => ?_
    obtain ⟨here, good⟩ := mem d (List.mem_range.mp hd)
    rw [copyReader, copyByte_of_isMem _ _ here, memByte_accessed, memBad_accessed, good]
  have good : badOf ((List.range n).map fun d => ((memByte s (a + d), none) : CByte)) = none := by
    simp [badOf]
  have read : readCheck (accessed s h a n) a n chk = accessed s h a n := by
    simp only [readCheck, foundAt, clean]
  have vals : (((List.range n).map fun d => ((memByte s (a + d), none) : CByte)).zipIdx.map fun e =>
      if e.1.2.isSome then (Config.freeWord ((accessed s h a n).draws + e.2)).truncate 8 else e.1.1) = memBytes s a n := by
    simp only [memBytes_eq_map, List.zipIdx_map, List.map_map, Function.comp_def, Prod.map, Option.isSome_none,
      Bool.false_eq_true, if_false]
    exact (List.map_map (f := Prod.fst) (g := fun d => memByte s (a + d)) ..).symm.trans (by rw [List.zipIdx_map_fst])
  have tiles := tileSpans_of_isMem fun d hd => (mem d hd).1
  simp only [readMemOp, Nat.not_lt.mpr short, if_false, ok, readyTiles, tiles, List.foldl_nil]
  rw [show countWdp (wakeExtent s a n) h a n = accessed s h a n from rfl]
  simp only [read, ite_self, bytes, vals, good]

theorem writeMemOp_writes {s : State} {j a : Nat} {v : List Byte} {h : Byte} (ok : memCheck s (s.sess j) a v.length = .ok h)
    (mem : ∀ d < v.length, isMem (a + d) = true) : ∃ t, writeMemOp a v .clean s j = (t, .code 0) ∧ Stores s t a v := by
  have stores := writePieces_stores (fun s a bs => ctlPut s h a bs) (accessed s h a v.length) a v mem
  refine ⟨_, ?_, (Moves.accessed a s h a v.length).stores stores⟩
  have whole (s : State) (as : List Nat) : mergeCheck s as .clean = s := by
    simp [mergeCheck, Check.clean]
  simp only [writeMemOp, ok, readyTiles, tileSpans_of_isMem mem, List.foldl_nil, whole, ite_self]
  rfl

/-! ### Requests for device memory -/

/-- The READ and the WRITE of an extent of device memory (01 R23, log entry 67). -/
def getMsg (q : Req) (a n : Nat) : WdpMsg :=
  reqMsg q 1 0 0 0 (BitVec.ofNat 16 (Config.memExtent false a n).length) (Config.memExtent false a n)
def putMsg (q : Req) (a : Nat) (v : List Byte) : WdpMsg := writeMsg q 0 0 (Config.memExtent true a v.length ++ v)

section
variable {s t : State} {q : Req} {j : Nat} {a : Addr} {n : BitVec 11} {chk : Check} {v : List Byte}

theorem exec_read_mem_waits (waits : memWaits s q (getMsg q a.toNat n.toNat) a.toNat n.toNat false = some t) :
    exec (.read q (.mem a n chk)) s = .next t := by
  have executes : exec (.read q (.mem a n chk)) s = execRead q (.mem a n chk) s := rfl
  simp only [getMsg] at waits
  simp only [executes, execRead, waits, next]

theorem exec_write_mem_waits (waits : memWaits s q (putMsg q a.toNat v) a.toNat v.length true = some t) :
    exec (.write q (.mem a chk) v) s = .next t := by
  have executes : exec (.write q (.mem a chk) v) s = execWrite q (.mem a chk) v s := rfl
  simp only [putMsg] at waits
  simp only [executes, execWrite, waits, next]

theorem exec_read_mem {r : Reply} (fresh : Fresh s q (getMsg q a.toNat n.toNat) j)
    (proceeds : memWaits s q (getMsg q a.toNat n.toNat) a.toNat n.toNat false = none)
    (acts : readMemOp a.toNat n.toNat chk (acting s q j) j = (t, r))
    (sessions : t.sessions = (acting s q j).sessions) :
    exec (.read q (.mem a n chk)) s = .next (replied s q j (getMsg q a.toNat n.toNat) r t) := by
  have executes : exec (.read q (.mem a n chk)) s = execRead q (.mem a n chk) s := rfl
  have asks := askWith_fresh fresh acts (seat_congr sessions j)
  simp only [getMsg] at proceeds asks
  simp only [executes, execRead, proceeds, next, asks, getMsg]

theorem exec_write_mem {r : Reply} (fresh : Fresh s q (putMsg q a.toNat v) j)
    (proceeds : memWaits s q (putMsg q a.toNat v) a.toNat v.length true = none)
    (acts : writeMemOp a.toNat v chk (acting s q j) j = (t, r))
    (sessions : t.sessions = (acting s q j).sessions) :
    exec (.write q (.mem a chk) v) s = .next (replied s q j (putMsg q a.toNat v) r t) := by
  have executes : exec (.write q (.mem a chk) v) s = execWrite q (.mem a chk) v s := rfl
  have asks := askWith_fresh fresh acts (seat_congr sessions j)
  simp only [putMsg] at proceeds asks
  simp only [executes, execWrite, proceeds, next, asks, putMsg]
end

section
variable {s : State} {q : Req} {m : WdpMsg} {j a n : Nat} {wr : Bool}

theorem acting_aside (s : State) (q : Req) (j : Nat) :
    ∃ eth sessions, acting s q j = s.aside eth sessions := by
  unfold acting
  rw [framesIn_eq]
  exact ⟨_, _, rfl⟩

theorem acting_sess (fresh : Fresh s q m j) : ((acting s q j).sess j).role = (s.sess j).role ∧
    ((acting s q j).sess j).part = (s.sess j).part := by
  obtain ⟨-, -, -, at_, -⟩ := fresh
  rw [heard_sess (sessOf_some at_).1, framesIn_sess]
  exact ⟨rfl, rfl⟩

/-- A fresh request passes the checks of its access as it acts where it does as it comes in. -/
theorem memCheck_acting {h : Byte} (fresh : Fresh s q m j) :
    memCheck (acting s q j) ((acting s q j).sess j) a n = .ok h ↔
      memCheck s (s.sess j) a n = .ok h := by
  obtain ⟨role, part⟩ := acting_sess fresh
  generalize (acting s q j).sess j = z at *
  obtain ⟨eth, sessions, aside⟩ := acting_aside s q j
  rw [aside]
  exact memCheck_aside eth sessions role part

theorem memWaits_of_refused {e : State × Byte} (fresh : Fresh s q m j)
    (refused : memCheck (acting s q j) ((acting s q j).sess j) a n = .error e) :
    memWaits s q m a n wr = none := by
  cases check : memCheck s (s.sess j) a n with
  | ok h =>
    rw [(memCheck_acting fresh).mpr check] at refused
    cases refused
  | error e' =>
    obtain ⟨here, len, pay, at_, tag, next⟩ := fresh
    simp [memWaits, here, Nat.not_lt.mpr len, Nat.not_lt.mpr pay, at_, ← tag, next, check]

/-- An access to memory whose groups are ready and whose arbiters are free waits for nothing. -/
theorem memWaits_of_ready {h : Byte} (fresh : Fresh s q m j) (ok : memCheck s (s.sess j) a n = .ok h) (free : wdpHeld s a n = false)
    (ready : extentReady s a n = true) (mem : ∀ d < n, isMem (a + d) = true) : memWaits s q m a n wr = none :=
  ((memWaits_fresh s q m j a n wr h fresh ok).2.2 free ready s).2 (by rw [tileSpans_of_isMem mem]; rfl)

end

/-- A READ that memory answers. -/
theorem exec_read_mem_reads {s : State} {q : Req} {j : Nat} {a : Addr} {k : BitVec 11} {chk : Check} {h : Byte}
    (fresh : Fresh s q (getMsg q a.toNat k.toNat) j) (short : k.toNat ≤ 1408)
    (ok : memCheck (acting s q j) ((acting s q j).sess j) a.toNat k.toNat = .ok h)
    (free : wdpHeld s a.toNat k.toNat = false) (ready : extentReady s a.toNat k.toNat = true) (clean : chk.ecc = .clean)
    (mem : ∀ d < k.toNat, isMem (a.toNat + d) = true ∧ memBad s (a.toNat + d) = none) :
    ∃ t, exec (.read q (.mem a k chk)) s = .next (replied s q j (getMsg q a.toNat k.toNat) ⟨0, 0, memBytes s a.toNat k.toNat⟩ t) ∧
      (∀ d, memByte t d = memByte s d) ∧ t.cells = s.cells ∧ t.ctl = s.ctl ∧ t.sess j = (acting s q j).sess j := by
  have proceeds := memWaits_of_ready (wr := false) fresh ((memCheck_acting fresh).mp ok) free ready fun d hd => (mem d hd).1
  obtain ⟨eth, sessions, aside⟩ := acting_aside s q j
  have bad (d : Nat) : memBad (acting s q j) d = memBad s d := by rw [aside]; rfl
  have byte (d : Nat) : memByte (acting s q j) d = memByte s d := by rw [aside]; rfl
  have reads := readMemOp_reads short ok clean fun d hd => by rw [bad]; exact mem d hd
  rw [memBytes_congr fun d _ => byte (a.toNat + d)] at reads
  have kept {α : Type} (f : State → α) (block : ∀ (s : State) b x, f (s.setBlock b x) = f s)
      (region : ∀ (s : State) r x, f (s.setRegion r x) = f s) (count : ∀ s p k n, f (countPart s p k n) = f s) :
      f (accessed (acting s q j) h a.toNat k.toNat) = f (acting s q j) :=
    accessed_keeps f (fun s b x _ => block s b x) region count _ _ _ _
  refine ⟨_, exec_read_mem fresh proceeds reads ?_, fun d => (memByte_accessed _ h _ _ d).trans (byte d), ?_, ?_, ?_⟩
  · exact kept State.sessions (fun _ _ _ => rfl) (fun _ _ _ => rfl) countPart_sessions
  · exact (kept State.cells (fun _ _ _ => rfl) (fun _ _ _ => rfl) countPart_cells).trans (by rw [aside]; rfl)
  · exact (kept State.ctl (fun _ _ _ => rfl) (fun _ _ _ => rfl) countPart_ctl).trans (by rw [aside]; rfl)
  · exact kept (State.sess · j) (fun _ _ _ => rfl) (fun _ _ _ => rfl) fun s p k n => countPart_sess s p k n j

/-- A WRITE that memory takes. -/
theorem exec_write_mem_writes {s : State} {q : Req} {j : Nat} {a : Addr} {v : List Byte} {h : Byte}
    (fresh : Fresh s q (putMsg q a.toNat v) j) (ok : memCheck (acting s q j) ((acting s q j).sess j) a.toNat v.length = .ok h)
    (free : wdpHeld s a.toNat v.length = false) (ready : extentReady s a.toNat v.length = true)
    (mem : ∀ d < v.length, isMem (a.toNat + d) = true) :
    ∃ t, exec (.write q (.mem a .clean) v) s = .next (replied s q j (putMsg q a.toNat v) (.code 0) t) ∧
      memBytes t a.toNat v.length = v ∧ t.sess j = (acting s q j).sess j ∧
      (Coherent s → ∀ d, d < a.toNat ∨ a.toNat + v.length ≤ d → memByte t d = memByte s d) ∧ t.ctl = s.ctl := by
  have proceeds := memWaits_of_ready (wr := true) fresh ((memCheck_acting fresh).mp ok) free ready mem
  obtain ⟨t, writes, stores⟩ := writeMemOp_writes ok mem
  obtain ⟨eth, sessions, aside⟩ := acting_aside s q j
  have kept {α : Type} (f : State → α) (off : ∀ s : State, f s.offCaches = f s) : f t = f (acting s q j) := by
    rw [← off, stores.units, off]
  have sessions := kept State.sessions fun _ => rfl
  have ctl : t.ctl = s.ctl := (kept State.ctl fun _ => rfl).trans (by rw [aside]; rfl)
  refine ⟨t, exec_write_mem fresh proceeds writes sessions, stores.bytes, by simp only [State.sess, sessions],
    fun coherent d hd => ?_, ctl⟩
  rw [aside] at stores
  exact (stores.same coherent).2 d hd

/-! ### The requests together -/

section
variable {s : State} {q : Req} {m : WdpMsg} {j : Nat} {c : Instr} {act : State → Nat → State × Reply}

/-- What a step with a request is where a check fails, whatever the request asks for. -/
theorem exec_checks (asks : exec c s = .next (askWith s q m act)) :
    (reached s q.iface q.dst = false ∨ 1408 < m.len.toNat ∨ 1408 < m.pay.length → exec c s = .next (framesIn s q.iface 1)) ∧
    (reached s q.iface q.dst = true → m.len.toNat ≤ 1408 → m.pay.length ≤ 1408 →
      (sessOf s q.sess = none → exec c s = .next (authBad (framesIn s q.iface 1) q.iface q.src m)) ∧
      (sessOf s q.sess = some j → q.tag ≠ tagOf (s.sess j).keyIn (msgBytes m) →
        exec c s = .next (authBad (framesIn s q.iface 1) q.iface q.src m)) ∧
      (sessOf s q.sess = some j → q.tag = tagOf (s.sess j).keyIn (msgBytes m) → q.seq ≠ (s.sess j).seq + 1 →
        (∀ r, q.seq = (s.sess j).seq → (s.sess j).cached = some r → exec c s =
          .next (sendWdp (framesIn s q.iface 1) (acting s q j) q.iface q.src r
            (tagOf (s.sess j).keyOut (msgBytes r)))) ∧
        (q.seq ≠ (s.sess j).seq ∨ (s.sess j).cached = none →
          exec c s = .next (seqBad (acting s q j) q m (s.sess j).keyOut)))) := by
  rw [asks, askWith, ← framesIn_sess s q.iface 1 j, ← sessOf_framesIn s q.iface 1, ← reached_framesIn s q.iface q.iface 1]
  refine ⟨fun h => congrArg next (request_unheard h), fun here len pay =>
    ⟨fun h => ?_, fun at_ tag => ?_, fun at_ tag new => ⟨fun r seq cached => ?_, fun last => ?_⟩⟩⟩
  · exact congrArg next (request_noSession here len pay h)
  · exact congrArg next (request_wrongTag here len pay at_ tag)
  · rw [request_of_some here len pay at_ tag cached, if_pos seq]
  · exact congrArg next (request_wrongSeq here len pay at_ tag new last)
end

/-- An ABORT that falls in the end of its command is a request as well (17 R420). -/
theorem exec_commandAbort_asks (s : State) (q : Req) (n : SlotIx) (meets : Bool) :
    ∃ act, exec (.commandAbort q n meets) s = .next (askWith s q (writeMsg q (0x8000 + n.val) 5 [1]) act) := by
  show ∃ act, execCommandAbort q n meets s = _
  simp only [execCommandAbort]
  split
  · exact ⟨_, rfl⟩
  · exact ⟨_, rfl⟩

/-- Settles O49: the checks that every request meets come first, then each instruction's action by the branches of the operation that it
names; none of them ends the session that asked. -/
theorem requestsComplete : Obligations.RequestsComplete := by
  intro s q j i sub off len v n p b w meets fs u z reply mRead mWrite mReadSeg mWriteSeg mCommit
  refine ⟨fun c m mem => ?_, fun fresh => ?_, fun a k chk m hm fresh => ?_, fun a chk m hm fresh => ?_, fun fresh => ?_, fun fresh => ?_,
    fun fresh => ?_, fun fresh => ?_⟩
  · obtain ⟨act, asks⟩ : ∃ act, exec c s = .next (askWith s q m act) := by
      simp only [List.mem_cons, List.not_mem_nil, or_false, Prod.mk.injEq] at mem
      rcases mem with ⟨rfl, rfl⟩ | ⟨rfl, rfl⟩ | ⟨rfl, rfl⟩ | ⟨rfl, rfl⟩ | ⟨rfl, rfl⟩ | ⟨rfl, rfl⟩ | ⟨rfl, rfl⟩ |
        ⟨rfl, rfl⟩ | ⟨rfl, rfl⟩ | ⟨rfl, rfl⟩ | ⟨rfl, rfl⟩
      case inr.inr.inr.inr.inr.inr.inl => exact exec_commandAbort_asks s q n meets
      all_goals exact ⟨_, rfl⟩
    exact exec_checks asks
  · exact ⟨fun e h => exec_read_entry fresh (readEntryOp_refused h) rfl, fun h =>
      ⟨fun fits => exec_read_entry fresh (readEntryOp_fits h fits) (seat_congr (afterRead_sessions _ _) j),
        fun long => exec_read_entry fresh (readEntryOp_long h long) rfl⟩⟩
  · subst hm
    refine ⟨fun t => exec_read_mem_waits, fun long proceeds => exec_read_mem fresh proceeds (readMemOp_long long) rfl,
      fun t e short refused => exec_read_mem fresh (memWaits_of_refused fresh refused) (readMemOp_refused short refused)
        (memCheck_sessions refused), fun h short ok => ?_⟩
    have ok' := (memCheck_acting fresh).mp ok
    obtain ⟨held, waking, -⟩ := memWaits_fresh s q _ j a.toNat k.toNat false h fresh ok'
    exact ⟨fun h => exec_read_mem_waits (held h), fun free h => exec_read_mem_waits (waking free h),
      fun free ready clean mem => exec_read_mem_reads fresh short ok free ready clean mem⟩
  · subst hm
    refine ⟨fun t => exec_write_mem_waits, fun t e refused => exec_write_mem fresh (memWaits_of_refused fresh refused)
      (writeMemOp_refused refused) (memCheck_sessions refused), fun h ok => ?_⟩
    have ok' := (memCheck_acting fresh).mp ok
    obtain ⟨held, waking, -⟩ := memWaits_fresh s q _ j a.toNat v.length true h fresh ok'
    refine ⟨fun h => exec_write_mem_waits (held h), fun free h => exec_write_mem_waits (waking free h), ?_⟩
    rintro free ready - rfl mem
    exact exec_write_mem_writes fresh ok free ready mem
  · exact ⟨fun e h => exec_write_entry fresh (writeEntry_refused h), fun reach =>
      ⟨fun size => exec_write_entry fresh (writeEntry_wrongSize reach size),
        fun size slot one => exec_write_entry fresh
          ((writeEntry_command reach size slot (congrArg BitVec.toNat one)).trans Prod.mk.eta.symm),
        fun size entry =>
      ⟨fun range => exec_write_entry fresh (writeEntry_outOfRange reach size entry range), fun range =>
      ⟨fun legal => exec_write_entry fresh (writeEntry_conflict reach size entry range legal),
        fun legal => exec_write_entry fresh (writeEntry_done reach size entry range legal)⟩⟩⟩⟩
  · refine ⟨fun e h => exec_readSeg fresh (readSegOp_refused h) rfl, fun h =>
      ⟨fun zero => ?_, fun later none => ?_, fun g later snap => ?_⟩⟩
    · subst zero
      exact exec_readSeg fresh (readSegOp_begins h) ((seat_afterRead_setSess u _ _ j).trans (seat_setSess (by rfl) (by rfl) j))
    · exact exec_readSeg fresh (readSegOp_noSnapshot h (fun zero => later (BitVec.eq_of_toNat_eq zero)) none) rfl
    · exact exec_readSeg fresh (readSegOp_continues h (fun zero => later (BitVec.eq_of_toNat_eq zero)) snap) rfl
  · refine ⟨fun e h => exec_writeSeg fresh (writeSegOp_refused h) rfl, fun h => ⟨fun zero => ?_, fun g later staging next room => ?_,
      fun later misplaced => ?_⟩⟩
    · subst zero
      exact exec_writeSeg fresh (writeSegOp_begins h) (seat_setSess (by rfl) (by rfl) j)
    · exact exec_writeSeg fresh (writeSegOp_continues h later staging next room) (seat_setSess (by rfl) (by rfl) j)
    · exact exec_writeSeg fresh (writeSegOp_outOfPlace h later misplaced) rfl
  · have unstaged : (u.setSess j { z with staging := none }).seat j = u.seat j := seat_setSess (by rfl) (by rfl) j
    refine ⟨fun e h => exec_commit fresh (commitOp_refused h) unstaged, fun h => ⟨fun none => ?_, fun g staging => ?_⟩⟩
    · exact exec_commit fresh (commitOp_nothingStaged h none) unstaged
    · exact exec_commit fresh (commitOp_staged h staging) ((writeEntry_seat _ _ _ _ _ _ j).trans unstaged)

end Sys2Proof.Machine
end

section
/-! PROOFS. Every unit of a module that has just got power is at its reset value (17 R412, 21 R464, R466), and O59. -/

namespace Sys2Proof.Machine

open Sys2Proof

theorem getD_replicate {α : Type} (n i : Nat) (x : α) : ((Vector.replicate n x)[i]?).getD x = x := by
  rw [Vector.getElem?_replicate]
  split <;> rfl

section
variable (i : Nat)

@[simp] theorem State.reset_part : State.reset.part i = Part.reset := getD_replicate 16 i _
@[simp] theorem State.reset_cmd : State.reset.cmd i = CmdSlot.reset := getD_replicate 16 i _
@[simp] theorem State.reset_sess : State.reset.sess i = Sess.reset := getD_replicate 16 i _
@[simp] theorem State.reset_port : State.reset.port i = Port.reset := getD_replicate 6 i _
end

theorem State.reset_logOk : LogOk State.reset := ⟨Nat.zero_le _, List.forall_mem_nil _⟩

/-- Settles O59: the units of a table that lists none are at their reset value as they stand, those of a vector by the lemmas above. -/
theorem resetState : Obligations.ResetState := by
  refine ⟨rfl, rfl, rfl, rfl, rfl, rfl, rfl, fun p => ?parts, fun k => ?cmds, fun j => ?sessions, fun b => rfl, fun p => ?ports,
    fun k => rfl, fun i => ⟨rfl, rfl, rfl⟩, rfl, rfl, rfl, rfl, fun c => rfl, rfl, rfl, State.reset_logOk, rfl⟩
  case parts =>
    rw [State.reset_part]
    exact ⟨rfl, rfl⟩
  case cmds =>
    rw [State.reset_cmd]
    rfl
  case sessions =>
    rw [State.reset_sess]
    rfl
  case ports =>
    rw [State.reset_port]
    exact ⟨rfl, rfl⟩

end Sys2Proof.Machine
end

section
/-! PROOFS. The module controller's own commands (02 R37 to R53, 18 R429, R430, R435, 21 R467), and O52. -/

namespace Sys2Proof.Machine

open Sys2Proof

/-! ### The operating point -/

/-- What the supply is to give after a change of the request or of the cap (02 R37, R38). -/
theorem opSlew_eq (s : State) : opSlew s = { s with ctl := { s.ctl with
    opNow := opEffective s.ctl
    slew := if opEffective s.ctl = s.ctl.opNow then s.ctl.slew else some (opEffective s.ctl) } } := by
  simp only [opSlew]
  split
  · rename_i same
    rw [same]
  · rfl

/-- A status flag is a change of the flags and of their counts alone in the module controller. -/
theorem setFlag_ctl (s : State) (f : Nat) : (setFlag s f).ctl = { s.ctl with
    flags := s.ctl.flags ||| (1#32 <<< f)
    flagCnt := s.ctl.flagCnt.setIfInBounds f (BitVec.ofNat 32 (satAdd max32 (vget s.ctl.flagCnt f).toNat 1)) } := by
  simp only [setFlag, notifyAll_keeps State.ctl emit_ctl State.setSess_ctl]

/-- One point below the present one; 0 stays. -/
def pointBelow (b : Byte) : Byte := if b = 0 then 0 else b - 1

theorem toNat_pointBelow (b : Byte) : (pointBelow b).toNat = b.toNat - 1 := by
  unfold pointBelow
  split <;> bv_omega

/-- A cap that falls: the effective point follows, and a status flag tells of it. -/
theorem capFall_lower {s : State} (lower : s.ctl.opNow.toNat - 1 < s.ctl.cap.toNat) :
    capFall s = setFlag (opSlew { s with ctl := { s.ctl with cap := pointBelow s.ctl.opNow } }) 0 := by
  have less : pointBelow s.ctl.opNow < s.ctl.cap := BitVec.lt_def.mpr (by rw [toNat_pointBelow]; exact lower)
  rw [pointBelow] at less
  simp only [capFall, less, decide_true, if_true]
  rfl

/-- A cap that is that low already stays where it is. -/
theorem capFall_stays {s : State} (low : s.ctl.cap.toNat ≤ s.ctl.opNow.toNat - 1) : capFall s = opSlew s := by
  have same : ¬pointBelow s.ctl.opNow < s.ctl.cap := by
    rw [BitVec.lt_def, toNat_pointBelow]
    omega
  rw [pointBelow] at same
  simp only [capFall, same, decide_false, if_false, Bool.false_eq_true]

theorem capFall_ctl (s : State) : (capFall s).ctl.cap.toNat = min s.ctl.cap.toNat (s.ctl.opNow.toNat - 1) ∧
    (capFall s).ctl.opReq = s.ctl.opReq ∧ (capFall s).ctl.opNow = opEffective (capFall s).ctl ∧
    (s.ctl.opNow.toNat - 1 < s.ctl.cap.toNat → (capFall s).ctl.flags.getLsbD 0 = true) := by
  rcases Nat.lt_or_ge (s.ctl.opNow.toNat - 1) s.ctl.cap.toNat with lower | low
  · rw [capFall_lower lower]
    refine ⟨?_, ?_, ?_, fun _ => setFlag_sets _ (by decide)⟩ <;> rw [setFlag_ctl, opSlew_eq]
    · rw [Nat.min_eq_right (Nat.le_of_lt lower)]
      exact toNat_pointBelow s.ctl.opNow
    · rfl
  · rw [capFall_stays low, opSlew_eq]
    exact ⟨(Nat.min_eq_left low).symm, rfl, rfl, fun lower => absurd lower (Nat.not_lt.mpr low)⟩

/-! ### Factors -/

/-- A list as a table without the default's entries. -/
theorem get_listed {α : Type} [BEq α] [LawfulBEq α] (d : α) (l : List α) (n k : Nat) :
    Tab.get d (((l.zipIdx n).map fun e => (e.2, e.1)).filter fun e => e.2 != d) k = if n ≤ k then l.getD (k - n) d else d := by
  induction l generalizing n with
  | nil => simp [Tab.get]
  | cons x l ih =>
    have rest := ih (n + 1)
    rw [List.zipIdx_cons, List.map_cons, List.filter_cons]
    by_cases here : n = k
    · subst here
      split <;> simp_all [Tab.get]
    · have skip : ∀ (m : Tab α), Tab.get d ((n, x) :: m) k = Tab.get d m k := fun m => by simp [Tab.get, here]
      simp only [apply_ite (Tab.get d · k), skip, ite_self, rest]
      by_cases after : n + 1 ≤ k
      · simp [after, Nat.le_of_succ_le after, show k - n = k - (n + 1) + 1 by omega]
      · simp [after, show ¬n ≤ k by omega]

theorem get_kTable (l : List W32) (k : Nat) : Tab.get 0x40000000#32 (kTable l) k = l.getD k 0x40000000 :=
  (get_listed 0x40000000#32 l 0 k).trans (if_pos (Nat.zero_le k))

theorem vget_four (l : List W32) {k : Nat} (h : k < 4) : vget (four l) k = l.getD k 0 := by
  match k, h with
  | 0, _ | 1, _ | 2, _ | 3, _ => rfl

/-- The state without its cells. -/
def State.offCells (s : State) : State := { s with cells := [] }

theorem State.offCells_ctl (s : State) : s.offCells.ctl = s.ctl := rfl

theorem eq_of_offCells {s t : State} (h : t.offCells = s.offCells) : t = { s with cells := t.cells } :=
  congrArg (fun u : State => { u with cells := t.cells }) h

theorem putFactor_offCells (s : State) (c : Nat) (k seq : W32) : (putFactor s c k seq).offCells = s.offCells := by
  unfold putFactor
  split <;> rfl

/-- Factors written to the cells below `n` (02 R51). -/
theorem putFactors_offCells (s : State) (kc : List W32) (seq : W32) (n : Nat) :
    ((List.range n).foldl (fun s i => putFactor s i (kc.getD i 0x40000000) seq) s).offCells = s.offCells :=
  foldl_keeps State.offCells _ (fun s i => putFactor_offCells s i _ seq) _ s

theorem putFactors_cell (s : State) (kc : List W32) (seq : W32) (n c : Nat) :
    ((List.range n).foldl (fun s i => putFactor s i (kc.getD i 0x40000000) seq) s).cell c =
      if c < n ∧ (s.block (blockOfCell c)).st ≠ .dormant then
        { s.cell c with ctcorr := kc.getD c 0x40000000, ctcseq := seq }
      else s.cell c := by
  induction n with
  | zero => simp
  | succ n ih =>
    rw [List.range_succ, List.foldl_append]
    have blocks := congrArg (fun t : State => (t.block (blockOfCell n)).st) (putFactors_offCells s kc seq n)
    generalize (List.range n).foldl _ s = t at ih blocks
    replace blocks : (t.block (blockOfCell n)).st = (s.block (blockOfCell n)).st := blocks
    rw [List.foldl_cons, List.foldl_nil, putFactor, blocks]
    by_cases here : n = c
    · subst here
      by_cases off : (s.block (blockOfCell n)).st = .dormant <;> simp [off, ih]
    · have below : c < n + 1 ↔ c < n := by omega
      simp only [below]
      rw [← ih]
      split
      · rfl
      · exact State.cell_updCell_ne t _ here

/-! ### The module timer -/

/-- The module timer at a count. What moving the timer on leaves alone is stated at any count: at the count itself the kernel would evaluate
`timeTo`. -/
def State.atTimer (s : State) (n : Nat) : State := { s with ctl := { s.ctl with timer := n } }

section
variable (s : State) (n : Nat)

@[simp] theorem State.atTimer_timer : (s.atTimer n).ctl.timer = n := rfl
@[simp] theorem State.atTimer_kModule : (s.atTimer n).ctl.kModule = s.ctl.kModule := rfl
@[simp] theorem State.atTimer_calSeq : (s.atTimer n).ctl.calSeq = s.ctl.calSeq := rfl
@[simp] theorem State.atTimer_wdBites : (s.atTimer n).ctl.wdBites = s.ctl.wdBites := rfl
@[simp] theorem State.atTimer_resetCount : (s.atTimer n).ctl.resetCount = s.ctl.resetCount := rfl
@[simp] theorem State.atTimer_cell (c : Nat) : (s.atTimer n).cell c = s.cell c := rfl
@[simp] theorem State.atTimer_block (b : Nat) : (s.atTimer n).block b = s.block b := rfl
@[simp] theorem State.atTimer_log : (s.atTimer n).log = s.log := rfl
end

theorem moduleTimeTo_eq (s : State) (d : Nat) : moduleTimeTo s d = s.atTimer (timeTo s.ctl.timer d) := rfl

/-! ### A calibration round -/

/-- Every factor published together, and the next round armed (02 R47, R52). -/
def publish (s : State) (km : W32) (kr kb kc : List W32) : State :=
  let c := s.ctl
  let s := { s with ctl := { c with
    kModule := if 10000 ≤ c.timer then km else c.kModule
    kRegion := four kr, kBlock := kTable kb, kCell := kTable kc, calSeq := c.calSeq + 1, calAt := c.timer } }
  { s with ctl := { s.ctl with calDue := moduleDue s 1000 } }

/-- A calibration round at the present count of the module timer. -/
def calibrate (s : State) (km : W32) (kr kb kc : List W32) : State :=
  (List.range 512).foldl (fun t i => putFactor t i (kc.getD i 0x40000000) (s.ctl.calSeq + 1)) (publish s km kr kb kc)

theorem exec_calibrationRound {s : State} (on : s.ctl.st ≠ .off) (km : W32) (kr kb kc : List W32) :
    exec (.calibrationRound km kr kb kc) s = .next (calibrate (s.atTimer (timeTo s.ctl.timer s.ctl.calDue)) km kr kb kc) := by
  have round : exec (.calibrationRound km kr kb kc) s =
    next (if s.ctl.st = .off then s else calibrate (moduleTimeTo s s.ctl.calDue) km kr kb kc) := rfl
  rw [round, if_neg on, moduleTimeTo_eq]
  rfl

theorem publish_eq (s : State) (km : W32) (kr kb kc : List W32) :
    publish s km kr kb kc = { s with ctl := (publish s km kr kb kc).ctl } := rfl

theorem calibrate_offCells (s : State) (km : W32) (kr kb kc : List W32) :
    (calibrate s km kr kb kc).offCells = (publish s km kr kb kc).offCells := putFactors_offCells _ kc _ 512

theorem calibrate_ctl (s : State) (km : W32) (kr kb kc : List W32) :
    (calibrate s km kr kb kc).ctl = (publish s km kr kb kc).ctl := by
  rw [← State.offCells_ctl, calibrate_offCells, State.offCells_ctl]

section
variable (s : State) (n : Nat) (km : W32) (kr kb kc : List W32)

theorem calibrate_calSeq : (calibrate s km kr kb kc).ctl.calSeq = s.ctl.calSeq + 1 := by rw [calibrate_ctl]; rfl
theorem calibrate_timer : (calibrate s km kr kb kc).ctl.timer = s.ctl.timer := by rw [calibrate_ctl]; rfl
theorem calibrate_calAt : (calibrate s km kr kb kc).ctl.calAt = s.ctl.timer := by rw [calibrate_ctl]; rfl
theorem calibrate_calDue : (calibrate s km kr kb kc).ctl.calDue = moduleDue (calibrate s km kr kb kc) 1000 := by
  rw [moduleDue, calibrate_ctl]; rfl
theorem calibrate_kModule : (calibrate s km kr kb kc).ctl.kModule = if 10000 ≤ s.ctl.timer then km else s.ctl.kModule := by
  rw [calibrate_ctl]; rfl
theorem calibrate_kRegion : (calibrate s km kr kb kc).ctl.kRegion = four kr := by rw [calibrate_ctl]; rfl
theorem calibrate_kBlock : (calibrate s km kr kb kc).ctl.kBlock = kTable kb := by rw [calibrate_ctl]; rfl
theorem calibrate_kCell : (calibrate s km kr kb kc).ctl.kCell = kTable kc := by rw [calibrate_ctl]; rfl

theorem calibrate_eq : calibrate s km kr kb kc =
    { s with ctl := (calibrate s km kr kb kc).ctl, cells := (calibrate s km kr kb kc).cells } := by
  rw [calibrate_ctl]
  exact eq_of_offCells (calibrate_offCells s km kr kb kc)

theorem calibrate_atTimer_eq : calibrate (s.atTimer n) km kr kb kc =
    { s with ctl := (calibrate (s.atTimer n) km kr kb kc).ctl, cells := (calibrate (s.atTimer n) km kr kb kc).cells } :=
  calibrate_eq (s.atTimer n) km kr kb kc

theorem calibrate_cell {c : Nat} (h : c < 512) : (calibrate s km kr kb kc).cell c =
    if (s.block (blockOfCell c)).st = .dormant then s.cell c
    else { s.cell c with
      ctcorr := kc.getD c 0x40000000
      ctcseq := s.ctl.calSeq + 1 } := by
  rw [calibrate, putFactors_cell, publish_eq]
  by_cases off : (s.block (blockOfCell c)).st = .dormant
  · rw [if_pos off]
    exact if_neg fun on => on.2 off
  · rw [if_neg off]
    exact if_pos ⟨h, off⟩
end

/-! ### Tolerance -/

/-- A block that must leave its state under a tolerance of `v` µs (20 R456). -/
def Block.exits (v : Nat) (x : Block) : Bool := !x.oos && decide (v < x.st.latency)

/-- A block whose exit has begun. -/
def Block.wake (x : Block) : Block := { x with waking := true }

/-- A block's exit where a tolerance of `v` µs asks for it. -/
def exitAt (v : Nat) (s : State) (b : Nat) : State := if v < (s.block b).st.latency then beginExit s b else s

/-- Run is within every tolerance, and a block out of service stays as it is. -/
theorem exitAt_eq (v : Nat) (s : State) (b : Nat) :
    exitAt v s b = if (s.block b).exits v then s.setBlock b (s.block b).wake else s := by
  have begins : beginExit s b = if (s.block b).st = .run ∨ (s.block b).oos then s else s.setBlock b (s.block b).wake := rfl
  have run : v < (s.block b).st.latency → (s.block b).st ≠ .run := fun h run => by simp [run, PState.latency] at h
  rw [exitAt, begins]
  by_cases deep : v < (s.block b).st.latency <;> cases oos : (s.block b).oos <;> simp [Block.exits, deep, oos, run]

theorem exitAt_block (v : Nat) (s : State) (b k : Nat) :
    (exitAt v s b).block k = if b = k ∧ (s.block k).exits v then (s.block k).wake else s.block k := by
  rw [exitAt_eq]
  by_cases here : b = k
  · subst here
    split <;> simp_all
  · split <;> simp [State.block_setBlock_ne, here]

theorem exitAts_block (v : Nat) (l : List Nat) (s : State) (k : Nat) :
    (l.foldl (exitAt v) s).block k = if k ∈ l ∧ (s.block k).exits v then (s.block k).wake else s.block k := by
  induction l generalizing s with
  | nil => simp
  | cons b l ih =>
    have again : (s.block k).wake.exits v = (s.block k).exits v := rfl
    have twice : (s.block k).wake.wake = (s.block k).wake := rfl
    rw [List.foldl_cons, ih, exitAt_block]
    by_cases here : b = k <;> cases leaves : (s.block k).exits v <;> simp [here, leaves, again, twice, eq_comm (a := k)]

theorem toleranceOp_eq (s : State) (p : Nat) (v : W32) : toleranceOp s p v =
    (s.part p).blockList.foldl (exitAt v.toNat) (s.setPart p { s.part p with tol := v }) := rfl

theorem mem_blockList {x : Part} {b : Nat} (h : b < 64) : b ∈ x.blockList ↔ x.blocks.getLsbD b = true := by
  simp [Part.blockList, h]

/-- A tolerance begins the exit of each block of the partition that it asks it of. -/
theorem toleranceOp_waking (s : State) (p : Nat) (v : W32) {k : Nat} (hk : k < 64) : ((toleranceOp s p v).block k).waking =
    ((s.block k).waking || ((s.part p).blocks.getLsbD k && !(s.block k).oos && decide (v.toNat < (s.block k).st.latency))) := by
  rw [toleranceOp_eq, exitAts_block, State.setPart_block, Bool.and_assoc, ← Block.exits]
  cases own : (s.part p).blocks.getLsbD k <;> cases leaves : (s.block k).exits v.toNat <;>
    simp [mem_blockList hk, own, Block.wake]

/-- What the blocks do not hold, a tolerance leaves to its partition. -/
theorem toleranceOp_keeps {β : Type} (part : State → β) (keep : ∀ s b x, part (s.setBlock b x) = part s) (s : State) (p : Nat)
    (v : W32) : part (toleranceOp s p v) = part (s.setPart p { s.part p with tol := v }) := by
  rw [toleranceOp_eq]
  refine foldl_keeps part _ (fun s b => ?_) _ _
  rw [exitAt_eq]
  split
  · exact keep s b _
  · rfl

/-! ### Module resets -/

/-- The clasps of a pair closed where they are held open. -/
def closePair (s : State) (k : Nat) : State :=
  if s.fab.hold.getLsbD (2 * k) || s.fab.hold.getLsbD (2 * k + 1) then setHold s k false else s

theorem closeClasps_eq (s : State) : closeClasps s =
    let t := (List.range 3).foldl closePair s
    { t with fab := { t.fab with drain := false } } := rfl

theorem closePair_hold (s : State) {k : Nat} (h : k < 3) : (closePair s k).fab.hold = s.fab.hold &&& ~~~(3#6 <<< (2 * k)) := by
  have cleared : ∀ k < 3, ∀ h : BitVec 6, (h.getLsbD (2 * k) || h.getLsbD (2 * k + 1)) = false → h &&& ~~~(3#6 <<< (2 * k)) = h := by
    decide
  unfold closePair
  split
  · rfl
  · rename_i clear
    exact (cleared k h _ (by simpa using clear)).symm

theorem closeClasps_hold (s : State) : (closeClasps s).fab.hold = 0 := by
  show (closePair (closePair (closePair s 0) 1) 2).fab.hold = 0
  rw [closePair_hold _ (by decide), closePair_hold _ (by decide), closePair_hold _ (by decide)]
  simp [BitVec.and_assoc]

/-- What lies apart from the clasps, closing them leaves alone. -/
theorem closeClasps_keeps {β : Type} (part : State → β) (keep : ∀ s f, part { s with fab := f } = part s) (s : State) :
    part (closeClasps s) = part s := by
  rw [closeClasps_eq, keep]
  refine foldl_keeps part closePair (fun s k => ?_) _ s
  unfold closePair
  split
  · exact keep s _
  · rfl

theorem partsLost_keeps {β : Type} (part : State → β) (setPart : ∀ s p x, part (State.setPart s p x) = part s)
    (hallOrder : ∀ (s : State) l, part { s with ctl := { s.ctl with hallOrder := l } } = part s) (s : State) :
    part (partsLost s) = part s := by
  refine foldl_keeps part _ (fun s p => ?_) _ s
  simp only [setPart, releaseHall]
  split
  · rfl
  · exact hallOrder s _

section
variable (s : State) (cause : Byte)

theorem moduleReset_st : (moduleReset s cause).ctl.st = .boot := by
  rw [moduleReset, closeClasps_keeps State.ctl fun _ _ => rfl]
  rfl

theorem moduleReset_resetCause : (moduleReset s cause).ctl.resetCause = cause := by
  rw [moduleReset, closeClasps_keeps State.ctl fun _ _ => rfl]

theorem moduleReset_wdBites : (moduleReset s cause).ctl.wdBites = s.ctl.wdBites := by
  have kept : (partsLost (diesOff s)).ctl.wdBites = (diesOff s).ctl.wdBites :=
    partsLost_keeps (fun s => s.ctl.wdBites) (fun _ _ _ => rfl) (fun _ _ => rfl) _
  simp only [moduleReset, closeClasps_keeps State.ctl fun _ _ => rfl, kept]
  rfl

theorem moduleReset_resetCount :
    (moduleReset s cause).ctl.resetCount = BitVec.ofNat 32 (satAdd max32 s.ctl.resetCount.toNat 1) := by
  have kept : (partsLost (diesOff s)).ctl.resetCount = (diesOff s).ctl.resetCount :=
    partsLost_keeps (fun s => s.ctl.resetCount) (fun _ _ _ => rfl) (fun _ _ => rfl) _
  rw [moduleReset, closeClasps_keeps State.ctl fun _ _ => rfl]
  exact congrArg (fun c : W32 => BitVec.ofNat 32 (satAdd max32 c.toNat 1)) kept

theorem moduleReset_cells : (moduleReset s cause).cells = [] := by
  have kept : (partsLost (diesOff s)).cells = (diesOff s).cells :=
    partsLost_keeps State.cells (fun _ _ _ => rfl) (fun _ _ => rfl) _
  simp only [moduleReset, closeClasps_keeps State.cells fun _ _ => rfl, kept]
  rfl

theorem moduleReset_hold : (moduleReset s cause).fab.hold = 0 := closeClasps_hold _
end

theorem toNat_satAdd_max32 (c : W32) : (BitVec.ofNat 32 (satAdd max32 c.toNat 1)).toNat = min (2 ^ 32 - 1) (c.toNat + 1) := by
  have := c.isLt
  simp only [satAdd, max32, BitVec.toNat_ofNat]
  omega

/-- The reset that a bite of the watchdog begins, counted (18 R430). -/
def bite (s : State) : State :=
  moduleReset { s with ctl := { s.ctl with wdBites := BitVec.ofNat 32 (satAdd max32 s.ctl.wdBites.toNat 1) } } 3

theorem exec_moduleWatchdogBite {s : State} (armed : s.ctl.armed = true) :
    exec .moduleWatchdogBite s = .next (bite (s.atTimer (timeTo s.ctl.timer s.ctl.wdAt))) := by
  have bites : exec .moduleWatchdogBite s = next (if s.ctl.armed then bite (moduleTimeTo s s.ctl.wdAt) else s) := rfl
  rw [bites, if_pos armed, moduleTimeTo_eq]
  rfl

theorem bite_wdBites (s : State) : (bite s).ctl.wdBites.toNat = min (2 ^ 32 - 1) (s.ctl.wdBites.toNat + 1) := by
  rw [bite, moduleReset_wdBites]
  exact toNat_satAdd_max32 s.ctl.wdBites

theorem bite_resetCount (s : State) : (bite s).ctl.resetCount.toNat = min (2 ^ 32 - 1) (s.ctl.resetCount.toNat + 1) := by
  rw [bite, moduleReset_resetCount]
  exact toNat_satAdd_max32 s.ctl.resetCount

theorem bite_log (s : State) : (bite s).log = s.log := moduleReset_log _ _

/-! ### Entries that the requests write -/

section
variable {s : State} {x : Sess} {i sub top : Nat}

/-- An entry of the module's that the Owner alone may write (18 R424). -/
theorem reachCheck_owner (object : objTop i = some top) (there : subThere i sub top = true) (owner : (entry i sub).wr = 1)
    (shared : entPart i sub = none) (plain : isSlotObj i = false) :
    reachCheck s x i sub true = if x.role = 1 then none else some 3 := by
  have tenants : tenantOk x i sub = true := by simp [tenantOk, shared]
  have slot : ¬(0x8000 ≤ i ∧ i < 0x8010 ∧ sub = 5) := by
    simp only [isSlotObj, Bool.and_eq_false_iff, decide_eq_false_iff_not] at plain
    omega
  have writes : mayWrite s x i sub = decide (x.role = 1) := by
    simp only [mayWrite, tenants, owner, slot, if_false, Sess.bit, Bool.and_true]
    split_ifs <;> simp_all
  simp [reachCheck, object, there, writes]

/-- A partition's tolerance: the Owner and the Tenants of the partition write it (18 R424, R429). -/
theorem reachCheck_tolerance (p : PartId) : reachCheck s x 0x2104 (p.val + 1) true =
    if x.role = 1 ∨ (x.role = 2 ∧ x.part.toNat = p.val) then none else some 3 := by
  have room : p.val + 1 ≤ 16 := p.isLt
  have there : subThere 0x2104 (p.val + 1) 16 = true := by simp [subThere, room]
  have writes : mayWrite s x 0x2104 (p.val + 1) = decide (x.role = 1 ∨ (x.role = 2 ∧ x.part.toNat = p.val)) := by
    simp [mayWrite, entry, ent, tenantOk, entPart, Sess.bit]
    split_ifs <;> simp_all [Bool.beq_eq_decide_eq]
  have object : objTop 0x2104 = some 16 := by decide
  simp [reachCheck, object, there, writes]
end

section
variable {s t : State} {q : Req} {j : Nat} {e : Byte}

/-- What lies apart from the host port and the sessions is as it was where a request acts. -/
theorem acting_keeps {β : Type} (part : State → β) (keep : ∀ s eth sessions, part (State.aside s eth sessions) = part s)
    (s : State) (q : Req) (j : Nat) : part (acting s q j) = part s := by
  obtain ⟨eth, sessions, aside⟩ := acting_aside s q j
  rw [aside, keep]

theorem exec_logClear (fresh : Fresh s q (writeMsg q 0x7000 5 [1]) j) (writes : writeEntry q.iface 0x7000 5 [1] (acting s q j) j = (t, e)) :
    exec (.logClear q) s = .next (replied s q j (writeMsg q 0x7000 5 [1]) (.code e) t) :=
  exec_write_entry (i := 0x7000) (sub := 5) fresh writes

theorem exec_opRequest {b : Byte} (fresh : Fresh s q (writeMsg q 0x2000 1 [b]) j)
    (writes : writeEntry q.iface 0x2000 1 [b] (acting s q j) j = (t, e)) :
    exec (.opRequest q b) s = .next (replied s q j (writeMsg q 0x2000 1 [b]) (.code e) t) :=
  exec_write_entry (i := 0x2000) (sub := 1) fresh writes

theorem exec_toleranceWrite {p : PartId} {v : W32} (fresh : Fresh s q (writeMsg q 0x2104 (p.val + 1) (leBytes 4 v.toNat)) j)
    (writes : writeEntry q.iface 0x2104 (p.val + 1) (leBytes 4 v.toNat) (acting s q j) j = (t, e)) :
    exec (.toleranceWrite q p v) s = .next (replied s q j (writeMsg q 0x2104 (p.val + 1) (leBytes 4 v.toNat)) (.code e) t) := by
  have sub : (BitVec.ofNat 8 (p.val + 1)).toNat = p.val + 1 := by
    have := p.isLt
    simp only [BitVec.toNat_ofNat]
    omega
  have written := exec_write_entry (i := 0x2104) (sub := BitVec.ofNat 8 (p.val + 1)) (t := t) (e := e) (by rwa [sub]) (by rwa [sub])
  have asks : exec (.write q (.entry 0x2104 (BitVec.ofNat 8 (p.val + 1))) (leBytes 4 v.toNat)) s =
      next (ask s q (writeMsg q 0x2104 (BitVec.ofNat 8 (p.val + 1)).toNat (leBytes 4 v.toNat))) := rfl
  rw [asks, sub] at written
  exact written
end

section
variable {s : State} {iface : Iface} {j : Nat}

theorem writeEntry_logClear : writeEntry iface 0x7000 5 [1] s j =
    if (s.sess j).role = 1 then (logClearOp s, 0) else (s, 3) := by
  have reach := reachCheck_owner (s := s) (x := s.sess j) (i := 0x7000) (sub := 5) rfl rfl rfl rfl rfl
  split <;> rename_i role
  · rw [if_pos role] at reach
    exact writeEntry_done reach rfl rfl rfl rfl
  · rw [if_neg role] at reach
    exact writeEntry_refused reach

theorem writeEntry_opRequest (b : Byte) : writeEntry iface 0x2000 1 [b] s j =
    if (s.sess j).role ≠ 1 then (s, 3) else if 2 < b.toNat then (s, 5)
    else if working s.ctl.st then (opRequestOp s b, 0) else conflict s (s.sess j) 0x2000 1 := by
  have reach := reachCheck_owner (s := s) (x := s.sess j) (i := 0x2000) (sub := 1) rfl rfl rfl rfl rfl
  have value : leNat [b] = b.toNat := by simp [leNat]
  have range : putRange (s.sess j) 0x2000 1 [b] = decide (b.toNat ≤ 2) := by simp [putRange, within, value]
  have does : putDo s j 0x2000 1 [b] = opRequestOp s b := by
    show opRequestOp s (BitVec.ofNat 8 (leNat [b])) = _
    rw [value, BitVec.ofNat_toNat, BitVec.setWidth_eq]
  by_cases role : (s.sess j).role = 1
  · rw [if_pos role] at reach
    rw [if_neg (by simpa using role)]
    by_cases big : 2 < b.toNat
    · rw [if_pos big]
      exact writeEntry_outOfRange reach rfl rfl (by simpa [range] using big)
    · rw [if_neg big]
      replace range : putRange (s.sess j) 0x2000 1 [b] = true := by simpa [range] using big
      split <;> rename_i works
      · rw [← does]
        exact writeEntry_done reach rfl rfl range works
      · exact writeEntry_conflict reach rfl rfl range (Bool.eq_false_iff.mpr works)
  · rw [if_neg role] at reach
    rw [if_pos role]
    exact writeEntry_refused reach

theorem writeEntry_tolerance (p : PartId) (v : W32) : writeEntry iface 0x2104 (p.val + 1) (leBytes 4 v.toNat) s j =
    if (s.sess j).role = 1 ∨ ((s.sess j).role = 2 ∧ (s.sess j).part.toNat = p.val) then
      if (s.part p.val).st = .free then conflict s (s.sess j) 0x2104 (p.val + 1) else (toleranceOp s p.val v, 0)
    else (s, 3) := by
  have reach := reachCheck_tolerance (s := s) (x := s.sess j) p
  have does : putDo s j 0x2104 (p.val + 1) (leBytes 4 v.toNat) = toleranceOp s p.val v := by
    have value : leNat (leBytes 4 v.toNat) = v.toNat := (leNat_leBytes 4 v.toNat).trans (Nat.mod_eq_of_lt v.isLt)
    simp [putDo, value]
  have legal : putLegal s iface 0x2104 (p.val + 1) (leBytes 4 v.toNat) = decide ((s.part p.val).st ≠ .free) := rfl
  split <;> rename_i role
  · rw [if_pos role] at reach
    split <;> rename_i free
    · exact writeEntry_conflict reach rfl rfl rfl (by simp [legal, free])
    · rw [← does]
      exact writeEntry_done reach rfl rfl rfl (by simp [legal, free])
  · rw [if_neg role] at reach
    exact writeEntry_refused reach
end

/-- Settles O52: each request is `writeEntry` of one entry, whose effect is a cleared log, `opSlew` or an `exitAt` for each block; the cap
moves by `capFall` and `capRise`, a round is `calibrate`, and a bite is `moduleReset`. -/
theorem moduleControlComplete : Obligations.ModuleControlComplete := by
  intro s q j p v b tj rate kr kb kc mv km eff fs u z reply mClear mOp mTol
  have ctl : u.ctl = s.ctl := acting_keeps State.ctl (fun _ _ _ => rfl) s q j
  have part (r : Nat) : u.part r = s.part r := acting_keeps (State.part · r) (fun _ _ _ => rfl) s q j
  have block (k : Nat) : u.block k = s.block k := acting_keeps (State.block · k) (fun _ _ _ => rfl) s q j
  refine ⟨fun fresh => ⟨fun role => ?_, fun role => ?_⟩,
    fun fresh => ⟨fun role => ?_, fun role => ⟨fun big => ?_, fun small idle => ?_, fun small works => ?_⟩⟩,
    fun fresh => ⟨fun role other => ?_, fun role => ⟨fun free => ?_, fun held => ?_⟩⟩, rfl, fun cool => ?_, fun hot => ?_,
    fun stays => ?_, fun cool capped => ?_, ?_, fun off => ?_, fun on => ?_, rfl, fun unarmed => ?_, fun armed => ?_⟩
  · exact exec_logClear fresh (writeEntry_logClear.trans (if_pos role))
  · exact exec_logClear fresh (writeEntry_logClear.trans (if_neg role))
  · exact exec_opRequest fresh ((writeEntry_opRequest b).trans (if_pos role))
  · refine exec_opRequest fresh ((writeEntry_opRequest b).trans ?_)
    rw [if_neg (not_not_intro role), if_pos big]
  · refine exec_opRequest fresh ((writeEntry_opRequest b).trans ?_)
    rw [if_neg (not_not_intro role), if_neg (Nat.not_lt.mpr small), ctl, if_neg (by simp [idle])]
    rfl
  · refine ⟨opRequestOp u b, exec_opRequest fresh ((writeEntry_opRequest b).trans ?_), ?_⟩
    · rw [if_neg (not_not_intro role), if_neg (Nat.not_lt.mpr small), ctl, if_pos works]
    · rw [opRequestOp, opSlew_eq, ctl]
      exact ⟨rfl, rfl, rfl, fun changes => if_neg changes, rfl⟩
  · refine exec_toleranceWrite fresh ((writeEntry_tolerance p v).trans (if_neg ?_))
    rintro (owner | ⟨tenant, own⟩)
    · exact role owner
    · exact other.elim (· tenant) (· own)
  · refine exec_toleranceWrite fresh ((writeEntry_tolerance p v).trans ?_)
    rw [if_pos role, part, if_pos free]
    rfl
  · refine ⟨toleranceOp u p.val v, exec_toleranceWrite fresh ((writeEntry_tolerance p v).trans ?_), ?_, fun r apart => ?_,
      fun k hk => ?_, ?_, ?_⟩
    · rw [if_pos role, part, if_neg held]
    · rw [toleranceOp_keeps (State.part · p.val) fun _ _ _ => rfl, State.part_setPart_ix]
    · rw [toleranceOp_keeps (State.part · r.val) fun _ _ _ => rfl, State.part_setPart_ne _ _ fun h => apart (Fin.ext h.symm), part]
    · rw [toleranceOp_waking _ _ _ hk, block, part]
    · exact (toleranceOp_keeps State.cells (fun _ _ _ => rfl) u _ v).trans (acting_keeps State.cells (fun _ _ _ => rfl) s q j)
    · exact (toleranceOp_keeps State.ctl (fun _ _ _ => rfl) u _ v).trans ctl
  · exact congrArg next (if_neg (by simp [cool]))
  · exact ⟨capFall s, congrArg next (if_pos hot), capFall_ctl s⟩
  · refine congrArg next (if_neg ?_)
    rcases stays with warm | top
    · simp [warm]
    · simp [top]
  · refine ⟨capRise s, congrArg next (if_pos (by rw [cool, decide_eq_true capped]; rfl)), ?_⟩
    rw [capRise, opSlew_eq]
    exact ⟨rfl, rfl, rfl, rfl⟩
  · exact ⟨_, rfl, fun k hk => ⟨vget_four tj hk, vget_four rate hk⟩, rfl, rfl⟩
  · exact congrArg next (if_pos off)
  · refine ⟨_, exec_calibrationRound on km kr kb kc, ?_, ?_, ?_, calibrate_calDue _ _ _ _ _, fun r hr => ?_, ?_,
      fun k => ?_, fun k => ?_, fun c hc => ?_, calibrate_atTimer_eq _ _ _ _ _ _⟩
    · rw [calibrate_calSeq, State.atTimer_calSeq]
    · rw [calibrate_timer, State.atTimer_timer]
    · rw [calibrate_calAt, calibrate_timer]
    · rw [calibrate_kRegion, vget_four kr hr]
    · rw [calibrate_kModule, calibrate_timer, State.atTimer_kModule]
    · rw [calibrate_kBlock, get_kTable]
    · rw [calibrate_kCell, get_kTable]
    · rw [calibrate_cell _ _ _ _ _ hc, State.atTimer_block, State.atTimer_cell, State.atTimer_calSeq]
  · exact congrArg next (if_neg (by simp [unarmed]))
  · refine ⟨_, exec_moduleWatchdogBite armed, moduleReset_st _ _, moduleReset_resetCause _ _, ?_, ?_, moduleReset_hold _ _, ?_,
      moduleReset_cells _ _⟩
    · rw [bite_wdBites, State.atTimer_wdBites]
    · rw [bite_resetCount, State.atTimer_resetCount]
    · rw [bite_log, State.atTimer_log]

end Sys2Proof.Machine
end

section
/-! PROOFS. An instruction presented to a ready cell (03 R60): it completes on its own cell, raises its exception, or stops the cell; O2,
O5 and O6. -/

namespace Sys2Proof.Machine

section
variable {s : State} {c : CellId} (ready : Ready s c) {f : State → Res}
include ready

/-- An instruction that changes only its own cell completes there. -/
theorem issue_onCell {w : Cell → Cell} (effect : f s = onCell s c w) : next (issue s c f) = .next (retired s c w) := by
  rw [issue_ready ready, effect, onCell, finish_done, State.updCell_updCell]
  rfl

/-- An exception is taken where NEST = 0 (03 R65). -/
theorem issue_traps {cls detail : Byte} {addr : W64} (raises : f s = .exc ⟨cls, detail, addr⟩ s)
    (nest : (s.cell c.val).kstate.getLsbD 0 = false) : next (issue s c f) = .next (trapped s c cls detail addr) := by
  rw [issue_ready ready, raises, finish_exc ready rfl nest]
  rfl

/-- An exception stops the cell where NEST = 1 (03 R61). -/
theorem issue_cellFault {e : Exc} (raises : f s = .exc e s) (nest : (s.cell c.val).kstate.getLsbD 0 = true) :
    next (issue s c f) = .next (cellFault s c.val) := by
  rw [issue_ready ready, raises]
  simp only [finish, commitAll_nil s c.val ready.2.2, ready_not_faulted ready, ready.2.2, takeTrap, nest]
  rfl

end

/-! ### The integer instructions -/

theorem mul_8192 (x : W64) : (x * 8192 : W64) = x <<< 13 := by
  rw [BitVec.shiftLeft_eq_mul_twoPow]
  rfl

theorem Cell.wrG_zero (k : Cell) (v : W64) : k.wrG 0 v = k := rfl

theorem Cell.rdG_wrG (k : Cell) {d : Reg} (r : Reg) (v : W64) (nonzero : d ≠ 0) :
    (k.wrG d v).rdG r = if r = d then v else k.rdG r := by
  have hd : d.val ≠ 0 := fun h => nonzero (Fin.ext h)
  by_cases same : r = d
  · subst same
    simp [Cell.rdG, Cell.wrG, hd]
  · have ne : d.val ≠ r.val := fun h => same (Fin.ext h.symm)
    simp [Cell.rdG, Cell.wrG, hd, same, ne]

/-- Settles O2: each instruction's effect is a change of its own cell. -/
theorem integerInstructionsComplete : Obligations.IntegerInstructionsComplete := by
  intro s c ready
  refine ⟨fun fn d a b v value => ?_, fun fn d a imm v value => ?_, fun d imm => ?_, fun d imm => ?_,
    fun k v => ⟨k.wrG_zero v, rfl⟩, fun k d r v nonzero => k.rdG_wrG r v nonzero⟩
  · refine issue_onCell ready ?_
    simp only [if_true, value]
  · refine issue_onCell ready ?_
    simp only [value]
  · rw [mul_8192]
    exact issue_onCell ready rfl
  · rw [mul_8192]
    exact issue_onCell ready rfl

/-! ### Traps, returns and fences -/

theorem kstateTrap_eq (ks : W32) (sup : Bool) :
    kstateTrap ks sup = 1 + (if ks.getLsbD 1 then 4 else 0) + (if sup then 8 else 0) := by
  unfold kstateTrap
  cases ks.getLsbD 1 <;> cases sup <;> rfl

/-- KCAUSE of an exception: its class, and its DETAIL above (03 R65). -/
theorem kcause_eq (cls detail : Byte) : BitVec.ofNat 32 (b2n false * 65536 + detail.toNat * 256 + cls.toNat) =
    cls.zeroExtend 32 + 256 * detail.zeroExtend 32 := by
  refine BitVec.eq_of_toNat_eq ?_
  have := cls.isLt
  have := detail.isLt
  simp [b2n, BitVec.toNat_add, BitVec.toNat_mul]
  omega

/-- What returning from a trap does to the levels and the interrupt enable (03 R65): IEN takes SAVIEN, and NEST ends. -/
theorem kstateRet_bits (ks : W32) : (kstateRet ks).getLsbD 0 = false ∧ (kstateRet ks).getLsbD 1 = ks.getLsbD 2 ∧
    (kstateRet ks).getLsbD 2 = ks.getLsbD 2 ∧ (kstateRet ks).getLsbD 3 = ks.getLsbD 3 := by
  unfold kstateRet
  cases ks.getLsbD 2 <;> cases ks.getLsbD 3 <;> decide

theorem exec_tret {s : State} {c : CellId} (ready : Ready s c) (sup : (s.cell c.val).sup = true) :
    exec (.tret c) s = .next (s.updCell c.val Cell.trapReturn) := by
  show next (issue s c _) = _
  rw [issue_ready ready, if_pos sup, finish_jump]
  exact congrArg Host.Outcome.next (State.updCell_updCell s c.val Cell.trapReturn _)

/-- Settles O6: TRAP and BRK are their exceptions, TRET at S the return, and the fences complete at once. -/
theorem trapsReturnsAndFencesComplete : Obligations.TrapsReturnsAndFencesComplete := by
  refine ⟨fun s c ready => ⟨fun nest => ⟨fun imm => ?trap, ?brk⟩, fun sup => ?tret, fun user nest => ?privilege⟩,
    fun s c ready => ⟨?fence, ?fetchsync⟩⟩
  case trap =>
    refine ⟨_, issue_traps ready rfl nest, updCell_congr ?_⟩
    rw [Cell.trapEntry, kstateTrap_eq, kcause_eq]
    rfl
  case brk =>
    refine ⟨_, issue_traps ready rfl nest, updCell_congr ?_⟩
    rw [Cell.trapEntry, kstateTrap_eq, kcause_eq]
    rfl
  case tret =>
    obtain ⟨nest, ien, savien, savlev⟩ := kstateRet_bits (s.cell c.val).kstate
    refine ⟨_, exec_tret ready sup, ?_⟩
    rw [State.cell_updCell_same]
    exact ⟨rfl, rfl, ien, savien, savlev, nest, rfl⟩
  case privilege =>
    exact issue_traps ready (if_neg (by rw [user]; decide)) nest
  case fence => exact congrArg next (issue_ready ready _)
  case fetchsync => exact congrArg next (issue_ready ready _)

/-! ### Reserved encodings and misaligned accesses -/

theorem irValue_reserved {fn : Nat} (reserved : 0x14 < fn) (a b : W64) : irValue fn a b = none := by
  obtain ⟨n, rfl⟩ := Nat.exists_eq_add_of_le' reserved
  rfl

theorem iiValue_reserved {fn : Nat} {imm : BitVec 14} (reserved : 8 < fn ∨ (6 ≤ fn ∧ 64 ≤ imm.toNat)) (a : W64) :
    iiValue fn a imm = none := by
  by_cases unknown : 8 < fn
  · obtain ⟨n, rfl⟩ := Nat.exists_eq_add_of_le' unknown
    rfl
  · obtain ⟨shift, far⟩ := reserved.resolve_left unknown
    have far : ¬ imm.toNat < 64 := by omega
    interval_cases fn <;> simp [iiValue, far]

theorem sfLegal_reserved {fn : Nat} {fmt : BitVec 2} (reserved : 0x16 < fn ∨ 1 < fmt.toNat) (b x : Reg) :
    sfLegal fn fmt b x = false := by
  have : ¬ fn ≤ 0x16 ∨ ¬ fmt.toNat ≤ 1 := by omega
  rcases this with h | h <;> simp [sfLegal, h]

theorem szsh_reserved {n : Nat} (reserved : 112 ≤ n) : szsh n = none := by
  rw [szsh, if_neg (by omega), if_neg (by omega), if_neg (by omega)]

theorem atomic_misaligned {s : State} {c : CellId} {va : W64} (d : Reg) {a : Reg} {dbl : Bool} (chk : Check) (g : Nat → Option Nat)
    (at_ : va = (s.cell c.val).rdG a) (memory : isCtl va = false) (odd : va.toNat % wdBytes dbl ≠ 0) :
    atomic s c d a dbl chk g = misaligned s va := by
  subst at_
  rw [atomic]
  dsimp only
  rw [memory, if_neg Bool.false_ne_true, if_pos odd]

/-- What a ready cell does with an instruction whose encoding is reserved (09 R210, 03 R61). -/
def TrapsAsReserved (s : State) (c : CellId) (i : Instr) : Prop :=
  ((s.cell c.val).kstate.getLsbD 0 = false → exec i s = .next (trapped s c 0x01 0x00 0)) ∧
    ((s.cell c.val).kstate.getLsbD 0 = true → exec i s = .next (cellFault s c.val))

section
variable {s : State} {c : CellId} (ready : Ready s c)
include ready

theorem trapsAsReserved_of_issue {i : Instr} {f : State → Res} (is : exec i s = next (issue s c f)) (reserved : f s = illegal s) :
    TrapsAsReserved s c i :=
  ⟨fun nest => is.trans (issue_traps ready reserved nest), fun nest => is.trans (issue_cellFault ready reserved nest)⟩

/-- A reserved vector encoding does not wait for the datapaths' wake. -/
theorem trapsAsReserved_of_vecIssue {i : Instr} {legal : Bool} {f : State → Res} (is : exec i s = next (vecIssue s c legal f))
    (reserved : legal = false) : TrapsAsReserved s c i :=
  trapsAsReserved_of_issue ready is (if_neg (by rw [reserved]; decide))

end

/-- Settles O5: a reserved encoding is `illegal` before anything else is looked at, a misaligned access `misaligned`. -/
theorem instructionTraps : Obligations.InstructionTraps := by
  refine ⟨fun s c ready i reserved => ?_, fun s c d a b dbl aq rl imm chk i va ready nest access odd => ?_⟩
  · show TrapsAsReserved s c i
    rcases reserved with ⟨fn, d, a, b, rsv, rfl, h⟩ | ⟨fn, d, a, imm, rfl, h⟩ | ⟨a, b, off, rfl⟩ | ⟨d, a, imm, chk, rfl⟩ |
      ⟨fn, fmt, d, a, b, x, rfl, h⟩ | ⟨op, z, d, a, b, g, rfl, h⟩ | ⟨op, bc, z, d, a, b, g, rfl, h⟩ | ⟨rnd, z, d, a, b, g, rfl, h⟩ |
      ⟨var, sh, rnd, d, a, b, g, rfl, h⟩ | ⟨op, z, pd, a, b, g, rfl, h⟩
    · have none : (if rsv = 0 then irValue fn.toNat ((s.cell c.val).rdG a) ((s.cell c.val).rdG b) else none) = none := by
        rcases h with h | h
        · rw [irValue_reserved h, ite_self]
        · rw [if_neg h]
      exact trapsAsReserved_of_issue ready rfl (by simp only [none])
    · exact trapsAsReserved_of_issue ready rfl (by simp only [iiValue_reserved h])
    · exact trapsAsReserved_of_issue ready rfl rfl
    · exact trapsAsReserved_of_issue ready rfl rfl
    · exact trapsAsReserved_of_issue ready rfl (if_neg (by rw [sfLegal_reserved h]; decide))
    · refine trapsAsReserved_of_vecIssue ready rfl ?_
      rcases h with h | ⟨fn, rfl⟩
      · simp [h]
      · rfl
    · refine trapsAsReserved_of_vecIssue ready rfl ?_
      rcases h with h | rfl | rfl
      · simp [h]
      · rfl
      · rfl
    · refine trapsAsReserved_of_vecIssue ready rfl ?_
      rcases h with h | rfl | rfl
      · simp [h]
      · rfl
      · rfl
    · refine trapsAsReserved_of_vecIssue ready rfl ?_
      rcases h with h | rfl | h
      · simp [h]
      · rfl
      · simp [szsh_reserved h]
    · refine trapsAsReserved_of_vecIssue ready rfl ?_
      rcases h with h | h <;> simp [govPlain, h]
  · rcases access with ⟨at_, rfl | rfl⟩ | ⟨at_, memory, rfl | rfl | rfl⟩
    · subst at_
      exact issue_traps ready (if_pos odd) nest
    · subst at_
      exact issue_traps ready (if_pos odd) nest
    · exact issue_traps ready (atomic_misaligned d chk _ at_ memory odd) nest
    · exact issue_traps ready (atomic_misaligned d chk _ at_ memory odd) nest
    · exact issue_traps ready (atomic_misaligned d chk _ at_ memory odd) nest

end Sys2Proof.Machine
end

section
/-! PROOFS. System registers (03 R56, 04 R88, 05 R122, 06 R130 to R133): who may read and write which, what a register holds after a write,
and O12 and O13. -/

namespace Sys2Proof.Machine

/-! ### The access table -/

/-- The registers that a level may read (03 R56). -/
def readableRegs (sup : Bool) : List Nat :=
  let u := [0x010, 0x021, 0x022, 0x040, 0x041, 0x042, 0x045, 0x050, 0x051, 0x052, 0x053, 0x054, 0x055, 0x057]
  if sup then u ++ [0x000, 0x001, 0x002, 0x003, 0x004, 0x005, 0x006, 0x007, 0x020, 0x030, 0x043, 0x044, 0x056] else u

/-- The registers that a level may write. -/
def writableRegs (sup : Bool) : List Nat :=
  let u := [0x010, 0x042, 0x050, 0x051, 0x052, 0x053, 0x054, 0x055]
  if sup then u ++ [0x000, 0x001, 0x002, 0x005, 0x006, 0x007, 0x020, 0x030, 0x041, 0x044, 0x045, 0x056, 0x057] else u

/-- No register has a number above that of TERR. -/
theorem srAcc_unknown {n : Nat} (high : 0x58 ≤ n) : srAcc n = none := by
  obtain ⟨m, rfl⟩ := Nat.exists_eq_add_of_le' high
  rfl

theorem lt_of_mem_readableRegs {sup : Bool} {n : Nat} (h : n ∈ readableRegs sup) : n < 0x58 := by
  revert n sup
  decide

theorem lt_of_mem_writableRegs {sup : Bool} {n : Nat} (h : n ∈ writableRegs sup) : n < 0x58 := by
  revert n sup
  decide

theorem srdExc_eq (sup : Bool) (n : Nat) : srdExc sup n = if n ∈ readableRegs sup then none else some srIllegal := by
  have table : ∀ sup, ∀ n < 0x58, srdExc sup n = if n ∈ readableRegs sup then none else some srIllegal := by decide
  by_cases known : n < 0x58
  · exact table sup n known
  · rw [srdExc, srAcc_unknown (by omega), if_neg fun h => known (lt_of_mem_readableRegs h)]

theorem swrExc_eq (sup : Bool) (n : Nat) : swrExc sup n = if n ∈ writableRegs sup then none
    else some (if sup = false ∧ n ∈ writableRegs true then srPrivilege else srIllegal) := by
  have table : ∀ sup, ∀ n < 0x58, swrExc sup n = if n ∈ writableRegs sup then none
      else some (if sup = false ∧ n ∈ writableRegs true then srPrivilege else srIllegal) := by decide
  by_cases known : n < 0x58
  · exact table sup n known
  · rw [swrExc, srAcc_unknown (by omega), if_neg fun h => known (lt_of_mem_writableRegs h),
      if_neg fun h => known (lt_of_mem_writableRegs h.2)]

/-! ### SRD and SWR -/

section
variable {s : State} {c : CellId} {n : Nat}

theorem srdRes_readable (d : Reg) (readable : n ∈ readableRegs (s.cell c.val).sup) :
    srdRes s c d n = onCell s c fun k => k.wrG d (srRead s c.val n) := by
  rw [srdRes, srdExc_eq, if_pos readable]

theorem srdRes_unreadable (d : Reg) (unreadable : n ∉ readableRegs (s.cell c.val).sup) : srdRes s c d n = .exc ⟨1, 1, 0⟩ s := by
  rw [srdRes, srdExc_eq, if_neg unreadable]
  rfl

theorem swrRes_plain (v : W64) (writable : n ∈ writableRegs (s.cell c.val).sup)
    (plain : n ∉ [0x020, 0x050, 0x051, 0x052, 0x053]) : swrRes s c n v = onCell s c fun k => k.srPut n v := by
  simp only [List.mem_cons, List.not_mem_nil, or_false, not_or] at plain
  have tcfg : ¬ (0x050 ≤ n ∧ n ≤ 0x053) := by omega
  rw [swrRes, swrExc_eq, if_pos writable]
  simp only [plain, tcfg, if_false]

theorem swrRes_cctl (v : W64) (sup : (s.cell c.val).sup = true) : swrRes s c 0x020 v = .done (cctlWrite s c.val v) := by
  rw [swrRes, sup]
  rfl

theorem swrRes_tcfg (n : Fin 4) (v : W64) : swrRes s c (0x050 + n.val) v = tcfgPut s c n.val v := by
  have writable : ∀ (sup : Bool) (n : Fin 4), 0x050 + n.val ∈ writableRegs sup := by decide
  have cctl : ¬ 0x050 + n.val = 0x020 := by omega
  have tcfg : 0x050 ≤ 0x050 + n.val ∧ 0x050 + n.val ≤ 0x053 := by omega
  rw [swrRes, swrExc_eq, if_pos (writable _ n)]
  simp only [cctl, tcfg, if_false, and_self, if_true, Nat.add_sub_cancel_left]

theorem swrRes_unwritable (v : W64) (unwritable : n ∉ writableRegs (s.cell c.val).sup) : swrRes s c n v =
    .exc ⟨if (s.cell c.val).sup = false ∧ n ∈ writableRegs true then 2 else 1, 1, 0⟩ s := by
  rw [swrRes, swrExc_eq, if_neg unwritable]
  by_cases privilege : (s.cell c.val).sup = false ∧ n ∈ writableRegs true
  · simp only [if_pos privilege]; rfl
  · simp only [if_neg privilege]; rfl

end

/-! ### What registers hold after a write -/

theorem low32_eq (v : W64) (m : Nat) : low32 v m = v.truncate 32 &&& BitVec.ofNat 32 m := by
  unfold low32
  apply BitVec.eq_of_getLsbD_eq
  intro i hi
  simp [Nat.testBit_and, BitVec.getLsbD, BitVec.toNat_ofNat]

/-- The bits of a field cut out in place. -/
theorem and_field (a lo w : Nat) : a &&& ((2 ^ w - 1) <<< lo) = fieldN a lo w <<< lo := by
  refine Nat.eq_of_testBit_eq fun i => ?_
  rw [fieldN, Nat.testBit_and, Nat.testBit_shiftLeft, Nat.testBit_shiftLeft, Nat.testBit_two_pow_sub_one, Nat.testBit_mod_two_pow,
    Nat.testBit_shiftRight]
  by_cases above : lo ≤ i
  · simp [above, Bool.and_comm]
  · simp [above]

/-- The rounding mode that a value names for TSTAT.RM is the reserved one. -/
theorem reservedRm_iff (v : W64) : fieldN v.toNat 8 2 = 3 ↔ v.truncate 32 &&& 0x300 = (0x300 : W32) := by
  have bits : (v.truncate 32 &&& (0x300 : W32)).toNat = fieldN v.toNat 8 2 <<< 8 := by
    have low : fieldN (v.toNat % 2 ^ 32) 8 2 = fieldN v.toNat 8 2 := by
      simp only [fieldN, Nat.shiftRight_eq_div_pow]; omega
    rw [← low, ← and_field]
    simp
  rw [← BitVec.toNat_inj, bits, Nat.shiftLeft_eq]
  refine ⟨fun h => by rw [h]; rfl, fun h => ?_⟩
  have h : fieldN v.toNat 8 2 * 256 = 768 := h
  omega

/-- A word merged from two under masks that share no bit. -/
theorem or_masks_and {m m' : W32} (apart : m' &&& m = 0) (x y : W32) : ((x &&& m) ||| (y &&& m')) &&& m = x &&& m := by
  rw [BitVec.and_or_distrib_right, BitVec.and_assoc, BitVec.and_assoc, apart, BitVec.and_self]
  simp

/-- TSTAT keeps a rounding mode that a write would make the reserved one (06 R132). -/
theorem tstatWrite_eq (old : W32) (v : W64) : tstatWrite old v &&& 0x1F = v.truncate 32 &&& 0x1F ∧
    tstatWrite old v &&& 0x300 =
      if v.truncate 32 &&& 0x300 = (0x300 : W32) then old &&& 0x300 else v.truncate 32 &&& 0x300 := by
  by_cases reserved : fieldN v.toNat 8 2 = 3
  · rw [tstatWrite, if_pos reserved, if_pos ((reservedRm_iff v).mp reserved), low32_eq]
    refine ⟨or_masks_and (by decide) _ _, ?_⟩
    rw [BitVec.or_comm]
    exact or_masks_and (by decide) _ _
  · rw [tstatWrite, if_neg reserved, if_neg fun h => reserved ((reservedRm_iff v).mpr h), low32_eq, BitVec.and_assoc, BitVec.and_assoc]
    exact ⟨rfl, rfl⟩

theorem low32_all (v : W64) : low32 v 0xFFFFFFFF = v.truncate 32 := by
  rw [low32_eq]
  exact BitVec.and_allOnes

theorem onCell_congr {s : State} {c : CellId} {f g : Cell → Cell} (h : f (s.cell c.val) = g (s.cell c.val)) :
    onCell s c f = onCell s c g :=
  congrArg Res.done (updCell_congr h)

section
variable {s : State} {c : CellId} (ready : Ready s c) (a : Reg) (again : BitVec 5)
include ready

/-- SWR as a ready cell performs it. -/
theorem exec_swr (sr : BitVec 12) : exec (.swr c sr a again) s = next (finish c.val (swrRes s c sr.toNat
    (if sr = 0x007 then keepAgain ((s.cell c.val).rdG a) again else (s.cell c.val).rdG a))) :=
  congrArg next (issue_ready ready _)

theorem exec_swr_plain {sr : BitVec 12} (writable : sr.toNat ∈ writableRegs (s.cell c.val).sup)
    (plain : sr.toNat ∉ [0x007, 0x020, 0x050, 0x051, 0x052, 0x053]) :
    exec (.swr c sr a again) s = .next (retired s c fun k => k.srPut sr.toNat (k.rdG a)) := by
  obtain ⟨notPending, plain⟩ := not_or.mp (mt List.mem_cons.mpr plain)
  have other : sr ≠ 0x007 := fun h => notPending (congrArg BitVec.toNat h)
  refine issue_onCell ready ?_
  dsimp only
  rw [if_neg other, swrRes_plain _ writable plain]
  exact onCell_congr rfl

theorem exec_swr_kipend (sup : (s.cell c.val).sup = true) : exec (.swr c 0x007 a again) s =
    .next (retired s c fun k => k.srPut 0x007 (k.rdG a &&& ~~~(again.zeroExtend 64))) := by
  have writable : (0x007 : BitVec 12).toNat ∈ writableRegs (s.cell c.val).sup := by rw [sup]; decide
  refine issue_onCell ready ?_
  dsimp only
  rw [if_pos rfl, swrRes_plain _ writable (by decide)]
  exact onCell_congr rfl

theorem exec_swr_cctl (sup : (s.cell c.val).sup = true) : exec (.swr c 0x020 a again) s =
    .next ((cctlWrite s c.val ((s.cell c.val).rdG a)).updCell c.val Cell.nextPc) := by
  have other : ¬ (0x020 : BitVec 12) = 0x007 := by decide
  have number : (0x020 : BitVec 12).toNat = 0x020 := rfl
  rw [exec_swr ready, if_neg other, number, swrRes_cctl _ sup]
  rfl

/-- A TCFG write whose write-back meets no error in the accumulator's parity. -/
theorem exec_tcfgWrite (n : Fin 4) : exec (.tcfgWrite c n a false) s =
    next (finish c.val (swrRes s c (0x050 + n.val) ((s.cell c.val).rdG a))) :=
  congrArg next (issue_ready ready _)

theorem exec_swr_tcfg (n : Fin 4) :
    exec (.swr c (0x050 + BitVec.ofNat 12 n.val) a again) s = exec (.tcfgWrite c n a false) s := by
  have other : ∀ n : Fin 4, ¬ (0x050 + BitVec.ofNat 12 n.val : BitVec 12) = 0x007 := by decide
  have number : ∀ n : Fin 4, (0x050 + BitVec.ofNat 12 n.val : BitVec 12).toNat = 0x050 + n.val := by decide
  rw [exec_swr ready, if_neg (other n), number n, exec_tcfgWrite ready]

theorem exec_swr_unwritable {sr : BitVec 12} (unwritable : sr.toNat ∉ writableRegs (s.cell c.val).sup)
    (nest : (s.cell c.val).kstate.getLsbD 0 = false) : exec (.swr c sr a again) s =
      .next (trapped s c (if (s.cell c.val).sup = false ∧ sr.toNat ∈ writableRegs true then 0x02 else 0x01) 0x01 0) :=
  issue_traps ready (swrRes_unwritable _ unwritable) nest

end

/-- Settles O12: the two tables of the statement are `readableRegs` and `writableRegs`. -/
theorem systemRegistersComplete : Obligations.SystemRegistersComplete := by
  refine ⟨fun s c sr d a again ready => ?_, fun k v => ?_⟩
  · exact ⟨fun readable => issue_onCell ready (srdRes_readable d readable),
      fun unreadable nest => issue_traps ready (srdRes_unreadable d unreadable) nest,
      exec_swr_plain ready a again, exec_swr_kipend ready a again, exec_swr_cctl ready a again, exec_swr_tcfg ready a again,
      exec_swr_unwritable ready a again⟩
  · obtain ⟨flags, mode⟩ := tstatWrite_eq k.tstat v
    refine ⟨low32_eq v _, rfl, rfl, rfl, low32_eq v _, rfl, rfl, rfl, low32_eq v _, rfl, low32_eq v _, low32_eq v _, low32_eq v _,
      low32_eq v _, flags, mode, ?_, rfl⟩
    rw [← low32_all]
    rfl

/-! ### Writes that are commands of their own -/

/-- What a TCFG write makes of a cell (06 R132, R144): residency has ended, and the tags are new. -/
def Cell.retag (k : Cell) (n : Fin 4) (v : W64) : Cell := { k.endRes with tcfg := k.endRes.tcfg.setIfInBounds n v }

/-- A cell with new tags has changed in its tile file and TCFG alone. -/
theorem Cell.retag_eq (k : Cell) (n : Fin 4) (v : W64) : k.retag n v = { k with
    tcfg := (k.retag n v).tcfg, res := none, t := (k.retag n v).t, tbad := (k.retag n v).tbad, accDirty := false
    accBad := (k.retag n v).accBad } :=
  congrArg (fun x : Cell => { x with tcfg := (k.retag n v).tcfg }) (Cell.eq_of_offFile k.endRes_offFile)

theorem Cell.retag_tcfg (k : Cell) (n : Fin 4) (v : W64) : (k.retag n v).tcfg = k.tcfg.set n v := by
  have kept : k.endRes.tcfg = k.tcfg := (congrArg Cell.tcfg k.endRes_offFile : k.endRes.offFile.tcfg = k.offFile.tcfg)
  refine Vector.ext fun i hi => ?_
  rw [retag, kept, Vector.getElem_setIfInBounds, Vector.getElem_set]

section
variable {s : State} {c : CellId} (ready : Ready s c) (a : Reg)
include ready

/-- A write of a register of the cell's own that its level may write. -/
theorem swr_completes (n : Nat) {f : State → Res} (v : W64) (is : f s = swrRes s c n v)
    (writable : n ∈ writableRegs (s.cell c.val).sup) (plain : n ∉ [0x020, 0x050, 0x051, 0x052, 0x053]) :
    next (issue s c f) = .next (retired s c fun k => k.srPut n v) :=
  issue_onCell ready (is.trans (swrRes_plain v writable plain))

/-- A TCFG write whose write-back meets an error in the accumulator's parity (06 R158). -/
theorem exec_tcfgWrite_accBad (n : Fin 4) (tags : tagsOk ((s.cell c.val).rdG a) = true) (resident : (s.cell c.val).res.isSome = true)
    (dirty : (s.cell c.val).accDirty = true) : exec (.tcfgWrite c n a true) s = .next (accFault s c.val) := by
  refine congrArg next ((issue_ready ready _).trans ?_)
  simp [resident, dirty, tags, finish_stay]

theorem exec_tcfgWrite_tagged (n : Fin 4) (tags : tagsOk ((s.cell c.val).rdG a) = true) : exec (.tcfgWrite c n a false) s =
    .next (retired s c fun k => k.retag n ((s.cell c.val).rdG a)) := by
  rw [exec_tcfgWrite ready, swrRes_tcfg, tcfgPut, if_pos tags]
  exact congrArg next (State.updCell_updCell s c.val (fun k => k.retag n ((s.cell c.val).rdG a)) Cell.nextPc)

end

theorem tagsOk_iff (v : W64) : tagsOk v = true ↔ ∀ i < 16, fieldN v.toNat (4 * i) 4 ≤ 8 := by
  simp [tagsOk]

theorem Cell.srPut_strstat_get (k : Cell) (v : W64) (n : Fin 4) :
    (k.srPut 0x045 v).ss[n] = if v.getLsbD n.val then none else k.ss[n] :=
  Vector.getElem_ofFn n.isLt

/-- Settles O13: each of the writes is an SWR of its register, and the end of residency that a TCFG write brings keeps every quad's value. -/
theorem ownRegisterWritesComplete : Obligations.OwnRegisterWritesComplete := by
  intro s c a ready v
  refine ⟨fun sup => ⟨?ctcmp, ?vresume, ?strstat⟩, ?tseed, fun n tags => ?tcfg, fun n tags resident dirty => ?accBad⟩
  case ctcmp => exact swr_completes ready 0x030 v rfl (by rw [sup]; decide) (by decide)
  case vresume =>
    have kept : low32 v 0x1FF = v.truncate 32 &&& 0x1FF := low32_eq v _
    rw [← kept]
    exact swr_completes ready 0x041 v rfl (by rw [sup]; decide) (by decide)
  case strstat =>
    refine ⟨_, swr_completes ready 0x045 v rfl (by rw [sup]; decide) (by decide), ?_⟩
    rw [retired, State.cell_updCell_same]
    exact ⟨(s.cell c.val).srPut_strstat_get v, updCell_congr rfl⟩
  case tseed =>
    rw [← low32_all v]
    exact swr_completes ready 0x055 v rfl (by cases (s.cell c.val).sup <;> decide) (by decide)
  case tcfg =>
    refine ⟨_, exec_tcfgWrite_tagged ready a n ((tagsOk_iff v).mpr tags), ?_⟩
    rw [retired, State.cell_updCell_same]
    exact ⟨(s.cell c.val).retag_tcfg n v, rfl, (s.cell c.val).endRes_quad,
      updCell_congr (congrArg Cell.nextPc ((s.cell c.val).retag_eq n v))⟩
  case accBad => exact exec_tcfgWrite_accBad ready a n ((tagsOk_iff v).mpr tags) resident dirty

end Sys2Proof.Machine
end

section
/-! PROOFS. The scalar floating-point instructions (03 R55, 09 R216): every one writes one register and gains sticky flags; O7. -/

namespace Sys2Proof.Machine

/-! ### Registers and flags -/

theorem Cell.wrG_getElem_ne (k : Cell) {d r : Reg} (v : W64) (ne : r ≠ d) : (k.wrG d v).g[r] = k.g[r] := by
  unfold Cell.wrG
  split
  · rfl
  · exact Vector.getElem_set_ne d.isLt r.isLt fun h => ne (Fin.ext h.symm)

theorem Cell.wrG_getElem_same (k : Cell) {d : Reg} (v : W64) (nonzero : d ≠ 0) : (k.wrG d v).g[d] = v := by
  have number : ¬ d.val = 0 := fun h => nonzero (Fin.ext h)
  rw [Cell.wrG, if_neg number]
  exact Vector.getElem_set_self d.isLt

theorem Cell.wrF_getElem_ne (k : Cell) {d r : Reg} (v : W64) (ne : r ≠ d) : (k.wrF d v).v[r] = k.v[r] := by
  unfold Cell.wrF
  split
  · exact Vector.getElem_set_ne d.isLt r.isLt fun h => ne (Fin.ext h.symm)
  · exact Vector.getElem_set_ne d.isLt r.isLt fun h => ne (Fin.ext h.symm)

theorem Cell.wrG_eq (k : Cell) (d : Reg) (v : W64) : k.wrG d v = { k with g := (k.wrG d v).g } := by
  unfold Cell.wrG
  split <;> rfl

theorem Cell.wrF_eq (k : Cell) (d : Reg) (v : W64) : k.wrF d v = { k with v := (k.wrF d v).v, vzero := (k.wrF d v).vzero } := by
  unfold Cell.wrF
  split <;> rfl

/-- The sticky flags lie above RM (03 R56). -/
theorem Fl.bits_and_rm (f : Fl) : BitVec.ofNat 32 f.bits &&& 3 = 0 := by
  have all : ∀ nv dz of uf nx, BitVec.ofNat 32 (Fl.bits ⟨nv, dz, of, uf, nx⟩) &&& 3 = 0 := by decide
  exact all f.nv f.dz f.of f.uf f.nx

theorem Cell.orFl_gains (k : Cell) (f : Fl) : k.fstat &&& (k.orFl f).fstat = k.fstat := by
  apply BitVec.eq_of_getLsbD_eq
  intro i _
  rw [Cell.orFl, BitVec.getLsbD_and, BitVec.getLsbD_or]
  cases k.fstat.getLsbD i <;> rfl

theorem Cell.orFl_rm (k : Cell) (f : Fl) : (k.orFl f).fstat &&& 3 = k.fstat &&& 3 := by
  rw [Cell.orFl, BitVec.and_or_distrib_right, f.bits_and_rm]
  exact BitVec.or_zero

/-! ### The instruction's effect -/

/-- What a scalar floating-point instruction leaves of a cell as it was (03 R55): all but register d, and the flags that it adds. -/
structure SfFrame (k : Cell) (d : Reg) (k' : Cell) : Prop where
  gains : k.fstat &&& k'.fstat = k.fstat
  mode : k'.fstat &&& 3 = k.fstat &&& 3
  others : ∀ r : Reg, r ≠ d → k'.g[r] = k.g[r] ∧ k'.v[r] = k.v[r]
  rest : k' = { k with g := k'.g, v := k'.v, vzero := k'.vzero, fstat := k'.fstat }

section
variable {k : Cell} {d : Reg}

theorem SfFrame.orFl {k' : Cell} (rest : k' = { k with g := k'.g, v := k'.v, vzero := k'.vzero })
    (others : ∀ r : Reg, r ≠ d → k'.g[r] = k.g[r] ∧ k'.v[r] = k.v[r]) (f : Fl) : SfFrame k d (k'.orFl f) := by
  have fstat : k'.fstat = k.fstat := by rw [rest]
  have gains := k'.orFl_gains f
  have mode := k'.orFl_rm f
  rw [fstat] at gains mode
  exact ⟨gains, mode, others, congrArg (fun x : Cell => { x with fstat := (k'.orFl f).fstat }) rest⟩

theorem sfFrame_wrF (v : W64) (f : Fl) : SfFrame k d ((k.wrF d v).orFl f) := by
  have rest := k.wrF_eq d v
  have g : (k.wrF d v).g = k.g := by rw [rest]
  exact .orFl (by rw [g]; exact rest) (fun r ne => ⟨congrArg (fun x : Vector W64 32 => x[r]) g, k.wrF_getElem_ne v ne⟩) f

theorem sfFrame_wrG (v : W64) (f : Fl) : SfFrame k d ((k.wrG d v).orFl f) := by
  have rest := k.wrG_eq d v
  have same : (k.wrG d v).v = k.v := by rw [rest]
  have vzero : (k.wrG d v).vzero = k.vzero := by rw [rest]
  refine .orFl (by rw [same, vzero]; exact rest) (fun r ne => ⟨k.wrG_getElem_ne v ne, ?_⟩) f
  exact congrArg (fun x : Vector (BitVec 2048) 32 => x[r]) same

end

section
variable (k : Cell) (dbl : Bool) (d a b x : Reg)

theorem sfEffect_arith {fn : Nat} {op : VFpOp} (h : sfArith fn = some op) : sfEffect k fn dbl d a b x =
    let f := fmtOf dbl
    let opd (r : Reg) : Nat := (k.rdF r).toNat % 2 ^ f.width
    let r := fpBits op f k.frm (opd a) (opd b) (opd x)
    (k.wrF d (BitVec.ofNat 64 r.1)).orFl r.2 := by
  simp only [sfEffect, h]

/-- A comparison writes 1 or 0. -/
theorem sfEffect_compare {fn : Nat} (h : 0x14 ≤ fn) :
    ∃ (r : Bool) (f : Fl), sfEffect k fn dbl d a b x = (k.wrG d (BitVec.ofNat 64 (b2n r))).orFl f := by
  obtain ⟨n, rfl⟩ := Nat.exists_eq_add_of_le' h
  match n with
  | 0 => exact ⟨_, _, rfl⟩
  | 1 => exact ⟨_, _, rfl⟩
  | n + 2 => exact ⟨_, _, rfl⟩

/-- No NaN is equal to anything (03 R55). -/
theorem fpCmp_eq (p q : Fp) : (fpCmp false Fp.eq false p q).1 = Fp.eq p q := by
  unfold fpCmp Fp.eq
  cases p.isNan <;> cases q.isNan <;> rfl

theorem sfEffect_frame (fn : Nat) : SfFrame k d (sfEffect k fn dbl d a b x) := by
  cases h : sfArith fn with
  | some op => rw [sfEffect_arith k dbl d a b x h]; exact sfFrame_wrF _ _
  | none =>
    simp only [sfEffect, h]
    split
    · exact sfFrame_wrF _ _
    · exact sfFrame_wrG _ _
    · exact sfFrame_wrG _ _
    · exact sfFrame_wrF _ _
    · exact sfFrame_wrF _ _
    · exact sfFrame_wrG _ _
    · exact sfFrame_wrF _ _
    · exact sfFrame_wrG _ _
    · exact sfFrame_wrG _ _
    · exact sfFrame_wrG _ _

end

theorem exec_scalarFpOp {s : State} {c : CellId} (ready : Ready s c) {fn : BitVec 6} {fmt : BitVec 2} (d a : Reg) {b x : Reg}
    (legal : sfLegal fn.toNat fmt b x = true) : exec (.scalarFpOp c fn fmt d a b x) s =
      .next (retired s c fun k => sfEffect k fn.toNat (fmt == 1) d a b x) :=
  issue_onCell ready (if_pos legal)

/-- Settles O7: the functions write their register by the branches of `sfEffect`, and `SfFrame` says what each leaves alone. -/
theorem scalarFloatingPointCompletes : Obligations.ScalarFloatingPointCompletes := by
  intro s c fn fmt d a b x ready legal k f opd
  have frame := sfEffect_frame k (fmt == 1) d a b x fn.toNat
  refine ⟨_, exec_scalarFpOp ready d a legal, rfl, ?_⟩
  rw [retired, State.cell_updCell_same]
  refine ⟨fun op h => ?arith, fun h nonzero => ?compare, fun h nonzero => ?equal, fun h => ?toG, fun h => ?toF, frame.gains,
    frame.mode, frame.others, updCell_congr (congrArg Cell.nextPc frame.rest)⟩
  case arith =>
    have effect := congrArg Cell.v (sfEffect_arith k (fmt == 1) d a b x h)
    exact effect
  case compare =>
    have compares : 0x14 ≤ fn.toNat := h
    obtain ⟨r, f, effect⟩ := sfEffect_compare k (fmt == 1) d a b x compares
    have value : (sfEffect k fn.toNat (fmt == 1) d a b x).g[d] = BitVec.ofNat 64 (b2n r) := by
      rw [effect]; exact k.wrG_getElem_same _ nonzero
    cases r
    · exact .inl value
    · exact .inr value
  case equal =>
    subst h
    have value : (sfEffect k (0x14 : BitVec 6).toNat (fmt == 1) d a b x).g[d] =
        BitVec.ofNat 64 (b2n (fpCmp false Fp.eq false (f.decode (opd a)) (f.decode (opd b))).1) :=
      k.wrG_getElem_same _ nonzero
    refine value.trans ?_
    rw [fpCmp_eq]
    cases Fp.eq (f.decode (opd a)) (f.decode (opd b)) <;> rfl
  case toG =>
    subst h
    rfl
  case toF =>
    subst h
    rfl

end Sys2Proof.Machine
end

section
/-! PROOFS. Atomics on a location that no memory lies behind (03 R71), and O10. -/

namespace Sys2Proof.Machine

/-- The first four bytes of the tile window of cell 0 (01 R24), which `tileWindowState` reaches at partition-relative address 0. -/
def tileWindowWord : List Nat := [0x20000000000, 0x20000000001, 0x20000000002, 0x20000000003]

theorem tileWindowState_readsWord : Reads tileWindowState 0 0 4 tileWindowWord := by
  unfold Reads PathOpen; decide

theorem tileWindowState_writesWord : Writes tileWindowState 0 0 4 tileWindowWord := by
  unfold Writes PathOpen; decide

/-- Refutes O10. As with O9, neither `Reads` nor `Writes` asks that the addresses be memory (`isMem`): in `tileWindowState` the partition's
one memory window names tile windows, which hold no byte of memory. An ATMSWAP.W of G1 = 1 at partition-relative address 0 would have to
leave the byte 1 there. -/
theorem not_atomicsComplete : ¬ Obligations.AtomicsComplete := by
  intro h
  obtain ⟨t, -, -, bytes, -⟩ := h tileWindowState 0 0 0 1 false false false tileWindowWord _ tileWindowState_ready tileWindowState_coherent
    tileWindowState_readsWord tileWindowState_writesWord rfl rfl (.atmswap 0 0 0 1 false false false .clean) 1 (.inr (.inl ⟨rfl, rfl⟩))
  have written := congrArg List.head? bytes
  have first : memByte t 0x20000000000 = 1 := Option.some.inj written
  rw [memByte_of_not_isMem t (by decide)] at first
  exact absurd first (by decide)

end Sys2Proof.Machine
end

section
/-! PROOFS. Interrupts (03 R64 to R66, R82): what taking one makes of the cell, the sources that set KIPEND, and O11. -/

namespace Sys2Proof.Machine

/-! ### Pending and due -/

theorem kipend_bits (s : State) (c : Nat) :
    (kipend s c).getLsbD 1 = decide ((s.cell c).ctcmp.toNat ≤ ctime s c) ∧ (kipend s c).getLsbD 3 = (s.cell c).hmRef.isSome ∧
      (kipend s c).getLsbD 4 = (s.cell c).bell.isSome := by
  have bits : ∀ t e r b : Bool, let w := BitVec.ofNat 32 (2 * b2n t + 4 * b2n e + 8 * b2n r + 16 * b2n b)
      w.getLsbD 1 = t ∧ w.getLsbD 3 = r ∧ w.getLsbD 4 = b := by decide
  exact bits _ _ _ _

/-- An interrupt is due only while IEN = 1 (03 R64). -/
theorem ien_of_due {s : State} {c i : Nat} (due : dueInterrupt s c = some i) : (s.cell c).kstate.getLsbD 1 = true := by
  unfold dueInterrupt at due
  dsimp only at due
  split at due
  · assumption
  · cases due

theorem lt_of_due {s : State} {c i : Nat} (due : dueInterrupt s c = some i) : i < 256 := by
  have classes : ∀ i ∈ [1, 2, 3, 4], i < 256 := by decide
  unfold dueInterrupt at due
  dsimp only at due
  split at due
  · exact classes i (List.mem_of_find?_eq_some due)
  · cases due

/-! ### Taking an interrupt -/

/-- A cell that abandons what waits: PC names the oldest abandoned instruction (03 R64, 06 R141). -/
def Cell.abandon (k : Cell) : Cell :=
  { k with pc := (match k.tpend with | i :: _ => i.pc | [] => k.pc), tpend := [], wait := none, vwait := false }

/-- KRPC of an interrupt is the oldest abandoned instruction, or the next one (03 R64, R65). -/
theorem Cell.abandon_krpc (k : Cell) (cls detail : Byte) (addr : W64) : (k.abandon.trapEntry true cls detail addr).krpc =
    (match k.tpend with | i :: _ => i.pc | [] => k.pc) := by
  have interrupt : ¬ (cls = 0x0A ∧ true = false) := fun h => Bool.noConfusion h.2
  exact if_neg interrupt

theorem Cell.interrupt_kcause (k : Cell) {i : Nat} (small : i < 256) (detail : Byte) (addr : W64) :
    (k.trapEntry true (BitVec.ofNat 8 i) detail addr).kcause = BitVec.ofNat 32 (65536 + 256 * detail.toNat + i) := by
  have cls : (BitVec.ofNat 8 i).toNat = i := Nat.mod_eq_of_lt small
  rw [Cell.trapEntry, cls]
  exact congrArg (BitVec.ofNat 32) (by rw [b2n, if_pos rfl]; omega)

theorem takeInterrupt_eq (s : State) (c cls : Nat) : takeInterrupt s c cls = s.updCell c fun k =>
    k.abandon.trapEntry true (BitVec.ofNat 8 cls) (interruptInfo (s.cell c) cls).1 (interruptInfo (s.cell c) cls).2 := by
  have info : interruptInfo (s.cell c).abandon cls = interruptInfo (s.cell c) cls := rfl
  unfold takeInterrupt
  dsimp only
  rw [takeTrap, if_neg (by simp), State.updCell_updCell, State.cell_updCell_same]
  exact congrArg (fun d : Byte × W64 => s.updCell c fun k => k.abandon.trapEntry true (BitVec.ofNat 8 cls) d.1 d.2) info

theorem kstateTrap_bits (ks : W32) (sup : Bool) : (kstateTrap ks sup).getLsbD 0 = true ∧ (kstateTrap ks sup).getLsbD 1 = false ∧
    (kstateTrap ks sup).getLsbD 2 = ks.getLsbD 1 ∧ (kstateTrap ks sup).getLsbD 3 = sup := by
  unfold kstateTrap
  cases ks.getLsbD 1 <;> cases sup <;> decide

/-- What an interrupt does with a cell that runs or waits (03 R64, 11 R261): a PIPBAR that has arrived first sends its withdrawal. -/
def interrupted (s : State) (c i : Nat) : State :=
  match (s.cell c).wait with
  | some w => if w.kind = .bar ∧ ((s.cell c).pip w.pip).arr then sendWithdrawal s c w else takeInterrupt s c i
  | none => takeInterrupt s c i

section
variable {s : State} {c : CellId} {i : Nat} (due : dueInterrupt s c.val = some i) (held : (s.cell c.val).held = false)
  (faulted : (s.cell c.val).faulted = false) (run : (s.block (blockOfCell c)).st = .run) (oos : (s.block (blockOfCell c)).oos = false)
include due held faulted run oos

theorem exec_interruptTake_due : exec (.interruptTake c) s = next (interrupted s c.val i) := by
  have live : ((s.cell c.val).held || (s.cell c.val).faulted || (s.block (blockOfCell c)).oos) = false := by rw [held, faulted, oos]; rfl
  show execInterruptTake c s = _
  unfold execInterruptTake
  dsimp only
  rw [live, if_neg Bool.false_ne_true, due]
  dsimp only
  rw [if_neg (not_not.mpr run)]
  rfl

/-- A cell that runs, or waits with no barrier arrival of its own, takes the interrupt. -/
theorem exec_interruptTake (free : ∀ w, (s.cell c.val).wait = some w → w.kind ≠ .bar ∨ ((s.cell c.val).pip w.pip).arr = false) :
    exec (.interruptTake c) s = .next (takeInterrupt s c.val i) := by
  rw [exec_interruptTake_due due held faulted run oos, interrupted]
  cases waits : (s.cell c.val).wait with
  | none => rfl
  | some w =>
    have noArrival : ¬ (w.kind = .bar ∧ ((s.cell c.val).pip w.pip).arr = true) := by
      rintro ⟨bar, arr⟩
      rcases free w waits with h | h
      · exact h bar
      · rw [h] at arr; cases arr
    exact congrArg next (if_neg noArrival)

/-- A cell whose PIPBAR has arrived first sends the withdrawal (11 R261). -/
theorem exec_interruptTake_bar {w : Wait} (waits : (s.cell c.val).wait = some w) (bar : w.kind = .bar)
    (arr : ((s.cell c.val).pip w.pip).arr = true) : exec (.interruptTake c) s = .next (sendWithdrawal s c.val w) := by
  rw [exec_interruptTake_due due held faulted run oos, interrupted, waits]
  exact congrArg next (if_pos ⟨bar, arr⟩)

end

theorem sendWithdrawal_sends (s : State) (c : Nat) {w : Wait} (unsent : w.wd = .none) :
    (sendWithdrawal s c w).cell c = { s.cell c with wait := some { w with wd := .sent } } ∧
      (sendWithdrawal s c w).bmsgs = s.bmsgs ++ [⟨.withdraw, c, Fin.ofNat 512 (homeOf c ((s.cell c).pip w.pip)), BitVec.ofNat 6 w.pip,
        ((s.cell c).pip w.pip).gen, (s.cell c).hall, 0⟩] := by
  rw [sendWithdrawal, if_pos unsent, sendBar]
  constructor
  · exact (countBridge_cell _ _ _ _).trans (State.cell_setCell_same _ _ _)
  · exact congrArg (· ++ _) (countBridge_bmsgs _ _ _)

/-! ### Sources -/

/-- The first of the messages that keep their order is taken from where it is. -/
theorem takeMsg_first {α : Type} {same : α → α → Bool} {k : Nat} {l : List α} {x : α} (at_ : l[k]? = some x) (self : same x x = true)
    (first : ∀ j < k, ∀ y, l[j]? = some y → same x y = false) : takeMsg same k l = some (x, l.eraseIdx k) := by
  obtain ⟨inside, rfl⟩ := List.getElem?_eq_some_iff.mp at_
  have before (j : Nat) (hj : j < k) : same l[k] l[j] = false := first j hj _ (List.getElem?_eq_getElem _)
  have found : l.find? (same l[k]) = some l[k] :=
    List.find?_eq_some_iff_getElem.mpr ⟨self, k, inside, rfl, fun j hj => by rw [before j hj]; rfl⟩
  have index : l.findIdx (same l[k]) = k := (List.findIdx_eq inside).mpr ⟨self, before⟩
  simp only [takeMsg, at_, found, index, Option.map_some]

theorem ctime_updBlock (s : State) (c v : Nat) :
    ctime (s.updBlock (blockOfCell c) fun x => { x with ctimes := x.ctimes.setIfInBounds (c % 8) v }) c = v := by
  rw [ctime, State.block_updBlock_same]
  exact vget_setIfInBounds_same _ _ (Nat.mod_lt _ (by decide))

/-- CTIME moved on to CTCMP reaches it, or was beyond it (03 R66). -/
theorem exec_timerCompare {s : State} {c : CellId} (counts : (s.block (blockOfCell c)).st ≠ .dormant) :
    ∃ v, exec (.timerCompare c) s =
        .next (s.updBlock (blockOfCell c) fun x => { x with ctimes := x.ctimes.setIfInBounds (c.val % 8) v }) ∧
      (s.cell c.val).ctcmp.toNat ≤ v ∧ (ctime s c.val ≤ (s.cell c.val).ctcmp.toNat → v = (s.cell c.val).ctcmp.toNat) := by
  have range := (s.cell c.val).ctcmp.isLt
  refine ⟨_, congrArg next (if_neg counts), ?_⟩
  split <;> omega

theorem exec_hallmarkRefusalReturn {s : State} {k : Nat} {r : HmRefusal} {rest : List HmRefusal}
    (taken : takeMsg sameRefusal k s.hmrefs = some (r, rest)) : exec (.hallmarkRefusalReturn k) s =
      .next ({ s with hmrefs := rest }.updCell r.cell.val fun x => { x with hmRef := some (x.hmRef.getD (r.detail, r.addr)) }) := by
  show execHallmarkRefusalReturn k s = _
  rw [execHallmarkRefusalReturn, taken]
  rfl

/-- Settles O11: the interrupt is a trap entry of the cell that has abandoned what waited, and each source sets the event that its bit of
KIPEND shows. -/
theorem interruptsComplete : Obligations.InterruptsComplete := by
  intro s c
  refine ⟨fun i due held faulted run oos => ⟨fun w waits bar arr unsent => ?bar, fun free => ?taken⟩, fun counts => ?timer,
    fun n => ?doorbell, fun k r at_ first => ?refusal⟩
  case bar => exact ⟨_, exec_interruptTake_bar due held faulted run oos waits bar arr, sendWithdrawal_sends s c.val unsent⟩
  case taken =>
    obtain ⟨nest, ien, savien, savlev⟩ := kstateTrap_bits (s.cell c.val).kstate (s.cell c.val).sup
    refine ⟨_, (exec_interruptTake due held faulted run oos free).trans (congrArg _ (takeInterrupt_eq s c.val i)), ?_⟩
    rw [State.cell_updCell_same]
    exact ⟨(s.cell c.val).abandon_krpc _ _ _, Cell.interrupt_kcause _ (lt_of_due due) _ _, rfl, rfl, rfl, nest, ien,
      savien.trans (ien_of_due due), savlev, rfl⟩
  case timer =>
    obtain ⟨v, done, reached, exact_⟩ := exec_timerCompare counts
    refine ⟨_, done, ?_⟩
    rw [(kipend_bits _ c.val).1, ctime_updBlock]
    exact ⟨decide_eq_true reached, exact_, rfl⟩
  case doorbell =>
    refine ⟨_, rfl, ?_, rfl⟩
    rw [(kipend_bits _ c.val).2.2, State.cell_updCell_same]
    rfl
  case refusal =>
    have taken : takeMsg sameRefusal k s.hmrefs = some (r, s.hmrefs.eraseIdx k) :=
      takeMsg_first at_ (by simp [sameRefusal]) fun j hj q hq => by simp [sameRefusal, (first j hj q hq).symm]
    refine ⟨_, exec_hallmarkRefusalReturn taken, ?_, rfl⟩
    rw [(kipend_bits _ r.cell.val).2.1, State.cell_updCell_same]
    rfl

end Sys2Proof.Machine
end

section
/-! PROOFS. What moving lines through the caches keeps (03 R67, R74 to R79): a property of states that a few primitive changes keep is kept
by every movement of lines that is made of them. -/

namespace Sys2Proof.Machine

/-- A property that is kept where memory is powered, traffic is counted, lines are poisoned, and reports and deferred errors are raised. -/
structure NoteClosed (P : State → Prop) : Prop where
  count : ∀ {t} p k n, P t → P (countPart t p k n)
  wake : ∀ {t} a, P t → P (wakeGroup t a)
  note : ∀ {t : State} poison breps, P t → P { t with poison := poison, breps := breps }
  err : ∀ {t : State} c (e : Cell → Option (Byte × W64)), P t → P (t.updCell c fun k => { k with defErr := e k })

/-- One that is also kept where bytes of memory are written. -/
structure BytesClosed (P : State → Prop) : Prop extends NoteClosed P where
  bytes : ∀ {t : State} sram lpddr, P t → P { t with sram := sram, lpddr := lpddr }

/-- One that is also kept where the lines of a cache change and free values are drawn. -/
structure LineClosed (P : State → Prop) : Prop extends BytesClosed P where
  draws : ∀ {t : State} n, P t → P { t with draws := n }
  l1 : ∀ {t : State} c (f : Cache → Cache), P t → P (t.updCell c fun k => { k with l1d := f k.l1d })
  l2 : ∀ {t : State} b k, P t → P (t.setBlock b { t.block b with l2 := k })

section
variable {P : State → Prop} {t : State}

/-! ### Lines written back -/

theorem NoteClosed.noteBadLine (h : NoteClosed P) (b a : Nat) (p : P t) : P (noteBadLine t b a) := by
  have reported : P (reportBlock t b (originBlock t b) 0xA (ownerOfBlock t b) (detailWord 0 0 (a % 2 ^ 48))) := by
    unfold reportBlock reportBlockVia
    split
    · exact h.note t.poison _ p
    · exact p
  unfold Machine.noteBadLine deferError
  split
  · exact h.err _ (fun k => some (k.defErr.getD (0, BitVec.ofNat 64 (a / 128 * 128)))) reported
  · exact reported

theorem NoteClosed.badWriteBack (h : NoteClosed P) (b a : Nat) (p : P t) : P (badWriteBack t b a) :=
  h.noteBadLine b a (h.note _ t.breps p)

theorem NoteClosed.clearPoison (h : NoteClosed P) (a n : Nat) (p : P t) : P (clearPoison t a n) := h.note _ t.breps p

/-- A line that follows memory is written back without a byte of memory being written. -/
theorem NoteClosed.writeBackLine (h : NoteClosed P) (b l : Nat) {x : CLine} (follows : x.data = none) (p : P t) :
    P (writeBackLine t b l x) := by
  unfold Machine.writeBackLine
  split
  · exact p
  · have written := h.clearPoison (128 * l) 128 (h.count (ownerOfBlock t b) 10 128 (h.wake (128 * l) p))
    rw [follows]
    dsimp only
    split
    · exact h.badWriteBack b _ written
    · exact written

theorem BytesClosed.putMem (h : BytesClosed P) (a : Nat) (bs : List Byte) (p : P t) : P (putMem t a bs) := by
  induction bs generalizing t a with
  | nil => exact p
  | cons v vs ih =>
    refine ih (a + 1) ?_
    unfold setMemByte
    split
    · exact h.bytes _ t.lpddr p
    · exact h.bytes t.sram _ p
    · exact p

theorem BytesClosed.writeBackLine (h : BytesClosed P) (b l : Nat) (x : CLine) (p : P t) : P (writeBackLine t b l x) := by
  unfold Machine.writeBackLine
  split
  · exact p
  · have powered := h.count (ownerOfBlock t b) 10 128 (h.wake (128 * l) p)
    have written : P (match x.data with
        | some bs => memWrite (countBulk (wakeGroup t (128 * l)) (ownerOfBlock t b) 128) (128 * l) bs
        | none => Machine.clearPoison (countBulk (wakeGroup t (128 * l)) (ownerOfBlock t b) 128) (128 * l) 128) := by
      split
      · exact h.putMem _ _ (h.clearPoison _ _ powered)
      · exact h.clearPoison _ _ powered
    dsimp only
    split
    · exact h.badWriteBack b _ written
    · exact written

/-- A line found in a block's L2 put back: the property is kept where a condition on what is put holds. -/
def PutClosed (P : State → Prop) (fits : CLine → CLine → Prop) : Prop :=
  ∀ (t : State) (b l : Nat) (y y' : CLine), (t.block b).l2.find l = some y → fits y y' → P t →
    P (t.setBlock b { t.block b with l2 := (t.block b).l2.putLine l y' })

theorem NoteClosed.writeBackL1 (h : NoteClosed P) (put : PutClosed P fun y y' => y'.data = y.data) (b l : Nat) {x : CLine}
    (follows : x.data = none) (p : P t) : P (writeBackL1 t b l x) := by
  unfold Machine.writeBackL1
  dsimp only
  split
  · exact p
  · split
    · exact h.writeBackLine b l follows p
    · next y found =>
      have found : (t.block b).l2.find l = some y := by
        split at found
        · exact found
        · cases found
      rw [follows]
      have moved : P (t.setBlock b { t.block b with l2 := (t.block b).l2.putLine l { y with dirty := true, poison := x.poison } }) :=
        put t b l y _ found rfl p
      dsimp only
      split
      · exact h.noteBadLine b _ moved
      · exact moved

theorem BytesClosed.writeBackL1 (h : BytesClosed P) (put : PutClosed P fun _ _ => True) (b l : Nat) (x : CLine) (p : P t) :
    P (writeBackL1 t b l x) := by
  unfold Machine.writeBackL1
  dsimp only
  split
  · exact p
  · split
    · exact h.writeBackLine b l x p
    · next y found =>
      have found : (t.block b).l2.find l = some y := by
        split at found
        · exact found
        · cases found
      have moved {u : State} (same : u.block b = t.block b) (pu : P u) (y' : CLine) :
          P (if x.poison = true then
            Machine.noteBadLine (u.setBlock b { u.block b with l2 := (u.block b).l2.putLine l y' }) b (128 * l)
          else u.setBlock b { u.block b with l2 := (u.block b).l2.putLine l y' }) := by
        have placed := put u b l y y' (by rw [same]; exact found) trivial pu
        split
        · exact h.noteBadLine b _ placed
        · exact placed
      have same (bs : List Byte) : (Machine.putMem t (128 * l) bs).block b = t.block b :=
        putMem_keeps (fun s => s.block b) (fun _ _ => rfl) (fun _ _ => rfl) _ _ _
      split
      · exact moved rfl p _
      · exact moved rfl p _
      · exact moved (same _) (h.putMem _ _ p) _

theorem writeBackL1s_keeps (b : Nat) {es : List (Nat × CLine)} (step : ∀ e ∈ es, ∀ u, P u → P (writeBackL1 u b e.1 e.2)) (p : P t) :
    P (writeBackL1s t b es) := by
  induction es generalizing t with
  | nil => exact p
  | cons e es ih => exact ih (fun x hx => step x (List.mem_cons_of_mem _ hx)) (step e List.mem_cons_self _ p)

theorem writeBackAll_keeps (b : Nat) {es : List (Nat × CLine)} (step : ∀ e ∈ es, ∀ u, P u → P (writeBackLine u b e.1 e.2)) (p : P t) :
    P (writeBackAll t b es) := by
  induction es generalizing t with
  | nil => exact p
  | cons e es ih => exact ih (fun x hx => step x (List.mem_cons_of_mem _ hx)) (step e List.mem_cons_self _ p)

/-! ### Lines brought in -/

theorem LineClosed.put (h : LineClosed P) : PutClosed P fun _ _ => True := fun _ b _ _ _ _ _ p => h.l2 b _ p

theorem LineClosed.dropL1 (h : LineClosed P) (c l : Nat) (p : P t) : P (dropL1 t c l) := by
  unfold Machine.dropL1
  dsimp only
  split
  · exact p
  · split
    · exact p
    · exact h.l1 c (fun k => k.dropLine l) (h.writeBackL1 h.put _ l _ p)

theorem LineClosed.dropL1s (h : LineClosed P) (l c n : Nat) (p : P t) : P (dropL1s t l c n) := by
  induction n generalizing t c with
  | zero => exact p
  | succ n ih => exact ih (c + 1) (h.dropL1 c l p)

theorem LineClosed.dropL2 (h : LineClosed P) (b l : Nat) (p : P t) : P (dropL2 t b l) := by
  unfold Machine.dropL2
  dsimp only
  split
  · exact p
  · have inner := h.dropL1s l (8 * b) 8 p
    split
    · exact inner
    · exact h.l2 b _ (h.writeBackLine b l _ inner)

theorem LineClosed.dropL2s (h : LineClosed P) (l b n : Nat) (p : P t) : P (dropL2s t l b n) := by
  induction n generalizing t b with
  | zero => exact p
  | succ n ih => exact ih (b + 1) (h.dropL2 b l p)

theorem LineClosed.roomInFilter (h : LineClosed P) (b l : Nat) (p : P t) : P (roomInFilter t b l) := by
  unfold Machine.roomInFilter
  dsimp only
  split
  · exact h.dropL2s _ _ _ (h.draws _ p)
  · exact p

theorem LineClosed.roomInL2 (h : LineClosed P) (b l : Nat) (p : P t) : P (roomInL2 t b l) := by
  unfold Machine.roomInL2
  split
  · exact h.dropL2 b _ (h.draws _ p)
  · exact p

theorem LineClosed.roomInL1 (h : LineClosed P) (c l : Nat) (p : P t) : P (roomInL1 t c l) := by
  unfold Machine.roomInL1
  split
  · exact h.dropL1 c _ (h.draws _ p)
  · exact p

theorem LineClosed.fillL2 (h : LineClosed P) (b l : Nat) (wr bad : Bool) (p : P t) : P (fillL2 t b l wr bad) := by
  cases en : (t.block b).l2.en with
  | false =>
    simp only [Machine.fillL2, en, Bool.not_false, if_true]
    exact h.count _ _ _ p
  | true =>
    cases found : (t.block b).l2.find l with
    | none =>
      rw [fillL2_absent b l wr bad en found]
      exact h.l2 b _ (h.count _ _ _ (h.roomInL2 b l (h.roomInFilter b l p)))
    | some x =>
      simp only [Machine.fillL2, en, found, Bool.not_true, Bool.false_eq_true, if_false]
      split
      · exact h.l2 b _ p
      · exact p

theorem LineClosed.touchLine (h : LineClosed P) (c l : Nat) (wr : Bool) (p : P t) : P (touchLine t c l wr) := by
  cases en : (t.cell c).l1d.en with
  | false =>
    simp only [Machine.touchLine, en, Bool.not_false, if_true]
    exact h.fillL2 _ l wr _ p
  | true =>
    cases found : (t.cell c).l1d.find l with
    | none =>
      rw [touchLine_absent c l wr en found]
      exact h.l1 c (fun k => k.putLine l _) (h.roomInL1 c l (h.fillL2 _ l false _ p))
    | some x =>
      simp only [Machine.touchLine, en, found, Bool.not_true, Bool.false_eq_true, if_false]
      split
      · exact h.l1 c (fun k => k.putLine l _) p
      · exact p

theorem LineClosed.touchLines (h : LineClosed P) (c l : Nat) (wr : Bool) (n : Nat) (p : P t) : P (touchLines t c l wr n) := by
  induction n generalizing t l with
  | zero => exact p
  | succ n ih => exact ih (l + 1) (h.touchLine c l wr p)

theorem LineClosed.touchRuns (h : LineClosed P) (c : Nat) (wr : Bool) (rs : List (Nat × Nat)) (p : P t) : P (touchRuns t c wr rs) := by
  induction rs generalizing t with
  | nil => exact p
  | cons r rs ih => exact ih (h.touchLines c _ wr _ p)

theorem LineClosed.wakeAll (h : LineClosed P) (rs : List (Nat × Nat)) (p : P t) : P (wakeAll t rs) := by
  induction rs generalizing t with
  | nil => exact p
  | cons r rs ih => exact ih (h.wake _ (h.wake _ p))

end

end Sys2Proof.Machine
end

section
/-! PROOFS. Caches disabled and enabled again (03 R77 to R79): what writing back their lines leaves alone, and O14. -/

namespace Sys2Proof.Machine

variable {s t u : State}

/-! ### Lines written back -/

/-- Whether a cache holds a line. -/
theorem Cache.find_isSome (k : Cache) (l : Nat) : (k.find l).isSome = Tab.has k.lines l := by
  have lines (es : List (Nat × CLine)) : (es.find? fun e => e.1 == l).isSome = Tab.has es l := by
    induction es with
    | nil => rfl
    | cons e es ih =>
      obtain ⟨i, x⟩ := e
      rw [List.find?_cons, Tab.has]
      cases i == l
      · exact ih
      · rfl
  rw [← lines, Cache.find]
  cases k.lines.find? fun e => e.1 == l <;> rfl

/-- From `s` to `u` lines were written back: every cell is as it was up to its deferred error, and every L2 holds the lines it held. -/
structure WrittenBack (s u : State) : Prop where
  cell : ∀ c, u.cell c = { s.cell c with defErr := (u.cell c).defErr }
  en : ∀ b, (u.block b).l2.en = (s.block b).l2.en
  has : ∀ b l, Tab.has (u.block b).l2.lines l = Tab.has (s.block b).l2.lines l

theorem WrittenBack.refl (s : State) : WrittenBack s s := ⟨fun _ => rfl, fun _ => rfl, fun _ _ => rfl⟩

theorem WrittenBack.congr (w : WrittenBack s t) (cells : u.cells = t.cells) (l2 : ∀ b, (u.block b).l2 = (t.block b).l2) :
    WrittenBack s u := by
  have cell (c : Nat) : u.cell c = t.cell c := by rw [State.cell, State.cell, cells]
  exact ⟨fun c => by rw [cell]; exact w.cell c, fun b => by rw [l2]; exact w.en b, fun b l => by rw [l2]; exact w.has b l⟩

theorem l2_wakeGroup (t : State) (a b : Nat) : ((wakeGroup t a).block b).l2 = (t.block b).l2 :=
  wakeGroup_keeps (fun s => (s.block b).l2) (fun s _ _ l2 => setBlock_l2 s l2 b) (fun _ _ _ => rfl) t a

theorem cells_wakeGroup (t : State) (a : Nat) : (wakeGroup t a).cells = t.cells :=
  wakeGroup_keeps State.cells (fun _ _ _ _ => rfl) (fun _ _ _ => rfl) t a

theorem writtenBack_closed (s : State) : BytesClosed (WrittenBack s) where
  count p k n w := w.congr (countPart_cells _ p k n) fun b => by rw [countPart_block]
  wake a w := w.congr (cells_wakeGroup _ a) (l2_wakeGroup _ a)
  note _ _ w := w.congr rfl fun _ => rfl
  err {t} c e w := by
    refine ⟨fun j => ?_, w.en, w.has⟩
    rw [State.cell_updCell]
    split
    · next h => subst h; exact congrArg (fun k : Cell => { k with defErr := e (t.cell c) }) (w.cell c)
    · exact w.cell j
  bytes _ _ w := w.congr rfl fun _ => rfl

theorem writtenBack_put (s : State) : PutClosed (WrittenBack s) fun _ _ => True := by
  intro t b l y y' found _ w
  have held : Tab.has (t.block b).l2.lines l = true := by rw [← Cache.find_isSome, found]; rfl
  refine ⟨w.cell, fun g => ?_, fun g j => ?_⟩
  · rw [State.block_setBlock, ← w.en g]
    split
    · next h => subst h; rfl
    · rfl
  · rw [State.block_setBlock, ← w.has g j]
    split
    · next h =>
      subst h
      rw [Cache.putLine, Tab.has_put]
      by_cases same : l = j
      · subst same; rw [held]; simp
      · simp [same]
    · rfl

theorem writtenBack_writeBackL1s (s : State) (b : Nat) (es : List (Nat × CLine)) : WrittenBack s (writeBackL1s s b es) :=
  writeBackL1s_keeps b (fun e _ _ => (writtenBack_closed s).writeBackL1 (writtenBack_put s) b e.1 e.2) (.refl s)

theorem writtenBack_writeBackAll (s : State) (b : Nat) (es : List (Nat × CLine)) : WrittenBack s (writeBackAll s b es) :=
  writeBackAll_keeps b (fun e _ _ => (writtenBack_closed s).writeBackLine b e.1 e.2) (.refl s)

/-- No line of a cache has bytes of its own (03 R79). -/
def Cache.Follows (k : Cache) : Prop := ∀ e ∈ k.lines, e.2.data = none

/-- In `u` memory is as in `s`, and the lines of the L2s follow it. -/
structure FollowsMemory (s u : State) : Prop where
  byte : ∀ a, memByte u a = memByte s a
  l2 : ∀ b, (u.block b).l2.Follows

theorem FollowsMemory.of_coherent (h : Coherent s) : FollowsMemory s s := ⟨fun _ => rfl, h.2⟩

theorem FollowsMemory.congr (f : FollowsMemory s t) (byte : ∀ a, memByte u a = memByte t a)
    (l2 : ∀ b, (u.block b).l2 = (t.block b).l2) : FollowsMemory s u :=
  ⟨fun a => (byte a).trans (f.byte a), fun b => by rw [l2]; exact f.l2 b⟩

theorem followsMemory_closed (s : State) : NoteClosed (FollowsMemory s) where
  count p k n f := f.congr (memByte_countPart _ p k n) fun b => by rw [countPart_block]
  wake {t} a f := f.congr (fun d => wakeGroup_keeps (memByte · d) (fun _ _ _ _ => rfl) (fun _ _ _ => rfl) t a) (l2_wakeGroup _ a)
  note _ _ f := f.congr (fun _ => rfl) fun _ => rfl
  err _ _ f := f.congr (fun _ => rfl) fun _ => rfl

theorem followsMemory_put (s : State) : PutClosed (FollowsMemory s) fun y y' => y'.data = y.data := by
  intro t b l y y' found same f
  have ⟨i, mem⟩ := Cache.mem_of_find found
  refine ⟨f.byte, fun g => ?_⟩
  rw [State.block_setBlock]
  split
  · intro e he
    rcases Tab.mem_put _ _ _ _ he with rfl | he
    · exact same.trans (f.l2 b _ mem)
    · exact f.l2 b e he
  · exact f.l2 g

theorem followsMemory_writeBackL1s (f : FollowsMemory s t) (b : Nat) {es : List (Nat × CLine)} (follow : ∀ e ∈ es, e.2.data = none) :
    FollowsMemory s (writeBackL1s t b es) :=
  writeBackL1s_keeps b (fun e he _ => (followsMemory_closed s).writeBackL1 (followsMemory_put s) b e.1 (follow e he)) f

theorem followsMemory_writeBackAll (f : FollowsMemory s t) (b : Nat) {es : List (Nat × CLine)} (follow : ∀ e ∈ es, e.2.data = none) :
    FollowsMemory s (writeBackAll t b es) :=
  writeBackAll_keeps b (fun e he _ => (followsMemory_closed s).writeBackLine b e.1 (follow e he)) f

/-! ### Caches frozen -/

theorem freeze_lines (k : Cache) (byte : Nat → Byte) : ∀ e ∈ (freeze k byte).lines, e.2.dirty = false ∧ e.2.data.isSome = true := by
  intro e he
  obtain ⟨x, -, rfl⟩ := List.mem_map.mp he
  exact ⟨rfl, rfl⟩

theorem freeze_keys (k : Cache) (byte : Nat → Byte) : (freeze k byte).lines.map (·.1) = k.lines.map (·.1) := by
  simp [freeze, Function.comp_def]

theorem Tab.has_map {α β : Type} (f : Nat × α → β) (m : Tab α) (l : Nat) : Tab.has (m.map fun e => (e.1, f e)) l = Tab.has m l := by
  induction m with
  | nil => rfl
  | cons e m ih => rw [List.map_cons, Tab.has, Tab.has, ih]

/-- A line that followed memory is kept with the bytes of memory. -/
theorem freeze_follows {k : Cache} (follows : k.Follows) (byte : Nat → Byte) :
    ∀ e ∈ (freeze k byte).lines, e.2.data = some ((List.range 128).map fun i => byte (128 * e.1 + i)) := by
  intro e he
  obtain ⟨x, mem, rfl⟩ := List.mem_map.mp he
  dsimp only
  rw [follows x mem]

theorem spoilDirty_keys (k : Cache) (bad : List Nat) : (k.spoilDirty bad).lines.map (·.1) = k.lines.map (·.1) := by
  simp [Cache.spoilDirty, Function.comp_def]

theorem Cache.Follows.spoilDirty {k : Cache} (follows : k.Follows) (bad : List Nat) : (k.spoilDirty bad).Follows := by
  intro e he
  obtain ⟨x, mem, rfl⟩ := List.mem_map.mp he
  exact follows x mem

/-! ### L1 caches disabled -/

theorem disableL1d_off {c : Nat} (off : (s.cell c).l1d.en = false) : disableL1d s c = s := by
  simp [disableL1d, off]

theorem disableL1d_on {c : Nat} (on : (s.cell c).l1d.en = true) : disableL1d s c =
    (writeBackL1s s (blockOfCell c) (s.cell c).l1d.lines).updCell c fun k =>
      { k with l1d := freeze (s.cell c).l1d (viaByte (writeBackL1s s (blockOfCell c) (s.cell c).l1d.lines) c) } := by
  simp [disableL1d, on]

/-- The cell itself keeps its lines frozen. -/
theorem disableL1d_cell_same {c : Nat} (on : (s.cell c).l1d.en = true) : (disableL1d s c).cell c = { s.cell c with
    defErr := ((disableL1d s c).cell c).defErr
    l1d := freeze (s.cell c).l1d (viaByte (writeBackL1s s (blockOfCell c) (s.cell c).l1d.lines) c) } := by
  rw [disableL1d_on on, State.cell_updCell_same]
  exact congrArg (fun k : Cell => { k with
    l1d := freeze (s.cell c).l1d (viaByte (writeBackL1s s (blockOfCell c) (s.cell c).l1d.lines) c) })
    ((writtenBack_writeBackL1s s (blockOfCell c) (s.cell c).l1d.lines).cell c)

theorem disableL1d_cell_ne {c j : Nat} (ne : c ≠ j) :
    (disableL1d s c).cell j = { s.cell j with defErr := ((disableL1d s c).cell j).defErr } := by
  cases on : (s.cell c).l1d.en with
  | false => rw [disableL1d_off on]
  | true =>
    rw [disableL1d_on on, State.cell_updCell_ne _ _ ne]
    exact (writtenBack_writeBackL1s s _ _).cell j

theorem disableL1d_l2 (s : State) (c b : Nat) : ((disableL1d s c).block b).l2.en = (s.block b).l2.en ∧
    ∀ l, Tab.has ((disableL1d s c).block b).l2.lines l = Tab.has (s.block b).l2.lines l := by
  cases on : (s.cell c).l1d.en with
  | false => rw [disableL1d_off on]; exact ⟨rfl, fun _ => rfl⟩
  | true =>
    rw [disableL1d_on on]
    exact ⟨(writtenBack_writeBackL1s s _ _).en b, (writtenBack_writeBackL1s s _ _).has b⟩

theorem disableL1d_follows {c : Nat} (f : FollowsMemory s t) (follows : (t.cell c).l1d.Follows) : FollowsMemory s (disableL1d t c) := by
  cases on : (t.cell c).l1d.en with
  | false => rw [disableL1d_off on]; exact f
  | true =>
    rw [disableL1d_on on]
    exact (followsMemory_writeBackL1s f _ follows).congr (fun _ => rfl) fun _ => rfl

/-- While no cache holds bytes of its own, the lines are kept with the bytes of memory. -/
theorem disableL1d_lines {c : Nat} (h : Coherent s) (on : (s.cell c).l1d.en = true) :
    ∀ e ∈ ((disableL1d s c).cell c).l1d.lines, e.2.data = some ((List.range 128).map fun i => memByte s (128 * e.1 + i)) := by
  have back := writtenBack_writeBackL1s s (blockOfCell c) (s.cell c).l1d.lines
  have follows := followsMemory_writeBackL1s (.of_coherent h) (blockOfCell c) (h.1 c)
  have coherent : Coherent (writeBackL1s s (blockOfCell c) (s.cell c).l1d.lines) :=
    ⟨fun j => by rw [back.cell]; exact h.1 j, follows.l2⟩
  have sees (a : Nat) : viaByte (writeBackL1s s (blockOfCell c) (s.cell c).l1d.lines) c a = memByte s a :=
    (viaByte_of_coherent coherent c a).trans (follows.byte a)
  rw [disableL1d_cell_same on]
  intro e he
  rw [freeze_follows (h.1 c) _ e he]
  simp only [sees]

/-! ### CACHE_DISABLE -/

/-- A write of CCTL names the two L1 caches in its two low bits (03 R77). -/
theorem cctl_bits (i d : Bool) :
    (BitVec.ofNat 64 (b2n i + 2 * b2n d)).getLsbD 0 = i ∧ (BitVec.ofNat 64 (b2n i + 2 * b2n d)).getLsbD 1 = d := by
  revert i d
  decide

/-- The L1 cache that a bit of CCTL names. -/
def Cell.l1 (k : Cell) (data : Bool) : Cache := if data then k.l1d else k.l1i

theorem l1Write_same {c : Nat} {data on : Bool} (same : ((s.cell c).l1 data).en = on) : l1Write s c data on = s := by
  have same : ((if data then (s.cell c).l1d else (s.cell c).l1i).en == on) = true := by simpa [Cell.l1] using same
  exact if_pos same

theorem l1Write_i {c : Nat} {x : Bool} (on : x = true → (s.cell c).l1i.en = true) :
    l1Write s c false ((s.cell c).l1i.en && !x) = if x then disableL1i s c else s := by
  cases x with
  | false => exact l1Write_same (by simp [Cell.l1])
  | true => simp [l1Write, on rfl]

theorem l1Write_d {c : Nat} {y : Bool} (on : y = true → (s.cell c).l1d.en = true) :
    l1Write s c true ((s.cell c).l1d.en && !y) = if y then disableL1d s c else s := by
  cases y with
  | false => exact l1Write_same (by simp [Cell.l1])
  | true => simp [l1Write, on rfl]

/-- The state of a CACHE_DISABLE once the dirty lines whose check bits fail have been read (03 R67). -/
def spoiledL1 (s : State) (c : Nat) (y : Bool) (bad : List Nat) : State := if y then spoilL1 s bad c else s

theorem spoiledL1_cell (s : State) (c : Nat) (y : Bool) (bad : List Nat) : (spoiledL1 s c y bad).cell c =
    { s.cell c with l1d := if y then (s.cell c).l1d.spoilDirty bad else (s.cell c).l1d } := by
  cases y with
  | false => rfl
  | true => exact State.cell_updCell_same s c fun k => { k with l1d := k.l1d.spoilDirty bad }

/-- The state once the L1 instruction cache is disabled where it is named. -/
def disablingL1s (s : State) (c : Nat) (x y : Bool) (bad : List Nat) : State :=
  if x then disableL1i (spoiledL1 s c y bad) c else spoiledL1 s c y bad

theorem disablingL1s_cell {c : Nat} {x : Bool} (onI : x = true → (s.cell c).l1i.en = true) (y : Bool) (bad : List Nat) :
    (disablingL1s s c x y bad).cell c = { s.cell c with
      l1i := { (s.cell c).l1i with en := (s.cell c).l1i.en && !x, stale := (s.cell c).l1i.stale || x }
      l1d := if y then (s.cell c).l1d.spoilDirty bad else (s.cell c).l1d } := by
  cases x with
  | false => simp [disablingL1s, spoiledL1_cell]
  | true => simp [disablingL1s, spoiledL1_cell, disableL1i, onI rfl]

/-- Nothing is stored, and no line comes by bytes of its own. -/
theorem disablingL1s_coherent (c : Nat) (x y : Bool) (bad : List Nat) (h : Coherent s) : Coherent (disablingL1s s c x y bad) ∧
    ∀ a, memByte (disablingL1s s c x y bad) a = memByte s a := by
  have upd {v : State} {f : Cell → Cell} (hv : Coherent v) (keep : ∀ k : Cell, k.l1d.Follows → (f k).l1d.Follows) :
      Coherent (v.updCell c f) := by
    refine ⟨fun j => ?_, hv.2⟩
    rw [State.cell_updCell]
    split
    · exact keep _ (hv.1 c)
    · exact hv.1 j
  have spoil {v : State} (hv : Coherent v) : Coherent (spoilL1 v bad c) := upd hv fun k hk => hk.spoilDirty bad
  have off {v : State} (hv : Coherent v) : Coherent (disableL1i v c) := upd hv fun k hk => by split <;> exact hk
  unfold disablingL1s spoiledL1
  cases x <;> cases y
  · exact ⟨h, fun _ => rfl⟩
  · exact ⟨spoil h, fun _ => rfl⟩
  · exact ⟨off h, fun _ => rfl⟩
  · exact ⟨off (spoil h), fun _ => rfl⟩

theorem exec_cacheDisable {c : CellId} {x y : Bool} (ready : Ready s c) (sup : (s.cell c.val).sup = true)
    (onI : x = true → (s.cell c.val).l1i.en = true) (onD : y = true → (s.cell c.val).l1d.en = true) (bad : List Nat) :
    exec (.cacheDisable c x y bad) s =
      .next ((if y then disableL1d (disablingL1s s c.val x y bad) c.val else disablingL1s s c.val x y bad).updCell c.val Cell.nextPc) := by
  have spoils : ((s.cell c.val).sup && y && (s.cell c.val).l1d.en) = y := by
    rw [sup, Bool.true_and]
    cases y
    · rfl
    · exact onD rfl
  have spoiled := spoiledL1_cell s c.val y bad
  have enI : ((spoiledL1 s c.val y bad).cell c.val).l1i.en = (s.cell c.val).l1i.en := by rw [spoiled]
  have enD : ((disablingL1s s c.val x y bad).cell c.val).l1d.en = (s.cell c.val).l1d.en := by
    rw [disablingL1s_cell onI]
    cases y <;> rfl
  have sup' : ((spoiledL1 s c.val y bad).cell c.val).sup = true := by rw [spoiled]; exact sup
  have write : exec (.cacheDisable c x y bad) s = next (finish c.val (swrRes (spoiledL1 s c.val y bad) c 0x020
      (BitVec.ofNat 64 (b2n ((s.cell c.val).l1i.en && !x) + 2 * b2n ((s.cell c.val).l1d.en && !y))))) := by
    refine congrArg next ((issue_ready ready _).trans ?_)
    dsimp only
    rw [spoils]
    rfl
  rw [write, swrRes_cctl _ sup', cctlWrite, (cctl_bits _ _).1, (cctl_bits _ _).2, ← enI, l1Write_i (by rw [enI]; exact onI),
    ← disablingL1s, ← enD, l1Write_d (by rw [enD]; exact onD)]
  rfl

/-- What CACHE_DISABLE makes of a cell. -/
theorem cacheDisabled_cell {c : Nat} {x y : Bool} (onI : x = true → (s.cell c).l1i.en = true) (onD : y = true → (s.cell c).l1d.en = true)
    (bad : List Nat) : ∃ e byte,
    (if y then disableL1d (disablingL1s s c x y bad) c else disablingL1s s c x y bad).cell c = { s.cell c with
      defErr := e
      l1i := { (s.cell c).l1i with en := (s.cell c).l1i.en && !x, stale := (s.cell c).l1i.stale || x }
      l1d := if y then freeze ((s.cell c).l1d.spoilDirty bad) byte else (s.cell c).l1d } := by
  have disabling := disablingL1s_cell onI y bad
  cases y with
  | false => exact ⟨_, fun _ => 0, disabling⟩
  | true =>
    have on : ((disablingL1s s c x true bad).cell c).l1d.en = true := by rw [disabling]; exact onD rfl
    have cell := disableL1d_cell_same on
    rw [disabling] at cell
    exact ⟨_, _, cell⟩

/-- While no cache holds bytes of its own, memory stays as it is, and the L1 data cache keeps the bytes of memory. -/
theorem cacheDisabled_coherent {c : Nat} {x y : Bool} (h : Coherent s) (onI : x = true → (s.cell c).l1i.en = true)
    (onD : y = true → (s.cell c).l1d.en = true) (bad : List Nat) :
    (∀ a, memByte (if y then disableL1d (disablingL1s s c x y bad) c else disablingL1s s c x y bad) a = memByte s a) ∧
      (y = true → ∀ e ∈ ((if y then disableL1d (disablingL1s s c x y bad) c else disablingL1s s c x y bad).cell c).l1d.lines,
        e.2.data = some ((List.range 128).map fun i => memByte s (128 * e.1 + i))) := by
  obtain ⟨coherent, same⟩ := disablingL1s_coherent c x y bad h
  cases y with
  | false => exact ⟨same, fun h => Bool.noConfusion h⟩
  | true =>
    have on : ((disablingL1s s c x true bad).cell c).l1d.en = true := by rw [disablingL1s_cell onI]; exact onD rfl
    have follows := disableL1d_follows (.of_coherent coherent) (coherent.1 c)
    refine ⟨fun a => (follows.byte a).trans (same a), fun _ e he => ?_⟩
    rw [disableL1d_lines coherent on e he]
    simp only [same]

/-! ### L2_DISABLE -/

/-- Two cells hold the same L1 caches. -/
def SameL1s (k k' : Cell) : Prop := k'.l1i = k.l1i ∧ k'.l1d = k.l1d

/-- The L1 caches of a cell have been disabled (03 R77). -/
structure L1sOff (k k' : Cell) : Prop where
  enI : k'.l1i.en = false
  enD : k'.l1d.en = false
  staleI : k.l1i.en = true → k'.l1i.stale = true
  staleD : k.l1d.en = true → k'.l1d.stale = true

theorem SameL1s.off {k j k' : Cell} (same : SameL1s k j) (off : L1sOff j k') : L1sOff k k' :=
  ⟨off.enI, off.enD, fun on => off.staleI (by rw [same.1]; exact on), fun on => off.staleD (by rw [same.2]; exact on)⟩

theorem L1sOff.same {k j k' : Cell} (off : L1sOff k j) (same : SameL1s j k') : L1sOff k k' :=
  ⟨by rw [same.1]; exact off.enI, by rw [same.2]; exact off.enD, fun on => by rw [same.1]; exact off.staleI on,
    fun on => by rw [same.2]; exact off.staleD on⟩

theorem disableL1i_cell_ne {c j : Nat} (ne : c ≠ j) : (disableL1i s c).cell j = s.cell j := State.cell_updCell_ne _ _ ne

theorem disableL1i_cell_same (s : State) (c : Nat) : (disableL1i s c).cell c = { s.cell c with
    l1i := { (s.cell c).l1i with en := false, stale := (s.cell c).l1i.stale || (s.cell c).l1i.en } } := by
  rw [disableL1i, State.cell_updCell_same]
  split
  · next on => rw [on, Bool.or_true]
  · next off => rw [Bool.eq_false_iff.mpr off, Bool.or_false, ← Bool.eq_false_iff.mpr off]

/-- What disabling the two L1 caches of a cell does to that cell. -/
theorem disableL1_off (s : State) (c : Nat) : L1sOff (s.cell c) ((disableL1i (disableL1d s c) c).cell c) := by
  rw [disableL1i_cell_same]
  cases on : (s.cell c).l1d.en with
  | false =>
    rw [disableL1d_off on]
    exact ⟨rfl, on, fun h => by simp [h], fun h => absurd h (by simp [on])⟩
  | true =>
    rw [disableL1d_cell_same on]
    exact ⟨rfl, rfl, fun h => by simp [h], fun _ => rfl⟩

theorem disableL1_other (s : State) {c j : Nat} (ne : c ≠ j) : SameL1s (s.cell j) ((disableL1i (disableL1d s c) c).cell j) := by
  rw [disableL1i_cell_ne ne, disableL1d_cell_ne ne]
  exact ⟨rfl, rfl⟩

theorem disableL1s_outside (n : Nat) {j : Nat} : ∀ (s : State) (c : Nat), j < c ∨ c + n ≤ j → SameL1s (s.cell j) ((disableL1s s c n).cell j) := by
  induction n with
  | zero => exact fun _ _ _ => ⟨rfl, rfl⟩
  | succ n ih =>
    intro s c out
    have rest := ih (disableL1i (disableL1d s c) c) (c + 1) (by omega)
    have first := disableL1_other s (show c ≠ j by omega)
    exact ⟨rest.1.trans first.1, rest.2.trans first.2⟩

theorem disableL1s_inside (n : Nat) {j : Nat} : ∀ (s : State) (c : Nat), c ≤ j → j < c + n → L1sOff (s.cell j) ((disableL1s s c n).cell j) := by
  induction n with
  | zero => intro s c _ _; omega
  | succ n ih =>
    intro s c low high
    by_cases here : c = j
    · subst here
      exact (disableL1_off s c).same (disableL1s_outside n _ (c + 1) (by omega))
    · exact (disableL1_other s here).off (ih _ (c + 1) (by omega) (by omega))

theorem disableL1s_l2 (n b : Nat) : ∀ (s : State) (c : Nat), ((disableL1s s c n).block b).l2.en = (s.block b).l2.en ∧
    ∀ l, Tab.has ((disableL1s s c n).block b).l2.lines l = Tab.has (s.block b).l2.lines l := by
  induction n with
  | zero => exact fun _ _ => ⟨rfl, fun _ => rfl⟩
  | succ n ih =>
    intro s c
    obtain ⟨en, has⟩ := ih (disableL1i (disableL1d s c) c) (c + 1)
    obtain ⟨en', has'⟩ := disableL1d_l2 s c b
    exact ⟨en.trans en', fun l => (has l).trans (has' l)⟩

theorem disableL1s_follows (n : Nat) : ∀ (t : State) (c : Nat), FollowsMemory s t →
    (∀ j, c ≤ j → j < c + n → (t.cell j).l1d.Follows) → FollowsMemory s (disableL1s t c n) := by
  induction n with
  | zero => exact fun _ _ f _ => f
  | succ n ih =>
    intro t c f follows
    refine ih _ _ ((disableL1d_follows f (follows c (by omega) (by omega))).congr (fun _ => rfl) fun _ => rfl) fun j low high => ?_
    rw [(disableL1_other t (show c ≠ j by omega)).2]
    exact follows j (by omega) (by omega)

/-- From `s` to `u` the check bits of some lines failed (03 R67). -/
structure Spoiled (s u : State) : Prop where
  l1i : ∀ c, (u.cell c).l1i = (s.cell c).l1i
  en : ∀ c, (u.cell c).l1d.en = (s.cell c).l1d.en
  follows : ∀ c, (s.cell c).l1d.Follows → (u.cell c).l1d.Follows
  blocks : u.blocks = s.blocks
  byte : ∀ a, memByte u a = memByte s a

theorem Spoiled.spoilL1 (p : Spoiled s t) (bad : List Nat) (c : Nat) : Spoiled s (spoilL1 t bad c) where
  l1i j := by
    rw [← p.l1i, Machine.spoilL1, State.cell_updCell]
    split
    · next h => subst h; rfl
    · rfl
  en j := by
    rw [← p.en, Machine.spoilL1, State.cell_updCell]
    split
    · next h => subst h; rfl
    · rfl
  follows j hj := by
    rw [Machine.spoilL1, State.cell_updCell]
    split
    · next h => subst h; exact (p.follows c hj).spoilDirty bad
    · exact p.follows j hj
  blocks := p.blocks
  byte := p.byte

theorem spoilBlock_spoiled (s : State) (bad : List Nat) (b : Nat) :
    Spoiled (s.updBlock b fun x => { x with l2 := x.l2.spoilDirty bad }) (spoilBlock s bad b) :=
  List.foldlRecOn _ _ ⟨fun _ => rfl, fun _ => rfl, fun _ h => h, rfl, fun _ => rfl⟩ fun _ p c _ => p.spoilL1 bad c

theorem spoilBlock_l2 (s : State) (bad : List Nat) (b : Nat) : ((spoilBlock s bad b).block b).l2 = (s.block b).l2.spoilDirty bad := by
  have same : (spoilBlock s bad b).block b = (s.updBlock b fun x => { x with l2 := x.l2.spoilDirty bad }).block b := by
    rw [State.block, State.block, (spoilBlock_spoiled s bad b).blocks]
  rw [same, State.block_updBlock_same]

theorem has_freeze (k : Cache) (byte : Nat → Byte) (l : Nat) : Tab.has (freeze k byte).lines l = Tab.has k.lines l :=
  Tab.has_map _ k.lines l

theorem has_spoilDirty (k : Cache) (bad : List Nat) (l : Nat) : Tab.has (k.spoilDirty bad).lines l = Tab.has k.lines l :=
  Tab.has_map _ k.lines l

/-- A coherent state whose lines' check bits fail follows memory, the L1 data caches as well as the L2s. -/
theorem spoilBlock_follows (h : Coherent s) (bad : List Nat) (b : Nat) :
    FollowsMemory s (spoilBlock s bad b) ∧ ∀ c, ((spoilBlock s bad b).cell c).l1d.Follows := by
  have p := spoilBlock_spoiled s bad b
  refine ⟨⟨p.byte, fun g => ?_⟩, fun c => p.follows c (h.1 c)⟩
  rw [State.block, p.blocks]
  change ((s.updBlock b fun x => { x with l2 := x.l2.spoilDirty bad }).block g).l2.Follows
  rw [State.updBlock, State.block_setBlock]
  split
  · exact Cache.Follows.spoilDirty (h.2 b) bad
  · exact h.2 g

/-- The state in which the L2 of a block keeps its lines: the L1 caches are disabled and every dirty line is written back. -/
def l2WrittenBack (s : State) (b : Nat) : State :=
  writeBackAll (disableL1s s (8 * b) 8) b ((disableL1s s (8 * b) 8).block b).l2.lines

theorem disableL2_on {b : Nat} (on : (s.block b).l2.en = true) : disableL2 s b = (l2WrittenBack s b).setBlock b
    { (l2WrittenBack s b).block b with l2 := freeze ((l2WrittenBack s b).block b).l2 (memByte (l2WrittenBack s b)) } := by
  rw [disableL2, on]
  rfl

theorem l2_disableL2 {b : Nat} (on : (s.block b).l2.en = true) :
    ((disableL2 s b).block b).l2 = freeze ((l2WrittenBack s b).block b).l2 (memByte (l2WrittenBack s b)) := by
  rw [disableL2_on on, State.block_setBlock_same]

theorem l2WrittenBack_has (s : State) (b l : Nat) : Tab.has ((l2WrittenBack s b).block b).l2.lines l = Tab.has (s.block b).l2.lines l := by
  rw [l2WrittenBack, (writtenBack_writeBackAll _ b _).has, (disableL1s_l2 8 b s _).2]

theorem l2WrittenBack_follows {b : Nat} (f : FollowsMemory s t) (follows : ∀ c, (t.cell c).l1d.Follows) :
    FollowsMemory s (l2WrittenBack t b) := by
  have off := disableL1s_follows 8 t (8 * b) f fun j _ _ => follows j
  unfold l2WrittenBack
  generalize disableL1s t (8 * b) 8 = u at off ⊢
  exact followsMemory_writeBackAll off b (off.l2 b)

/-- An L2 that followed memory is kept with the bytes of memory. -/
theorem disableL2_follows {b : Nat} (on : (t.block b).l2.en = true) (f : FollowsMemory s t) (follows : ∀ c, (t.cell c).l1d.Follows) :
    (∀ a, memByte (disableL2 t b) a = memByte s a) ∧ ∀ e ∈ ((disableL2 t b).block b).l2.lines,
      e.2.data = some ((List.range 128).map fun i => memByte s (128 * e.1 + i)) := by
  have back := l2WrittenBack_follows (b := b) f follows
  rw [l2_disableL2 on, disableL2_on on]
  generalize l2WrittenBack t b = u at back ⊢
  refine ⟨back.byte, fun e he => ?_⟩
  rw [freeze_follows (back.l2 b) _ e he]
  simp only [back.byte]

theorem disableL2_cell {b i : Nat} (on : (s.block b).l2.en = true) (hi : i < 8) :
    L1sOff (s.cell (8 * b + i)) ((disableL2 s b).cell (8 * b + i)) := by
  have off := disableL1s_inside 8 s (8 * b) (j := 8 * b + i) (by omega) (by omega)
  rw [disableL2_on on]
  unfold l2WrittenBack
  generalize disableL1s s (8 * b) 8 = u at off ⊢
  have back : SameL1s (u.cell (8 * b + i)) ((writeBackAll u b (u.block b).l2.lines).cell (8 * b + i)) := by
    rw [(writtenBack_writeBackAll u b _).cell]
    exact ⟨rfl, rfl⟩
  exact off.same back

theorem l2enWrite_off {b : Nat} (on : (s.block b).l2.en = true) : l2enWrite s b false = disableL2 s b := by
  rw [l2enWrite, on]
  rfl

theorem exec_l2Disable {b : BlockId} {h : Byte} (accepted : hallOk (hallOfBlock s b.val) h = true) (on : (s.block b.val).l2.en = true)
    (bad : List Nat) : exec (.l2Disable h b bad) s = .next (disableL2 (spoilBlock s bad b.val) b.val) := by
  have start : placeOf (0x30010000000 + 0x100000 * b.val) = .blockCtl b.val 0 := by
    rw [← Nat.add_zero (0x30010000000 + 0x100000 * b.val)]
    exact placeOf_block b.isLt (by decide)
  have spoiled : ((spoilBlock s bad b.val).block b.val).l2.en = true := by rw [spoilBlock_l2]; exact on
  have accepts : ctlAccepts s (.blockCtl b.val 0) h = true := accepted
  rw [← l2enWrite_off spoiled]
  change next (regAccess _ _ _ _) = _
  rw [regAccess, start, accepts, if_pos rfl, on]
  rfl

/-! ### CACHE_REENABLE -/

theorem l1Write_enable {c : Nat} {data : Bool} (off : ((s.cell c).l1 data).en = false) : l1Write s c data true = l1Enable s c data := by
  have changes : ((if data then (s.cell c).l1d else (s.cell c).l1i).en == true) = false := by simpa [Cell.l1] using off
  unfold l1Write
  dsimp only
  rw [changes]
  rfl

theorem l1Enable_ignored {c : Nat} (data : Bool) (off : (s.block (blockOfCell c)).l2.en = false) : l1Enable s c data = s := by
  rw [l1Enable, off]
  rfl

theorem l1Enable_brings {c : Nat} (data : Bool) (on : (s.block (blockOfCell c)).l2.en = true) : l1Enable s c data =
    reportBlock (s.updCell c fun k =>
      if data then { k with l1d := { k.l1d with en := true } } else { k with l1i := { k.l1i with en := true } })
      (blockOfCell c) (originCell s c) 3 (ownerOfBlock s (blockOfCell c)) 0 := by
  rw [l1Enable, on]
  rfl

section
variable {c : CellId} (ready : Ready s c) (sup : (s.cell c.val).sup = true)
include ready sup

theorem exec_cacheReenable_l1d (off : (s.cell c.val).l1d.en = false) :
    exec (.cacheReenable c .l1d) s = .next ((l1Enable s c.val true).updCell c.val Cell.nextPc) := by
  have write : exec (.cacheReenable c .l1d) s = next (finish c.val (swrRes s c 0x020
      (BitVec.ofNat 64 (b2n (s.cell c.val).l1i.en + 2 * b2n true)))) := congrArg next (issue_ready ready _)
  have same : l1Write s c.val false (s.cell c.val).l1i.en = s := l1Write_same (data := false) rfl
  rw [write, swrRes_cctl _ sup, cctlWrite, (cctl_bits _ _).1, (cctl_bits _ _).2, same, l1Write_enable (data := true) off]
  rfl

theorem exec_cacheReenable_l1i (off : (s.cell c.val).l1i.en = false) :
    exec (.cacheReenable c .l1i) s = .next ((l1Enable s c.val false).updCell c.val Cell.nextPc) := by
  have write : exec (.cacheReenable c .l1i) s = next (finish c.val (swrRes s c 0x020
      (BitVec.ofNat 64 (b2n true + 2 * b2n (s.cell c.val).l1d.en)))) := congrArg next (issue_ready ready _)
  have other : ((l1Enable s c.val false).cell c.val).l1d.en = (s.cell c.val).l1d.en := by
    unfold l1Enable
    split
    · rfl
    · rw [reportBlock_cell, State.cell_updCell_same]; rfl
  rw [write, swrRes_cctl _ sup, cctlWrite, (cctl_bits _ _).1, (cctl_bits _ _).2, l1Write_enable (data := false) off,
    l1Write_same (data := true) other]
  rfl

end

/-- BCCTL of a block, written through its address. -/
theorem ctlPut_bcctl (s : State) (h : Byte) {b : Nat} (hb : b < 64) :
    ctlPut s h (0x30010000000 + 0x100000 * b) [1, 0, 0, 0] = l2enWrite s b true := by
  have page : pageOf s h (placeOf (0x30010000000 + 0x100000 * b)) = some ⟨blockRegs, blockRead (s.block b), blockWrite b, 0⟩ := by
    rw [← Nat.add_zero (0x30010000000 + 0x100000 * b), placeOf_block hb (by decide)]
    rfl
  have piece : [(1 : Byte), 0, 0, 0].length ≤ 32 - (0x30010000000 + 0x100000 * b) % 32 := by
    simp only [List.length_cons, List.length_nil]; omega
  rw [ctlPut_of_piece (List.cons_ne_nil _ _) piece page]
  exact pageWrite_one (blockWrite b) (off := 0) (bs := [1, 0, 0, 0]) [] [(0x2000, 4), (0x2008, 8)] (by decide) (by decide) (by decide) s

theorem l2enWrite_on {b : Nat} (off : (s.block b).l2.en = false) : l2enWrite s b true =
    reportBlock (s.setBlock b { s.block b with l2 := { (s.block b).l2 with en := true } }) b (originBlock s b) 3 (ownerOfBlock s b) 0 := by
  rw [l2enWrite, off]
  rfl

/-- The cell's store to BCCTL that sets L2EN (03 R77, R79). -/
theorem exec_cacheReenable_l2 {c : CellId} (ready : Ready s c) (sup : (s.cell c.val).sup = true)
    (off : (s.block (blockOfCell c)).l2.en = false) (owned : (ownerOfBlock s (blockOfCell c)).isSome = true)
    (own : (s.cell c.val).hall = hallOfBlock s (blockOfCell c)) (held : hallOfBlock s (blockOfCell c) ≠ 0) :
    exec (.cacheReenable c .l2) s = .next ((reportBlock (s.setBlock (blockOfCell c)
      { s.block (blockOfCell c) with l2 := { (s.block (blockOfCell c)).l2 with en := true } }) (blockOfCell c)
      (originBlock s (blockOfCell c)) 3 (ownerOfBlock s (blockOfCell c)) 0).updCell c.val Cell.nextPc) := by
  have hb : blockOfCell c.val < 64 := by have := c.isLt; unfold blockOfCell; omega
  obtain ⟨a, at_⟩ : ∃ a, a = 0x30010000000 + 0x100000 * blockOfCell c.val := ⟨_, rfl⟩
  have place (j : Nat) (hj : j < 0x100000) : placeOf (a + j) = .blockCtl (blockOfCell c) j := by
    rw [at_]; exact placeOf_block hb hj
  have start : placeOf a = .blockCtl (blockOfCell c) 0 := place 0 (by decide)
  have number : (BitVec.ofNat 64 a).toNat = a := Nat.mod_eq_of_lt (by omega)
  have ctl : isCtl (BitVec.ofNat 64 a) = true := by rw [isCtl, number, decide_eq_true_eq, ctlBase]; omega
  have fault : ctlFault s c.val true (BitVec.ofNat 64 a) [(1 : Byte), 0, 0, 0].length = none := 
    ctlFault_none (by dsimp only [List.length_cons, List.length_nil]; omega) fun j hj => by
      rw [number, ctlDetail, place j (Nat.lt_trans hj (by decide))]
      simp [sup, owned]
  have path : ctlPathHeld s c.val a = false := by simp [ctlPathHeld, start]
  have home : countCtl s c.val a 4 = s := by
    rw [countCtl, start, if_pos]
    simp only [regionOfPlace, regionOfCell, blockOfCell]; omega
  have accepts : ctlAccepts s (.blockCtl (blockOfCell c) 0) (s.cell c.val).hall = true := by
    simp only [ctlAccepts, ctlHall, hallOk, held, own, if_false, beq_self_eq_true]
  have whole : 4096 - a % 4096 = 4096 := by omega
  have part : ctlStorePart s c.val a [1, 0, 0, 0] = l2enWrite s (blockOfCell c) true := by
    rw [ctlStorePart, if_neg (by decide)]
    dsimp only [List.length_cons, List.length_nil]
    rw [home, start, accepts, if_pos rfl, at_, ctlPut_bcctl s _ hb]
  have store : storeRes s c.val (BitVec.ofNat 64 a) [1, 0, 0, 0] .clean .done = .done (l2enWrite s (blockOfCell c) true) := by
    rw [storeRes, if_pos ctl, fault]
    dsimp only
    rw [number, path, whole, if_neg Bool.false_ne_true, List.take_of_length_le (by decide), List.drop_of_length_le (by decide), part]
    rfl
  have issued := issue_ready ready fun s => storeRes s c.val (BitVec.ofNat 64 a) [1, 0, 0, 0] .clean .done
  rw [store, l2enWrite_on off] at issued
  rw [at_] at issued
  exact congrArg next issued

/-! ### O14 -/

/-- Settles O14: a disabled cache keeps its lines frozen, what writing them back leaves alone (`WrittenBack`, `FollowsMemory`) gives the
rest, and a re-enabled one is a register written. -/
theorem cachesComplete : Obligations.CachesComplete := by
  refine ⟨?disable, ?l2, ?reenable⟩
  case disable =>
    rintro s c x y bad ready sup ⟨onI, onD⟩
    obtain ⟨e, byte, cell⟩ := cacheDisabled_cell onI onD bad
    have coherent := fun h => cacheDisabled_coherent h onI onD bad
    refine ⟨_, exec_cacheDisable ready sup onI onD bad, rfl, ?_⟩
    rw [State.cell_updCell_same, Cell.nextPc]
    dsimp only
    refine ⟨by rw [cell], ?en, by rw [cell], ?stale, ?keys, ?frozen, by rw [cell], coherent⟩
    all_goals
      rw [cell]
      cases y
    case en.false => exact (Bool.and_true _).symm
    case en.true => exact (Bool.and_false _).symm
    case stale.false => exact (Bool.or_false _).symm
    case stale.true => exact (Bool.or_true _).symm
    case keys.false => rfl
    case keys.true => exact (freeze_keys _ _).trans (spoilDirty_keys _ _)
    case frozen.false => exact fun h => Bool.noConfusion h
    case frozen.true => exact fun _ => freeze_lines _ _
  case l2 =>
    intro s b h bad accepted on
    have on' : ((spoilBlock s bad b.val).block b.val).l2.en = true := by rw [spoilBlock_l2]; exact on
    refine ⟨_, exec_l2Disable accepted on bad, rfl, ?_⟩
    have keys (l : Nat) : (((disableL2 (spoilBlock s bad b.val) b.val).block b.val).l2.find l).isSome = ((s.block b.val).l2.find l).isSome := by
      rw [Cache.find_isSome, Cache.find_isSome, l2_disableL2 on', has_freeze, l2WrittenBack_has, spoilBlock_l2, has_spoilDirty]
    have l2 := l2_disableL2 on'
    refine ⟨by rw [l2]; rfl, by rw [l2]; rfl, keys, by rw [l2]; exact freeze_lines _ _, fun coherent => ?_, fun i hi => ?_⟩
    · obtain ⟨follows, l1s⟩ := spoilBlock_follows coherent bad b.val
      exact disableL2_follows on' follows l1s
    · have p := spoilBlock_spoiled s bad b.val
      have off := disableL2_cell on' hi
      refine ⟨off.enI, off.enD, fun h => off.staleI ?_, fun h => off.staleD ?_⟩
      · rw [p.l1i]; exact h
      · rw [p.en]; exact h
  case reenable =>
    intro s c ready sup
    refine ⟨fun off _ on => ?_, fun off _ on => ?_, fun l2 offD offI => ⟨?_, ?_⟩, fun off _ => exec_cacheReenable_l2 ready sup off⟩
    · rw [exec_cacheReenable_l1d ready sup off, l1Enable_brings true on]
      rfl
    · rw [exec_cacheReenable_l1i ready sup off, l1Enable_brings false on]
      rfl
    · rw [exec_cacheReenable_l1d ready sup offD, l1Enable_ignored true l2]
      rfl
    · rw [exec_cacheReenable_l1i ready sup offI, l1Enable_ignored false l2]
      rfl

end Sys2Proof.Machine
end

section
/-! PROOFS. Reads one after another (04 R99 to R101): what a read leaves as it was, so that the reads after it meet what they would
have met before it. -/

namespace Sys2Proof.Machine

variable {s t u : State}

/-- What decides which cell reaches which memory (01 R27, 16 R374): a partition without its counters and its state. -/
def Part.access (x : Part) : Byte × W64 × Vector (BitVec 128) 16 × Option (BitVec 128 × BitVec 128) := (x.hall, x.blocks, x.wins, x.keys)

/-- In `u` addresses translate and are accepted as in `s`, and what was powered is powered. -/
structure SeesAs (s u : State) : Prop where
  part : ∀ p, (u.part p).access = (s.part p).access
  oos : ∀ b, (u.block b).groupOos = (s.block b).groupOos
  ctlOos : ∀ r, (u.region r).ctlOos = (s.region r).ctlOos
  ready : ∀ a, groupReady s a = true → groupReady u a = true

theorem SeesAs.refl (s : State) : SeesAs s s := ⟨fun _ => rfl, fun _ => rfl, fun _ => rfl, fun _ => id⟩

theorem SeesAs.trans (v : SeesAs s t) (w : SeesAs t u) : SeesAs s u :=
  ⟨fun p => (w.part p).trans (v.part p), fun b => (w.oos b).trans (v.oos b), fun r => (w.ctlOos r).trans (v.ctlOos r),
    fun a ready => w.ready a (v.ready a ready)⟩

theorem groupReady_congr (group : ∀ b, (u.block b).group = (t.block b).group) (a : Nat) : groupReady u a = groupReady t a := by
  simp only [groupReady, group]

/-- A change of a block's L2. -/
theorem SeesAs.setL2 (t : State) (b : Nat) (k : Cache) : SeesAs t (t.setBlock b { t.block b with l2 := k }) := by
  have keeps {α : Type} (f : Block → α) (keep : ∀ (x : Block) l2, f { x with l2 := l2 } = f x) (g : Nat) :
      f ((t.setBlock b { t.block b with l2 := k }).block g) = f (t.block g) := by
    rw [State.block_setBlock]
    split
    · next h => subst h; exact keep _ k
    · rfl
  exact ⟨fun _ => rfl, keeps Block.groupOos fun _ _ => rfl, fun _ => rfl,
    fun a => (groupReady_congr (keeps Block.group fun _ _ => rfl) a).trans⟩

/-- What a change of one region keeps of it, it keeps of every region. -/
theorem region_setRegion_keeps {α : Type} (f : Region → α) {q : Nat} {x : Region} (keep : f x = f (t.region q)) (r : Nat) :
    f ((t.setRegion q x).region r) = f (t.region r) := by
  rw [State.region, State.setRegion, Vector.getElem?_setIfInBounds]
  split
  · next same =>
    subst same
    split
    · exact keep
    · next out => rw [State.region, Vector.getElem?_eq_none (by omega)]
  · rfl

theorem SeesAs.wakeGroup (t : State) (a : Nat) : SeesAs t (wakeGroup t a) where
  part p := wakeGroup_keeps (fun s => (s.part p).access) (fun _ _ _ _ => rfl) (fun _ _ _ => rfl) t a
  oos b := by
    have kept {g : Nat} {x : Block} (same : x.groupOos = (t.block g).groupOos) :
        ((t.setBlock g x).block b).groupOos = (t.block b).groupOos := by
      rw [State.block_setBlock]
      split
      · next h => subst h; exact same
      · rfl
    unfold Machine.wakeGroup
    split
    · dsimp only
      split
      · exact kept rfl
      · exact kept rfl
      · rfl
    · rfl
    · rfl
  ctlOos r := by
    unfold Machine.wakeGroup
    split
    · dsimp only
      split <;> rfl
    · refine region_setRegion_keeps Region.ctlOos ?_ r
      rfl
    · rfl
  ready d := groupReady_wakeGroup a

theorem seesAs_closed (s : State) : LineClosed (SeesAs s) where
  count p k n v := v.trans ⟨countPart_part_keeps Part.access (fun _ _ => rfl) _ p k n, fun _ => by rw [countPart_block],
    fun _ => by rw [countPart_region], fun a => (groupReady_congr (fun _ => by rw [countPart_block]) a).trans⟩
  wake a v := v.trans (.wakeGroup _ a)
  note _ _ v := ⟨v.part, v.oos, v.ctlOos, v.ready⟩
  err _ _ v := ⟨v.part, v.oos, v.ctlOos, v.ready⟩
  bytes _ _ v := ⟨v.part, v.oos, v.ctlOos, v.ready⟩
  draws _ v := ⟨v.part, v.oos, v.ctlOos, v.ready⟩
  l1 _ _ v := ⟨v.part, v.oos, v.ctlOos, v.ready⟩
  l2 b k v := v.trans (.setL2 _ b k)

/-! ### Addresses translate as before -/

theorem SeesAs.owner (v : SeesAs s u) (b : Nat) : ownerOfBlock u b = ownerOfBlock s b := by
  have hall (p : Nat) : (u.part p).hall = (s.part p).hall := congrArg Prod.fst (v.part p)
  have blocks (p : Nat) : (u.part p).blocks = (s.part p).blocks := congrArg (·.2.1) (v.part p)
  simp only [ownerOfBlock, hall, blocks]

theorem SeesAs.xlate (v : SeesAs s u) (c va : Nat) : xlate u c va = xlate s c va := by
  have wins (p : Nat) : (u.part p).wins = (s.part p).wins := congrArg (·.2.2.1) (v.part p)
  have places (p : Place) : outOfService u p = outOfService s p := by simp only [outOfService, v.oos, v.ctlOos]
  simp only [Machine.xlate, cellWins, v.owner, wins, places]

theorem SeesAs.xlates (v : SeesAs s u) (c n : Nat) (va : W64) : xlates u c va n = xlates s c va n := by
  induction n generalizing va with
  | zero => rfl
  | succ n ih => rw [Machine.xlates, Machine.xlates, v.xlate, ih]

theorem SeesAs.accepts (v : SeesAs s u) (h : Byte) (a n : Nat) : memAccepts u h a n = memAccepts s h a n := by
  have hall (p : Nat) : (u.part p).hall = (s.part p).hall := congrArg Prod.fst (v.part p)
  have wins (p : Nat) : (u.part p).wins = (s.part p).wins := congrArg (·.2.2.1) (v.part p)
  have keys (p : Nat) : (u.part p).keys = (s.part p).keys := congrArg (·.2.2.2) (v.part p)
  simp only [memAccepts, partOfHall, inMemWindows, Part.keyed, hall, wins, keys]

/-! ### Reads after a read -/

/-- From `s` to `u` lines were brought into the caches by reads. -/
structure Brought (s u : State) : Prop where
  moves : Moves 0 s u
  sees : SeesAs s u

theorem Brought.refl (s : State) : Brought s s := ⟨.refl 0 s, .refl s⟩

theorem Brought.trans (v : Brought s t) (w : Brought t u) : Brought s u := ⟨v.moves.trans w.moves, v.sees.trans w.sees⟩

/-- The bytes a cell sees after reads are those of memory before them. -/
theorem Brought.cellBytes (v : Brought s u) (coherent : Coherent s) (c : Nat) (as : List Nat) : cellBytes u c as = as.map (memByte s) :=
  have ⟨coherent', byte⟩ := v.moves.same coherent
  List.map_congr_left fun a _ => (viaByte_of_coherent coherent' c a).trans (byte a)

theorem Brought.pathOpen (v : Brought s u) {c a : Nat} (free : PathOpen s c a) : PathOpen u c a := by
  have arbs : u.arbs = s.arbs := (congrArg State.arbs v.moves.units :)
  have ports : u.ports = s.ports := (congrArg State.ports v.moves.units :)
  have held (k port : Nat) : arbHolds u k port = arbHolds s k port := by
    simp only [arbHolds, arbFrozen, State.arb, State.port, arbs, ports]
  simpa only [PathOpen, pathHeld, unitHeld, held] using free

/-- What can be read can be read after other reads. -/
theorem Brought.reads (v : Brought s u) (clean : Unpoisoned s) {c : CellId} {va : W64} {n : Nat} {as : List Nat}
    (reads : Reads s c va n as) : Reads u c va n as := by
  obtain ⟨memory, translates, each⟩ := reads
  have hall : (u.cell c.val).hall = (s.cell c.val).hall := (congrArg Cell.hall (v.moves.cell c.val) :)
  refine ⟨memory, (v.sees.xlates _ _ _).trans translates, fun a ha => ?_⟩
  obtain ⟨accepts, free, ready, -⟩ := each a ha
  exact ⟨by rw [v.sees.accepts, hall]; exact accepts, v.pathOpen free, v.sees.ready a ready,
    viaPoison_of_unpoisoned (v.moves.clean clean).1 _ _⟩

/-- A read that goes on. -/
theorem cellRead_brings {c : CellId} {va : W64} {n : Nat} {as : List Nat} (reads : Reads s c va n as) :
    ∃ t, cellRead s c va n .clean = .go as t ∧ Brought s t := by
  refine ⟨_, ?_, ((Moves.refl 0 s).wakeAll (runs as)).touchRuns c false (runs as),
    (seesAs_closed s).touchRuns c false (runs as) ((seesAs_closed s).wakeAll (runs as) (.refl s))⟩
  rw [cellRead_reads reads, checkRead_clean]
  rfl

end Sys2Proof.Machine
end

section
/-! PROOFS. Elements packed into a vector register and a predicate (04 R84, R86). -/

namespace Sys2Proof.Machine

/-- Fields of `w` bits one above the other, the first one lowest. -/
def packed (w : Nat) (l : List Nat) : Nat := l.foldr (fun x acc => acc * 2 ^ w + x % 2 ^ w) 0

theorem packed_lt (w : Nat) (l : List Nat) : packed w l < 2 ^ (w * l.length) := by
  induction l with
  | nil => exact Nat.one_pos
  | cons x l ih =>
    have field : x % 2 ^ w < 2 ^ w := Nat.mod_lt _ (Nat.two_pow_pos w)
    calc packed w l * 2 ^ w + x % 2 ^ w < (packed w l + 1) * 2 ^ w := by rw [Nat.add_mul, Nat.one_mul]; omega
      _ ≤ 2 ^ (w * l.length) * 2 ^ w := Nat.mul_le_mul_right _ ih
      _ = 2 ^ (w * (x :: l).length) := by rw [← Nat.pow_add, List.length_cons, Nat.mul_add, Nat.mul_one]

/-- A field read back. -/
theorem fieldN_packed (w : Nat) (l : List Nat) (i : Nat) : fieldN (packed w l) (w * i) w = l.getD i 0 % 2 ^ w := by
  induction l generalizing i with
  | nil => simp [packed, fieldN]
  | cons x l ih =>
    have field : x % 2 ^ w < 2 ^ w := Nat.mod_lt _ (Nat.two_pow_pos w)
    have above : packed w (x :: l) >>> w = packed w l := by
      rw [Nat.shiftRight_eq_div_pow, packed, List.foldr_cons, ← packed, Nat.add_comm, Nat.add_mul_div_right _ _ (Nat.two_pow_pos w), Nat.div_eq_of_lt field,
        Nat.zero_add]
    cases i with
    | zero => simp [packed, fieldN, Nat.add_mod]
    | succ i =>
      have ih := ih i
      rw [fieldN] at ih
      rw [fieldN, Nat.mul_add, Nat.mul_one, Nat.add_comm (w * i) w, Nat.shiftRight_add, above, ih]
      rfl

theorem szBits_mul_szElems (z : Size) : szBits z * szElems z = 2048 := by cases z <;> rfl

theorem szBytes_mul_szElems (z : Size) : szBytes z * szElems z = 256 := by cases z <;> rfl

/-- An element of a register made of elements (04 R84). -/
theorem elemAt_ofElems {z : Size} {l : List Nat} (fits : l.length ≤ szElems z) (i : Nat) :
    elemAt z (ofElems z l) i = l.getD i 0 % 2 ^ szBits z := by
  have bound : packed (szBits z) l < 2 ^ (szBits z * szElems z) :=
    Nat.lt_of_lt_of_le (packed_lt _ l) (Nat.pow_le_pow_right Nat.two_pos (Nat.mul_le_mul_left _ fits))
  rw [szBits_mul_szElems] at bound
  change fieldN (BitVec.ofNat 2048 (packed (szBits z) l)).toNat _ _ = _
  rw [BitVec.toNat_ofNat, Nat.mod_eq_of_lt bound, fieldN_packed]

/-- The field of a predicate that an element's activity fills. -/
def activeField (n : Nat) (b : Bool) : Nat := if b then 2 ^ n - 1 else 0

theorem activeField_lt (n : Nat) (b : Bool) : activeField n b < 2 ^ n := by
  have := Nat.two_pow_pos n
  unfold activeField
  split <;> omega

theorem testBit_activeField {n : Nat} (pos : 0 < n) (b : Bool) : (activeField n b).testBit 0 = b := by
  cases b with
  | false => exact Nat.zero_testBit 0
  | true =>
    rw [activeField, if_pos rfl, Nat.testBit_two_pow_sub_one]
    exact decide_eq_true pos

theorem ofActive_eq (z : Size) (l : List Bool) : ofActive z l = BitVec.ofNat 256 (packed (szBytes z) (l.map (activeField (szBytes z)))) := by
  rw [ofActive, packed, List.foldr_map]
  simp only [Nat.mod_eq_of_lt (activeField_lt _ _)]
  rfl

/-- An element of a predicate made of elements (04 R86). -/
theorem active_ofActive {z : Size} {l : List Bool} {i : Nat} (hi : i < szElems z) : active z (ofActive z l) i = l.getD i false := by
  have pos : 0 < szBytes z := by cases z <;> decide
  have inside : i * szBytes z < 256 := by
    rw [← szBytes_mul_szElems z, Nat.mul_comm]
    exact Nat.mul_lt_mul_of_pos_left hi pos
  have bit := congrArg (Nat.testBit · 0) (fieldN_packed (szBytes z) (l.map (activeField (szBytes z))) i)
  have value : (l.map (activeField (szBytes z))).getD i 0 = activeField (szBytes z) (l.getD i false) := by
    rw [List.getD_eq_getElem?_getD, List.getD_eq_getElem?_getD, List.getElem?_map]
    cases l[i]? <;> rfl
  rw [value, Nat.mod_eq_of_lt (activeField_lt _ _)] at bit
  simp only [fieldN, Nat.testBit_mod_two_pow, pos, decide_true, Bool.true_and, Nat.testBit_shiftRight, Nat.add_zero,
    testBit_activeField pos] at bit
  rw [active, ofActive_eq, BitVec.getLsbD_ofNat, decide_eq_true inside, Bool.true_and, Nat.mul_comm, bit]

theorem leNat_lt (bs : List Byte) : leNat bs < 256 ^ bs.length := by
  induction bs with
  | nil => exact Nat.one_pos
  | cons b bs ih =>
    have := b.isLt
    rw [leNat, List.length_cons, Nat.pow_succ]
    omega

/-! ### Vector memory loads (04 R99 to R105) -/

/-- The elements of an active range below `stop`, each with its address. -/
def elemsTo (z : Size) (p : BitVec 256) (start stop : Nat) (addr : Nat → W64) : List (Nat × W64) :=
  ((List.range stop).filter fun i => decide (start ≤ i) && active z p i).map fun i => (i, addr i)

section
variable {z : Size} {p : BitVec 256} {start stop j : Nat} {addr : Nat → W64}

theorem mem_elemsTo {e : Nat × W64} :
    e ∈ elemsTo z p start stop addr ↔ e.1 < stop ∧ start ≤ e.1 ∧ active z p e.1 = true ∧ e.2 = addr e.1 := by
  obtain ⟨i, a⟩ := e
  simp only [elemsTo, List.mem_map, List.mem_filter, List.mem_range, Bool.and_eq_true, decide_eq_true_eq, Prod.mk.injEq]
  constructor
  · rintro ⟨i, ⟨hi, low, on⟩, rfl, rfl⟩
    exact ⟨hi, low, on, rfl⟩
  · rintro ⟨hi, low, on, rfl⟩
    exact ⟨i, ⟨hi, low, on⟩, rfl, rfl⟩

/-- The active range cut at one of its elements. -/
theorem elemAddrs_cut (low : start ≤ j) (hj : j < szElems z) (on : active z p j = true) :
    ∃ rest, elemAddrs z p start addr = elemsTo z p start j addr ++ (j, addr j) :: rest := by
  obtain ⟨m, cut⟩ : ∃ m, szElems z = j + (m + 1) := ⟨szElems z - j - 1, by omega⟩
  refine ⟨(((List.range m).map fun i => j + (i + 1)).filter fun i => decide (start ≤ i) && active z p i).map fun i => (i, addr i), ?_⟩
  rw [elemAddrs, cut, List.range_add, List.range_succ_eq_map, List.filter_append, List.map_append, List.map_cons, List.map_map,
    Nat.add_zero, List.filter_cons_of_pos (by simp [low, on])]
  rfl

end

end Sys2Proof.Machine
end

section
/-! PROOFS. Vector loads and gathers (04 R99 to R105), and O21. -/

namespace Sys2Proof.Machine

variable {s t u : State}

/-! ### Elements read -/

/-- The value that an element of a load reads: the bytes of memory at its device addresses. -/
def readVal (s : State) (as : Nat → List Nat) (i : Nat) : Nat := leNat ((as i).map (memByte s))

/-- The values of some elements, newest first. -/
def readVals (s : State) (as : Nat → List Nat) (es : List (Nat × W64)) : List (Nat × Nat) :=
  (es.map fun e => (e.1, readVal s as e.1)).reverse

theorem valOf_readVals {as : Nat → List Nat} {es : List (Nat × W64)} {i : Nat} (mem : ∃ a, (i, a) ∈ es) :
    valOf (readVals s as es) i = readVal s as i := by
  obtain ⟨a, mem⟩ := mem
  cases found : (readVals s as es).find? fun e => e.1 == i with
  | none =>
    refine absurd (beq_self_eq_true i) (List.find?_eq_none.mp found (i, readVal s as i) ?_)
    rw [readVals, List.mem_reverse, List.mem_map]
    exact ⟨_, mem, rfl⟩
  | some e =>
    obtain ⟨x, -, rfl⟩ := List.mem_map.mp (List.mem_reverse.mp (List.mem_of_find?_eq_some found))
    have same : x.1 = i := by simpa using List.find?_some found
    rw [valOf, found]
    subst same
    rfl

theorem elemCheck_clean (n i : Nat) : elemCheck .clean n i = .clean := by
  unfold elemCheck Check.clean
  split
  · rw [Nat.zero_mod]
  · rfl

/-- Elements that can all be read are read one after another, and what follows them meets what it would have met. -/
theorem gatherElems_append {c : CellId} {n : Nat} {as : Nat → List Nat} (coherent : Coherent s) (clean : Unpoisoned s)
    (rest : List (Nat × W64)) (es : List (Nat × W64)) : ∀ (acc : List (Nat × Nat)) (t : State), Brought s t →
    (∀ e ∈ es, Reads s c e.2 n (as e.1)) →
    ∃ u, Brought s u ∧ gatherElems c n .clean (es ++ rest) acc t = gatherElems c n .clean rest (readVals s as es ++ acc) u := by
  induction es with
  | nil => exact fun _ t brought _ => ⟨t, brought, rfl⟩
  | cons e es ih =>
    intro acc t brought reads
    obtain ⟨v, go, brings⟩ := cellRead_brings (brought.reads clean (reads e List.mem_cons_self))
    have brought := brought.trans brings
    obtain ⟨u, through, rest⟩ := ih ((e.1, readVal s as e.1) :: acc) v brought fun x hx => reads x (List.mem_cons_of_mem e hx)
    refine ⟨u, through, ?_⟩
    rw [List.cons_append, gatherElems, elemCheck_clean, go]
    dsimp only
    rw [brought.cellBytes coherent, ← readVal, rest, readVals, readVals, List.map_cons, List.reverse_cons, List.append_assoc]
    rfl

section
variable {c : CellId} {z : Size} {p : BitVec 256} {start stop j : Nat} {addr : Nat → W64} {as : Nat → List Nat}

/-- A range of elements that can all be read (04 R99, R100). -/
theorem gatherElems_all (coherent : Coherent s) (clean : Unpoisoned s)
    (reads : ∀ i < szElems z, start ≤ i → active z p i = true → Reads s c (addr i) (szBytes z) (as i)) :
    ∃ u, Brought s u ∧ gatherElems c (szBytes z) .clean (elemAddrs z p start addr) [] s =
      .all (readVals s as (elemsTo z p start (szElems z) addr)) u := by
  have each : ∀ e ∈ elemsTo z p start (szElems z) addr, Reads s c e.2 (szBytes z) (as e.1) := fun e he => by
    obtain ⟨hi, low, on, at_⟩ := mem_elemsTo.mp he
    rw [at_]
    exact reads e.1 hi low on
  obtain ⟨u, brought, all⟩ := gatherElems_append coherent clean [] _ [] s (.refl s) each
  refine ⟨u, brought, ?_⟩
  rw [List.append_nil, List.append_nil] at all
  exact all

/-- A range with an element whose first byte has an access fault, the elements below it being readable (04 R101). -/
theorem gatherElems_fault {dt : Byte} (coherent : Coherent s) (clean : Unpoisoned s) (low : start ≤ j) (hj : j < szElems z)
    (on : active z p j = true) (reads : ∀ i < j, start ≤ i → active z p i = true → Reads s c (addr i) (szBytes z) (as i))
    (fault : xlate s c.val (addr j).toNat = .error dt) :
    ∃ u, Brought s u ∧ gatherElems c (szBytes z) .clean (elemAddrs z p start addr) [] s =
      .fault j ⟨3, dt, addr j⟩ (readVals s as (elemsTo z p start j addr)) u := by
  have each : ∀ e ∈ elemsTo z p start j addr, Reads s c e.2 (szBytes z) (as e.1) := fun e he => by
    obtain ⟨hi, low, on, at_⟩ := mem_elemsTo.mp he
    rw [at_]
    exact reads e.1 hi low on
  obtain ⟨rest, cut⟩ := elemAddrs_cut (addr := addr) low hj on
  obtain ⟨u, brought, below⟩ := gatherElems_append coherent clean ((j, addr j) :: rest) _ [] s (.refl s) each
  have raises : cellRead u c (addr j) (szBytes z) .clean = .raise ⟨3, dt, addr j⟩ u := by
    obtain ⟨n, size⟩ : ∃ n, szBytes z = n + 1 := by cases z <;> exact ⟨_, rfl⟩
    rw [cellRead, size, xlates, brought.sees.xlate, fault]
  refine ⟨u, brought, ?_⟩
  rw [cut, below, List.append_nil, gatherElems, elemCheck_clean, raises]

end

/-! ### Elements loaded -/

/-- An element of Vd after a load of the elements [start, stop) (04 R87, R101). -/
def loadedElem (z : Size) (g : Gov) (p : BitVec 256) (old : BitVec 2048) (start stop : Nat) (val : Nat → Nat) (i : Nat) : Nat :=
  if start ≤ i ∧ i < stop ∧ active z p i = true then val i
  else if start ≤ i ∧ i < stop ∧ g.zero = true then 0
  else elemAt z old i

theorem readVal_lt {c : CellId} {z : Size} {va : W64} {as : Nat → List Nat} {i : Nat} (reads : Reads s c va (szBytes z) (as i)) :
    readVal s as i < 2 ^ szBits z := by
  have bound := leNat_lt ((as i).map (memByte s))
  rw [List.length_map, length_of_xlates reads.2.1] at bound
  rw [szBits, Nat.pow_mul]
  exact bound

theorem elemAt_loadElems {c : CellId} {z : Size} {g : Gov} {p : BitVec 256} (old : BitVec 2048) {start stop : Nat} {addr : Nat → W64}
    {as : Nat → List Nat} (reads : ∀ i < stop, start ≤ i → active z p i = true → Reads s c (addr i) (szBytes z) (as i))
    {i : Nat} (hi : i < szElems z) :
    elemAt z (loadElems z g p old start stop (readVals s as (elemsTo z p start stop addr))) i =
      loadedElem z g p old start stop (readVal s as) i := by
  have kept : elemAt z old i % 2 ^ szBits z = elemAt z old i := Nat.mod_mod _ _
  rw [loadElems, elemAt_ofElems (by simp), List.getD_eq_getElem?_getD, List.getElem?_map, List.getElem?_range hi, Option.map_some,
    Option.getD_some, loadedElem]
  by_cases inside : start ≤ i ∧ i < stop
  · obtain ⟨low, high⟩ := inside
    rw [if_pos ⟨low, high⟩]
    cases on : active z p i with
    | true =>
      rw [if_pos rfl, if_pos ⟨low, high, rfl⟩, valOf_readVals ⟨addr i, mem_elemsTo.mpr ⟨high, low, on, rfl⟩⟩]
      exact Nat.mod_eq_of_lt (readVal_lt (reads i high low on))
    | false =>
      cases zero : g.zero with
      | true => simp [low, high]
      | false => simp [kept]
  · rw [if_neg inside, if_neg fun h => inside ⟨h.1, h.2.1⟩, if_neg fun h => inside ⟨h.1, h.2.1⟩, kept]

/-- The elements that a cut predicate leaves active (04 R105). -/
theorem active_cutPred {z : Size} (p : BitVec 256) (j : Nat) {i : Nat} (hi : i < szElems z) :
    active z (cutPred z p j) i = (active z p i && decide (i < j)) := by
  rw [cutPred, active_ofActive hi, List.getD_eq_getElem?_getD, List.getElem?_map, List.getElem?_range hi, Option.map_some,
    Option.getD_some, Bool.and_comm]

theorem active_zero (z : Size) (i : Nat) : active z 0 i = false := BitVec.getLsbD_zero

/-! ### The instructions -/

section
variable {c : CellId}

theorem vecIssue_ready (ready : VReady s c) (f : State → Res) : vecIssue s c true f = finish c.val (f s) := by
  rw [vecIssue, issue_ready ready.1, if_pos rfl, vecReady, ready.2, if_neg Bool.false_ne_true]

/-- An exception of a cell on which no tile instruction waits is taken (03 R65). -/
theorem finish_exc_of_idle {e : Exc} (idle : (t.cell c.val).tpend = []) (runs : (t.cell c.val).faulted = false)
    (nest : (t.cell c.val).kstate.getLsbD 0 = false) :
    finish c.val (.exc e t) = t.updCell c.val fun k => k.trapEntry false e.cls e.detail e.addr := by
  simp only [finish, commitAll_nil t c.val idle, runs, idle, takeTrap, nest]
  rfl

/-- Reads that end in a change of the cell's registers. -/
theorem Brought.changes {w : Cell → Cell} (brought : Brought s u) (coherent : Coherent s) (architectural : Architectural w) :
    (∀ m, memByte (u.updCell c.val w) m = memByte s m) ∧ onlyCell s (u.updCell c.val w) c fun k k' => k' = w k :=
  have ⟨only, same⟩ := brought.moves.onlyCell architectural (c := c) []
  ⟨(same coherent).2, only⟩

theorem firstElemFault_none {n : Nat} {es : List (Nat × W64)} {as : Nat → List Nat} (reads : ∀ e ∈ es, Reads s c e.2 n (as e.1)) :
    firstElemFault s c n false es = none := by
  induction es with
  | nil => rfl
  | cons e es ih =>
    obtain ⟨-, translates, each⟩ := reads e List.mem_cons_self
    rw [firstElemFault, translates]
    dsimp only
    rw [firstRefused_none fun a ha => (each a ha).1]
    exact ih fun x hx => reads x (List.mem_cons_of_mem e hx)

/-- A cell whose Vd the elements [start, stop) of a load have reached. -/
def Cell.loaded (k : Cell) (sz : Size) (g : Gov) (p : BitVec 256) (d : Reg) (start stop : Nat) (vals : List (Nat × Nat)) : Cell :=
  k.wrV d (loadElems sz g p k.v[d] start stop vals)

theorem Cell.loaded_v (k : Cell) (sz : Size) (g : Gov) (p : BitVec 256) (d : Reg) (start stop : Nat) (vals : List (Nat × Nat)) :
    (k.loaded sz g p d start stop vals).v = k.v.set d ((k.loaded sz g p d start stop vals).v[d]) := by
  simp [loaded, Cell.wrV]

theorem Cell.loaded_elem {k k' : Cell} {sz : Size} {g : Gov} {p : BitVec 256} {d : Reg} {start stop : Nat} {addr : Nat → W64}
    {as : Nat → List Nat} (reads : ∀ i < stop, start ≤ i → active sz p i = true → Reads s c (addr i) (szBytes sz) (as i))
    (v : k'.v = (k.loaded sz g p d start stop (readVals s as (elemsTo sz p start stop addr))).v) {i : Nat} (hi : i < szElems sz) :
    elemAt sz k'.v[d] i = loadedElem sz g p k.v[d] start stop (readVal s as) i := by
  rw [← elemAt_loadElems k.v[d] reads hi, v]
  simp [loaded, Cell.wrV]

/-- A cell that has completed a gather (04 R100, R101). -/
def Cell.gathered (k : Cell) (sz : Size) (g : Gov) (p : BitVec 256) (d : Reg) (start stop : Nat) (vals : List (Nat × Nat)) : Cell :=
  { k.loaded sz g p d start stop vals with vresume := 0 }

/-- A cell that has completed a VGATHERFF (04 R105). -/
def Cell.gatheredFf (k : Cell) (sz : Size) (g : Gov) (p : BitVec 256) (d : Reg) (pd : PReg) (start stop : Nat) (vals : List (Nat × Nat)) :
    Cell :=
  { (k.loaded sz g p d start stop vals).wrP pd (if start < szElems sz then cutPred sz p stop else 0) with vresume := 0 }

/-- A cell on which a gather has stopped at its element `j` (04 R101). -/
def Cell.elemFaulted (k : Cell) (sz : Size) (g : Gov) (p : BitVec 256) (d : Reg) (start j : Nat) (e : Exc) (vals : List (Nat × Nat)) :
    Cell :=
  { k.loaded sz g p d start j vals with
    vresume := BitVec.ofNat 32 j, vfcause := BitVec.ofNat 32 (e.cls.toNat + 256 * e.detail.toNat) }

theorem loadedElem_all {sz : Size} {g : Gov} {p : BitVec 256} {old : BitVec 2048} {start i : Nat} {val : Nat → Nat}
    (hi : i < szElems sz) : loadedElem sz g p old start (szElems sz) val i =
      if start ≤ i ∧ active sz p i = true then val i else if start ≤ i ∧ g.zero = true then 0 else elemAt sz old i := by
  simp only [loadedElem, hi, true_and]

/-- A gather that stops above its first active element does not stop at that one. -/
theorem elemAddrs_head_ne {z : Size} {p : BitVec 256} {start j : Nat} {addr : Nat → W64} (low : start ≤ j) (hj : j < szElems z)
    (on : active z p j = true) (below : ∃ i < j, start ≤ i ∧ active z p i = true) :
    (elemAddrs z p start addr).head?.map (·.1) ≠ some j := by
  obtain ⟨i, hi, first, act⟩ := below
  have mem : (i, addr i) ∈ elemsTo z p start j addr := mem_elemsTo.mpr ⟨hi, first, act, rfl⟩
  obtain ⟨rest, cut⟩ := elemAddrs_cut (addr := addr) low hj on
  cases es : elemsTo z p start j addr with
  | nil => rw [es] at mem; cases mem
  | cons e es' =>
    have head := (mem_elemsTo.mp (es ▸ List.mem_cons_self : e ∈ elemsTo z p start j addr)).1
    rw [cut, es]
    intro same
    have same : e.1 = j := Option.some.inj same
    omega

variable {sz : Size} {d a x : Reg} {pd : PReg} {g : Gov} {ext sc : Bool} {as : Nat → List Nat} {j : Nat} {e : Exc}
  {vals : List (Nat × Nat)} (ready : VReady s c) (legal : g.rsv = false)

/-- The elements of a gather: those from VRESUME.IDX up (04 R100, R101). -/
def gatherAddrs (k : Cell) (a x : Reg) (sz : Size) (g : Gov) (ext sc : Bool) : List (Nat × W64) :=
  elemAddrs sz (k.gov g) k.resumeIdx (indexAddr k a x sz ext sc)

include ready legal

theorem exec_vld {addr : Nat → W64} (at_ : addr = fun i => (s.cell c.val).rdG a + BitVec.ofNat 64 (szBytes sz * i))
    (reads : ∀ e ∈ elemAddrs sz ((s.cell c.val).gov g) 0 addr, Reads s c e.2 (szBytes sz) (as e.1))
    (all : gatherElems c (szBytes sz) .clean (elemAddrs sz ((s.cell c.val).gov g) 0 addr) [] s = .all vals u) :
    exec (.vld c d a sz g .clean) s =
      .next (u.updCell c.val fun k => (k.loaded sz g (k.gov g) d 0 (szElems sz) vals).nextPc) := by
  have issued : exec (.vld c d a sz g .clean) s = next (vecIssue s c (!g.rsv) _) := rfl
  subst at_
  rw [issued, legal, Bool.not_false, vecIssue_ready ready]
  dsimp only
  rw [firstElemFault_none reads, all]
  exact congrArg next (State.updCell_updCell _ _ _ _)

theorem exec_vgather_all (all : gatherElems c (szBytes sz) .clean (gatherAddrs (s.cell c.val) a x sz g ext sc) [] s = .all vals u) :
    exec (.vgather c d a x sz g ext sc .clean) s =
      .next (u.updCell c.val fun k => (k.gathered sz g (k.gov g) d (s.cell c.val).resumeIdx (szElems sz) vals).nextPc) := by
  have issued : exec (.vgather c d a x sz g ext sc .clean) s = next (vecIssue s c (!g.rsv) _) := rfl
  rw [issued, legal, Bool.not_false, vecIssue_ready ready]
  dsimp only
  rw [← gatherAddrs, all]
  exact congrArg next (State.updCell_updCell _ _ _ _)

theorem exec_vgatherff_all (all : gatherElems c (szBytes sz) .clean (gatherAddrs (s.cell c.val) a x sz g ext sc) [] s = .all vals u) :
    exec (.vgatherff c d a x pd sz g ext sc .clean) s = .next (u.updCell c.val fun k =>
      (k.gatheredFf sz g ((s.cell c.val).gov g) d pd (s.cell c.val).resumeIdx (szElems sz) vals).nextPc) := by
  have issued : exec (.vgatherff c d a x pd sz g ext sc .clean) s = next (vecIssue s c (!g.rsv) _) := rfl
  rw [issued, legal, Bool.not_false, vecIssue_ready ready]
  dsimp only
  rw [← gatherAddrs, all]
  exact congrArg next (State.updCell_updCell _ _ _ _)

/-- A VGATHERFF that stops above its first active element completes (04 R105). -/
theorem exec_vgatherff_fault
    (fault : gatherElems c (szBytes sz) .clean (gatherAddrs (s.cell c.val) a x sz g ext sc) [] s = .fault j e vals u)
    (above : (gatherAddrs (s.cell c.val) a x sz g ext sc).head?.map (·.1) ≠ some j) :
    exec (.vgatherff c d a x pd sz g ext sc .clean) s = .next (u.updCell c.val fun k =>
      (k.gatheredFf sz g ((s.cell c.val).gov g) d pd (s.cell c.val).resumeIdx j vals).nextPc) := by
  have issued : exec (.vgatherff c d a x pd sz g ext sc .clean) s = next (vecIssue s c (!g.rsv) _) := rfl
  rw [issued, legal, Bool.not_false, vecIssue_ready ready]
  dsimp only
  rw [← gatherAddrs, fault]
  dsimp only
  rw [if_neg above]
  exact congrArg next (State.updCell_updCell _ _ _ _)

/-- A gather that stops at an element raises class 0x06 (04 R101). -/
theorem exec_vgather_fault (nest : (s.cell c.val).kstate.getLsbD 0 = false) (brought : Brought s u)
    (fault : gatherElems c (szBytes sz) .clean (gatherAddrs (s.cell c.val) a x sz g ext sc) [] s = .fault j e vals u) :
    exec (.vgather c d a x sz g ext sc .clean) s = .next (u.updCell c.val fun k =>
      (k.elemFaulted sz g (k.gov g) d (s.cell c.val).resumeIdx j e vals).trapEntry false 6 (BitVec.ofNat 8 j) e.addr) := by
  have issued : exec (.vgather c d a x sz g ext sc .clean) s = next (vecIssue s c (!g.rsv) _) := rfl
  have kept {α : Type} (f : Cell → α) (keep : ∀ k : Cell, f k.offCaches = f k) : f (u.cell c.val) = f (s.cell c.val) := by
    rw [← keep, brought.moves.cell, keep]
  have stopped : elemFault (u.updCell c.val fun k => k.loaded sz g (k.gov g) d (s.cell c.val).resumeIdx j vals) c j e =
      .exc ⟨6, BitVec.ofNat 8 j, e.addr⟩ (u.updCell c.val fun k => k.elemFaulted sz g (k.gov g) d (s.cell c.val).resumeIdx j e vals) :=
    congrArg _ (State.updCell_updCell _ _ _ _)
  rw [issued, legal, Bool.not_false, vecIssue_ready ready]
  dsimp only
  rw [← gatherAddrs, fault]
  change next (finish c.val (elemFault (u.updCell c.val fun k => k.loaded sz g (k.gov g) d (s.cell c.val).resumeIdx j vals) c j e)) = _
  rw [stopped, finish_exc_of_idle, State.updCell_updCell]
  · rfl
  · rw [State.cell_updCell_same]; exact (kept Cell.tpend fun _ => rfl).trans ready.1.2.2
  · rw [State.cell_updCell_same]; exact (kept Cell.faulted fun _ => rfl).trans (ready_not_faulted ready.1)
  · rw [State.cell_updCell_same]; exact (congrArg (·.getLsbD 0) (kept Cell.kstate fun _ => rfl)).trans nest

end

/-! ### O21 -/

section
variable {c : CellId} {sz : Size} {d a x : Reg} {pd : PReg} {g : Gov} {start stop : Nat} {vals : List (Nat × Nat)}

/-- What a load of the elements [start, stop) has done when it completes or stops. -/
theorem Brought.loads {w : Cell → Cell} {p : BitVec 256} {addr : Nat → W64} {as : Nat → List Nat} (brought : Brought s u)
    (coherent : Coherent s) (architectural : Architectural w)
    (reads : ∀ i < stop, start ≤ i → active sz p i = true → Reads s c (addr i) (szBytes sz) (as i))
    (v : (w (s.cell c.val)).v = ((s.cell c.val).loaded sz g p d start stop (readVals s as (elemsTo sz p start stop addr))).v) :
    (∀ i < szElems sz, elemAt sz (((u.updCell c.val w).cell c.val).v[d]) i =
      loadedElem sz g p (s.cell c.val).v[d] start stop (readVal s as) i) ∧
    (∀ m, memByte (u.updCell c.val w) m = memByte s m) ∧ onlyCell s (u.updCell c.val w) c fun k k' => k' = w k := by
  obtain ⟨mem, only⟩ := brought.changes coherent architectural
  exact ⟨fun i hi => Cell.loaded_elem reads ((congrArg Cell.v only.1 : _ = (w (s.cell c.val)).v).trans v) hi, mem, only⟩

theorem onlyCell_imp {r r' : Cell → Cell → Prop} (only : onlyCell s t c r) (weaker : ∀ k k', r k k' → r' k k') : onlyCell s t c r' :=
  ⟨weaker _ _ only.1, only.2⟩

/-- A VGATHERFF writes one predicate register. -/
theorem Cell.gatheredFf_p (k : Cell) (p : BitVec 256) :
    (k.gatheredFf sz g p d pd start stop vals).p = k.p.set pd ((k.gatheredFf sz g p d pd start stop vals).p[pd]) := by
  simp [gatheredFf, loaded, Cell.wrV, Cell.wrP]

theorem Cell.gatheredFf_v (k : Cell) (p : BitVec 256) :
    (k.gatheredFf sz g p d pd start stop vals).nextPc.v = (k.loaded sz g p d start stop vals).v := rfl

theorem architectural_gatheredFf (p : BitVec 256) : Architectural fun k => (k.gatheredFf sz g p d pd start stop vals).nextPc :=
  fun _ _ _ _ => rfl

/-- The elements that a VGATHERFF leaves active (04 R105). -/
theorem Cell.gatheredFf_active {k k' : Cell} {p : BitVec 256} (same : k'.p = (k.gatheredFf sz g p d pd start stop vals).p) {i : Nat}
    (hi : i < szElems sz) : active sz k'.p[pd] i = (active sz p i && decide (i < stop) && decide (start < szElems sz)) := by
  have written : k'.p[pd] = if start < szElems sz then cutPred sz p stop else 0 := by
    rw [same]
    simp [gatheredFf, loaded, Cell.wrV, Cell.wrP]
  rw [written]
  split
  · next some => rw [active_cutPred p stop hi, decide_eq_true some, Bool.and_true]
  · next none => rw [active_zero, decide_eq_false none, Bool.and_false]

theorem Cell.gatheredFf_eq (k : Cell) (p : BitVec 256) {k' : Cell} (same : k' = (k.gatheredFf sz g p d pd start stop vals).nextPc) :
    k' = { k with v := k.v.set d (k'.v[d]), p := k.p.set pd (k'.p[pd]), vresume := 0, pc := k.pc + 4 } := by
  subst same
  exact congrArg₂ (fun v p => ({ k with v := v, p := p, vresume := 0, pc := k.pc + 4 } : Cell)) (k.loaded_v sz g p d start stop vals)
    (k.gatheredFf_p p)

theorem onlyCell_p {w : Cell → Cell} (only : onlyCell s t c fun k k' => k' = w k) : (t.cell c.val).p = (w (s.cell c.val)).p :=
  (congrArg Cell.p only.1 :)

variable {ext sc : Bool} {as : Nat → List Nat} {j : Nat} {dt : Byte} (ready : VReady s c) (legal : g.rsv = false)
  (coherent : Coherent s) (clean : Unpoisoned s)
include ready legal coherent clean

theorem vld_loads (reads : ∀ i < szElems sz, 0 ≤ i → active sz ((s.cell c.val).gov g) i = true →
      Reads s c ((s.cell c.val).rdG a + BitVec.ofNat 64 (szBytes sz * i)) (szBytes sz) (as i)) :
    ∃ t, exec (.vld c d a sz g .clean) s = .next t ∧
      (∀ i < szElems sz, elemAt sz ((t.cell c.val).v[d]) i =
        loadedElem sz g ((s.cell c.val).gov g) (s.cell c.val).v[d] 0 (szElems sz) (readVal s as) i) ∧
      (∀ m, memByte t m = memByte s m) ∧
      onlyCell s t c fun k k' => k' = { k with v := k.v.set d (k'.v[d]), pc := k.pc + 4 } := by
  obtain ⟨u, brought, all⟩ := gatherElems_all coherent clean reads
  have each : ∀ e ∈ elemAddrs sz ((s.cell c.val).gov g) 0 fun i => (s.cell c.val).rdG a + BitVec.ofNat 64 (szBytes sz * i),
      Reads s c e.2 (szBytes sz) (as e.1) := fun e he => by
    obtain ⟨hi, low, on, at_⟩ := mem_elemsTo.mp he
    rw [at_]
    exact reads e.1 hi low on
  obtain ⟨loaded, mem, only⟩ := brought.loads (g := g) (d := d)
    (w := fun k => (k.loaded sz g (k.gov g) d 0 (szElems sz) _).nextPc) coherent (fun _ _ _ _ => rfl) reads rfl
  refine ⟨_, exec_vld ready legal rfl each all, loaded, mem, onlyCell_imp only fun k k' same => ?_⟩
  subst same
  exact congrArg (fun v => ({ k with v := v, pc := k.pc + 4 } : Cell)) (k.loaded_v _ _ _ _ _ _ _)

section
variable (reads : ∀ i < szElems sz, (s.cell c.val).resumeIdx ≤ i → active sz ((s.cell c.val).gov g) i = true →
  Reads s c (indexAddr (s.cell c.val) a x sz ext sc i) (szBytes sz) (as i))
include reads

theorem vgather_loads : ∃ t, exec (.vgather c d a x sz g ext sc .clean) s = .next t ∧
    (∀ i < szElems sz, elemAt sz ((t.cell c.val).v[d]) i =
      loadedElem sz g ((s.cell c.val).gov g) (s.cell c.val).v[d] (s.cell c.val).resumeIdx (szElems sz) (readVal s as) i) ∧
    (∀ m, memByte t m = memByte s m) ∧
    onlyCell s t c fun k k' => k' = { k with v := k.v.set d (k'.v[d]), vresume := 0, pc := k.pc + 4 } := by
  obtain ⟨u, brought, all⟩ := gatherElems_all coherent clean reads
  obtain ⟨loaded, mem, only⟩ := brought.loads (g := g) (d := d)
    (w := fun k => (k.gathered sz g (k.gov g) d (s.cell c.val).resumeIdx (szElems sz) _).nextPc) coherent (fun _ _ _ _ => rfl) reads rfl
  refine ⟨_, exec_vgather_all ready legal all, loaded, mem, onlyCell_imp only fun k k' same => ?_⟩
  subst same
  exact congrArg (fun v => ({ k with v := v, vresume := 0, pc := k.pc + 4 } : Cell)) (k.loaded_v _ _ _ _ _ _ _)

theorem vgatherff_loads : ∃ t, exec (.vgatherff c d a x pd sz g ext sc .clean) s = .next t ∧
    (∀ i < szElems sz, elemAt sz ((t.cell c.val).v[d]) i =
      loadedElem sz g ((s.cell c.val).gov g) (s.cell c.val).v[d] (s.cell c.val).resumeIdx (szElems sz) (readVal s as) i) ∧
    (∀ m, memByte t m = memByte s m) ∧
    (∀ i < szElems sz, active sz ((t.cell c.val).p[pd]) i =
      (active sz ((s.cell c.val).gov g) i && decide ((s.cell c.val).resumeIdx < szElems sz))) ∧
    onlyCell s t c fun k k' =>
      k' = { k with v := k.v.set d (k'.v[d]), p := k.p.set pd (k'.p[pd]), vresume := 0, pc := k.pc + 4 } := by
  obtain ⟨u, brought, all⟩ := gatherElems_all coherent clean reads
  obtain ⟨loaded, mem, only⟩ := brought.loads (g := g) (d := d)
    coherent (architectural_gatheredFf (pd := pd) _) reads (Cell.gatheredFf_v _ _)
  refine ⟨_, exec_vgatherff_all ready legal all, loaded, mem, fun i hi => ?_, onlyCell_imp only fun k _ => k.gatheredFf_eq _⟩
  rw [Cell.gatheredFf_active (onlyCell_p only) hi, decide_eq_true hi, Bool.and_true]

end

variable (low : (s.cell c.val).resumeIdx ≤ j) (hj : j < szElems sz) (on : active sz ((s.cell c.val).gov g) j = true)
  (reads : ∀ i < j, (s.cell c.val).resumeIdx ≤ i → active sz ((s.cell c.val).gov g) i = true →
    Reads s c (indexAddr (s.cell c.val) a x sz ext sc i) (szBytes sz) (as i))
  (fault : xlate s c.val (indexAddr (s.cell c.val) a x sz ext sc j).toNat = .error dt)
include low hj on reads fault

/-- A VGATHERFF cut at its element `j` (04 R105). -/
theorem vgatherff_cut (below : ∃ i < j, (s.cell c.val).resumeIdx ≤ i ∧ active sz ((s.cell c.val).gov g) i = true) :
    ∃ t, exec (.vgatherff c d a x pd sz g ext sc .clean) s = .next t ∧
      (∀ i < szElems sz, elemAt sz ((t.cell c.val).v[d]) i =
        loadedElem sz g ((s.cell c.val).gov g) (s.cell c.val).v[d] (s.cell c.val).resumeIdx j (readVal s as) i) ∧
      (∀ m, memByte t m = memByte s m) ∧
      (∀ i < szElems sz, active sz ((t.cell c.val).p[pd]) i = (active sz ((s.cell c.val).gov g) i && decide (i < j))) ∧
      onlyCell s t c fun k k' =>
        k' = { k with v := k.v.set d (k'.v[d]), p := k.p.set pd (k'.p[pd]), vresume := 0, pc := k.pc + 4 } := by
  have within : (s.cell c.val).resumeIdx < szElems sz := Nat.lt_of_le_of_lt low hj
  obtain ⟨u, brought, stops⟩ := gatherElems_fault coherent clean low hj on reads fault
  obtain ⟨loaded, mem, only⟩ := brought.loads (g := g) (d := d)
    coherent (architectural_gatheredFf (pd := pd) _) reads (Cell.gatheredFf_v _ _)
  refine ⟨_, exec_vgatherff_fault ready legal stops (elemAddrs_head_ne low hj on below), loaded, mem, fun i hi => ?_,
    onlyCell_imp only fun k _ => k.gatheredFf_eq _⟩
  rw [Cell.gatheredFf_active (onlyCell_p only) hi, decide_eq_true within, Bool.and_true]

/-- A VGATHER stopped at its element `j` (04 R101). -/
theorem vgather_stops (nest : (s.cell c.val).kstate.getLsbD 0 = false) :
    ∃ t, exec (.vgather c d a x sz g ext sc .clean) s = .next t ∧
      (t.cell c.val).kcause = BitVec.ofNat 32 (6 + 256 * (j % 256)) ∧
      (t.cell c.val).kaddr = indexAddr (s.cell c.val) a x sz ext sc j ∧ (t.cell c.val).krpc = (s.cell c.val).pc ∧
      (t.cell c.val).vresume = BitVec.ofNat 32 j ∧ (t.cell c.val).vfcause = BitVec.ofNat 32 (3 + 256 * dt.toNat) ∧
      (∀ i < szElems sz, elemAt sz ((t.cell c.val).v[d]) i =
        loadedElem sz g ((s.cell c.val).gov g) (s.cell c.val).v[d] (s.cell c.val).resumeIdx j (readVal s as) i) ∧
      ∀ m, memByte t m = memByte s m := by
  obtain ⟨u, brought, stops⟩ := gatherElems_fault coherent clean low hj on reads fault
  obtain ⟨loaded, mem, only⟩ := brought.loads (g := g) (d := d)
    (w := fun k => (k.elemFaulted sz g (k.gov g) d (s.cell c.val).resumeIdx j
      ⟨3, dt, indexAddr (s.cell c.val) a x sz ext sc j⟩ _).trapEntry false 6 (BitVec.ofNat 8 j)
        (indexAddr (s.cell c.val) a x sz ext sc j)) coherent (fun _ _ _ _ => rfl) reads rfl
  have cell := only.1
  have cause : BitVec.ofNat 32 (b2n false * 65536 + (BitVec.ofNat 8 j).toNat * 256 + (6 : Byte).toNat) =
      BitVec.ofNat 32 (6 + 256 * (j % 256)) := by
    rw [BitVec.toNat_ofNat, b2n]
    refine congrArg _ ?_
    simp
    omega
  exact ⟨_, exec_vgather_fault ready legal nest brought stops, (congrArg Cell.kcause cell :).trans cause, (congrArg Cell.kaddr cell :),
    (congrArg Cell.krpc cell :), (congrArg Cell.vresume cell :), (congrArg Cell.vfcause cell :), loaded, mem⟩

end

/-- Settles O21: reads leave to the reads after them what these meet (`Brought`), so that a range of elements is read up to the first one
that faults, and an element of Vd is the value read. -/
theorem vectorLoadsComplete : Obligations.VectorLoadsComplete := by
  constructor
  · intro s c sz d a x pd g ext sc as ready legal coherent clean k st val from_
    have all {lo : Nat} {t : State} (loaded : ∀ i < szElems sz, elemAt sz ((t.cell c.val).v[d]) i =
        loadedElem sz g (k.gov g) k.v[d] lo (szElems sz) (readVal s as) i) : from_ lo t :=
      fun i hi => (loaded i hi).trans (loadedElem_all hi)
    refine ⟨fun reads => ?vld, fun reads => ⟨?vgather, ?vgatherff⟩⟩
    case vld =>
      obtain ⟨t, exec, loaded, rest⟩ := vld_loads (d := d) ready legal coherent clean fun i hi _ on => reads i hi on
      exact ⟨t, exec, all loaded, rest⟩
    case vgather =>
      obtain ⟨t, exec, loaded, rest⟩ := vgather_loads (d := d) ready legal coherent clean reads
      exact ⟨t, exec, all loaded, rest⟩
    case vgatherff =>
      obtain ⟨t, exec, loaded, rest⟩ := vgatherff_loads (d := d) (pd := pd) ready legal coherent clean reads
      exact ⟨t, exec, all loaded, rest⟩
  · intro s c sz d a x pd g ext sc as j dt ready legal coherent clean k nest low hj on reads fault below
    exact ⟨vgatherff_cut ready legal coherent clean low hj on reads fault,
      vgather_stops ready legal coherent clean low hj on reads fault nest⟩

end Sys2Proof.Machine
end

section
/-! PROOFS. Vector stores through a memory window that names no memory (04 R86, R99, 16 R373): O22 and O23. -/

namespace Sys2Proof.Machine

/-- `tileWindowState` with byte element 0 of V0 at 1, and P0 at 1: of bytes it makes element 0 alone active. -/
def tileWindowVecState : State :=
  tileWindowState.updCell 0 fun k => { k with v := Cell.reset.v.set 0 (ofElems .b [1]), p := Cell.reset.p.set 0 1 }

/-- Whether a cell is ready does not depend on its vector and predicate registers. -/
theorem VReady.setVectors {s : State} {c : CellId} (ready : VReady s c) (v : Vector (BitVec 2048) 32) (p : Vector (BitVec 256) 16) :
    VReady (s.updCell c.val fun k => { k with v := v, p := p }) c := by
  obtain ⟨⟨issues, quiet, idle⟩, powered⟩ := ready
  refine ⟨⟨?_, ?_, ?_⟩, ?_⟩
  · simp only [canIssue, State.cell_updCell_same, State.updCell_block]
    exact issues
  · simp only [dueInterrupt, kipend, ctime, State.cell_updCell_same, State.updCell_block]
    exact quiet
  · rw [State.cell_updCell_same]; exact idle
  · rw [State.cell_updCell_same]; exact powered

theorem tileWindowVecState_ready : VReady tileWindowVecState 0 :=
  VReady.setVectors (c := 0) ⟨tileWindowState_ready, rfl⟩ _ _

theorem tileWindowVecState_l1d (c : Nat) : (tileWindowVecState.cell c).l1d.lines = [] := by
  rw [tileWindowVecState, State.cell_updCell]
  split
  · rfl
  · next other => simp [State.cell, tileWindowState, Tab.get, other, Cell.reset, Cache.reset]

theorem tileWindowVecState_l2 (b : Nat) : (tileWindowVecState.block b).l2.lines = [] := by
  rw [tileWindowVecState, State.updCell_block]
  by_cases h : 0 = b <;> simp [State.block, tileWindowState, Tab.get, h, Block.reset, Cache.reset]

theorem tileWindowVecState_coherent : Coherent tileWindowVecState := by
  refine ⟨fun c => ?_, fun b => ?_⟩
  · rw [tileWindowVecState_l1d]; exact List.forall_mem_nil _
  · rw [tileWindowVecState_l2]; exact List.forall_mem_nil _

theorem tileWindowVecState_unpoisoned : Unpoisoned tileWindowVecState := by
  refine ⟨rfl, fun c => ?_, fun b => ?_⟩
  · rw [tileWindowVecState_l1d]; exact List.forall_mem_nil _
  · rw [tileWindowVecState_l2]; exact List.forall_mem_nil _

/-- The first 32 bytes of the tile window. -/
def tileWindowBytes : List Nat := (List.range 32).map (0x20000000000 + ·)

theorem tileWindowVecState_writesByte : Writes tileWindowVecState 0 0 1 [0x20000000000] := by
  unfold Writes PathOpen; decide

theorem tileWindowVecState_writesBytes : Writes tileWindowVecState 0 0 32 tileWindowBytes := by
  unfold Writes PathOpen; decide

/-- Refutes O22. As with O9, `Writes` does not ask that the addresses be memory (`isMem`): in `tileWindowVecState` the partition's one
memory window names tile windows, which hold no byte of memory. A VST.B of V0 at partition-relative address 0 would have to leave element
0, which is 1, there. -/
theorem not_vectorStoresComplete : ¬ Obligations.VectorStoresComplete := by
  intro h
  obtain ⟨stores, -⟩ := h tileWindowVecState 0 .b 0 0 0 ⟨0, false, false⟩ false false (fun _ => [0x20000000000])
    tileWindowVecState_ready rfl rfl tileWindowVecState_coherent tileWindowVecState_unpoisoned
  have only (i : Nat) (on : active .b ((tileWindowVecState.cell 0).gov ⟨0, false, false⟩) i = true) : i = 0 := by
    change (1 : BitVec 256).getLsbD (i * 1) = true at on
    simpa using on
  have writes : ∀ i, 0 ≤ i ∧ i < szElems .b ∧ active .b ((tileWindowVecState.cell 0).gov ⟨0, false, false⟩) i = true →
      Writes tileWindowVecState 0 (0 + BitVec.ofNat 64 (1 * i)) 1 [0x20000000000] := by
    rintro i ⟨-, -, on⟩
    rw [only i on]
    exact tileWindowVecState_writesByte
  obtain ⟨t, -, ⟨bytes, -⟩, -⟩ := stores writes
  have element : elemAt .b ((tileWindowVecState.cell 0).v[(0 : Reg)]) 0 = 1 := by
    rw [tileWindowVecState, State.cell_updCell_same]
    exact elemAt_ofElems (z := .b) (l := [1]) (by decide) 0
  have first : memByte t 0x20000000000 = (leBytes 1 (elemAt .b ((tileWindowVecState.cell 0).v[(0 : Reg)]) 0)).getD 0 0 :=
    bytes 0 0 ⟨Nat.le_refl 0, by decide, by decide⟩ Nat.one_pos fun j above on => absurd (only j on.2.2) (by omega)
  rw [element, memByte_of_not_isMem t (by decide)] at first
  exact absurd first (by decide)

/-- Refutes O23, whose clause about PST has the fault of O22: in `tileWindowVecState` a PST of P0 at partition-relative address 0 would have
to leave the lowest byte of P0, which is 1, in a tile window. -/
theorem not_predicateMovesStrandsAndPowerComplete : ¬ Obligations.PredicateMovesStrandsAndPowerComplete := by
  rintro ⟨moves, -⟩
  obtain ⟨-, pst, -⟩ := moves tileWindowVecState 0 0 0 0 0 ⟨0, false, false⟩ tileWindowBytes [] tileWindowVecState_coherent
    tileWindowVecState_unpoisoned
  obtain ⟨t, -, ⟨bytes, -⟩, -⟩ := pst tileWindowVecState_ready tileWindowVecState_writesBytes
  have first : memByte t 0x20000000000 = 1 := Option.some.inj (congrArg List.head? bytes)
  rw [memByte_of_not_isMem t (by decide)] at first
  exact absurd first (by decide)

end Sys2Proof.Machine
end

section
/-! PROOFS. Instructions that change only their own cell, on a cell whose vector datapaths are powered (04 R87, R109), and what a predicated
result leaves in Vd and in the sticky flags (04 R87, R90, R92). -/

namespace Sys2Proof.Machine

/-! ### Elements of a register -/

theorem elemAt_lt (z : Size) (v : BitVec 2048) (i : Nat) : elemAt z v i < 2 ^ szBits z := Nat.mod_lt _ (Nat.two_pow_pos _)

theorem getD_map_range {α : Type} (f : Nat → α) (x : α) {n i : Nat} (hi : i < n) : ((List.range n).map f).getD i x = f i := by
  rw [List.getD_eq_getElem?_getD, List.getElem?_map, List.getElem?_range hi, Option.map_some, Option.getD_some]

/-- An element of a register made of a function of its number. -/
theorem elemAt_ofElems_range {z : Size} (f : Nat → Nat) {i : Nat} (hi : i < szElems z) :
    elemAt z (ofElems z ((List.range (szElems z)).map f)) i = f i % 2 ^ szBits z := by
  rw [elemAt_ofElems (by simp), getD_map_range f 0 hi]

theorem active_ofActive_range {z : Size} (f : Nat → Bool) {i : Nat} (hi : i < szElems z) :
    active z (ofActive z ((List.range (szElems z)).map f)) i = f i := by
  rw [active_ofActive hi, getD_map_range f false hi]

/-- 04 R87. -/
theorem elemAt_mergeElems {z : Size} (g : Gov) (p : BitVec 256) (old : BitVec 2048) (f : Nat → Nat) {i : Nat} (hi : i < szElems z) :
    elemAt z (mergeElems z g p old f) i =
      if active z p i then f i % 2 ^ szBits z else if g.zero then 0 else elemAt z old i := by
  rw [mergeElems, elemAt_ofElems_range _ hi]
  split
  · rfl
  · split
    · exact Nat.zero_mod _
    · exact Nat.mod_eq_of_lt (elemAt_lt z old i)

/-! ### Instructions that change their own cell -/

section
variable {s : State} {c : CellId} {w : Cell → Cell}

theorem retired_cell (s : State) (c : CellId) (w : Cell → Cell) : (retired s c w).cell c.val = (w (s.cell c.val)).nextPc :=
  State.cell_updCell_same _ _ _

theorem retired_congr {w' : Cell → Cell} (same : w (s.cell c.val) = w' (s.cell c.val)) : retired s c w = retired s c w' :=
  updCell_congr (congrArg Cell.nextPc same)

/-- A legal vector instruction that changes its own cell completes. -/
theorem vecIssue_onCell (ready : VReady s c) {legal : Bool} (isLegal : legal = true) :
    next (vecIssue s c legal fun s => onCell s c w) = .next (retired s c w) := by
  rw [isLegal, vecIssue_ready ready, onCell, finish_done, State.updCell_updCell]
  rfl

/-- Vd after an instruction that merges a result into it. -/
theorem elemsAre_of_merge {z : Size} {g : Gov} {d : Reg} {f : Nat → Nat}
    (merges : (w (s.cell c.val)).v[d] = mergeElems z g ((s.cell c.val).gov g) (s.cell c.val).v[d] f) :
    elemsAre z g (s.cell c.val) d (retired s c w) c f := fun i hi => by
  rw [retired_cell]
  exact (congrArg (elemAt z · i) merges).trans (elemAt_mergeElems g _ _ f hi)

end

/-! ### Predicated results -/

section
variable (z : Size) (g : Gov) (k : Cell) (d : Reg)

theorem Cell.wrV_same (v : BitVec 2048) : (k.wrV d v).v[d] = v := by simp [wrV]

theorem vecInt_v (f : Nat → Nat) : (vecInt z g k d f).v[d] = mergeElems z g (k.gov g) k.v[d] f := k.wrV_same d _

theorem vecInt_rest (f : Nat → Nat) : vecInt z g k d f = { k with v := k.v.set d ((vecInt z g k d f).v[d]) } := by
  rw [vecInt_v]
  rfl

/-- The elements of a result with flags. -/
theorem ofElems_vecMap {α : Type} (e : α) (f : Nat → Nat × α) :
    ofElems z ((vecMap z g k d e f).map (·.1)) = mergeElems z g (k.gov g) k.v[d] fun i => (f i).1 := by
  simp only [vecMap, mergeElems, List.map_map, Function.comp_def, apply_ite Prod.fst]

theorem vecFp_v (f : Nat → Nat × Fl) : (vecFp z g k d f).v[d] = mergeElems z g (k.gov g) k.v[d] fun i => (f i).1 :=
  (k.wrV_same d _).trans (ofElems_vecMap z g k d Fl.none f)

theorem vecSat_v (f : Nat → Nat × Bool) : (vecSat z g k d f).v[d] = mergeElems z g (k.gov g) k.v[d] fun i => (f i).1 := by
  rw [← ofElems_vecMap z g k d false f, ← k.wrV_same d (ofElems z _), vecSat, Cell.orSat]
  split <;> rfl

theorem vecSat_rest (f : Nat → Nat × Bool) :
    vecSat z g k d f = { k with v := k.v.set d ((vecSat z g k d f).v[d]), vstat := (vecSat z g k d f).vstat } := by
  rw [vecSat_v, ← ofElems_vecMap z g k d false f, vecSat, Cell.orSat]
  split <;> rfl

/-- Whether a clamp of an active element changed its value (04 R92). -/
theorem vecMap_any (f : Nat → Nat × Bool) : (vecMap z g k d false f).any (·.2) = true ↔
    ∃ i < szElems z, active z (k.gov g) i = true ∧ (f i).2 = true := by
  simp only [vecMap, List.any_map, List.any_eq_true, List.mem_range, Function.comp_apply, apply_ite Prod.snd]
  refine exists_congr fun i => and_congr_right fun _ => ?_
  cases active z (k.gov g) i <;> simp

theorem vecSat_vstat (f : Nat → Nat × Bool) :
    (vecSat z g k d f).vstat = if (vecMap z g k d false f).any (·.2) then k.vstat ||| 1 else k.vstat := by
  rw [vecSat, Cell.orSat]
  split <;> rfl

theorem or_one_eq_self (x : W32) : x = x ||| 1 ↔ x &&& 1 = 1 := by
  constructor
  · intro kept
    rw [kept]
    ext i
    simp +contextual
  · intro set
    rw [← set]
    ext i
    rw [BitVec.getElem_or, BitVec.getElem_and]
    cases x[i] <;> rfl

theorem vecSat_vstat_iff (f : Nat → Nat × Bool) : (vecSat z g k d f).vstat = k.vstat ||| 1 ↔
    k.vstat &&& 1 = 1 ∨ ∃ i < szElems z, active z (k.gov g) i = true ∧ (f i).2 = true := by
  rw [vecSat_vstat, ← vecMap_any z g k d f, ← or_one_eq_self]
  split
  · next sat => simp [sat]
  · next sat => simp [sat]

theorem vecSat_vstat_or (f : Nat → Nat × Bool) : (vecSat z g k d f).vstat = k.vstat ∨ (vecSat z g k d f).vstat = k.vstat ||| 1 := by
  rw [vecSat_vstat]
  split
  · exact .inr rfl
  · exact .inl rfl

/-- The sticky flags lie below bit 7 (03 R56). -/
theorem Fl.bits_below (f : Fl) : BitVec.ofNat 32 f.bits &&& ~~~0x7F = 0 := by
  have all : ∀ nv dz of uf nx, BitVec.ofNat 32 (Fl.bits ⟨nv, dz, of, uf, nx⟩) &&& ~~~0x7F = 0 := by decide
  exact all f.nv f.dz f.of f.uf f.nx

/-- Flags are gained (03 R55, 04 R90). -/
theorem stickyOnly_orFl (f : Fl) : stickyOnly k.fstat (k.orFl f).fstat := by
  refine ⟨k.orFl_gains f, k.orFl_rm f, ?_⟩
  rw [Cell.orFl, BitVec.and_or_distrib_right, f.bits_below]
  exact BitVec.or_zero

end

/-! ### O15 -/

section
variable {s : State} {c : CellId} {i : Instr} {legal : Bool} {w : Cell → Cell} {z : Size} {g : Gov} {d : Reg}

/-- A predicated floating-point instruction (04 R90); `w'` is its effect as a statement writes it. -/
theorem vecFp_completes (ready : VReady s c) {w' : Cell → Cell} (f : Nat → Nat × Fl)
    (is : exec i s = next (vecIssue s c legal fun s => onCell s c w)) (isLegal : legal = true)
    (effect : w (s.cell c.val) = vecFp z g (s.cell c.val) d f) (stated : w' (s.cell c.val) = vecFp z g (s.cell c.val) d f) :
    ∃ t, exec i s = .next t ∧ elemsAre z g (s.cell c.val) d t c (fun i => (f i).1) ∧
      stickyOnly (s.cell c.val).fstat (t.cell c.val).fstat ∧ t = retired s c w' := by
  refine ⟨_, is.trans (vecIssue_onCell ready isLegal), elemsAre_of_merge ?_, ?_, retired_congr (effect.trans stated.symm)⟩
  · rw [effect]
    exact vecFp_v z g _ d _
  · rw [retired_cell, effect]
    exact stickyOnly_orFl (s.cell c.val) _

/-- A predicated saturating instruction (04 R92). -/
theorem vecSat_completes (ready : VReady s c) (f : Nat → Nat × Bool)
    (is : exec i s = next (vecIssue s c legal fun s => onCell s c w)) (isLegal : legal = true)
    (effect : w (s.cell c.val) = vecSat z g (s.cell c.val) d f) :
    ∃ t, exec i s = .next t ∧ elemsAre z g (s.cell c.val) d t c (fun i => (f i).1) ∧
      ((t.cell c.val).vstat = (s.cell c.val).vstat ||| 1 ↔ (s.cell c.val).vstat &&& 1 = 1 ∨
        ∃ i < szElems z, active z ((s.cell c.val).gov g) i = true ∧ (f i).2 = true) ∧
      ((t.cell c.val).vstat = (s.cell c.val).vstat ∨ (t.cell c.val).vstat = (s.cell c.val).vstat ||| 1) ∧
      t = retired s c fun k => { k with v := k.v.set d ((t.cell c.val).v[d]), vstat := (t.cell c.val).vstat } := by
  refine ⟨_, is.trans (vecIssue_onCell ready isLegal), elemsAre_of_merge ?_, ?_⟩
  · rw [effect]
    exact vecSat_v z g _ d f
  · rw [retired_cell, effect]
    exact ⟨vecSat_vstat_iff z g _ d f, vecSat_vstat_or z g _ d f, retired_congr (effect.trans (vecSat_rest z g _ d f))⟩

end

/-- Settles O15: each instruction merges a function of its operands' elements into Vd (`vecInt`, `vecFp`, `vecSat`). -/
theorem vectorElementwiseComplete : Obligations.VectorElementwiseComplete := by
  intro s c g sz d a b ready unreserved k el
  have legal : (!g.rsv) = true := by rw [unreserved]; rfl
  refine ⟨fun op known => ?int, fun op bc fp unary => ?fp, fun rnd size => ?fx, fun sub uns => ?sat, fun op fp => ?cvt⟩
  case int =>
    refine ⟨_, vecIssue_onCell ready ?_, elemsAre_of_merge (vecInt_v sz g _ d _), ?_⟩
    · rw [known, legal]
      rfl
    · rw [retired_cell]
      exact retired_congr (vecInt_rest sz g _ d _)
  case fp =>
    refine vecFp_completes ready (fun i => fpBits op (szFmt sz) k.frm (el a i) (if bc then el b 0 else el b i) (el d i)) rfl ?_ rfl rfl
    rw [fp, legal]
    cases one : vFpUnary op with
    | false => rfl
    | true =>
      obtain ⟨rfl, rfl⟩ := unary one
      rfl
  case fx =>
    refine vecSat_completes ready (fun i => vFxElem rnd (szBits sz) (sgnElem sz (el a i)) (sgnElem sz (el b i))) rfl ?_ rfl
    rw [decide_eq_true size, legal]
    rfl
  case sat => exact vecSat_completes ready (fun i => vSatElem sz sub uns (el a i) (el b i)) rfl legal rfl
  case cvt =>
    refine vecFp_completes ready (fun i => vCvtElem op sz k.frm (el a i)) rfl ?_ rfl rfl
    rw [fp, legal]
    rfl

end Sys2Proof.Machine
end

section
/-! PROOFS. The vector conversions that change the element width (04 R92, 09 R217, R218): O17. -/

namespace Sys2Proof.Machine

/-- Settles O17: the instructions of O15's form, with the elements of Vd of another size than those they read. -/
theorem vectorWidthChangesComplete : Obligations.VectorWidthChangesComplete := by
  intro s c g sz d a b ready unreserved k
  have legal : (!g.rsv) = true := by rw [unreserved]; rfl
  refine ⟨fun hi fp => ?widen, fun fp => ?narrow, fun var sh rnd src n known shift => ?pack⟩
  case widen =>
    refine vecFp_completes ready (fun i => fpConv (narrowFmt sz) (szFmt sz) k.frm
      (elemAt (narrowSz sz) k.v[a] ((if hi then szElems sz else 0) + i))) rfl ?_ rfl rfl
    rw [fp, legal]
    rfl
  case narrow =>
    refine vecFp_completes ready (fun i => fpConv (szFmt sz) (narrowFmt sz) k.frm
      (if i < szElems sz then elemAt sz k.v[a] i else elemAt sz k.v[b] (i - szElems sz))) rfl ?_ rfl rfl
    rw [fp, legal]
    rfl
  case pack =>
    have packs : exec (.vpacks c var sh rnd d a b g) s = next (vecIssue s c true fun s => onCell s c fun k =>
        vecSat (halfSz src) g k d fun i => vPackElem var src n rnd
          (if i < szElems src then elemAt src k.v[a] i else elemAt src k.v[b] (i - szElems src))) := by
      change next (vecIssue s c (decide (var ≠ .reserved) && (szsh sh.toNat).isSome && !g.rsv) _) = _
      rw [shift, legal, decide_eq_true known]
      rfl
    exact vecSat_completes ready (fun i => vPackElem var src n rnd
      (if i < szElems src then elemAt src k.v[a] i else elemAt src k.v[b] (i - szElems src))) packs rfl rfl

end Sys2Proof.Machine
end

section
/-! PROOFS. The predicate instructions (04 R86, R89): O18. -/

namespace Sys2Proof.Machine

/-- Fields that are all ones, one above the other, are all ones. -/
theorem packed_replicate_ones (w n : Nat) : packed w (List.replicate n (2 ^ w - 1)) = 2 ^ (w * n) - 1 := by
  induction n with
  | zero => rfl
  | succ n ih =>
    have field := Nat.two_pow_pos w
    have above := Nat.two_pow_pos (w * n)
    rw [List.replicate_succ, packed, List.foldr_cons, ← packed, ih, Nat.mod_eq_of_lt (by omega), Nat.mul_succ, Nat.pow_add,
      Nat.sub_mul, Nat.one_mul]
    have : 2 ^ w ≤ 2 ^ (w * n) * 2 ^ w := Nat.le_mul_of_pos_left _ above
    omega

/-- Every element active (04 R86). -/
theorem ofActive_replicate_true (z : Size) : ofActive z (List.replicate (szElems z) true) = BitVec.allOnes 256 := by
  rw [ofActive_eq, List.map_replicate, activeField, if_pos rfl, packed_replicate_ones, szBytes_mul_szElems]
  rfl

theorem Cell.wrP_same (k : Cell) (pd : PReg) (v : BitVec 256) : (k.wrP pd v).p[pd] = v := by simp [wrP]

theorem Cell.orFl_none (k : Cell) : k.orFl Fl.none = k := by
  have kept : k.fstat ||| 0 = k.fstat := BitVec.or_zero
  exact congrArg (fun x => { k with fstat := x }) kept

/-- Flags gathered from results that raise none. -/
theorem foldl_or_none {α : Type} {l : List (α × Fl)} (none : ∀ r ∈ l, r.2 = Fl.none) :
    l.foldl (fun f r => f.or r.2) Fl.none = Fl.none := by
  induction l with
  | nil => rfl
  | cons r l ih =>
    rw [List.foldl_cons, none r List.mem_cons_self]
    exact ih fun x hx => none x (List.mem_cons_of_mem r hx)

/-- An integer comparison raises no flag (04 R89). -/
theorem vCmpElem_flags {op : VCmpOp} (int : vCmpFp op = false) (sz : Size) (a b : Nat) : (vCmpElem op sz a b).2 = Fl.none := by
  cases op <;> cases int <;> rfl

section
variable (k : Cell) (op : VCmpOp) (sz : Size) (pd : PReg) (a b : Reg) (g : Gov)

/-- The results of a VCMP, of element 0 first: an inactive element compares false and raises nothing (04 R89). -/
def vcmpResults : List (Bool × Fl) :=
  (List.range (szElems sz)).map fun i =>
    if active sz (k.gov g) i then vCmpElem op sz (elemAt sz k.v[a] i) (elemAt sz k.v[b] i) else (false, Fl.none)

/-- A cell that has completed a VCMP. -/
def Cell.compared : Cell :=
  (k.wrP pd (ofActive sz ((vcmpResults k op sz a b g).map (·.1)))).orFl
    ((vcmpResults k op sz a b g).foldl (fun f r => f.or r.2) Fl.none)

theorem Cell.compared_active {i : Nat} (hi : i < szElems sz) : active sz ((k.compared op sz pd a b g).p[pd]) i =
    (active sz (k.gov g) i && (vCmpElem op sz (elemAt sz k.v[a] i) (elemAt sz k.v[b] i)).1) := by
  have written : (k.compared op sz pd a b g).p[pd] = _ := k.wrP_same pd _
  rw [written, vcmpResults, List.map_map, active_ofActive_range _ hi, Function.comp_apply]
  cases active sz (k.gov g) i <;> rfl

theorem Cell.compared_fstat (int : vCmpFp op = false) : (k.compared op sz pd a b g).fstat = k.fstat := by
  have none : ∀ r ∈ vcmpResults k op sz a b g, r.2 = Fl.none := by
    intro r mem
    obtain ⟨i, -, rfl⟩ := List.mem_map.mp mem
    split
    · exact vCmpElem_flags int sz _ _
    · rfl
  rw [Cell.compared, foldl_or_none none, Cell.orFl_none]
  rfl

theorem Cell.compared_rest : k.compared op sz pd a b g = { k with
    p := k.p.set pd ((k.compared op sz pd a b g).p[pd]), fstat := (k.compared op sz pd a b g).fstat } := by
  have written : (k.compared op sz pd a b g).p[pd] = _ := k.wrP_same pd _
  rw [written]
  rfl

end

/-- Settles O18: each instruction writes one register of its own cell, and VCMP gains flags. -/
theorem predicateInstructionsComplete : Obligations.PredicateInstructionsComplete := by
  intro s c sz pd pa pb d a b r g ready unreserved merging k
  have plain : govPlain g = true := by rw [govPlain, unreserved, merging]; rfl
  refine ⟨?pset, vecIssue_onCell ready rfl, ?ptail, vecIssue_onCell ready rfl, vecIssue_onCell ready rfl, vecIssue_onCell ready rfl,
    vecIssue_onCell ready rfl, vecIssue_onCell ready rfl, vecIssue_onCell ready plain, vecIssue_onCell ready rfl, fun op fp => ?vcmp⟩
  case pset =>
    rw [← ofActive_replicate_true sz]
    exact vecIssue_onCell ready rfl
  case ptail =>
    refine ⟨_, vecIssue_onCell ready rfl, fun i hi => ?_, retired_congr ?_⟩
    · rw [retired_cell]
      exact (congrArg (active sz · i) (k.wrP_same pd _)).trans (active_ofActive_range _ hi)
    · rw [retired_cell]
      exact congrArg (k.wrP pd) (k.wrP_same pd _).symm
  case vcmp =>
    have legal : (govPlain g && (!vCmpFp op || szFp sz)) = true := by
      rw [plain]
      cases float : vCmpFp op with
      | false => rfl
      | true => rw [fp float]; rfl
    have compares : exec (.vcmp c op sz pd a b g) s = .next (retired s c (Cell.compared · op sz pd a b g)) :=
      vecIssue_onCell ready legal
    refine ⟨_, compares, ?_⟩
    rw [retired_cell]
    exact ⟨fun i => k.compared_active op sz pd a b g, k.compared_fstat op sz pd a b g,
      stickyOnly_orFl (k.wrP pd _) _, retired_congr (k.compared_rest op sz pd a b g)⟩

end Sys2Proof.Machine
end

section
/-! PROOFS. The permutes (04 R98): O20. -/

namespace Sys2Proof.Machine

section
variable {s : State} {c : CellId} {i : Instr} {legal : Bool} {w : Cell → Cell} {sz : Size} {d : Reg}

/-- A permute: element `j` of Vd is `f j`, which a statement writes as `f' j`. -/
theorem permute_completes (ready : VReady s c) {f f' : Nat → Nat} (is : exec i s = next (vecIssue s c legal fun s => onCell s c w))
    (isLegal : legal = true) (effect : w (s.cell c.val) = permute (s.cell c.val) sz d f) (value : ∀ j < szElems sz, f j = f' j)
    (fits : ∀ j < szElems sz, f' j < 2 ^ szBits sz) :
    ∃ t, exec i s = .next t ∧ (∀ j < szElems sz, elemAt sz ((t.cell c.val).v[d]) j = f' j) ∧
      t = retired s c fun k => { k with v := k.v.set d ((t.cell c.val).v[d]) } := by
  have written : (w (s.cell c.val)).v[d] = ofElems sz ((List.range (szElems sz)).map f) := by
    rw [effect]
    exact (s.cell c.val).wrV_same d _
  have rest : w (s.cell c.val) = { s.cell c.val with v := (s.cell c.val).v.set d ((w (s.cell c.val)).v[d]) } := by
    rw [written, effect]
    rfl
  refine ⟨_, is.trans (vecIssue_onCell ready isLegal), ?_⟩
  rw [retired_cell]
  refine ⟨fun j hj => (congrArg (elemAt sz · j) written).trans ?_, retired_congr rest⟩
  rw [elemAt_ofElems_range f hj, value j hj, Nat.mod_eq_of_lt (fits j hj)]

end

theorem ite_lt {p : Prop} [Decidable p] {x y n : Nat} (hx : x < n) (hy : y < n) : (if p then x else y) < n := by
  split <;> assumption

theorem pairElem_lt (sz : Size) (va vb : BitVec 2048) (n : Nat) : pairElem sz va vb n < 2 ^ szBits sz :=
  ite_lt (elemAt_lt sz va n) (ite_lt (elemAt_lt sz vb _) (Nat.two_pow_pos _))

theorem szElems_even (sz : Size) : szElems sz = 2 * (szElems sz / 2) := by cases sz <;> rfl

section
variable (sz : Size) (va vb : BitVec 2048)

/-- VWEAVELO takes the low elements of Va and Vb in turn (04 R98). -/
theorem weaveElem_lo (j : Nat) :
    weaveElem .lo sz va vb j = if j % 2 = 0 then elemAt sz va (j / 2) else elemAt sz vb (j / 2) := by
  simp only [weaveElem, Nat.zero_add, apply_ite (elemAt sz · (j / 2))]

/-- VWEAVEHI takes the high elements in turn (04 R98). -/
theorem weaveElem_hi (j : Nat) : weaveElem .hi sz va vb j =
    if j % 2 = 0 then elemAt sz va (szElems sz / 2 + j / 2) else elemAt sz vb (szElems sz / 2 + j / 2) := by
  simp only [weaveElem, apply_ite (elemAt sz · (szElems sz / 2 + j / 2))]

/-- Every second element of the pair (04 R98). -/
theorem sift_eq_pairElem {o j : Nat} (ho : o < 2) (hj : j < szElems sz) :
    (if j < szElems sz / 2 then elemAt sz va (2 * j + o) else elemAt sz vb (2 * (j - szElems sz / 2) + o)) =
      pairElem sz va vb (2 * j + o) := by
  have even := szElems_even sz
  rw [pairElem]
  split
  · rw [if_pos (by omega)]
  · rw [if_neg (by omega), if_pos (by omega), show 2 * (j - szElems sz / 2) + o = 2 * j + o - szElems sz by omega]

/-- Element 0 of Vn is the low element of Fn (04 R85). -/
theorem elemAt_zero (v : BitVec 2048) : elemAt sz v 0 = (v.truncate 64).toNat % 2 ^ szBits sz := by
  have narrow : 2 ^ szBits sz ∣ 2 ^ 64 := Nat.pow_dvd_pow 2 (by cases sz <;> decide)
  rw [BitVec.truncate_eq_setWidth, BitVec.toNat_setWidth, Nat.mod_mod_of_dvd _ narrow, elemAt, fieldN, Nat.mul_zero, Nat.shiftRight_zero]

end

/-- Settles O20: each permute writes a function of the element's number into Vd (`permute_completes`). -/
theorem permutesComplete : Obligations.PermutesComplete := by
  intro s c sz d a b x w ready k n el pair is
  have taken {p : Prop} [Decidable p] {i j : Nat} : (if p then el a i else el b j) < 2 ^ szBits sz :=
    ite_lt (elemAt_lt sz _ i) (elemAt_lt sz _ j)
  have paired (i : Nat) : pair i < 2 ^ szBits sz := pairElem_lt sz _ _ i
  refine ⟨?shuf, ?shuf2, ?lo, ?hi, ?ev, ?od, ?reverse, ?window, ?bcast, fun fp => ?bcastF⟩
  case shuf => exact permute_completes ready rfl rfl rfl (fun _ _ => rfl) fun j _ => ite_lt (elemAt_lt sz _ _) (Nat.two_pow_pos _)
  case shuf2 => exact permute_completes ready rfl rfl rfl (fun _ _ => rfl) fun j _ => paired _
  case lo => exact permute_completes ready rfl rfl rfl (fun j _ => weaveElem_lo sz _ _ j) fun _ _ => taken
  case hi => exact permute_completes ready rfl rfl rfl (fun j _ => weaveElem_hi sz _ _ j) fun _ _ => taken
  case ev => exact permute_completes ready rfl rfl rfl (fun j hj => sift_eq_pairElem sz _ _ Nat.two_pos hj) fun _ _ => paired _
  case od => exact permute_completes ready rfl rfl rfl (fun j hj => sift_eq_pairElem sz _ _ Nat.one_lt_two hj) fun _ _ => paired _
  case reverse => exact permute_completes ready rfl rfl rfl (fun _ _ => rfl) fun j _ => elemAt_lt sz _ _
  case window => exact permute_completes ready rfl rfl rfl (fun _ _ => rfl) fun j _ => paired _
  case bcast => exact permute_completes ready rfl rfl rfl (fun _ _ => rfl) fun j _ => Nat.mod_lt _ (Nat.two_pow_pos _)
  case bcastF => exact permute_completes ready rfl fp rfl (fun _ _ => elemAt_zero sz _) fun j _ => Nat.mod_lt _ (Nat.two_pow_pos _)

end Sys2Proof.Machine
end

section
/-! PROOFS. The arithmetic of vector elements (04 R91, R92): clamps and shifts, and O16. -/

namespace Sys2Proof.Machine

/-! ### Clamps -/

theorem clampTo_fst {lo hi : Int} (ordered : lo ≤ hi) (x : Int) : (clampTo lo hi x).1 = max lo (min hi x) := by
  unfold clampTo
  split
  · dsimp only; omega
  · split <;> dsimp only <;> omega

theorem clampTo_snd (lo hi x : Int) : (clampTo lo hi x).2 = true ↔ x < lo ∨ hi < x := by
  unfold clampTo
  split
  · next below => simp [below]
  · next notBelow => split <;> simp_all

theorem clampTo_bounds {lo hi : Int} (ordered : lo ≤ hi) (x : Int) : lo ≤ (clampTo lo hi x).1 ∧ (clampTo lo hi x).1 ≤ hi := by
  rw [clampTo_fst ordered]
  omega

theorem sgnElem_ofInt (sz : Size) (x : Int) : sgnElem sz (BitVec.ofInt (szBits sz) x).toNat = (BitVec.ofInt (szBits sz) x).toInt := by
  rw [sgnElem, BitVec.ofNat_toNat, BitVec.setWidth_eq]

theorem szBits_pos (sz : Size) : 0 < szBits sz := by cases sz <;> decide

/-- A signed clamp keeps the value it gives (04 R92). -/
theorem sgnElem_satBits (sz : Size) (x : Int) :
    sgnElem sz (satBits true (szBits sz) x).1 = max (-2 ^ (szBits sz - 1)) (min (2 ^ (szBits sz - 1) - 1) x) := by
  have room : (0 : Int) < 2 ^ (szBits sz - 1) := Int.pow_pos (by decide)
  have bounds := clampTo_bounds (lo := -2 ^ (szBits sz - 1)) (hi := 2 ^ (szBits sz - 1) - 1) (by omega) x
  rw [satBits, if_pos rfl, sgnElem_ofInt, BitVec.toInt_ofInt_eq_self (szBits_pos sz) bounds.1 (by omega), clampTo_fst (by omega)]

theorem satBits_signed_changed (e : Nat) (x : Int) :
    (satBits true e x).2 = true ↔ x < -2 ^ (e - 1) ∨ 2 ^ (e - 1) - 1 < x := clampTo_snd _ _ x

/-- An unsigned clamp keeps the value it gives (04 R92). -/
theorem satBits_unsigned (e : Nat) (x : Int) : ((satBits false e x).1 : Int) = max 0 (min (2 ^ e - 1) x) := by
  have room : (0 : Int) < 2 ^ e := Int.pow_pos (by decide)
  have bounds := clampTo_bounds (lo := 0) (hi := 2 ^ e - 1) (by omega) x
  have value : (satBits false e x).1 = (BitVec.ofInt e (clampTo 0 (2 ^ e - 1) x).1).toNat := rfl
  have fits : (clampTo 0 (2 ^ e - 1) x).1 % ((2 ^ e : Nat) : Int) = (clampTo 0 (2 ^ e - 1) x).1 :=
    Int.emod_eq_of_lt bounds.1 (by push_cast; omega)
  rw [value, BitVec.toNat_ofInt, fits, Int.toNat_of_nonneg bounds.1, clampTo_fst (by omega)]

theorem satBits_unsigned_changed (e : Nat) (x : Int) : (satBits false e x).2 = true ↔ x < 0 ∨ 2 ^ e - 1 < x := clampTo_snd _ _ x

/-- An unsigned clamp of a number that is not negative has an upper end only. -/
theorem satBits_natural (e : Nat) {x : Int} (natural : 0 ≤ x) :
    ((satBits false e x).1 : Int) = min (2 ^ e - 1) x ∧ ((satBits false e x).2 = true ↔ 2 ^ e - 1 < x) := by
  have room : (0 : Int) < 2 ^ e := Int.pow_pos (by decide)
  rw [satBits_unsigned, satBits_unsigned_changed]
  omega

/-! ### Integer operations -/

section
variable {e a b : Nat}

theorem vIntElem_sub (ha : a < 2 ^ e) (hb : b < 2 ^ e) : (vIntElem .sub e a b + b) % 2 ^ e = a := by
  have back : a + 2 ^ e - b + b = a + 2 ^ e := by omega
  rw [vIntElem, Nat.mod_add_mod, back, Nat.add_mod_right, Nat.mod_eq_of_lt ha]

theorem vIntElem_sll : vIntElem .sll e a b = a * 2 ^ (b % e) % 2 ^ e := by rw [vIntElem, Nat.shiftLeft_eq]

theorem vIntElem_srl : vIntElem .srl e a b = a / 2 ^ (b % e) := by rw [vIntElem, Nat.shiftRight_eq_div_pow]

theorem sgnElem_sra (sz : Size) : sgnElem sz (vIntElem .sra (szBits sz) a b) = sgnElem sz a / 2 ^ (b % szBits sz) := by
  rw [vIntElem, sgnElem, BitVec.ofNat_toNat, BitVec.setWidth_eq, BitVec.toInt_sshiftRight, Int.shiftRight_eq_div_pow, sgnElem]
  push_cast
  rfl

end

/-! ### VPACKS -/

theorem szBits_halfSz {sz : Size} (wide : sz ≠ .b) : szBits (halfSz sz) = szBits sz / 2 := by
  cases sz
  case b => exact absurd rfl wide
  all_goals rfl

/-- What VPACKS adds before its shift (04 R92). -/
def packRound (sh : Nat) (rnd : Bool) : Int := if rnd = true ∧ 0 < sh then 2 ^ (sh - 1) else 0

theorem packRound_eq (sh : Nat) (rnd : Bool) : (if rnd && decide (0 < sh) then (2 : Int) ^ (sh - 1) else 0) = packRound sh rnd := by
  simp only [packRound, Bool.and_eq_true, decide_eq_true_eq]

theorem packRound_nonneg (sh : Nat) (rnd : Bool) : 0 ≤ packRound sh rnd := by
  have := Int.pow_pos (n := 2) (m := sh - 1) (by decide)
  unfold packRound
  split <;> omega

section
variable (sz : Size) (sh : Nat) (rnd : Bool) (a : Nat)

theorem vPackElem_ss : vPackElem .ss sz sh rnd a = satBits true (szBits (halfSz sz)) ((sgnElem sz a + packRound sh rnd) / 2 ^ sh) := by
  rw [← packRound_eq]
  rfl

theorem vPackElem_su : vPackElem .su sz sh rnd a = satBits false (szBits (halfSz sz)) ((sgnElem sz a + packRound sh rnd) / 2 ^ sh) := by
  rw [← packRound_eq]
  rfl

theorem vPackElem_uu : vPackElem .uu sz sh rnd a = satBits false (szBits (halfSz sz)) (((a : Int) + packRound sh rnd) / 2 ^ sh) := by
  rw [← packRound_eq]
  rfl

end

/-- Settles O16: the saturating forms are clamps (`satBits`) of the exact values. -/
theorem vectorElementArithmetic : Obligations.VectorElementArithmetic := by
  intro sz a b ha hb e
  refine ⟨rfl, vIntElem_sub ha hb, rfl, vIntElem_sll, vIntElem_srl, sgnElem_sra sz, fun sub => ?signed, fun sub => ?unsigned,
    fun rnd => ?fx, fun sh rnd wide _ => ?pack⟩
  case signed => exact ⟨sgnElem_satBits sz _, satBits_signed_changed e _⟩
  case unsigned => exact ⟨satBits_unsigned e _, satBits_unsigned_changed e _⟩
  case fx => exact ⟨sgnElem_satBits sz _, satBits_signed_changed e _⟩
  case pack =>
    intro w r x y ss su uu
    have width : szBits (halfSz sz) = w := szBits_halfSz wide
    have isSs : ss = satBits true (szBits (halfSz sz)) x := vPackElem_ss sz sh rnd a
    have isSu : su = satBits false (szBits (halfSz sz)) x := vPackElem_su sz sh rnd a
    have isUu : uu = satBits false (szBits (halfSz sz)) y := vPackElem_uu sz sh rnd a
    have natural : 0 ≤ y :=
      Int.ediv_nonneg (Int.add_nonneg (Int.natCast_nonneg a) (packRound_nonneg sh rnd)) (Int.pow_nonneg (by decide))
    obtain ⟨clamped, changed⟩ := satBits_natural w natural
    refine ⟨?_, ?_, ?_, ?_, ?_, ?_⟩
    · rw [isSs, sgnElem_satBits, width]
    · rw [isSs, satBits_signed_changed, width]
    · rw [isSu, satBits_unsigned, width]
    · rw [isSu, satBits_unsigned_changed, width]
    · rw [isUu, width, clamped]
    · rw [isUu, width, changed]

end Sys2Proof.Machine
end

section
/-! PROOFS. Reductions and scans (04 R93 to R97): what the butterfly of a reduction gives, and O19. -/

namespace Sys2Proof.Machine

/-! ### Pairs of halves -/

section
variable (f : Nat → Nat → Nat) [Std.Associative f] [Std.Commutative f]

/-- A value that a fold begins with comes out of it. -/
theorem foldr_comm_init (b x : Nat) (l : List Nat) : l.foldr f (f b x) = f b (l.foldr f x) := by
  induction l with
  | nil => rfl
  | cons c l ih => rw [List.foldr_cons, List.foldr_cons, ih]; ac_rfl

/-- Two halves combined element by element hold what they hold one after the other. -/
theorem foldr_zipWith (x : Nat) : ∀ {l l' : List Nat}, l.length = l'.length → (List.zipWith f l l').foldr f x = (l ++ l').foldr f x
  | [], [], _ => rfl
  | a :: l, b :: l', same => by
    have ih := foldr_zipWith x (Nat.succ.inj same : l.length = l'.length)
    rw [List.zipWith_cons_cons, List.foldr_cons, ih, List.cons_append, List.foldr_cons, List.foldr_append, List.foldr_append,
      List.foldr_cons, foldr_comm_init, Std.Associative.assoc (op := f)]

end

section
variable (op : VRedOp) (sz : Size) (rm : Rm)

/-- An operation of a reduction without its flags. -/
def redVal (a b : Nat) : Nat := (redOp op sz rm a b).1

theorem redStage_fst (l : List Nat) :
    (redStage op sz rm l).1 = List.zipWith (redVal op sz rm) (l.take (l.length / 2)) (l.drop (l.length / 2)) := by
  simp only [redStage, List.zip, List.map_zipWith]
  rfl

theorem redStage_length {n : Nat} {l : List Nat} (length : l.length = 2 ^ (n + 1)) : (redStage op sz rm l).1.length = 2 ^ n := by
  rw [redStage_fst, List.length_zipWith, List.length_take, List.length_drop, length, Nat.pow_succ]
  omega

/-- A property that the operation keeps holds of what the butterfly gives (04 R96). -/
theorem redTree_keeps {P : Nat → Prop} (keep : ∀ a b, P a → P b → P (redVal op sz rm a b)) (n : Nat) :
    ∀ (l : List Nat) (fl : Fl), l.length = 2 ^ n → (∀ x ∈ l, P x) → P (redTree op sz rm n l fl).1 := by
  induction n with
  | zero =>
    intro l fl length each
    obtain ⟨x, rfl⟩ := List.length_eq_one_iff.mp length
    exact each x List.mem_cons_self
  | succ n ih =>
    intro l fl length each
    refine ih _ _ (redStage_length op sz rm length) fun x mem => ?_
    rw [redStage_fst] at mem
    obtain ⟨i, hi, rfl⟩ := List.mem_iff_getElem.mp mem
    rw [List.getElem_zipWith]
    exact keep _ _ (each _ (List.mem_of_mem_take (List.getElem_mem _))) (each _ (List.mem_of_mem_drop (List.getElem_mem _)))

/-- The butterfly of an associative and commutative operation gives what its elements give in any order (04 R96). -/
theorem redTree_fold [Std.Associative (redVal op sz rm)] [Std.Commutative (redVal op sz rm)] (x : Nat) (n : Nat) :
    ∀ (l : List Nat) (fl : Fl), l.length = 2 ^ n → redVal op sz rm (redTree op sz rm n l fl).1 x = l.foldr (redVal op sz rm) x := by
  induction n with
  | zero =>
    intro l fl length
    obtain ⟨y, rfl⟩ := List.length_eq_one_iff.mp length
    rfl
  | succ n ih =>
    intro l fl length
    have halves : (l.take (l.length / 2)).length = (l.drop (l.length / 2)).length := by
      rw [List.length_take, List.length_drop, length, Nat.pow_succ]
      omega
    rw [redTree, ih _ _ (redStage_length op sz rm length), redStage_fst, foldr_zipWith _ x halves, List.take_append_drop]

/-- An operation that raises no flag raises none in the butterfly. -/
theorem redTree_flags (quiet : ∀ a b, (redOp op sz rm a b).2 = Fl.none) (n : Nat) (l : List Nat) (fl : Fl) :
    (redTree op sz rm n l fl).2 = fl := by
  induction n generalizing l fl with
  | zero => rfl
  | succ n ih =>
    have stage : (redStage op sz rm l).2 = Fl.none := foldl_or_none fun r mem => by
      obtain ⟨e, -, rfl⟩ := List.mem_map.mp mem
      exact quiet e.1 e.2
    rw [redTree, ih, stage]
    simp [Fl.or, Fl.none]

theorem redOp_flags {op : VRedOp} (int : redFp op = false) (a b : Nat) : (redOp op sz rm a b).2 = Fl.none := by
  cases op <;> cases int <;> rfl

end

/-! ### Reductions of a register -/

section
variable (op : VRedOp) (sz : Size) (rm : Rm) (p : BitVec 256) (v : BitVec 2048)

/-- What a reduction combines: an inactive element counts as the identity (04 R95). -/
def redInput : List Nat := (List.range (szElems sz)).map fun i => if active sz p i then elemAt sz v i else redIdentity op sz

theorem reduceVec_eq : reduceVec op sz rm p v = redTree op sz rm (Nat.log2 (szElems sz)) (redInput op sz p v) Fl.none := rfl

theorem redInput_length : (redInput op sz p v).length = 2 ^ Nat.log2 (szElems sz) := by
  rw [redInput, List.length_map, List.length_range]
  cases sz <;> decide

theorem mem_redInput {x : Nat} (mem : x ∈ redInput op sz p v) : x = redIdentity op sz ∨ x ∈ activeElems sz p v := by
  obtain ⟨i, hi, rfl⟩ := List.mem_map.mp mem
  split
  · next on => exact .inr (List.mem_map.mpr ⟨i, List.mem_filter.mpr ⟨hi, on⟩, rfl⟩)
  · exact .inl rfl

theorem activeElems_lt {x : Nat} (mem : x ∈ activeElems sz p v) : x < 2 ^ szBits sz := by
  obtain ⟨i, -, rfl⟩ := List.mem_map.mp mem
  exact elemAt_lt sz v i

/-- Inactive elements add nothing to a fold, where the identity is 0. -/
theorem foldr_redInput {f : Nat → Nat → Nat} (zero : redIdentity op sz = 0)
    (unit : ∀ l : List Nat, f 0 (l.foldr f 0) = l.foldr f 0) :
    (redInput op sz p v).foldr f 0 = (activeElems sz p v).foldr f 0 := by
  rw [redInput, activeElems]
  induction List.range (szElems sz) with
  | nil => rfl
  | cons i l ih =>
    rw [List.map_cons, List.foldr_cons, ih, List.filter_cons]
    cases active sz p i
    · rw [zero]
      exact unit _
    · rfl

/-- 04 R95: what a reduction gives where the operation is associative and commutative and 0 is its identity. -/
theorem reduceVec_fold [Std.Associative (redVal op sz rm)] [Std.Commutative (redVal op sz rm)] (zero : redIdentity op sz = 0)
    (unit : ∀ y < 2 ^ szBits sz, redVal op sz rm y 0 = y) :
    (reduceVec op sz rm p v).1 = (activeElems sz p v).foldr (redVal op sz rm) 0 := by
  have unit0 : redVal op sz rm 0 0 = 0 := unit 0 (Nat.two_pow_pos _)
  have kept : redVal op sz rm (reduceVec op sz rm p v).1 0 = (reduceVec op sz rm p v).1 := by
    refine redTree_keeps op sz rm (P := fun x => redVal op sz rm x 0 = x) (fun a b _ hb => ?_) _ _ _ (redInput_length op sz p v)
      fun x mem => ?_
    · rw [Std.Associative.assoc (op := redVal op sz rm), hb]
    · rcases mem_redInput op sz p v mem with rfl | mem
      · rw [zero, unit0]
      · exact unit x (activeElems_lt sz p v mem)
  rw [← kept, reduceVec_eq, redTree_fold op sz rm 0 _ _ _ (redInput_length op sz p v)]
  exact foldr_redInput op sz p v zero fun l => by rw [← foldr_comm_init (redVal op sz rm), unit0]

/-- 04 R95: with no active element the result is the identity. -/
theorem reduceVec_of_none (int : redFp op = false) (none : activeElems sz p v = []) :
    (reduceVec op sz rm p v).1 = redIdentity op sz := by
  refine redTree_keeps op sz rm (P := (· = redIdentity op sz)) (fun a b ha hb => ?_) _ _ _ (redInput_length op sz p v) fun x mem => ?_
  · rw [ha, hb]
    cases op <;> cases int <;> simp [redVal, redOp, redIdentity]
  · rcases mem_redInput op sz p v mem with same | mem
    · exact same
    · rw [none] at mem
      cases mem

end

/-! ### The sum, the maximum, and the bitwise operations -/

section
variable (sz : Size) (rm : Rm) (p : BitVec 256) (v : BitVec 2048)

theorem redVal_add (a b : Nat) : redVal .add sz rm a b = (a + b) % 2 ^ szBits sz := rfl
theorem redVal_maxU : redVal .maxU sz rm = max := by
  funext a b
  change (if a < b then b else a) = max a b
  split <;> omega
theorem redVal_or : redVal .or sz rm = (· ||| ·) := rfl
theorem redVal_xor : redVal .xor sz rm = (· ^^^ ·) := rfl

theorem reduceVec_add : (reduceVec .add sz rm p v).1 = (activeElems sz p v).sum % 2 ^ szBits sz := by
  have : Std.Associative (redVal .add sz rm) := ⟨fun a b c => by
    simp only [redVal_add, Nat.mod_add_mod, Nat.add_mod_mod, Nat.add_assoc]⟩
  have : Std.Commutative (redVal .add sz rm) := ⟨fun a b => by rw [redVal_add, redVal_add, Nat.add_comm]⟩
  rw [reduceVec_fold .add sz rm p v rfl fun y hy => Nat.mod_eq_of_lt hy]
  induction activeElems sz p v with
  | nil => exact (Nat.zero_mod _).symm
  | cons x l ih => rw [List.foldr_cons, ih, redVal_add, Nat.add_mod_mod, List.sum_cons]

/-- A reduction by one of the library's operations. -/
theorem reduceVec_foldl {op : VRedOp} {f : Nat → Nat → Nat} [Std.Associative f] [Std.Commutative f] (is : redVal op sz rm = f)
    (zero : redIdentity op sz = 0) (unit : ∀ y, f y 0 = y) : (reduceVec op sz rm p v).1 = (activeElems sz p v).foldl f 0 := by
  subst is
  rw [reduceVec_fold op sz rm p v zero fun y _ => unit y, List.foldl_eq_foldr]

end

/-! ### VREDO and VLAST -/

theorem orderedSum_fst (f : Fmt) (rm : Rm) (l : List Nat) (acc : Nat × Fl) :
    (orderedSum f rm l acc).1 = l.foldl (fun x y => (fpBits .add f rm x y 0).1) acc.1 := by
  induction l generalizing acc with
  | nil => rfl
  | cons x l ih => rw [orderedSum, ih, List.foldl_cons]

/-! ### Scans -/

/-- The sum of the active elements of a scan's input. -/
def activeSum (l : List (Bool × Bool × Nat)) : Nat := ((l.filter (·.2.1)).map (·.2.2)).sum

theorem activeSum_cons (seg act : Bool) (x : Nat) (l : List (Bool × Bool × Nat)) :
    activeSum ((seg, act, x) :: l) = (if act then x else 0) + activeSum l := by
  cases act <;> simp [activeSum]

/-- 04 R93 for a sum without segments: each element is the carry-in and the active elements before it, with its own unless the scan is
exclusive. -/
theorem scanLoop_add (sz : Size) (rm : Rm) (excl : Bool) (l : List (Bool × Bool × Nat)) (plain : ∀ e ∈ l, e.1 = false)
    (acc : Nat) (fl : Fl) (i : Nat) (hi : i < l.length) : (scanLoop .add sz rm excl l acc fl).1.getD i 0 % 2 ^ szBits sz =
      (acc + activeSum (l.take (if excl then i else i + 1))) % 2 ^ szBits sz := by
  induction l generalizing acc fl i with
  | nil => exact absurd hi (Nat.not_lt_zero i)
  | cons e l ih =>
    obtain ⟨seg, act, x⟩ := e
    obtain rfl : seg = false := plain _ List.mem_cons_self
    have next : (redOp .add sz rm acc (if act then x else redIdentity .add sz)).1 = (acc + if act then x else 0) % 2 ^ szBits sz := rfl
    rw [scanLoop, if_neg Bool.false_ne_true, next]
    cases i with
    | zero =>
      cases excl with
      | false =>
        rw [if_neg Bool.false_ne_true, if_neg Bool.false_ne_true, List.take_succ_cons, activeSum_cons, List.take_zero]
        exact Nat.mod_mod _ _
      | true => rfl
    | succ i =>
      have taken : ((false, act, x) :: l).take (if excl then i + 1 else i + 1 + 1) =
          (false, act, x) :: l.take (if excl then i else i + 1) := by
        cases excl <;> rfl
      rw [taken, activeSum_cons, List.getD_cons_succ, ih (fun e mem => plain e (List.mem_cons_of_mem _ mem)) _ _ i
        (Nat.lt_of_succ_lt_succ hi), Nat.mod_add_mod, Nat.add_assoc]

section
variable (k : Cell) (sz : Size) (p ps : BitVec 256) (v : BitVec 2048)

/-- What a scan goes through: of each element its segment flag, whether it is active, and its value (04 R93). -/
def scanInput : List (Bool × Bool × Nat) := (List.range (szElems sz)).map fun j => (active sz ps j, active sz p j, elemAt sz v j)

/-- The sum of the active elements below a number. -/
theorem activeSum_scanInput {n : Nat} (hn : n ≤ szElems sz) : activeSum ((scanInput sz p ps v).take n) =
    (((List.range n).filter (active sz p)).map (elemAt sz v)).sum := by
  rw [scanInput, ← List.map_take, List.take_range, Nat.min_eq_left hn, activeSum, List.filter_map, List.map_map]
  rfl

/-- A running sum from a carry-in, modulo the element width (04 R93). -/
theorem scanLoop_add_scanInput (rm : Rm) (excl : Bool) (plain : ∀ i < szElems sz, active sz ps i = false) (acc : Nat) {i : Nat}
    (hi : i < szElems sz) : (scanLoop .add sz rm excl (scanInput sz p ps v) acc Fl.none).1.getD i 0 % 2 ^ szBits sz =
      (acc + (((List.range (if excl then i else i + 1)).filter (active sz p)).map (elemAt sz v)).sum) % 2 ^ szBits sz := by
  have below : (if excl then i else i + 1) ≤ szElems sz := by split <;> omega
  rw [scanLoop_add, activeSum_scanInput sz p ps v below]
  · intro e mem
    obtain ⟨j, hj, rfl⟩ := List.mem_map.mp mem
    exact plain j (List.mem_range.mp hj)
  · rw [scanInput, List.length_map, List.length_range]
    exact hi

end

/-! ### O19 -/

section
variable {s : State} {c : CellId} {sz : Size} {d a : Reg} {g : Gov}

theorem Cell.wrG_fstat (k : Cell) (d : Reg) (v : W64) : (k.wrG d v).fstat = k.fstat := by rw [Cell.wrG_eq]
theorem Cell.wrF_fstat (k : Cell) (d : Reg) (v : W64) : (k.wrF d v).fstat = k.fstat := by rw [Cell.wrF_eq]

/-- Fn written while the datapaths are powered (04 R85). -/
theorem Cell.wrF_powered {k : Cell} (powered : k.vgated = false) (d : Reg) (v : W64) : k.wrF d v = k.wrV d (v.zeroExtend 2048) := by
  have ungated : ¬ k.vgated = true := by rw [powered]; exact Bool.false_ne_true
  exact if_neg ungated

/-- A cell that has completed a VRED. -/
def Cell.reduced (k : Cell) (op : VRedOp) (sz : Size) (d a : Reg) (g : Gov) : Cell :=
  let r := reduceVec op sz k.frm (k.gov g) k.v[a]
  (if redFp op then k.wrF d (BitVec.ofNat 64 r.1) else k.wrG d (BitVec.ofNat 64 r.1)).orFl r.2

theorem Cell.reduced_g (k : Cell) {op : VRedOp} (int : redFp op = false) : (k.reduced op sz d a g).g =
    (k.wrG d (BitVec.ofNat 64 (reduceVec op sz k.frm (k.gov g) k.v[a]).1)).g := by
  rw [Cell.reduced, int]
  rfl

theorem Cell.reduced_fstat (k : Cell) {op : VRedOp} (int : redFp op = false) : (k.reduced op sz d a g).fstat = k.fstat := by
  rw [Cell.reduced, int, reduceVec_eq, redTree_flags op sz _ (redOp_flags sz _ int), Cell.orFl_none, if_neg Bool.false_ne_true,
    Cell.wrG_fstat]

theorem Cell.reduced_sticky (k : Cell) (op : VRedOp) : stickyOnly k.fstat (k.reduced op sz d a g).fstat := by
  have kept (v : W64) : (if redFp op then k.wrF d v else k.wrG d v).fstat = k.fstat := by
    split
    · exact k.wrF_fstat d v
    · exact k.wrG_fstat d v
  have gained := stickyOnly_orFl (if redFp op then k.wrF d (BitVec.ofNat 64 (reduceVec op sz k.frm (k.gov g) k.v[a]).1)
    else k.wrG d (BitVec.ofNat 64 (reduceVec op sz k.frm (k.gov g) k.v[a]).1)) (reduceVec op sz k.frm (k.gov g) k.v[a]).2
  rwa [kept] at gained

/-- A cell that has completed a VREDO. -/
def Cell.redone (k : Cell) (sz : Size) (d a fc : Reg) (g : Gov) : Cell :=
  let r := orderedSum (szFmt sz) k.frm (activeElems sz (k.gov g) k.v[a]) (elemAt sz k.v[fc] 0, Fl.none)
  (k.wrF d (BitVec.ofNat 64 r.1)).orFl r.2

theorem Cell.redone_v (k : Cell) {fc : Reg} (powered : k.vgated = false) : (k.redone sz d a fc g).v[d] =
    (BitVec.ofNat 64 ((activeElems sz (k.gov g) k.v[a]).foldl (fun x y => (fpBits .add (szFmt sz) k.frm x y 0).1)
      (elemAt sz k.v[fc] 0))).zeroExtend 2048 := by
  rw [Cell.redone, Cell.wrF_powered powered, orderedSum_fst]
  exact k.wrV_same d _

theorem Cell.redone_rest (k : Cell) {fc : Reg} (powered : k.vgated = false) : k.redone sz d a fc g =
    { k with v := k.v.set d ((k.redone sz d a fc g).v[d]), fstat := (k.redone sz d a fc g).fstat } := by
  rw [k.redone_v powered, Cell.redone, Cell.wrF_powered powered, orderedSum_fst]
  rfl

theorem Cell.redone_sticky (k : Cell) {fc : Reg} : stickyOnly k.fstat (k.redone sz d a fc g).fstat := by
  have gained := stickyOnly_orFl (k.wrF d (BitVec.ofNat 64 (orderedSum (szFmt sz) k.frm (activeElems sz (k.gov g) k.v[a])
    (elemAt sz k.v[fc] 0, Fl.none)).1)) (orderedSum (szFmt sz) k.frm (activeElems sz (k.gov g) k.v[a]) (elemAt sz k.v[fc] 0, Fl.none)).2
  rwa [Cell.wrF_fstat] at gained

/-- A cell that has completed a VSCAN or a VSCANX. -/
def Cell.scanned (k : Cell) (excl : Bool) (op : ScanOp) (sz : Size) (d a cr : Reg) (g : Gov) (ps : PReg) : Cell :=
  let r := scanLoop (scanRed op) sz k.frm excl (scanInput sz (k.gov g) k.p[ps] k.v[a])
    (if redFp (scanRed op) then elemAt sz k.v[cr] 0 else (k.rdG cr).toNat % 2 ^ szBits sz) Fl.none
  (vecInt sz g k d fun i => r.1.getD i 0).orFl r.2

theorem Cell.scanned_rest (k : Cell) (excl : Bool) (op : ScanOp) {cr : Reg} {ps : PReg} : k.scanned excl op sz d a cr g ps = { k with
    v := k.v.set d ((k.scanned excl op sz d a cr g ps).v[d]), fstat := (k.scanned excl op sz d a cr g ps).fstat } := by
  have written : (k.scanned excl op sz d a cr g ps).v[d] = _ := vecInt_v sz g k d _
  rw [written]
  rfl

end

/-- Settles O19: a reduction is a fold over the active elements (`reduceVec_fold`), a scan the loop of R93 merged into Vd. -/
theorem reductionsAndScansComplete : Obligations.ReductionsAndScansComplete := by
  intro s c sz d a cr fc g ps ready unreserved k p xs
  refine ⟨fun merging => ?reductions, fun excl op fp => ?scan⟩
  case reductions =>
    have plain : govPlain g = true := by rw [govPlain, unreserved, merging]; rfl
    refine ⟨fun op fp => ?red, fun fp => ?redo, ?last, fun fp => ?lastF⟩
    case red =>
      have legal : (govPlain g && (!redFp op || szFp sz)) = true := by
        rw [plain]
        cases float : redFp op with
        | false => rfl
        | true => rw [fp float]; rfl
      have reduces : exec (.vred c op sz d a g) s = .next (retired s c (Cell.reduced · op sz d a g)) := vecIssue_onCell ready legal
      refine ⟨_, reduces, ?_⟩
      rw [retired_cell]
      have value {x : Nat} (int : redFp op = false) (is : (reduceVec op sz k.frm p k.v[a]).1 = x) :
          (k.reduced op sz d a g).nextPc.g = (k.wrG d (BitVec.ofNat 64 x)).g := is ▸ k.reduced_g int
      refine ⟨?_, ?_, ?_, ?_, fun none int => value int (reduceVec_of_none op sz k.frm p k.v[a] int none), k.reduced_fstat,
        k.reduced_sticky op, retired_congr rfl⟩
      · rintro rfl
        exact value rfl (reduceVec_add sz k.frm p k.v[a])
      · rintro rfl
        exact value rfl (reduceVec_foldl sz k.frm p k.v[a] (redVal_maxU sz k.frm) rfl Nat.max_zero)
      · rintro rfl
        exact value rfl (reduceVec_foldl sz k.frm p k.v[a] (redVal_or sz k.frm) rfl Nat.or_zero)
      · rintro rfl
        exact value rfl (reduceVec_foldl sz k.frm p k.v[a] (redVal_xor sz k.frm) rfl Nat.xor_zero)
    case redo =>
      have legal : (govPlain g && szFp sz) = true := by rw [plain, fp]; rfl
      have sums : exec (.vredo c sz d a fc g) s = .next (retired s c (Cell.redone · sz d a fc g)) := vecIssue_onCell ready legal
      refine ⟨_, sums, ?_⟩
      rw [retired_cell]
      exact ⟨k.redone_v ready.2, k.redone_sticky, retired_congr (k.redone_rest ready.2)⟩
    case last =>
      have legal : (govPlain g && (!false || szFp sz)) = true := by rw [plain]; rfl
      rw [List.getLastD_eq_getLast?]
      exact (vecIssue_onCell ready legal).trans (congrArg _ (retired_congr rfl))
    case lastF =>
      have legal : (govPlain g && (!true || szFp sz)) = true := by rw [plain, fp]; rfl
      rw [List.getLastD_eq_getLast?]
      exact (vecIssue_onCell ready legal).trans (congrArg _ (retired_congr rfl))
  case scan =>
    have legal : (!g.rsv && (!redFp (scanRed op) || szFp sz)) = true := by
      rw [unreserved]
      cases float : redFp (scanRed op) with
      | false => rfl
      | true => rw [fp float]; rfl
    have scans : exec (.vscan c excl op sz d a cr g ps) s = .next (retired s c (Cell.scanned · excl op sz d a cr g ps)) :=
      vecIssue_onCell ready legal
    have merged : elemsAre sz g k d (retired s c (Cell.scanned · excl op sz d a cr g ps)) c _ := elemsAre_of_merge (vecInt_v sz g k d _)
    refine ⟨_, scans, fun segs add i hi => ?_, fun i hi off => ?_, fun i hi on => ?_, ?_⟩
    · subst add
      have sum := scanLoop_add_scanInput sz p k.p[ps] k.v[a] k.frm excl segs ((k.rdG cr).toNat % 2 ^ szBits sz) hi
      rw [Nat.mod_add_mod] at sum
      rw [merged i hi, ← sum]
      rfl
    · rw [merged i hi, off, if_neg Bool.false_ne_true]
    · rw [merged i hi, on, if_pos rfl]
      rfl
    · rw [retired_cell]
      exact ⟨stickyOnly_orFl (vecInt sz g k d _) _, retired_congr (k.scanned_rest excl op)⟩

end Sys2Proof.Machine
end

section
/-! PROOFS. Power states (20 R452 to R459): what an idle block's way down and its way back leave of its block, its timer and its cells, and
O53. -/

namespace Sys2Proof.Machine

variable {s t : State}

/-! ### The cells of a block -/

/-- Steps over the cells of a block of which each changes its own cell. -/
theorem foldl_cell {b : Nat} {step : State → Nat → State} {F : Nat → Cell → Cell}
    (own : ∀ s i, (step s i).cell (8 * b + i) = F i (s.cell (8 * b + i)))
    (other : ∀ s i j, i ≠ j → (step s i).cell (8 * b + j) = s.cell (8 * b + j)) (s : State) (n i : Nat) :
    ((List.range n).foldl step s).cell (8 * b + i) = if i < n then F i (s.cell (8 * b + i)) else s.cell (8 * b + i) := by
  induction n with
  | zero => rfl
  | succ n ih =>
    rw [List.range_succ, List.foldl_append, List.foldl_cons, List.foldl_nil]
    by_cases same : n = i
    · subst same
      rw [own, ih, if_neg (Nat.lt_irrefl n), if_pos (Nat.lt_succ_self n)]
    · rw [other _ _ _ same, ih]
      exact if_congr (by omega) rfl rfl

@[simp] theorem setCellsOf_block (s : State) (b : Nat) (f : Cell → Cell) (g : Nat) : (setCellsOf s b f).block g = s.block g :=
  foldl_keeps (·.block g) (fun (s : State) k => s.updCell (8 * b + k) f) (fun _ _ => rfl) _ s

theorem setCellsOf_cell (s : State) (b : Nat) (f : Cell → Cell) {i : Nat} (hi : i < 8) :
    (setCellsOf s b f).cell (8 * b + i) = f (s.cell (8 * b + i)) := by
  rw [setCellsOf, foldl_cell (F := fun _ => f) (fun _ _ => State.cell_updCell_same _ _ _)
    (fun _ _ _ ne => State.cell_updCell_ne _ _ (by omega)), if_pos hi]

/-! ### Accumulators that go bad at the entry to Nap (06 R158) -/

/-- A cell that an error in its accumulator's own parity has stopped (06 R158). -/
def Cell.accFaulted (k : Cell) : Cell :=
  { k with accBad := true, faulted := true, pc := (match k.tpend with | i :: _ => i.pc | [] => k.pc), tpend := [] }

theorem accFault_cell_same (s : State) (c : Nat) : (accFault s c).cell c = (s.cell c).accFaulted := by
  rw [accFault, cellFault, reportBlock_cell, State.cell_updCell_same, State.cell_updCell_same]
  rfl

theorem accFault_cell_ne (s : State) {c j : Nat} (other : c ≠ j) : (accFault s c).cell j = s.cell j := by
  rw [accFault, cellFault, reportBlock_cell, State.cell_updCell_ne _ _ other, State.cell_updCell_ne _ _ other]

theorem accFault_block (s : State) (c g : Nat) : (accFault s c).block g = s.block g := by
  rw [accFault, cellFault, reportBlock_block, State.updCell_block, State.updCell_block]

/-- Whether the accumulator of a cell meets an error as it is written back. -/
def Cell.accGoesBad (k : Cell) (bad : Bool) : Bool := bad && k.res.isSome && k.accDirty

/-- One cell's accumulator written back at the entry to Nap. -/
def accStep (b : Nat) (acc : BitVec 8) (s : State) (i : Nat) : State :=
  if (s.cell (8 * b + i)).accGoesBad (acc.getLsbD i) then accFault s (8 * b + i) else s

theorem accFaults_eq (s : State) (b : Nat) (acc : BitVec 8) : accFaults s b acc = (List.range 8).foldl (accStep b acc) s := rfl

theorem accFaults_block (s : State) (b : Nat) (acc : BitVec 8) (g : Nat) : (accFaults s b acc).block g = s.block g := by
  refine foldl_keeps (·.block g) (accStep b acc) (fun s i => ?_) _ s
  unfold accStep
  split
  · exact accFault_block s _ g
  · rfl

theorem accFaults_cell (s : State) (b : Nat) (acc : BitVec 8) {i : Nat} (hi : i < 8) : (accFaults s b acc).cell (8 * b + i) =
    if (s.cell (8 * b + i)).accGoesBad (acc.getLsbD i) then (s.cell (8 * b + i)).accFaulted else s.cell (8 * b + i) := by
  rw [accFaults_eq, foldl_cell (F := fun i k => if k.accGoesBad (acc.getLsbD i) then k.accFaulted else k), if_pos hi]
  · intro s i
    unfold accStep
    split
    · exact accFault_cell_same s _
    · rfl
  · intro s i j ne
    unfold accStep
    split
    · exact accFault_cell_ne s (by omega)
    · rfl

/-! ### Caches cleaned -/

section
variable {P : State → Prop}

theorem LineClosed.spoilBlock (h : LineClosed P) (bad : List Nat) (b : Nat) (p : P t) : P (spoilBlock t bad b) :=
  List.foldlRecOn _ _ (h.l2 b _ p) fun _ p c _ => h.l1 c (Cache.spoilDirty · bad) p

theorem LineClosed.cleanL1 (h : LineClosed P) (c : Nat) (p : P t) : P (cleanL1 t c) := by
  unfold Machine.cleanL1
  dsimp only
  split
  · exact h.l1 c cleanCache (writeBackL1s_keeps _ (fun e _ _ => h.writeBackL1 h.put _ e.1 e.2) p)
  · exact p

theorem LineClosed.cleanL1s (h : LineClosed P) (n c : Nat) (p : P t) : P (cleanL1s t c n) := by
  induction n generalizing t c with
  | zero => exact p
  | succ n ih => exact ih (c + 1) (h.cleanL1 c p)

theorem LineClosed.cleanBlock (h : LineClosed P) (b : Nat) (p : P t) : P (cleanBlock t b) := by
  have cleaned := h.cleanL1s 8 (8 * b) p
  unfold Machine.cleanBlock
  dsimp only
  split
  · exact h.l2 b _ (writeBackAll_keeps b (fun e _ _ => h.writeBackLine b e.1 e.2) cleaned)
  · exact cleaned

end

/-- What no change of a block's SRAM group or L2 touches, the movement of lines leaves alone. -/
theorem block_lineClosed {α : Type} (f : Block → α) (group : ∀ (x : Block) y, f { x with group := y } = f x)
    (l2 : ∀ (x : Block) y, f { x with l2 := y } = f x) (b : Nat) (v : α) : LineClosed fun u => f (u.block b) = v where
  count p k n v := by rw [countPart_block]; exact v
  wake {t} a v := by
    have kept {g : Nat} (y : _) : f ((t.setBlock g { t.block g with group := y }).block b) = f (t.block b) := by
      rw [State.block_setBlock]
      split
      · next h => subst h; exact group _ _
      · rfl
    rw [← v]
    unfold wakeGroup
    split
    · dsimp only
      split
      · exact kept _
      · exact kept _
      · rfl
    · rfl
    · rfl
  note _ _ v := v
  err _ _ v := v
  bytes _ _ v := v
  draws _ v := v
  l1 _ _ v := v
  l2 {t} g k v := by
    rw [← v, State.block_setBlock]
    split
    · next h => subst h; exact l2 _ _
    · rfl

theorem timer_lineClosed (b v : Nat) : LineClosed fun u => (u.block b).timer = v :=
  block_lineClosed Block.timer (fun _ _ => rfl) (fun _ _ => rfl) b v

theorem spoilBlock_timer (s : State) (bad : List Nat) (b : Nat) : ((spoilBlock s bad b).block b).timer = (s.block b).timer :=
  (timer_lineClosed b (s.block b).timer).spoilBlock bad b rfl

theorem cleanBlock_timer (s : State) (b : Nat) : ((cleanBlock s b).block b).timer = (s.block b).timer :=
  (timer_lineClosed b (s.block b).timer).cleanBlock b rfl

/-! ### The way down -/

section
variable {b : Nat} {d : PState}

/-- The dwell of Nap, Doze and Dormant passes on the block's timer (20 R455). -/
theorem dwellTo_eq (timed : d ≠ .run ∧ d ≠ .poise) (awake : (s.block b).st ≠ .dormant) : dwellTo s b d =
    s.updBlock b fun x => { x with timer := timeTo x.timer (count48 (s.block b).idleAt (ticks (s.block b).idleK d.dwell)) } := by
  have moves : dwellTo s b d = blockTimeTo s b (count48 (s.block b).idleAt (ticks (s.block b).idleK d.dwell)) := by
    cases d
    case run => exact absurd rfl timed.1
    case poise => exact absurd rfl timed.2
    all_goals rfl
  rw [moves, blockTimeTo, if_neg awake]

theorem dwellTo_timer {us : Nat} (dwell : d.dwell = us) (timed : d ≠ .run ∧ d ≠ .poise) (awake : (s.block b).st ≠ .dormant) :
    ((dwellTo s b d).block b).timer = timeTo (s.block b).timer (count48 (s.block b).idleAt (ticks (s.block b).idleK us)) := by
  rw [dwellTo_eq timed awake, State.block_updBlock_same, dwell]

theorem dwellTo_cell (timed : d ≠ .run ∧ d ≠ .poise) (awake : (s.block b).st ≠ .dormant) (c : Nat) :
    (dwellTo s b d).cell c = s.cell c := by
  rw [dwellTo_eq timed awake]
  rfl

theorem Cell.writeBack_faulted (k : Cell) : k.writeBack.faulted = k.faulted := by
  unfold Cell.writeBack
  split
  · split <;> rfl
  · rfl

theorem Cell.nap_faulted (k : Cell) : k.nap.faulted = k.faulted := by
  unfold Cell.nap
  dsimp only
  split
  · rfl
  · exact k.writeBack_faulted

theorem enterNap_block (s : State) (b : Nat) : (enterState s b .nap).block b = { s.block b with st := .nap } := by
  rw [enterState, setCellsOf_block, State.block_setBlock_same]

theorem enterNap_cell (s : State) (b : Nat) {i : Nat} (hi : i < 8) :
    (enterState s b .nap).cell (8 * b + i) = (s.cell (8 * b + i)).nap := by
  rw [enterState, setCellsOf_cell _ _ _ hi]
  rfl

theorem enterDoze_block (s : State) (b : Nat) :
    (enterState s b .doze).block b = { (cleanBlock s b).block b with st := .doze, group := .retention } := by
  rw [enterState, State.block_setBlock_same]

theorem enterDoze_timer (s : State) (b : Nat) : ((enterState s b .doze).block b).timer = ((cleanBlock s b).block b).timer := by
  rw [enterDoze_block]

/-- A block that has lost its cells' state, before its memory (20 R458). -/
def lostCells (s : State) (b : Nat) : State :=
  setCellsOf (s.setBlock b { Block.reset with
    oos := (s.block b).oos, groupOos := (s.block b).groupOos, becfg := (s.block b).becfg, becnt := (s.block b).becnt }) b
    fun k => { Cell.reset with chall := k.chall }

theorem blockDormant_eq (s : State) (b : Nat) : blockDormant s b =
    { lostCells s b with sram := (blockDormant s b).sram, poison := (blockDormant s b).poison } := by
  rw [blockDormant, ← lostCells]

theorem blockDormant_block (s : State) (b : Nat) : (blockDormant s b).block b = (lostCells s b).block b := by
  have blocks : (blockDormant s b).blocks = (lostCells s b).blocks := by rw [blockDormant_eq]
  rw [State.block, State.block, blocks]

theorem blockDormant_cell (s : State) (b c : Nat) : (blockDormant s b).cell c = (lostCells s b).cell c := by
  have cells : (blockDormant s b).cells = (lostCells s b).cells := by rw [blockDormant_eq]
  rw [State.cell, State.cell, cells]

theorem lostCells_block (s : State) (b : Nat) : (lostCells s b).block b = { Block.reset with
    oos := (s.block b).oos, groupOos := (s.block b).groupOos, becfg := (s.block b).becfg, becnt := (s.block b).becnt } := by
  rw [lostCells, setCellsOf_block, State.block_setBlock_same]

theorem lostCells_cell (s : State) (b : Nat) {i : Nat} (hi : i < 8) :
    (lostCells s b).cell (8 * b + i) = { Cell.reset with chall := (s.cell (8 * b + i)).chall } := by
  rw [lostCells, setCellsOf_cell _ _ _ hi]
  rfl

end

section
variable {b : BlockId} (acc : BitVec 8) (bad : List Nat) (may : mayDescend s b.val = true)

theorem exec_blockDescend_not (mayNot : mayDescend s b.val = false) : exec (.blockDescend b acc bad) s = .next s := by
  change next (if mayDescend s b.val = true then _ else s) = _
  rw [mayNot]
  rfl

include may

theorem exec_blockDescend_run (st : (s.block b.val).st = .run) :
    exec (.blockDescend b acc bad) s = .next (enterState s b.val .poise) := by
  change next (if mayDescend s b.val = true then _ else s) = _
  rw [if_pos may, st]
  rfl

theorem exec_blockDescend_poise (st : (s.block b.val).st = .poise) :
    exec (.blockDescend b acc bad) s = .next (enterState (accFaults (dwellTo s b.val .nap) b.val acc) b.val .nap) := by
  change next (if mayDescend s b.val = true then _ else s) = _
  rw [if_pos may, st]
  rfl

theorem exec_blockDescend_nap (st : (s.block b.val).st = .nap) :
    exec (.blockDescend b acc bad) s = .next (enterState (spoilBlock (dwellTo s b.val .doze) bad b.val) b.val .doze) := by
  change next (if mayDescend s b.val = true then _ else s) = _
  rw [if_pos may, st]
  rfl

theorem exec_blockDescend_doze (st : (s.block b.val).st = .doze) :
    exec (.blockDescend b acc bad) s = .next (enterState (spoilBlock (dwellTo s b.val .dormant) bad b.val) b.val .dormant) := by
  change next (if mayDescend s b.val = true then _ else s) = _
  rw [if_pos may, st]
  rfl

end

/-! ### The way back -/

theorem beginExit_asleep {b : Nat} (asleep : (s.block b).st ≠ .run) (inService : (s.block b).oos = false) :
    beginExit s b = s.setBlock b { s.block b with waking := true } := by
  refine if_neg fun either => either.elim asleep fun oos => ?_
  rw [inService] at oos
  cases oos

theorem beginExit_still {b : Nat} (still : (s.block b).st = .run ∨ (s.block b).oos = true) : beginExit s b = s := if_pos still

section
variable {b : Nat}

theorem blockCreate_block (h : Byte) (s : State) (b : Nat) : (blockCreate h s b).block b =
    { Block.reset with st := .run, group := .on, oos := (s.block b).oos, groupOos := (s.block b).groupOos } := by
  rw [blockCreate, setCellsOf_block, State.block_setBlock_same]

theorem blockCreate_cell (h : Byte) (s : State) (b : Nat) {i : Nat} (hi : i < 8) :
    ∃ ctcorr ctcseq, (blockCreate h s b).cell (8 * b + i) =
      { Cell.reset with chall := h.zeroExtend 32, ctcorr := ctcorr, ctcseq := ctcseq, vgated := true } :=
  ⟨_, _, setCellsOf_cell _ b _ hi⟩

/-- Cells released in a block that runs (03 R57). -/
theorem releaseCells_of_run (entry : W64) (inService : (s.block b).oos = false) (runs : (s.block b).st = .run) :
    releaseCells entry s b = setCellsOf s b fun k => { k with held := false, pc := entry } := by
  have still : (setCellsOf s b fun k => { k with held := false, pc := entry }).block b = s.block b := setCellsOf_block _ _ _ _
  rw [releaseCells, if_neg (by rw [inService]; exact Bool.false_ne_true), if_neg (by rw [runs]; decide)]
  exact beginExit_still (.inl (by rw [still]; exact runs))

end

/-- The block and its cells out of Dormant, before the cells are released (20 R457). -/
def dormantExit (s : State) (b p : Nat) : State :=
  setCellsOf (blockCreate (s.part p).hall s b) b fun k => { k with ctcorr := Cell.reset.ctcorr, ctcseq := 0 }

theorem dormantExit_block (s : State) (b p : Nat) : (dormantExit s b p).block b =
    { Block.reset with st := .run, group := .on, oos := (s.block b).oos, groupOos := (s.block b).groupOos } := by
  rw [dormantExit, setCellsOf_block, blockCreate_block]

theorem dormantExit_cell (s : State) (b p : Nat) {i : Nat} (hi : i < 8) : (dormantExit s b p).cell (8 * b + i) =
    { Cell.reset with chall := (s.part p).hall.zeroExtend 32, ctcorr := Cell.reset.ctcorr, ctcseq := 0, vgated := true } := by
  obtain ⟨ctcorr, ctcseq, cell⟩ := blockCreate_cell (s.part p).hall s b hi
  rw [dormantExit, setCellsOf_cell _ _ _ hi, cell]

section
variable {b : BlockId}

theorem exec_blockExitComplete_not
    (not : (s.block b.val).waking = false ∨ ((s.block b.val).st = .dormant ∧ ownerOfBlock s b.val = none)) :
    exec (.blockExitComplete b) s = .next s := by
  change next (exitOp s b.val) = _
  unfold exitOp
  dsimp only
  rcases not with asleep | ⟨dormant, free⟩
  · rw [asleep]
    rfl
  · rw [if_neg (not_not_intro dormant), free]
    split <;> rfl

variable (waking : (s.block b.val).waking = true)
include waking

theorem exec_blockExitComplete_awake (st : (s.block b.val).st ≠ .dormant) :
    exec (.blockExitComplete b) s = .next (s.setBlock b.val { s.block b.val with st := .run, waking := false, group := .on }) := by
  change next (exitOp s b.val) = _
  unfold exitOp
  dsimp only
  rw [waking, if_pos st]
  rfl

variable {p : Nat} (st : (s.block b.val).st = .dormant) (owner : ownerOfBlock s b.val = some p)
include st owner

theorem exitOp_dormant : exitOp s b.val =
    if (s.part p).st = .active then releaseCells (s.part p).entry (dormantExit s b.val p) b.val else dormantExit s b.val p := by
  unfold exitOp
  dsimp only
  rw [waking, if_neg (not_not_intro st), owner]
  rfl

/-- Out of Dormant: the cells of an ACTIVE partition start at ENTRY, those of another are held (20 R457). -/
theorem exec_blockExitComplete_dormant (inService : (s.block b.val).oos = false) :
    ∃ t, exec (.blockExitComplete b) s = .next t ∧ (t.block b.val).st = .run ∧ (t.block b.val).waking = false ∧ ∀ i < 8,
      (t.cell (8 * b.val + i)).chall = (s.part p).hall.zeroExtend 32 ∧ (t.cell (8 * b.val + i)).vgated = true ∧
      ((s.part p).st = .active → (t.cell (8 * b.val + i)).held = false ∧ (t.cell (8 * b.val + i)).pc = (s.part p).entry) ∧
      ((s.part p).st ≠ .active → (t.cell (8 * b.val + i)).held = true) := by
  have block := dormantExit_block s b.val p
  refine ⟨exitOp s b.val, rfl, ?_⟩
  rw [exitOp_dormant waking st owner]
  by_cases active : (s.part p).st = .active
  · rw [if_pos active, releaseCells_of_run _ (by rw [block]; exact inService) (by rw [block]), setCellsOf_block, block]
    refine ⟨rfl, rfl, fun i hi => ?_⟩
    rw [setCellsOf_cell _ _ _ hi, dormantExit_cell s b.val p hi]
    exact ⟨rfl, rfl, fun _ => ⟨rfl, rfl⟩, fun not => absurd active not⟩
  · rw [if_neg active, block]
    refine ⟨rfl, rfl, fun i hi => ?_⟩
    rw [dormantExit_cell s b.val p hi]
    exact ⟨rfl, rfl, fun is => absurd is active, fun _ => rfl⟩

end

/-! ### O53 -/

/-- A bit of a controller in self-refresh (20 R459). -/
theorem selfRefresh_bit (r : BitVec 6) (m k : Nat) :
    (r ||| (1#6 <<< (m % 6))).getLsbD k = (r.getLsbD k || decide (k = m % 6)) := by
  have inside : m % 6 < 6 := Nat.mod_lt m (by decide)
  rw [BitVec.getLsbD_or, ← BitVec.twoPow_eq, BitVec.getLsbD_twoPow, decide_eq_true inside, Bool.true_and]
  exact congrArg _ (decide_eq_decide.mpr eq_comm)

/-- Settles O53: each clause is what the lemmas above say of the block's way down (`enterState`) or of its way back (`exitOp`). -/
theorem powerStatesComplete : Obligations.PowerStatesComplete := by
  intro s b acc bad ev m x dwelt
  refine ⟨exec_blockDescend_not acc bad, fun may => ⟨?poise, ?nap, ?doze, ?dormant⟩, fun woken asleep inService => ?wake,
    fun not => ?stays, exec_blockExitComplete_not, exec_blockExitComplete_awake, fun p waking st inService owner =>
      exec_blockExitComplete_dormant waking st owner inService, fun st on => ?retention, fun not => ?noRetention, fun zeroing => ?zeroed,
    fun not => ?notZeroed, fun not => ?noRefresh, fun on sleeps => ?refresh⟩
  case poise => exact exec_blockDescend_run acc bad may
  case nap =>
    intro st
    have awake : (s.block b.val).st ≠ .dormant := by rw [st]; decide
    have timed : PState.nap ≠ .run ∧ PState.nap ≠ .poise := by decide
    refine ⟨_, exec_blockDescend_poise acc bad may st, ?_, ?_, fun i hi => ?_⟩
    · rw [enterNap_block]
    · change (Machine.State.block _ _).timer = _
      rw [enterNap_block, accFaults_block]
      exact dwellTo_timer rfl timed awake
    · rw [enterNap_cell _ _ hi, accFaults_cell _ _ _ hi, dwellTo_cell timed awake]
      refine ⟨rfl, rfl, fun bad resident dirty => ?_⟩
      have bad : (s.cell (8 * b.val + i)).accGoesBad (acc.getLsbD i) = true := by rw [Cell.accGoesBad, bad, resident, dirty]; rfl
      rw [Cell.nap_faulted, if_pos bad]
      rfl
  case doze =>
    intro st
    have awake : (s.block b.val).st ≠ .dormant := by rw [st]; decide
    refine ⟨_, exec_blockDescend_nap acc bad may st, ?_, ?_, ?_⟩
    · rw [enterDoze_block]
    · change (Machine.State.block _ _).timer = _
      rw [enterDoze_timer, cleanBlock_timer, spoilBlock_timer, dwellTo_timer (us := 20000) rfl (by decide) awake]
    · rw [enterDoze_block]
  case dormant =>
    intro st
    refine ⟨_, exec_blockDescend_doze acc bad may st, ?_, ?_, fun i hi => ?_⟩
    · rw [enterState, blockDormant_block, lostCells_block]
      rfl
    · rw [enterState, blockDormant_block, lostCells_block]
      rfl
    · rw [enterState, blockDormant_cell, lostCells_cell _ _ hi]
      rfl
  case wake =>
    change next (if wakes s b.val ev = true then beginExit s b.val else s) = _
    rw [if_pos woken, beginExit_asleep asleep inService]
    rfl
  case stays =>
    change next (if wakes s b.val ev = true then beginExit s b.val else s) = _
    split
    · next woken =>
      rw [beginExit_still (not.resolve_left (by rw [woken]; decide))]
      rfl
    · rfl
  case retention => exact congrArg next (if_pos ⟨st, on⟩)
  case noRetention => exact congrArg next (if_neg fun both => not.elim (absurd both.1) (absurd both.2))
  case zeroed => exact congrArg next (if_pos zeroing)
  case notZeroed => exact congrArg next (if_neg not)
  case noRefresh =>
    have neither : ¬ (powered s && regionSleeps s (m.val / 6)) = true := by
      rcases not with off | awake
      · rw [off]; exact Bool.false_ne_true
      · rw [awake, Bool.and_false]; exact Bool.false_ne_true
    exact congrArg next (if_neg neither)
  case refresh =>
    have both : (powered s && regionSleeps s (m.val / 6)) = true := by rw [on, sleeps]; rfl
    have enters : exec (.selfRefreshEnter m) s = .next _ := congrArg next (if_pos both)
    refine ⟨_, enters, ?_⟩
    rw [State.region_setRegion_same _ _ (by omega)]
    exact ⟨fun k _ => selfRefresh_bit _ _ k, rfl⟩

end Sys2Proof.Machine
end

section
/-! PROOFS. Tile instructions presented to a cell (06 R137 to R139, R147): one that passes its checks joins the queue, one of an illegal
shape traps; O24 and O25. -/

namespace Sys2Proof.Machine

variable {s t : State} {c : CellId}

/-! ### Accepted -/

/-- A tile instruction presented to a running cell that no interrupt is due at; older ones may be uncommitted. -/
theorem issueTile_running (issues : canIssue s c = true) (quiet : dueInterrupt s c = none) (f : State → Res) :
    issueTile s c f = finish c (f s) := by
  simp [issueTile, issues, quiet]

theorem not_faulted_of_canIssue (issues : canIssue s c = true) : (s.cell c).faulted = false := by
  simp [canIssue] at issues
  simp [issues]

/-- 06 R139: while fewer than four are uncommitted an instruction joins the queue. -/
theorem finish_tileIssue (running : (t.cell c).faulted = false) (room : (t.cell c).tpend.length < 4) (op : TileOp) :
    finish c (tileIssue t c op) = t.updCell c (queued · op) := by
  have accepted : tileAccept t c op = (t.setCell c { t.cell c with
      tpend := (t.cell c).tpend ++ [⟨(t.cell c).pc, op⟩], twaking := (t.cell c).twaking || (op.array && (t.cell c).tgated) }, true) := by
    simp [tileAccept, room, running]
  rw [tileIssue, accepted, finish_done, State.updCell, State.cell_setCell_same, State.setCell_setCell]
  rfl

/-- A tile instruction whose checks pass changes its own cell's queue and PC alone. -/
theorem issueTile_queues (issues : canIssue s c = true) (quiet : dueInterrupt s c = none) (room : (s.cell c).tpend.length < 4)
    {f : State → Res} {op : TileOp} (passes : f s = tileIssue s c op) :
    next (issueTile s c f) = .next (s.updCell c (queued · op)) := by
  rw [issueTile_running issues quiet, passes, finish_tileIssue (not_faulted_of_canIssue issues) room]
  rfl

theorem architectural_queued (op : TileOp) : Architectural (queued · op) := fun _ _ _ _ => rfl

/-- What the tile unit sees of a cell does not change as lines move. -/
theorem Moves.tileQueue (m : Moves 0 s t) (c : Nat) :
    (t.cell c).faulted = (s.cell c).faulted ∧ (t.cell c).tpend = (s.cell c).tpend :=
  ⟨(congrArg Cell.faulted (m.cell c) :), (congrArg Cell.tpend (m.cell c) :)⟩

/-- 06 R147: what a TCVT is by its tags, where no slot is named or the slot accepts the cell's hallmark (06 R148). -/
theorem tcvtRes_eq {dst src : TReg} {fs gk : Reg} {par : List TReg}
    (slot : ((s.cell c).rdG gk).getLsbD 8 = false ∨
      (s.slot (256 * (c.val / 128) + fieldN ((s.cell c).rdG gk).toNat 0 8)).refuses (s.cell c).hall = false) :
    tcvtRes s c dst src fs gk par =
      if (s.cell c).cvtNarrowLegal dst src then
        tileIssuePar s c (.narrow dst (quadOf src).val ((s.cell c).rdFs fs) ((s.cell c).rdG gk)) par
      else if (s.cell c).cvtWidenLegal dst src then tileIssuePar s c (.widen (quadOf dst).val src ((s.cell c).rdFs fs)) par
      else shapeFault s := by
  refine if_neg ?_
  rw [Bool.and_eq_true, not_and_or, Bool.not_eq_true, Bool.not_eq_true]
  exact slot

/-- A TLD whose read goes on joins the queue with the bytes of memory. -/
theorem exec_tld_queues {a : Reg} {as : List Nat} (issues : canIssue s c = true) (quiet : dueInterrupt s c = none)
    (room : (s.cell c).tpend.length < 4) (coherent : Coherent s) (noStore : (s.cell c).storePending = false)
    (reads : Reads s c ((s.cell c).rdG a) 1024 as) (td : TReg) :
    ∃ u, Brought s u ∧ exec (.tld c td a .clean false) s = .next (u.updCell c
      (queued · (.load td (BitVec.ofNat 8192 (leNat (as.map (memByte s))))))) := by
  obtain ⟨u, go, brought⟩ := cellRead_brings reads
  have running := not_faulted_of_canIssue issues
  obtain ⟨faulted, tpend⟩ := brought.moves.tileQueue c
  refine ⟨u, brought, ?_⟩
  show execTld c td a .clean false s = _
  rw [execTld, issueTile_running issues quiet]
  simp only [noStore, running, go, memRes, brought.cellBytes coherent, tileIssueAcc, Bool.or_self, Bool.not_false, Bool.false_eq_true,
    if_false, if_true]
  rw [finish_tileIssue (faulted.trans running) (tpend ▸ room)]
  rfl

/-- A write whose addresses `Writes` allows goes on once memory is powered. -/
theorem cellWriteCheck_writes {va : W64} {n : Nat} {as : List Nat} (writes : Writes s c va n as) :
    cellWriteCheck s c va n = .go as (wakeAll s (runs as)) := by
  obtain ⟨-, translates, -, each⟩ := writes
  have free : as.any (cellHeld s c) = false := by
    rw [List.any_eq_false]; exact fun a ha => by rw [cellHeld_of_pathOpen (each a ha).2.1]; decide
  have ready : as.any (fun a => !groupReady (wakeAll s (runs as)) a) = false := by
    rw [List.any_eq_false]; exact fun a ha => by rw [groupReady_wakeAll _ (each a ha).2.2]; decide
  simp only [cellWriteCheck, translates, free, ready, Bool.false_eq_true, if_false]

theorem exec_tst_queues {a : Reg} {as : List Nat} (issues : canIssue s c = true) (quiet : dueInterrupt s c = none)
    (room : (s.cell c).tpend.length < 4) (writes : Writes s c ((s.cell c).rdG a) 1024 as) (ts : TReg) :
    exec (.tst c ts a [] .clean) s =
      .next ((wakeAll s (runs as)).updCell c (queued · (.store ts ((s.cell c).rdG a).toNat .clean))) := by
  obtain ⟨faulted, tpend⟩ := ((Moves.refl 0 s).wakeAll (runs as)).tileQueue c
  show execTst c ts a [] .clean s = _
  rw [execTst, issueTile_running issues quiet]
  dsimp only
  rw [cellWriteCheck_writes writes]
  exact congrArg _ (finish_tileIssue (faulted.trans (not_faulted_of_canIssue issues)) (tpend ▸ room) _)

/-- Settles O24: each check passed leaves `tileIssue`; a TLD has read memory before it, a TST has only powered it. -/
theorem tileInstructionsAccepted : Obligations.TileInstructionsAccepted := by
  intro s c a b x td cq o gs fs g as issues quiet room
  have quad (r : TReg) : (quadOf r).val = r.val / 4 := Nat.mod_eq_of_lt (by omega)
  refine ⟨fun legal => ?mma, ?zero, fun legal => ⟨?zeroQ, ?scale, fun wire => ?drain⟩,
    fun slot => ⟨fun narrow => ?narrow, fun noNarrow widen => ?widen⟩, fun coherent noStore reads => ?load, fun writes => ?store⟩
  case mma => exact issueTile_queues issues quiet room (if_pos legal)
  case zero => exact issueTile_queues issues quiet room rfl
  case zeroQ => exact issueTile_queues issues quiet room ((if_pos legal).trans (by rw [quad]; rfl))
  case scale => exact issueTile_queues issues quiet room ((if_pos legal).trans (by rw [quad]; rfl))
  case drain => exact issueTile_queues issues quiet room ((if_pos (by simpa [legal] using wire)).trans (by rw [quad]; rfl))
  case narrow => exact issueTile_queues issues quiet room ((tcvtRes_eq slot).trans ((if_pos narrow).trans (by rw [quad]; rfl)))
  case widen =>
    exact issueTile_queues issues quiet room
      ((tcvtRes_eq slot).trans ((if_neg (by rw [noNarrow]; decide)).trans ((if_pos widen).trans (by rw [quad]; rfl))))
  case load =>
    obtain ⟨u, brought, done⟩ := exec_tld_queues issues quiet room coherent noStore reads td
    exact ⟨_, done, brought.changes coherent (architectural_queued _)⟩
  case store =>
    have wakes (lo : Nat) : Moves lo s (wakeAll s (runs as)) := (Moves.refl lo s).wakeAll _
    exact ⟨_, exec_tst_queues issues quiet room writes x, fun m => (wakes (m + 1)).below m m.lt_succ_self,
      ((wakes 0).onlyCell (architectural_queued _) as).1⟩

/-! ### Shapes -/

/-- 06 R138: a shape fault of a ready cell is taken, with nothing else changed. -/
theorem issueTile_shapeFault (ready : Ready s c) (nest : (s.cell c).kstate.getLsbD 0 = false) {f : State → Res}
    (faults : f s = shapeFault s) :
    next (issueTile s c f) = .next (trapped s c 8 0 0) ∧ ((s.cell c).trapEntry false 8 0 0).krpc = (s.cell c).pc := by
  rw [issueTile_ready ready, faults, shapeFault, finish_exc ready rfl nest]
  exact ⟨rfl, rfl⟩

/-- Settles O25: a check that fails leaves `shapeFault`, of the state as it is. -/
theorem illegalTileShapesTrap : Obligations.IllegalTileShapesTrap := by
  intro s c a b x td cq o gs fs g par acc ready nest
  refine ⟨fun illegal => ?mma, fun illegal => ⟨?zeroQ, ?scale⟩, fun illegal => ?drain,
    fun slot noNarrow noWiden => ⟨?narrow, ?widen⟩⟩
  case mma => exact issueTile_shapeFault ready nest (if_neg (by rw [illegal]; decide))
  case zeroQ => exact issueTile_shapeFault ready nest (if_neg (by rw [illegal]; decide))
  case scale => exact issueTile_shapeFault ready nest (if_neg (by rw [illegal]; decide))
  case drain =>
    refine issueTile_shapeFault ready nest (if_neg ?_)
    rcases illegal with illegal | wire
    · simp [illegal]
    · simp [wire]
  case narrow => exact issueTile_shapeFault ready nest ((tcvtRes_eq slot).trans (by simp [noNarrow, noWiden]))
  case widen => exact issueTile_shapeFault ready nest ((tcvtRes_eq slot).trans (by simp [noNarrow, noWiden]))

end Sys2Proof.Machine
end

section
/-! PROOFS. A TST through a memory window that names no memory (06 R152, 16 R373), and O26. -/

namespace Sys2Proof.Machine

/-- The memory window in use in `tileWindowState`: it maps 64 MiB from partition-relative address 0 on to the tile windows. -/
def tileWindow : BitVec 128 := BitVec.ofNat 128 (0x20000000000 + 2 ^ 48 + 2 * 2 ^ 56)

theorem tileWindow_base : winBase tileWindow = 0x20000000000 := by decide
theorem tileWindow_pbase : winPBase tileWindow = 0 := by decide
theorem tileWindow_len : winLen tileWindow = 0x4000000 := by decide

theorem tileWindowState_wins : (tileWindowState.part 0).wins.toList = tileWindow :: List.replicate 15 0 := by decide

theorem placeOf_tileWindow {a : Nat} (low : 0x20000000000 ≤ a) (high : a < 0x20000010000) :
    placeOf a = .tile 0 (a - 0x20000000000) := by
  obtain ⟨i, rfl⟩ := Nat.exists_eq_add_of_le low
  have number : (0x20000000000 + i - 0x20000000000) / 0x10000 = 0 := by omega
  have offset : (0x20000000000 + i) % 0x10000 = 0x20000000000 + i - 0x20000000000 := by omega
  rw [placeOf, if_neg (by omega), if_neg (by omega), if_pos (by omega), if_pos (by omega), number, offset]

theorem tileWindowState_xlate {va : Nat} (h : va < 0x10000) : xlate tileWindowState 0 va = .ok (0x20000000000 + va) := by
  have wins : cellWins tileWindowState 0 = (tileWindowState.part 0).wins.toList := by decide
  have inside : insideRange va 1 (winPBase tileWindow) (winLen tileWindow) = true := by
    rw [tileWindow_pbase, tileWindow_len]; simp [insideRange]; omega
  have found : (tileWindow :: List.replicate 15 0).find? (fun w => insideRange va 1 (winPBase w) (winLen w)) = some tileWindow :=
    List.find?_cons_of_pos inside
  rw [xlate, if_neg (by omega), if_neg (by omega), wins, tileWindowState_wins, found]
  dsimp only
  rw [tileWindow_base, tileWindow_pbase, Nat.sub_zero, placeOf_tileWindow (by omega) (by omega)]
  rfl

theorem tileWindowState_xlates {va : W64} {n : Nat} (h : va.toNat + n ≤ 0x10000) :
    xlates tileWindowState 0 va n = .ok (List.range' (0x20000000000 + va.toNat) n) := by
  induction n generalizing va with
  | zero => rfl
  | succ n ih =>
    cases n with
    | zero => rw [xlates, tileWindowState_xlate (by omega)]; rfl
    | succ n =>
      have next : (va + 1).toNat = va.toNat + 1 := by bv_omega
      rw [xlates, tileWindowState_xlate (by omega), ih (by omega), next]
      rfl

theorem tileWindowState_accepts {a : Nat} (low : 0x20000000000 ≤ a) (high : a < 0x20000010000) :
    memAccepts tileWindowState 1 a 1 = true := by
  have holder : partOfHall tileWindowState 1 = some 0 := by decide
  have keyed : (tileWindowState.part 0).keyed = true := by decide
  have has : winHas tileWindow a = true := by rw [winHas, tileWindow_base, tileWindow_len]; simp [insideRange]; omega
  have found : (tileWindow :: List.replicate 15 0).find? (fun w => winHas w a) = some tileWindow := List.find?_cons_of_pos has
  have rest : 1 - min 1 (0x20000000000 + 0x4000000 - a) = 0 := by omega
  rw [memAccepts, holder]
  dsimp only
  rw [keyed, Bool.and_true, inMemWindows, tileWindowState_wins, covered, if_neg Nat.one_ne_zero, found]
  dsimp only
  rw [tileWindow_base, tileWindow_len, rest]
  rfl

theorem tileWindowState_pathOpen {a : Nat} (low : 0x20000000000 ≤ a) (high : a < 0x20000010000) : PathOpen tileWindowState 0 a := by
  refine ⟨by decide, by decide, by decide, ?_⟩
  rw [unitHeld, placeOf_tileWindow low high]

/-- In `tileWindowState` the statements' premises let cell 0 write any extent of its tile window. -/
theorem tileWindowState_writesRange {n : Nat} (h : n ≤ 0x10000) :
    Writes tileWindowState 0 0 n (List.range' 0x20000000000 n) := by
  refine ⟨rfl, tileWindowState_xlates (by simpa using h), List.nodup_range', fun a ha => ?_⟩
  obtain ⟨low, high⟩ := List.mem_range'_1.mp ha
  refine ⟨tileWindowState_accepts low (by omega), tileWindowState_pathOpen low (by omega), ?_⟩
  rw [groupReady, placeOf_tileWindow low (by omega)]

/-- `tileWindowState` with a tile file, and an uncommitted TST of T0 at address 0. -/
def tileWindowStoreState (file : Vector (BitVec 8192) 64) : State :=
  tileWindowState.updCell 0 fun k => { k with t := file, tpend := [⟨0, .store 0 0 .clean⟩] }

theorem tileWindowStoreState_writes (file : Vector (BitVec 8192) 64) :
    Writes (tileWindowStoreState file) 0 0 1024 (List.range' 0x20000000000 1024) := by
  obtain ⟨memory, translates, nodup, each⟩ := tileWindowState_writesRange (n := 1024) (by decide)
  have sees : SeesAs tileWindowState (tileWindowStoreState file) := ⟨fun _ => rfl, fun _ => rfl, fun _ => rfl, fun _ => id⟩
  exact ⟨memory, (sees.xlates _ _ _).trans translates, nodup, each⟩

theorem tileWindowStoreState_coherent (file : Vector (BitVec 8192) 64) : Coherent (tileWindowStoreState file) := by
  obtain ⟨l1, l2⟩ := tileWindowState_coherent
  refine ⟨fun c => ?_, l2⟩
  rw [tileWindowStoreState, State.cell_updCell]
  split
  · next h => exact h ▸ l1 0
  · exact l1 c

/-- 15 R367: the store of a TST that `Writes` allows waits for no arbiter. -/
theorem storeHeld_of_writes {s : State} {c : CellId} {ts : TReg} {va : Nat} {chk : Check} {as : List Nat}
    (writes : Writes s c (BitVec.ofNat 64 va) 1024 as) : storeHeld s c (.store ts va chk) = false := by
  obtain ⟨-, translates, -, each⟩ := writes
  have length := length_of_xlates translates
  simp only [storeHeld, translates]
  refine List.any_eq_false.mpr fun i hi => ?_
  have inside : 64 * i < as.length := by rw [List.mem_range] at hi; omega
  rw [List.getD_eq_getElem _ _ inside, cellHeld_of_pathOpen (each _ (List.getElem_mem inside)).2.1]
  decide

/-- A tile file whose T0 holds 1. -/
def oneInT0 : Vector (BitVec 8192) 64 := (Vector.replicate 64 0).set 0 1#8192

theorem packN_toNat {w : Nat} (x : BitVec w) : packN w [x.toNat] = x.toNat := by simp [packN]

/-- The first byte that a TST of T0 stores where T0 holds 1. -/
theorem head_leBytes_group {k : Cell} (one : vget k.t 0 = 1#8192) : (leBytes 1024 (k.group 0 1)).head? = some 1 := by
  have value : k.group 0 1 = 1 := by
    have pack : k.group 0 1 = packN 8192 [(vget k.t 0).toNat] := rfl
    rw [pack, one, packN_toNat, BitVec.toNat_one (by omega)]
  rw [value]
  rfl

/-- Refutes O26. As with O9, `Writes` does not ask that the addresses be memory (`isMem`): in `tileWindowStoreState oneInT0` the
partition's one memory window names tile windows, which hold no byte of memory. The commit of the TST of T0 at partition-relative address
0 would have to leave the lowest byte of T0, which is 1, in a tile window. -/
theorem not_tileCommitCompletes : ¬ Obligations.TileCommitCompletes := by
  intro h
  have writes := tileWindowStoreState_writes oneInT0
  have commits := h (tileWindowStoreState oneInT0) 0 0 (.store 0 0 .clean) [] rfl rfl rfl rfl (storeHeld_of_writes writes) rfl rfl
  obtain ⟨t, -, -, -, -, -, -, -, -, -, -, -, -, -, -, -, -, -, stores⟩ := commits
  obtain ⟨-, bytes, -⟩ := stores 0 0 _ rfl (tileWindowStoreState_coherent oneInT0) writes
  have first : memByte t 0x20000000000 = 1 := Option.some.inj ((congrArg List.head? bytes).trans (head_leBytes_group rfl))
  rw [memByte_of_not_isMem t (by decide)] at first
  exact absurd first (by decide)

end Sys2Proof.Machine
end

section
/-! PROOFS. Words of 64 bits: what a field reads as after another was merged in. -/

namespace Sys2Proof.Machine

theorem testBit_fieldN (v lo w i : Nat) : (fieldN v lo w).testBit i = (decide (i < w) && v.testBit (lo + i)) := by
  rw [fieldN, Nat.testBit_mod_two_pow, Nat.testBit_shiftRight]

theorem getLsbD_mergeField (old new : W64) {lo w k : Nat} (hk : k < 64) :
    (mergeField old new lo w).getLsbD k = if lo ≤ k ∧ k < lo + w then new.getLsbD k else old.getLsbD k := by
  have mask : (BitVec.ofNat 64 (2 ^ w - 1) <<< lo).getLsbD k = decide (lo ≤ k ∧ k < lo + w) := by
    rw [BitVec.getLsbD_shiftLeft, BitVec.getLsbD_ofNat, Nat.testBit_two_pow_sub_one, Bool.eq_iff_iff]
    simp only [Bool.and_eq_true, Bool.not_eq_true', decide_eq_true_eq, decide_eq_false_iff_not]
    omega
  simp only [mergeField, BitVec.getLsbD_or, BitVec.getLsbD_and, BitVec.getLsbD_not, mask]
  by_cases inside : lo ≤ k ∧ k < lo + w
  · simp [inside]
  · simp [inside, hk]

theorem fieldN_mergeField_same (old new : W64) {lo w : Nat} (h : lo + w ≤ 64) :
    fieldN (mergeField old new lo w).toNat lo w = fieldN new.toNat lo w := by
  refine Nat.eq_of_testBit_eq fun i => ?_
  simp only [testBit_fieldN]
  by_cases hi : i < w
  · have bit := getLsbD_mergeField old new (lo := lo) (w := w) (k := lo + i) (by omega)
    rw [if_pos (by omega)] at bit
    exact congrArg _ bit
  · simp [hi]

/-- A field below the one merged in keeps its value. -/
theorem fieldN_mergeField_below (old new : W64) {lo w l n : Nat} (below : l + n ≤ lo) (h : l + n ≤ 64) :
    fieldN (mergeField old new lo w).toNat l n = fieldN old.toNat l n := by
  refine Nat.eq_of_testBit_eq fun i => ?_
  simp only [testBit_fieldN]
  by_cases hi : i < n
  · have bit := getLsbD_mergeField old new (lo := lo) (w := w) (k := l + i) (by omega)
    rw [if_neg (by omega)] at bit
    exact congrArg _ bit
  · simp [hi]

theorem fieldN_wrField_same (old new : W64) {lo w : Nat} (ok : Nat → Bool) (h : lo + w ≤ 64) :
    fieldN (wrField old new lo w ok).toNat lo w = if ok (fieldN new.toNat lo w) then fieldN new.toNat lo w else fieldN old.toNat lo w := by
  rw [wrField]
  split
  · exact fieldN_mergeField_same old new h
  · rfl

theorem fieldN_wrField_below (old new : W64) {lo w l n : Nat} (ok : Nat → Bool) (below : l + n ≤ lo) (h : l + n ≤ 64) :
    fieldN (wrField old new lo w ok).toNat l n = fieldN old.toNat l n := by
  rw [wrField]
  split
  · exact fieldN_mergeField_below old new below h
  · rfl

end Sys2Proof.Machine
end

section
/-! PROOFS. Contributions to a statistic slot (08 R195 to R199). -/

namespace Sys2Proof.Machine

/-- A counter raised, saturating (08 R195). -/
def counted (v : W64) (n : Nat) : W64 := BitVec.ofNat 64 (min (2 ^ 64 - 1) (v.toNat + n))

theorem setIfInBounds_eq_set_of_lt {α : Type} {n i : Nat} (v : Vector α n) (a : α) (h : i < n) : v.setIfInBounds i a = v.set i a :=
  Vector.ext fun j hj => by rw [Vector.getElem_setIfInBounds hj, Vector.getElem_set h hj]

theorem Slot.add_step (x : Slot) {i : Nat} (n : Nat) (h : i < 8) : (x.add i n).step = x.step.set i (counted x.step[i] n) := by
  simp [Slot.add, counted, satAdd, max64, vget, h, setIfInBounds_eq_set_of_lt]

theorem Slot.add_total (x : Slot) {i : Nat} (n : Nat) (h : i < 8) : (x.add i n).total = x.total.set i (counted x.total[i] n) := by
  simp [Slot.add, counted, satAdd, max64, vget, h, setIfInBounds_eq_set_of_lt]

/-- A slot with the counts of a contribution added (08 R197). -/
def Slot.addAll (x : Slot) (c : Contribution) : Slot :=
  ((((((x.add 0 c.conv).add 1 c.satc).add 2 c.vanc).add 3 c.invc).add 4 c.degc).add 5 c.nfc).add 6 c.bumpc

/-- The counters of a slot, MIXC apart, raised by the counts of a contribution (08 R197). -/
def countedAll (v : Vector W64 8) (c : Contribution) : Vector W64 8 :=
  #v[counted v[0] c.conv, counted v[1] c.satc, counted v[2] c.vanc, counted v[3] c.invc, counted v[4] c.degc, counted v[5] c.nfc,
    counted v[6] c.bumpc, v[7]]

/-- Counters raised one after the other, each at its own place, are raised together. -/
theorem set_counted_eq_countedAll (v : Vector W64 8) (c : Contribution) :
    ((((((v.set 0 (counted v[0] c.conv)).set 1 (counted v[1] c.satc)).set 2 (counted v[2] c.vanc)).set 3 (counted v[3] c.invc)).set 4
      (counted v[4] c.degc)).set 5 (counted v[5] c.nfc)).set 6 (counted v[6] c.bumpc) = countedAll v c := by
  refine Vector.ext fun i hi => ?_
  interval_cases i <;> simp [countedAll]

theorem Slot.addAll_step (x : Slot) (c : Contribution) : (x.addAll c).step = countedAll x.step c := by
  simp [← set_counted_eq_countedAll, Slot.addAll, Slot.add_step]

theorem Slot.addAll_total (x : Slot) (c : Contribution) : (x.addAll c).total = countedAll x.total c := by
  simp [← set_counted_eq_countedAll, Slot.addAll, Slot.add_total]

@[simp] theorem Slot.add_amaxv (x : Slot) (i n : Nat) : (x.add i n).amaxv = x.amaxv := rfl
@[simp] theorem Slot.add_sbmax (x : Slot) (i n : Nat) : (x.add i n).sbmax = x.sbmax := rfl
@[simp] theorem Slot.addAll_amaxv (x : Slot) (c : Contribution) : (x.addAll c).amaxv = x.amaxv := by simp [Slot.addAll]
@[simp] theorem Slot.addAll_sbmax (x : Slot) (c : Contribution) : (x.addAll c).sbmax = x.sbmax := by simp [Slot.addAll]

/-- A slot whose SBMAX a contribution's bump raises (08 R197). -/
def Slot.bumped (x : Slot) (b : BitVec 4) : Slot := { x with sbmax := if x.sbmax < b then b else x.sbmax }

/-- A slot that AMAXV and SBMAX of a contribution join (08 R197). -/
def Slot.joined (x : Slot) (c : Contribution) : Slot :=
  { x with amaxv := amaxJoin x.amaxv c.amax, sbmax := if x.sbmax < c.bump then c.bump else x.sbmax }

theorem Slot.bumped_sbmax (x : Slot) (b : BitVec 4) : (x.bumped b).sbmax.toNat = max x.sbmax.toNat b.toNat := by
  simp only [Slot.bumped, BitVec.lt_def]
  split <;> omega

theorem Slot.joined_addAll_step (x : Slot) (c : Contribution) : ((x.addAll c).joined c).step = countedAll x.step c := x.addAll_step c

theorem Slot.joined_addAll_total (x : Slot) (c : Contribution) : ((x.addAll c).joined c).total = countedAll x.total c := x.addAll_total c

theorem Slot.joined_addAll_amaxv (x : Slot) (c : Contribution) : ((x.addAll c).joined c).amaxv = amaxJoin x.amaxv c.amax := by
  rw [Slot.joined, Slot.addAll_amaxv]

theorem Slot.joined_addAll_sbmax (x : Slot) (c : Contribution) :
    ((x.addAll c).joined c).sbmax.toNat = max x.sbmax.toNat c.bump.toNat := by
  rw [← Slot.addAll_sbmax x c]
  exact Slot.bumped_sbmax (x.addAll c) c.bump

/-- The counters that a contribution without a format raises: INVC and BUMPC (08 R199). -/
theorem Slot.addCodes_step (x : Slot) (c : Contribution) : ((x.add 3 c.invc).add 6 c.bumpc).step =
    (x.step.set 3 (counted x.step[3] c.invc)).set 6 (counted x.step[6] c.bumpc) := by
  simp [Slot.add_step]

theorem Slot.addCodes_total (x : Slot) (c : Contribution) : ((x.add 3 c.invc).add 6 c.bumpc).total =
    (x.total.set 3 (counted x.total[3] c.invc)).set 6 (counted x.total[6] c.bumpc) := by
  simp [Slot.add_total]

section
variable {s : State} {i : Nat} {x : Contribution}

theorem contribute_of_sameFormat {f : BitVec 4} (fmt : x.fmt = some f) (same : f.toNat = (s.slot i).fmt) : contribute s i x =
    s.setSlot i (((s.slot i).addAll x).joined x) := by
  rw [contribute, fmt]
  exact if_neg (not_not.mpr same)

theorem contribute_of_noFormat (fmt : x.fmt = none) :
    contribute s i x = s.setSlot i ((((s.slot i).add 3 x.invc).add 6 x.bumpc).bumped x.bump) := by
  simp only [contribute, fmt]
  rfl

theorem contribute_of_otherFormat {f : BitVec 4} (fmt : x.fmt = some f) (other : f.toNat ≠ (s.slot i).fmt) :
    contribute s i x = slotEvent (s.setSlot i ((s.slot i).add 7 1)) i 5 := by
  simp only [contribute, fmt, other, ne_eq, not_false_eq_true, if_true]

theorem exec_slotContribution_accepted {r : RegionId} {n : Byte} (number : i = 256 * r.val + n.toNat)
    (assigned : (s.slot i).assigned = true) (hall : (s.slot i).hall = x.hall) :
    exec (.slotContribution r n x) s = .next (contribute s i x) := by
  have accepts : (s.slot i).refuses x.hall = false := by simp [Slot.refuses, assigned, hall]
  subst number
  show next (slotContribute s _ x) = _
  rw [slotContribute, accepts]
  rfl

theorem exec_slotContribution_refused {r : RegionId} {n : Byte} (number : i = 256 * r.val + n.toNat)
    (other : (s.slot i).assigned = false ∨ (s.slot i).hall ≠ x.hall) : exec (.slotContribution r n x) s =
      .next (reportLog s (originSlot s i) (originSlot s i) 4 (partOfHall s (s.slot i).hall) 0) := by
  have refuses : (s.slot i).refuses x.hall = true := by simpa [Slot.refuses] using other
  subst number
  show next (slotContribute s _ x) = _
  rw [slotContribute, refuses]
  rfl

end

/-! ### Events -/

/-- What the events of slot `i` leave: its own flags and count, the signals sent, and the partitions' counts of what crosses the bridge
(08 R203). -/
structure Raised (i : Nat) (s t : State) : Prop where
  slot : t.slot i = { s.slot i with sevt := (t.slot i).sevt, sevcnt := (t.slot i).sevcnt }
  others : ∀ j, j ≠ i → t.slot j = s.slot j
  frame : t = { s with slots := t.slots, sigs := t.sigs, parts := t.parts }

theorem Raised.refl (i : Nat) (s : State) : Raised i s s := ⟨rfl, fun _ _ => rfl, rfl⟩

theorem Raised.trans {i : Nat} {s t u : State} (st : Raised i s t) (tu : Raised i t u) : Raised i s u where
  slot := tu.slot.trans (congrArg (fun x : Slot => { x with sevt := (u.slot i).sevt, sevcnt := (u.slot i).sevcnt }) st.slot)
  others j hj := (tu.others j hj).trans (st.others j hj)
  frame := tu.frame.trans
    (congrArg (fun v : State => { v with slots := u.slots, sigs := u.sigs, parts := u.parts }) st.frame)

theorem countPart_frame (s : State) (p : Option Nat) (k n : Nat) :
    countPart s p k n = { s with parts := (countPart s p k n).parts } := by
  cases p <;> rfl

theorem sendSig_frame (s : State) (src cell pip n : Nat) (h : Byte) : sendSig s src cell pip n h =
    { s with sigs := (sendSig s src cell pip n h).sigs, parts := (sendSig s src cell pip n h).parts } := by
  simp only [sendSig, countBridge]
  split
  · rw [countPart_frame]
  · rfl

theorem slotSignal_slot (s : State) (i j : Nat) : (slotSignal s i).slot j = s.slot j := by
  unfold slotSignal
  dsimp only
  split
  · exact sendSig_slot _ _ _ _ _ _ _
  · rfl

theorem slotSignal_frame (s : State) (i : Nat) :
    slotSignal s i = { s with sigs := (slotSignal s i).sigs, parts := (slotSignal s i).parts } := by
  unfold slotSignal
  dsimp only
  split
  · exact sendSig_frame _ _ _ _ _ _
  · rfl

theorem raised_slotSignal (s : State) (i : Nat) : Raised i s (slotSignal s i) where
  slot := by rw [slotSignal_slot]
  others j _ := slotSignal_slot s i j
  frame := by rw [slotSignal_frame]

/-- A slot in which an event is entered (08 R203). -/
def Slot.marked (x : Slot) (bit : Nat) : Slot :=
  { x with sevt := x.sevt ||| (1#6 <<< bit), sevcnt := BitVec.ofNat 32 (satAdd max32 x.sevcnt.toNat 1) }

theorem Slot.marked_sevt (x : Slot) {bit : Nat} (h : bit < 6) : (x.marked bit).sevt.getLsbD bit = true := by
  simp [Slot.marked, h]

theorem slotEvent_eq (s : State) (i bit : Nat) : slotEvent s i bit = slotSignal (s.setSlot i ((s.slot i).marked bit)) i := rfl

theorem raised_slotEvent (s : State) (i bit : Nat) : Raised i s (slotEvent s i bit) := by
  have entered : Raised i s (s.setSlot i ((s.slot i).marked bit)) :=
    ⟨by rw [State.slot_setSlot_same]; rfl, fun j hj => State.slot_setSlot_ne s _ hj.symm, rfl⟩
  exact entered.trans (raised_slotSignal _ i)

theorem slotEvent_slot_same (s : State) (i bit : Nat) : (slotEvent s i bit).slot i = (s.slot i).marked bit := by
  rw [slotEvent_eq, slotSignal_slot, State.slot_setSlot_same]

theorem raised_raiseEvents (i : Nat) (es : List (Nat × Bool)) (s : State) : Raised i s (raiseEvents i es s) := by
  induction es generalizing s with
  | nil => exact Raised.refl i s
  | cons e es ih =>
    rw [raiseEvents]
    split
    · exact (raised_slotEvent s i e.1).trans (ih _)
    · exact ih s

end Sys2Proof.Machine
end

section
/-! PROOFS. Closing and clearing a statistic slot, and its configuration (08 R196, R200 to R204). -/

namespace Sys2Proof.Machine

/-! ### What the commands reach -/

/-- A slot's page belongs to the partition that the slot is assigned to (01 R499). -/
theorem ctlAccepts_slotReg {s : State} {h : Byte} (r : RegionId) (n : Byte) {off : Nat} (inPage : off < 0x1000)
    (assigned : (s.slot (256 * r.val + n.toNat)).assigned = true) (hall : (s.slot (256 * r.val + n.toNat)).hall = h) (held : h ≠ 0) :
    ctlAccepts s (placeOf (slotReg r.val n.toNat off)) h = true := by
  have page : slotReg r.val n.toNat off = 0x30001000000 + 0x1000000 * r.val + (0x800000 + 0x1000 * n.toNat + off) := by
    unfold slotReg; omega
  have number : (0x800000 + 0x1000 * n.toNat + off - 0x800000) / 0x1000 = n.toNat := by omega
  have lt := n.isLt
  have unit : aslotUnit r.val (0x800000 + 0x1000 * n.toNat + off) = none := by rw [aslotUnit, if_neg (by omega)]
  have owner : regionPageHall s r.val (0x800000 + 0x1000 * n.toNat + off) = h := by
    rw [regionPageHall, if_pos (by omega)]
    simp only [number, assigned, hall, if_true]
  rw [page, placeOf_region r.isLt (by omega)]
  simp only [ctlAccepts, unit, owner, hallOk, held, if_false, beq_self_eq_true]

/-! ### The scale part of a close -/

section
variable {s : State} {i : Nat}

theorem closeScale_of_not_pushes (quiet : (s.slot i).pushes = false) : closeScale s i = s := by
  rw [closeScale, quiet]
  rfl

/-- 08 R200: what a close that pushes leaves of the slot, SNEXT and RNEXT named. -/
theorem closeScale_slot_of_pushes (pushes : (s.slot i).pushes = true) : ∃ next recip : W32,
    let x := s.slot i
    let hist := (slotEntry x :: x.hist).take 16
    (closeScale s i).slot i = { x with
      hist := hist, sstep := BitVec.ofNat 32 (satAdd max32 x.sstep.toNat 1), amaxh := slotPolicy x hist, snext := next, rnext := recip } ∧
    ((v32 x.scur).sign = false → (v32 x.scur).isZero = false → next = slotScale x (slotPolicy x hist)) := by
  rw [closeScale, pushes]
  simp only [if_true, State.slot_setSlot_same]
  refine ⟨_, _, rfl, fun positive nonzero => ?_⟩
  rw [positive, nonzero]
  rfl

theorem closeScale_others {j : Nat} (hj : j ≠ i) : (closeScale s i).slot j = s.slot j := by
  unfold closeScale
  dsimp only
  split
  · split <;> exact State.slot_setSlot_ne _ _ hj.symm
  · rfl

theorem closeScale_frame : closeScale s i = { s with slots := (closeScale s i).slots, draws := (closeScale s i).draws } := by
  unfold closeScale
  dsimp only
  split
  · split <;> rfl
  · rfl

/-- A close changes none but these registers before it evaluates the events (08 R200). -/
theorem closeScale_slot : ∃ (hist : List W32) (sstep amaxh next recip : W32), (closeScale s i).slot i =
    { s.slot i with hist := hist, sstep := sstep, amaxh := amaxh, snext := next, rnext := recip } := by
  cases pushes : (s.slot i).pushes
  case false => exact ⟨_, _, _, _, _, congrArg (State.slot · i) (closeScale_of_not_pushes pushes)⟩
  case true =>
    obtain ⟨next, recip, slot, -⟩ := closeScale_slot_of_pushes pushes
    exact ⟨_, _, _, _, _, slot⟩

/-! ### CLOSE -/

/-- What a close may change of the state: slots, signals on their way with the counts of the bridge, marks of verdicts and the number of
values drawn (08 R200, R203, R204). -/
def SlotFrame (s t : State) : Prop :=
  t = { s with slots := t.slots, sigs := t.sigs, parts := t.parts, regions := t.regions, draws := t.draws }

theorem SlotFrame.trans {s t u : State} (st : SlotFrame s t) (tu : SlotFrame t u) : SlotFrame s u :=
  Eq.trans tu (congrArg (fun v : State =>
    { v with slots := u.slots, sigs := u.sigs, parts := u.parts, regions := u.regions, draws := u.draws }) st)

theorem slotFrame_setSlot (s : State) (i : Nat) (x : Slot) : SlotFrame s (s.setSlot i x) := rfl

theorem Raised.slotFrame {s t : State} (raised : Raised i s t) : SlotFrame s t := by
  unfold SlotFrame
  rw [raised.frame]

theorem closeScale_slotFrame (s : State) (i : Nat) : SlotFrame s (closeScale s i) := by
  unfold SlotFrame
  rw [closeScale_frame]

/-- The mark of SAT for the verdict that a close of a gating slot leaves in its region (08 R204). -/
def satMarked (x : Slot) (i : Nat) (s : State) : State :=
  let job := fieldN x.cfg.toNat 24 12
  let r := i / 256
  if (closeEvents x).any (fun e => e.1 == 0 && e.2) && x.cfg.getLsbD 22 && jobInRegion s r job then
    s.setRegion r { s.region r with marks := insertNat job (s.region r).marks }
  else s

theorem satMarked_slots (x : Slot) (i : Nat) (s : State) : (satMarked x i s).slots = s.slots := by
  simp only [satMarked]
  split <;> rfl

theorem satMarked_slotFrame (x : Slot) (i : Nat) (s : State) : SlotFrame s (satMarked x i s) := by
  simp only [satMarked]
  split <;> rfl

/-- A slot whose step is zeroed at the end of a close (08 R200). -/
def Slot.restarted (x : Slot) : Slot := { x with step := Vector.replicate 8 0, amaxv := 0, sbmax := 0 }

/-- The state of a close before the step is zeroed (08 R200, R203, R204). -/
def closeEvaluated (s : State) (i : Nat) : State :=
  satMarked (s.slot i) i (raiseEvents i (closeEvents (s.slot i)) (closeScale s i))

theorem slotCloseOp_eq (s : State) (i : Nat) :
    slotCloseOp s i = (closeEvaluated s i).setSlot i ((closeEvaluated s i).slot i).restarted := rfl

theorem closeEvaluated_slot (s : State) (i j : Nat) :
    (closeEvaluated s i).slot j = (raiseEvents i (closeEvents (s.slot i)) (closeScale s i)).slot j := by
  simp only [State.slot, closeEvaluated, satMarked_slots]

theorem slotCloseOp_slot (s : State) (i : Nat) : ∃ flags count, (slotCloseOp s i).slot i =
    { ((closeScale s i).slot i).restarted with sevt := flags, sevcnt := count } := by
  have raised := raised_raiseEvents i (closeEvents (s.slot i)) (closeScale s i)
  rw [slotCloseOp_eq, State.slot_setSlot_same, closeEvaluated_slot, raised.slot]
  exact ⟨_, _, rfl⟩

theorem slotCloseOp_others {j : Nat} (hj : j ≠ i) : (slotCloseOp s i).slot j = s.slot j := by
  rw [slotCloseOp_eq, State.slot_setSlot_ne _ _ hj.symm, closeEvaluated_slot, (raised_raiseEvents i _ _).others j hj, closeScale_others hj]

theorem slotCloseOp_slotFrame (s : State) (i : Nat) : SlotFrame s (slotCloseOp s i) := by
  have evaluated : SlotFrame s (closeEvaluated s i) :=
    ((closeScale_slotFrame s i).trans (raised_raiseEvents i _ _).slotFrame).trans (satMarked_slotFrame _ _ _)
  exact evaluated.trans (slotFrame_setSlot _ i _)

theorem slotCloseOp_kept (s : State) (i : Nat) :
    let x := s.slot i
    let y := (slotCloseOp s i).slot i
    y.step = Vector.replicate 8 0 ∧ y.amaxv = 0 ∧ y.sbmax = 0 ∧ y.total = x.total ∧ y.cfg = x.cfg ∧ y.own = x.own ∧
      y.scur = x.scur := by
  obtain ⟨flags, count, slot⟩ := slotCloseOp_slot s i
  obtain ⟨hist, sstep, amaxh, next, recip, scale⟩ := closeScale_slot (s := s) (i := i)
  rw [slot, scale]
  exact ⟨rfl, rfl, rfl, rfl, rfl, rfl, rfl⟩

theorem slotCloseOp_pushed {s : State} {i : Nat} (pushes : (s.slot i).pushes = true) :
    let x := s.slot i
    let y := (slotCloseOp s i).slot i
    let hist := (slotEntry x :: x.hist).take 16
    y.hist = hist ∧ y.sstep.toNat = min (2 ^ 32 - 1) (x.sstep.toNat + 1) ∧ y.amaxh = slotPolicy x hist ∧
      ((v32 x.scur).sign = false → (v32 x.scur).isZero = false → y.snext = slotScale x (slotPolicy x hist)) := by
  obtain ⟨flags, count, slot⟩ := slotCloseOp_slot s i
  obtain ⟨next, recip, scale, proposes⟩ := closeScale_slot_of_pushes pushes
  rw [slot, scale]
  exact ⟨rfl, toNat_satAdd_max32 _, rfl, proposes⟩

theorem slotCloseOp_quiet {s : State} {i : Nat} (quiet : (s.slot i).pushes = false) :
    let x := s.slot i
    let y := (slotCloseOp s i).slot i
    y.hist = x.hist ∧ y.sstep = x.sstep ∧ y.snext = x.snext := by
  obtain ⟨flags, count, slot⟩ := slotCloseOp_slot s i
  rw [slot, closeScale_of_not_pushes quiet]
  exact ⟨rfl, rfl, rfl⟩

/-! ### CLEAR -/

theorem slotClearOp_slot (s : State) (i : Nat) : ∃ recip, (slotClearOp s i).slot i = { (s.slot i).clear with rnext := recip } := by
  unfold slotClearOp
  dsimp only
  split <;> exact ⟨_, State.slot_setSlot_same _ _ _⟩

theorem slotClearOp_others {j : Nat} (hj : j ≠ i) : (slotClearOp s i).slot j = s.slot j := by
  unfold slotClearOp
  dsimp only
  split <;> exact State.slot_setSlot_ne _ _ hj.symm

theorem slotClearOp_frame (s : State) (i : Nat) :
    slotClearOp s i = { s with slots := (slotClearOp s i).slots, draws := (slotClearOp s i).draws } := by
  unfold slotClearOp
  dsimp only
  split <;> rfl

/-! ### SCFG -/

/-- SCFG after a write of all of it (08 R195). -/
def scfgWritten (old v : W64) : W64 :=
  wrField (mergeField (mergeField (wrField (wrField old v 0 4 slotFmtOk) v 4 2 fun n => decide (n < 2)) v 6 30) v 48 9) v 57 6 pipOk

theorem fieldN_scfgWritten_fmt (old v : W64) : fieldN (scfgWritten old v).toNat 0 4 =
    if slotFmtOk (fieldN v.toNat 0 4) then fieldN v.toNat 0 4 else fieldN old.toNat 0 4 := by
  rw [scfgWritten, fieldN_wrField_below _ _ _ (by decide) (by decide), fieldN_mergeField_below _ _ (by decide) (by decide),
    fieldN_mergeField_below _ _ (by decide) (by decide), fieldN_wrField_below _ _ _ (by decide) (by decide),
    fieldN_wrField_same _ _ _ (by decide)]

theorem scfgWriteOp_whole (s : State) (i : Nat) (v : W64) : scfgWriteOp s i v (-1) =
    if fieldN (scfgWritten (s.slot i).cfg v).toNat 0 10 ≠ fieldN (s.slot i).cfg.toNat 0 10 then
      slotClearOp (s.setSlot i { s.slot i with cfg := scfgWritten (s.slot i).cfg v }) i
    else s.setSlot i { s.slot i with cfg := scfgWritten (s.slot i).cfg v } := by
  have whole : masked (s.slot i).cfg v (-1) = v := masked_allOnes _ _
  rw [scfgWriteOp, whole]
  rfl

end

section
variable {s : State} {i : Nat} {v : W64}

theorem scfgWriteOp_cfg : ((scfgWriteOp s i v (-1)).slot i).cfg = scfgWritten (s.slot i).cfg v := by
  rw [scfgWriteOp_whole]
  split
  · obtain ⟨recip, slot⟩ := slotClearOp_slot (s.setSlot i { s.slot i with cfg := scfgWritten (s.slot i).cfg v }) i
    rw [slot, State.slot_setSlot_same]
    rfl
  · rw [State.slot_setSlot_same]

theorem scfgWriteOp_fmt : ((scfgWriteOp s i v (-1)).slot i).fmt =
    if slotFmtOk (fieldN v.toNat 0 4) then fieldN v.toNat 0 4 else (s.slot i).fmt := by
  rw [Slot.fmt, scfgWriteOp_cfg, fieldN_scfgWritten_fmt]
  rfl

theorem scfgWriteOp_changed
    (changed : fieldN ((scfgWriteOp s i v (-1)).slot i).cfg.toNat 0 10 ≠ fieldN (s.slot i).cfg.toNat 0 10) :
    let y := (scfgWriteOp s i v (-1)).slot i
    y.step = Vector.replicate 8 0 ∧ y.hist = [] ∧ y.snext = (s.slot i).scur := by
  rw [scfgWriteOp_cfg] at changed
  rw [scfgWriteOp_whole, if_pos changed]
  obtain ⟨recip, slot⟩ := slotClearOp_slot (s.setSlot i { s.slot i with cfg := scfgWritten (s.slot i).cfg v }) i
  rw [slot, State.slot_setSlot_same]
  exact ⟨rfl, rfl, rfl⟩

theorem scfgWriteOp_unchanged
    (same : fieldN ((scfgWriteOp s i v (-1)).slot i).cfg.toNat 0 10 = fieldN (s.slot i).cfg.toNat 0 10) :
    (scfgWriteOp s i v (-1)).slot i = { s.slot i with cfg := ((scfgWriteOp s i v (-1)).slot i).cfg } := by
  rw [scfgWriteOp_cfg] at same ⊢
  rw [scfgWriteOp_whole, if_neg (not_not.mpr same), State.slot_setSlot_same]

theorem scfgWriteOp_others {j : Nat} (hj : j ≠ i) : (scfgWriteOp s i v (-1)).slot j = s.slot j := by
  rw [scfgWriteOp_whole]
  split
  · rw [slotClearOp_others hj, State.slot_setSlot_ne _ _ hj.symm]
  · exact State.slot_setSlot_ne _ _ hj.symm

theorem scfgWriteOp_frame : scfgWriteOp s i v (-1) =
    { s with slots := (scfgWriteOp s i v (-1)).slots, draws := (scfgWriteOp s i v (-1)).draws } := by
  rw [scfgWriteOp_whole]
  split
  · exact (slotClearOp_frame _ i).trans rfl
  · rfl

end

/-! ### The commands of an accepted slot -/

section
variable {s : State} {h : Byte} {r : RegionId} {n : Byte} {i : Nat} (number : i = 256 * r.val + n.toNat)
  (assigned : (s.slot i).assigned = true) (hall : (s.slot i).hall = h) (held : h ≠ 0)
include number assigned hall held

theorem regAccess_slotReg {off : Nat} (inPage : off < 0x1000) (f : State → State) :
    regAccess s h (slotReg r.val n.toNat off) f = f s := by
  subst number
  rw [regAccess, ctlAccepts_slotReg r n inPage assigned hall held, if_pos rfl]

theorem exec_slotClose : exec (.slotClose h r n) s = .next (slotCloseOp (s.setSlot i { s.slot i with sctl := 1 }) i) := by
  subst number
  exact congrArg next (regAccess_slotReg rfl assigned hall held (by decide) _)

theorem exec_slotClear : exec (.slotClear h r n) s = .next (slotClearOp (s.setSlot i { s.slot i with sctl := 2 }) i) := by
  subst number
  exact congrArg next (regAccess_slotReg rfl assigned hall held (by decide) _)

theorem exec_scfgWrite (v : W64) : exec (.scfgWrite h r n v) s = .next (scfgWriteOp s i v (-1)) := by
  subst number
  exact congrArg next (regAccess_slotReg rfl assigned hall held (by decide) _)

end

/-- Settles O28: each accepted command is one operation on its slot, and the lemmas of the operation say what it leaves of the slot, of the
other slots and of the state. -/
theorem slotsComplete : Obligations.SlotsComplete := by
  unfold Obligations.SlotsComplete
  refine ⟨fun s r n x => ?contribution, fun s h r n v => ?commands⟩
  case contribution =>
    dsimp only
    refine ⟨fun f fmt assigned hall same => ?sameFormat, fun fmt assigned hall => ?noFormat,
      fun f fmt assigned hall other => ?otherFormat, fun other => exec_slotContribution_refused rfl other⟩
    case sameFormat =>
      refine ⟨_, exec_slotContribution_accepted rfl assigned hall, ?_⟩
      rw [contribute_of_sameFormat fmt same, State.slot_setSlot_same]
      exact ⟨Slot.joined_addAll_step _ x, Slot.joined_addAll_total _ x, Slot.joined_addAll_amaxv _ x, Slot.joined_addAll_sbmax _ x,
        fun j hj => State.slot_setSlot_ne s _ hj.symm, rfl⟩
    case noFormat =>
      refine ⟨_, exec_slotContribution_accepted rfl assigned hall, ?_⟩
      rw [contribute_of_noFormat fmt, State.slot_setSlot_same]
      exact ⟨Slot.addCodes_step _ x, Slot.addCodes_total _ x, rfl, Slot.bumped_sbmax _ _,
        fun j hj => State.slot_setSlot_ne s _ hj.symm, rfl⟩
    case otherFormat =>
      refine ⟨_, exec_slotContribution_accepted rfl assigned hall, ?_⟩
      rw [contribute_of_otherFormat fmt other]
      generalize 256 * r.val + n.toNat = i
      have raised := raised_slotEvent (s.setSlot i ((s.slot i).add 7 1)) i 5
      rw [slotEvent_slot_same, State.slot_setSlot_same]
      refine ⟨Slot.add_step _ 1 (by decide), Slot.add_total _ 1 (by decide), rfl, Slot.marked_sevt _ (by decide), fun j hj => ?_,
        Eq.trans raised.frame rfl⟩
      rw [raised.others j hj, State.slot_setSlot_ne _ _ hj.symm]
  case commands =>
    dsimp only
    intro assigned hall held
    refine ⟨?close, ?clear, ?configure⟩
    case close =>
      refine ⟨_, exec_slotClose rfl assigned hall held, ?_⟩
      generalize 256 * r.val + n.toNat = i
      have kept := slotCloseOp_kept (s.setSlot i { s.slot i with sctl := 1 }) i
      have pushed := slotCloseOp_pushed (s := s.setSlot i { s.slot i with sctl := 1 }) (i := i)
      have quiet := slotCloseOp_quiet (s := s.setSlot i { s.slot i with sctl := 1 }) (i := i)
      rw [State.slot_setSlot_same] at kept pushed quiet
      obtain ⟨step, amaxv, sbmax, total, cfg, own, scur⟩ := kept
      refine ⟨step, amaxv, sbmax, total, cfg, own, scur, pushed, quiet, fun j hj => ?_, ?_⟩
      · rw [slotCloseOp_others hj, State.slot_setSlot_ne _ _ hj.symm]
      · exact (slotFrame_setSlot s i _).trans (slotCloseOp_slotFrame _ i)
    case clear =>
      refine ⟨_, exec_slotClear rfl assigned hall held, ?_⟩
      generalize 256 * r.val + n.toNat = i
      obtain ⟨recip, slot⟩ := slotClearOp_slot (s.setSlot i { s.slot i with sctl := 2 }) i
      rw [State.slot_setSlot_same] at slot
      rw [slot]
      refine ⟨rfl, rfl, rfl, rfl, rfl, rfl, rfl, rfl, rfl, rfl, fun j hj => ?_, Eq.trans (slotClearOp_frame _ i) rfl⟩
      rw [slotClearOp_others hj, State.slot_setSlot_ne _ _ hj.symm]
    case configure =>
      refine ⟨_, exec_scfgWrite rfl assigned hall held v, ?_⟩
      generalize 256 * r.val + n.toNat = i
      exact ⟨fun legal => by rw [scfgWriteOp_fmt, if_pos legal], fun reserved => by rw [scfgWriteOp_fmt, reserved]; rfl,
        scfgWriteOp_changed, scfgWriteOp_unchanged, fun j hj => scfgWriteOp_others hj, scfgWriteOp_frame⟩

end Sys2Proof.Machine
end

section
/-! PROOFS. Jumps and branches (09, the UJ and BR tables, R208, R209), and O4. -/

namespace Sys2Proof.Machine

theorem wordOff_eq {n : Nat} (off : BitVec n) : wordOff off = 4 * off.signExtend 64 := by
  rw [wordOff, BitVec.mul_comm, BitVec.shiftLeft_eq_mul_twoPow]
  rfl

section
variable {s : State} {c : CellId} (ready : Ready s c) {f : State → Res}
include ready

/-- An instruction that changes only its own cell and goes on at another address. -/
theorem issue_jump {w : Cell → Cell} {pc : W64} (effect : f s = .jump (s.updCell c.val w) pc) :
    next (issue s c f) = .next (s.updCell c.val fun k => { w k with pc := pc }) := by
  rw [issue_ready ready, effect, finish_jump, State.updCell_updCell]
  rfl

/-- A branch moves PC alone: by its offset where it is taken, to the next word where it is not (09 R209). -/
theorem issue_branch {taken : Bool} {off : BitVec 15} (effect : f s = branch s c taken off) :
    next (issue s c f) = .next (s.updCell c.val fun k =>
      { k with pc := if taken then k.pc + 4 * off.signExtend 64 else k.pc + 4 }) := by
  rw [issue_ready ready, effect, branch, wordOff_eq]
  cases taken
  · rfl
  · rw [if_pos rfl, finish_jump]
    exact congrArg Host.Outcome.next (updCell_congr rfl)

end

/-- Some element of a predicate is active (04 R86). -/
theorem any_active (sz : Size) (p : BitVec 256) : (List.range (szElems sz)).any (active sz p) = true ↔
    ∃ i < szElems sz, p.getLsbD (i * szBytes sz) = true := by
  simp only [List.any_eq_true, List.mem_range, active]

/-- Settles O4: a jump or a branch changes its own cell's PC, and Gd where it links. -/
theorem jumpsAndBranchesComplete : Obligations.JumpsAndBranchesComplete := by
  intro s c ready k
  refine ⟨fun d imm => ?call, fun d a imm => ?jumpr, fun cond a b off t taken => issue_branch ready ?condition,
    fun none pa sz off t taken => issue_branch ready ?someActive⟩
  case call =>
    refine (issue_jump ready rfl).trans (congrArg Host.Outcome.next (updCell_congr ?_))
    rw [wordOff_eq]
  case jumpr =>
    refine (issue_jump ready rfl).trans (congrArg Host.Outcome.next (updCell_congr ?_))
    rw [wordOff_eq]
  case condition =>
    have known : brTaken cond (k.rdG a) (k.rdG b) = some t := by
      cases cond
      case reserved => exact taken.elim
      all_goals exact congrArg some taken.symm
    dsimp only
    rw [show brTaken cond ((s.cell c.val).rdG a) ((s.cell c.val).rdG b) = some t from known]
  case someActive =>
    rw [← any_active] at taken
    have decided : ∀ t some none : Bool, (t = true ↔ (some = true ↔ none = false)) → (some != none) = t := by decide
    exact congrArg (branch s c · off) (decided _ _ _ taken)

end Sys2Proof.Machine
end

section
/-! PROOFS. CPQ and the start of a queued descriptor (09 R214, 10 R224, R225), and O29. -/

namespace Sys2Proof.Machine

/-! ### CPQ -/

/-- An engine that has accepted the descriptor of 64 bytes from a cell (10 R224). -/
def Engine.accepted (x : Engine) (c : Nat) (bs : List Byte) : Engine :=
  { x with queue := x.queue ++ [⟨descOf bs, c, x.acc⟩], acc := x.acc + 1 }

section
variable {s : State} {c : CellId} {a : Reg} {e : Fin 2} (d : Reg) (ready : Ready s c) (aligned : ((s.cell c.val).rdG a).toNat % 64 = 0)
include ready aligned

/-- CPQ as a ready cell performs it where Ga is aligned. -/
theorem exec_cpq (chk : Check) : exec (.cpq c d a e chk) s = next (finish c.val (
    if arbFrozen s (4 * blockOfCell c.val + 2 + e.val) then .stay s
    else if 16 ≤ (s.engine (2 * blockOfCell c.val + e.val)).queue.length then onCell s c fun k => k.wrG d 1
    else memRes (cellRead s c.val ((s.cell c.val).rdG a) 64 chk) fun as s =>
      onCell (s.setEngine (2 * blockOfCell c.val + e.val) ((s.engine (2 * blockOfCell c.val + e.val)).accepted c.val (cellBytes s c.val as)))
        c fun k => k.wrG d 0)) := by
  show next (cpqOp c d a e chk s) = _
  rw [cpqOp, issue_ready ready]
  dsimp only
  rw [if_neg (not_not.mpr aligned)]
  rfl

theorem exec_cpq_frozen (chk : Check) (frozen : arbFrozen s (4 * blockOfCell c.val + 2 + e.val) = true) :
    exec (.cpq c d a e chk) s = .next s := by
  rw [exec_cpq d ready aligned, if_pos frozen]
  rfl

theorem exec_cpq_full (chk : Check) (full : 16 ≤ (s.engine (2 * blockOfCell c.val + e.val)).queue.length)
    (free : arbFrozen s (4 * blockOfCell c.val + 2 + e.val) = false) :
    exec (.cpq c d a e chk) s = .next (retired s c fun k => k.wrG d 1) := by
  rw [exec_cpq d ready aligned, free, if_neg Bool.false_ne_true, if_pos full, onCell, finish_done, State.updCell_updCell]
  rfl

/-- Where there is room the read brings lines into the caches, and then the engine accepts the descriptor. -/
theorem exec_cpq_accepts {as : List Nat} (room : (s.engine (2 * blockOfCell c.val + e.val)).queue.length < 16)
    (free : arbFrozen s (4 * blockOfCell c.val + 2 + e.val) = false) (reads : Reads s c ((s.cell c.val).rdG a) 64 as) :
    ∃ u, Brought s u ∧ exec (.cpq c d a e .clean) s =
      .next ((u.setEngine (2 * blockOfCell c.val + e.val)
        ((u.engine (2 * blockOfCell c.val + e.val)).accepted c.val (cellBytes u c.val as))).updCell c.val fun k => (k.wrG d 0).nextPc) := by
  obtain ⟨u, go, brought⟩ := cellRead_brings reads
  refine ⟨u, brought, ?_⟩
  rw [exec_cpq d ready aligned, free, if_neg Bool.false_ne_true, if_neg (Nat.not_le.mpr room), go, memRes, onCell, finish_done,
    State.updCell_updCell]
  rfl

end

/-! ### A descriptor that ends with an error -/

/-- An engine whose descriptor has ended with an error: it keeps an error that it holds (10 R226, R228). -/
def Engine.failed (x : Engine) (j : Job) (code detail addr : Nat) : Engine :=
  let y := { x with run := none, err := true, contrib := none }
  if x.err then y else
    { y with
      ceerr := BitVec.ofNat 64 (code + detail * 256 + j.num.toNat % 2 ^ 48 * 65536)
      ceaddr := BitVec.ofNat 64 (if code = 4 ∨ code = 5 ∨ code = 6 then 0 else addr % 2 ^ 48) }

theorem Engine.failed_eq (x : Engine) (j : Job) (code detail addr : Nat) : x.failed j code detail addr = { x with
    run := none, err := true, contrib := none
    ceerr := (x.failed j code detail addr).ceerr, ceaddr := (x.failed j code detail addr).ceaddr } := by
  unfold Engine.failed
  dsimp only
  split <;> rfl

/-- The error registers of an engine that held no error. -/
theorem Engine.failed_noted {x : Engine} (clear : x.err = false) (j : Job) {code : Nat} (detail addr : Nat) (known : code ≠ 5 ∧ code ≠ 6) :
    (x.failed j code detail addr).ceerr = BitVec.ofNat 64 (code + detail * 256 + j.num.toNat % 2 ^ 48 * 65536) ∧
      (x.failed j code detail addr).ceaddr = if code = 4 then 0 else BitVec.ofNat 64 (addr % 2 ^ 48) := by
  simp only [Engine.failed, clear, Bool.false_eq_true, if_false, known, or_false, true_and]
  split <;> rfl

/-- What a stopped remote copy leaves of its engine: all but whether the finish packet is sent, and who still owes a WACK. -/
theorem remoteStop_engine (s : State) (i : Nat) (j : Job) : ∃ fin stale,
    (remoteStop s i j).engine i = { s.engine i with fin := fin, stale := stale } := by
  unfold remoteStop
  dsimp only
  split
  · exact ⟨_, _, rfl⟩
  · exact ⟨_, _, State.engine_setEngine_same s i _⟩

theorem copyEnd_engine (s : State) (i : Nat) (j : Job) (code detail addr : Nat) :
    (copyEnd s i j code detail addr).engine i = ((remoteStop s i j).engine i).failed j code detail addr := by
  unfold copyEnd
  dsimp only
  split <;> split <;> simp only [sendSig_engine, reportBlock_engine, reportBlockVia_engine, State.engine_setEngine_same] <;> rfl

/-- What the end of a descriptor leaves alone: all but the engines, packets on their way, reports, and what a signal changes. -/
theorem copyEnd_keeps {α : Type} (f : State → α)
    (aside : ∀ (s : State) engines inbox ports bridgeq breps,
      f { s with engines := engines, inbox := inbox, ports := ports, bridgeq := bridgeq, breps := breps } = f s)
    (signal : ∀ s src c p n h, f (sendSig s src c p n h) = f s) (s : State) (i : Nat) (j : Job) (code detail addr : Nat) :
    f (copyEnd s i j code detail addr) = f s := by
  have stop : f (remoteStop s i j) = f s := by
    unfold remoteStop
    dsimp only
    split
    · rfl
    · exact aside s _ _ _ _ s.breps
  have engine (s : State) (x : Engine) : f (s.setEngine i x) = f s := aside s _ s.inbox s.ports s.bridgeq s.breps
  have report (s : State) (b : Nat) (o r : W32) (cls : W16) (own : Option Nat) (d : W64) : f (reportBlockVia s b o r cls own d) = f s := by
    unfold reportBlockVia
    split
    · exact aside s s.engines s.inbox s.ports s.bridgeq _
    · rfl
  unfold copyEnd
  dsimp only
  split <;> split <;> simp only [reportBlock, signal, report, engine, stop]

@[simp] theorem memByte_sendSig (s : State) (src c p n : Nat) (h : Byte) (a : Nat) : memByte (sendSig s src c p n h) a = memByte s a := by
  show memByte (countBridge s _ _) a = memByte s a
  unfold countBridge
  split
  · exact memByte_countPart _ _ _ _ _
  · rfl

theorem copyEnd_cells (s : State) (i : Nat) (j : Job) (code detail addr : Nat) : (copyEnd s i j code detail addr).cells = s.cells :=
  copyEnd_keeps State.cells (fun _ _ _ _ _ _ => rfl) sendSig_cells s i j code detail addr

theorem memByte_copyEnd (s : State) (i : Nat) (j : Job) (code detail addr m : Nat) :
    memByte (copyEnd s i j code detail addr) m = memByte s m :=
  copyEnd_keeps (memByte · m) (fun _ _ _ _ _ _ => rfl) (fun s src c p n h => memByte_sendSig s src c p n h m) s i j code detail addr

/-! ### DESCRIPTOR_START -/

/-- A descriptor's checks fail with code 0x4 or 0x1 (10 R225). -/
theorem descErr_code {s : State} {b : Nat} {d : Desc} {code detail addr : Nat} (fails : descErr s b d = some (code, detail, addr)) :
    code = 4 ∨ code = 1 := by
  unfold descErr at fails
  dsimp only at fails
  repeat' split at fails
  all_goals cases fails
  all_goals decide

/-- What a descriptor that ends as it starts leaves (10 R224 to R226): the queue goes on to the rest, CEDONE does not count it, and its
code stands in the error registers unless they held one. -/
def EndedAtStart (s : State) (i : Nat) (j : Job) (rest : List Job) (code detail addr : Nat) (t : State) : Prop :=
  (t.engine i).run = none ∧ (t.engine i).queue = rest ∧ (t.engine i).err = true ∧ (t.engine i).done = (s.engine i).done ∧
    (t.engine i).acc = (s.engine i).acc ∧
    ((s.engine i).err = false → (t.engine i).ceerr = BitVec.ofNat 64 (code + detail * 256 + j.num.toNat % 2 ^ 48 * 65536) ∧
      (t.engine i).ceaddr = (if code = 4 then 0 else BitVec.ofNat 64 (addr % 2 ^ 48))) ∧
    (∀ m, memByte t m = memByte s m) ∧ t.cells = s.cells

theorem endedAtStart_copyEnd {s : State} {i : Nat} {j : Job} {rest : List Job} {code : Nat} (detail addr : Nat)
    (known : code ≠ 5 ∧ code ≠ 6) : EndedAtStart s i j rest code detail addr
      (copyEnd (s.setEngine i { s.engine i with queue := rest, run := some j }) i j code detail addr) := by
  obtain ⟨fin, stale, stopped⟩ := remoteStop_engine (s.setEngine i { s.engine i with queue := rest, run := some j }) i j
  rw [State.engine_setEngine_same] at stopped
  unfold EndedAtStart
  rw [copyEnd_engine, stopped, Engine.failed_eq, copyEnd_cells]
  refine ⟨rfl, rfl, rfl, rfl, rfl, fun clear => Engine.failed_noted ?_ j detail addr known, memByte_copyEnd _ _ _ _ _ _, rfl⟩
  exact clear

section
variable {s : State} {b : BlockId} {e : Fin 2} {j : Job} {rest : List Job}
  (queue : (s.engine (2 * b.val + e.val)).queue = j :: rest) (idle : (s.engine (2 * b.val + e.val)).run = none)
  (inService : (s.block b.val).oos = false) (awake : (s.block b.val).st = .run ∨ (s.block b.val).st = .poise)
include queue idle inService awake

theorem exec_descriptorStart : exec (.descriptorStart b e) s = next (
    let t := s.setEngine (2 * b.val + e.val) { s.engine (2 * b.val + e.val) with queue := rest, run := some j }
    match descErr s b.val j.desc with
    | some x => copyEnd t (2 * b.val + e.val) j x.1 x.2.1 x.2.2
    | none => if j.desc.remote && !fabReachable s j.desc.modId then copyEnd t (2 * b.val + e.val) j 7 0 j.desc.dstA else t) := by
  have serves : (decide ((s.block b.val).st = .run) || decide ((s.block b.val).st = .poise)) = true := by simpa using awake
  show execDescriptorStart b e s = _
  simp only [execDescriptorStart, queue, idle, inService, serves, Option.isSome_none, Bool.not_true, Bool.or_self, Bool.false_eq_true,
    if_false] <;> rfl

theorem exec_descriptorStart_fails {code detail addr : Nat} (fails : descErr s b.val j.desc = some (code, detail, addr)) :
    ∃ t, exec (.descriptorStart b e) s = .next t ∧ EndedAtStart s (2 * b.val + e.val) j rest code detail addr t := by
  have known : code ≠ 5 ∧ code ≠ 6 := by rcases descErr_code fails with rfl | rfl <;> decide
  refine ⟨_, ?_, endedAtStart_copyEnd detail addr known⟩
  rw [exec_descriptorStart queue idle inService awake, fails]
  rfl

theorem exec_descriptorStart_unreachable (passes : descErr s b.val j.desc = none) (remote : j.desc.remote = true)
    (unreachable : fabReachable s j.desc.modId = false) :
    ∃ t, exec (.descriptorStart b e) s = .next t ∧ EndedAtStart s (2 * b.val + e.val) j rest 7 0 j.desc.dstA t := by
  refine ⟨_, ?_, endedAtStart_copyEnd 0 j.desc.dstA (by decide)⟩
  rw [exec_descriptorStart queue idle inService awake, passes, remote, unreachable]
  rfl

theorem exec_descriptorStart_runs (passes : descErr s b.val j.desc = none)
    (reachable : j.desc.remote = false ∨ fabReachable s j.desc.modId = true) : exec (.descriptorStart b e) s =
      .next (s.setEngine (2 * b.val + e.val) { s.engine (2 * b.val + e.val) with queue := rest, run := some j }) := by
  have goes : (j.desc.remote && !fabReachable s j.desc.modId) = false := by rcases reachable with h | h <;> simp [h]
  rw [exec_descriptorStart queue idle inService awake, passes, goes]
  rfl

end

/-- Settles O29: CPQ adds to its engine's queue what its read brings, and the engine's next descriptor runs or ends by its checks. -/
theorem copyQueueComplete : Obligations.CopyQueueComplete := by
  intro s c d a b e chk as
  refine ⟨fun ready aligned => ⟨exec_cpq_frozen d ready aligned chk, exec_cpq_full d ready aligned chk,
    fun room coherent reads free => ?accepts⟩, fun j rest => ?start⟩
  case accepts =>
    obtain ⟨u, brought, runs⟩ := exec_cpq_accepts d ready aligned room free reads
    have byte := (brought.moves.same coherent).2
    have units {α : Type} (f : State → α) (keep : ∀ s : State, f s.offCaches = f s) : f u = f s := by
      rw [← keep, brought.moves.units, keep]
    have engine (n : Nat) : u.engine n = s.engine n := congrArg (Tab.get Engine.reset · n) (units State.engines fun _ => rfl)
    rw [brought.cellBytes coherent, engine] at runs
    refine ⟨_, runs, byte, State.engine_setEngine_same _ _ _, fun n ne => ?_, ?_, fun y ne => ?_, units State.slots fun _ => rfl,
      units State.setters fun _ => rfl, units State.adders fun _ => rfl, units State.log fun _ => rfl, units State.sigs fun _ => rfl⟩
    · exact (State.engine_setEngine_ne u _ ne.symm).trans (engine n)
    · rw [State.cell_updCell_same]
      exact (architectural_wrG d 0).apart_of_offCaches (brought.moves.cell c)
    · rw [State.cell_updCell_ne _ _ fun eq => ne (Fin.ext eq.symm)]
      exact apart_of_offCaches (brought.moves.cell y)
  case start =>
    intro i x queue idle inService awake ended
    exact ⟨exec_descriptorStart_runs queue idle inService awake, exec_descriptorStart_unreachable queue idle inService awake,
      fun code dt adr => exec_descriptorStart_fails queue idle inService awake⟩

end Sys2Proof.Machine
end

section
/-! PROOFS. Pips and the waits on them (11 R245, R249, R253, R258). -/

namespace Sys2Proof.Machine

@[simp] theorem Cell.pip_setPip_same (k : Cell) (p : Nat) (x : Pip) : (k.setPip p x).pip p = x := Tab.get_set_same _ _ _ _

theorem Cell.pip_setPip_ne (k : Cell) {p q : Nat} (x : Pip) (h : q ≠ p) : (k.setPip p x).pip q = k.pip q :=
  Tab.get_set_ne _ _ _ _ h.symm

/-- The cell after its wait has completed: the pip gives what the wait takes, and PC moves past the instruction (11 R249, R253). -/
def Cell.completed (k : Cell) (w : Wait) : Cell :=
  { (k.setPip w.pip ((k.pip w.pip).complete w.kind)) with wait := none, pc := k.pc + 4 }

theorem Cell.completed_pip (k : Cell) (w : Wait) : (k.completed w).pip w.pip = (k.pip w.pip).complete w.kind := Cell.pip_setPip_same _ _ _

theorem Cell.completed_pip_ne (k : Cell) (w : Wait) {q : Nat} (h : q ≠ w.pip) : (k.completed w).pip q = k.pip q := Cell.pip_setPip_ne _ _ h

theorem Cell.completed_setPip (k : Cell) (w : Wait) (x : Pip) : (k.setPip w.pip x).completed w =
    { k with wait := none, pc := k.pc + 4, pips := ((k.setPip w.pip x).completed w).pips } := by
  simp only [Cell.completed, Cell.setPip]

section
variable {s : State} {c p : Nat}

/-- A pip that does not meet the cell's wait changes nothing. -/
theorem checkWait_unmet (unmet : ∀ w, (s.cell c).wait = some w → w.pip = p → w.ok ((s.cell c).pip p) = false) :
    checkWait s c p = s := by
  unfold checkWait
  dsimp only
  split
  · rfl
  · next w waits =>
    refine if_neg fun ⟨here, met⟩ => ?_
    rw [unmet w waits here] at met
    cases met

theorem checkWait_met {w : Wait} (waits : (s.cell c).wait = some w) (met : w.ok ((s.cell c).pip w.pip) = true) :
    checkWait s c w.pip = wakeBlock (s.setCell c ((s.cell c).completed w)) (blockOfCell c) := by
  simp only [checkWait, waits, met, and_self, if_true]
  rfl

theorem wakeBlock_frame (s : State) (b : Nat) : wakeBlock s b = { s with blocks := (wakeBlock s b).blocks } := by
  unfold wakeBlock
  dsimp only
  split <;> rfl

theorem wakeBlock_of_run {b : Nat} (runs : (s.block b).st = .run) : wakeBlock s b = s := if_pos (.inl runs)

end

end Sys2Proof.Machine
end

section
/-! PROOFS. Signals sent and counted (09 R213, 11 R247 to R253, R264), and O33. -/

namespace Sys2Proof.Machine

/-! ### What carries messages beside the cells -/

/-- A change of the state that neither sees nor touches the cells and the signals on their way. -/
def Detached (f : State → State) : Prop :=
  ∀ s cells sigs rsigs, f { s with cells := cells, sigs := sigs, rsigs := rsigs } =
    { f s with cells := cells, sigs := sigs, rsigs := rsigs }

namespace Detached
variable {f : State → State} (h : Detached f)
include h

theorem keeps (s : State) : (f s).cells = s.cells ∧ (f s).sigs = s.sigs ∧ (f s).rsigs = s.rsigs := by
  have same := h s s.cells s.sigs s.rsigs
  exact ⟨(congrArg State.cells same :), (congrArg State.sigs same :), (congrArg State.rsigs same :)⟩

/-- It may as well come before a change of a cell. -/
theorem updCell (s : State) (c : Nat) (g : Cell → Cell) : f (s.updCell c g) = (f s).updCell c g := by
  obtain ⟨cells, sigs, rsigs⟩ := h.keeps s
  refine (h s (s.updCell c g).cells s.sigs s.rsigs).trans ?_
  rw [← sigs, ← rsigs]
  simp only [State.updCell, State.setCell, State.cell, cells]

theorem comp {g : State → State} (k : Detached g) : Detached fun s => g (f s) := fun s cells sigs rsigs =>
  (congrArg g (h s cells sigs rsigs)).trans (k (f s) cells sigs rsigs)

end Detached

theorem detached_countPart (p : Option Nat) (k n : Nat) : Detached (countPart · p k n) := by
  cases p <;> exact fun _ _ _ _ => rfl

theorem detached_countBridge (p : Option Nat) (crosses : Bool) : Detached (countBridge · p crosses) := by
  cases crosses
  · exact fun _ _ _ _ => rfl
  · exact detached_countPart _ _ _

theorem detached_countTx (own : Option Nat) (pkt : Packet) : Detached (countTx · own pkt) :=
  (detached_countPart own 12 pkt.size).comp (detached_countPart own 11 pkt.size)

theorem detached_dropPacket (pkt : Packet) (sub : Nat) : Detached (dropPacket · pkt sub) := fun s cells sigs rsigs => by
  have route (dst : Nat) : routeOf { s with cells := cells, sigs := sigs, rsigs := rsigs } dst = routeOf s dst := rfl
  have notice : noticeOf { s with cells := cells, sigs := sigs, rsigs := rsigs } pkt sub = noticeOf s pkt sub := rfl
  simp only [dropPacket, notice, route]
  split
  · rfl
  · cases routeOf s (noticeOf s pkt sub).dst <;> rfl

theorem detached_routeVia (req : Byte) (pkt : Packet) : Detached (routeVia · req pkt) := fun s cells sigs rsigs => by
  have route : routeOf { s with cells := cells, sigs := sigs, rsigs := rsigs } pkt.dst = routeOf s pkt.dst := rfl
  simp only [routeVia, route]
  cases routeOf s pkt.dst
  case drop sub => exact detached_dropPacket pkt sub s cells sigs rsigs
  all_goals rfl

theorem detached_routePacket (pkt : Packet) : Detached (routePacket · pkt) := fun s cells sigs rsigs => by
  have frozen : arbFrozen { s with cells := cells, sigs := sigs, rsigs := rsigs } arbFabric = arbFrozen s arbFabric := rfl
  simp only [routePacket, sendOut, frozen]
  split
  · rfl
  · exact detached_routeVia 0 pkt s cells sigs rsigs

theorem detached_sendPacket (own : Option Nat) (pkt : Packet) : Detached (sendPacket · own pkt) :=
  (detached_countTx own pkt).comp (detached_routePacket pkt)

theorem detached_cellReport (c cls : Nat) (d : W64) : Detached (cellReport · c cls d) := fun s cells sigs rsigs => by
  unfold cellReport reportBlock reportBlockVia
  split <;> rfl

/-! ### PIPSIG -/

section
variable {s : State} {c : CellId} {cell pip n dst : Nat}

theorem sendSig_updCell (s : State) (c : Nat) (g : Cell → Cell) (src cell pip n : Nat) (h : Byte) :
    sendSig (s.updCell c g) src cell pip n h = (sendSig s src cell pip n h).updCell c g := by
  have bridge := (detached_countBridge (partOfHall s h) (crossesFrom src cell)).updCell s c g
  have owner : partOfHall (s.updCell c g) h = partOfHall s h := rfl
  simp only [sendSig, owner, bridge]
  rfl

theorem remoteSignal_unreachable (unreachable : fabReachable s dst = false) :
    remoteSignal s c cell pip n dst = sendRefusal s c.val 1 (BitVec.ofNat 64 (pipAddr cell pip)) := by
  rw [remoteSignal, unreachable]
  rfl

/-- A signal that names this module by its identifier joins the signals on their way (11 R250, R252). -/
theorem remoteSignal_here (reachable : fabReachable s dst = true) (here : dst = s.modId) : remoteSignal s c cell pip n dst =
    { countTx s (ownerOfBlock s (blockOfCell c)) (signalPacket s c cell pip n (fjobOf s c) dst) with
      sigs := s.sigs ++ [⟨c.val, Fin.ofNat 512 cell, BitVec.ofNat 6 pip, BitVec.ofNat 16 n, 0, some (fjobOf s c)⟩] } := by
  obtain ⟨-, sigs, -⟩ := (detached_countTx (ownerOfBlock s (blockOfCell c)) (signalPacket s c cell pip n (fjobOf s c) dst)).keeps s
  simp only [remoteSignal, reachable, if_pos here, sigs, Bool.not_true, Bool.false_eq_true, if_false]

/-- A signal to another module leaves as a packet, and is kept so that a NOTICE finds its issuer (11 R252, 14 R346). -/
theorem remoteSignal_away (reachable : fabReachable s dst = true) (away : dst ≠ s.modId) : remoteSignal s c cell pip n dst =
    sendPacket { s with rsigs := s.rsigs ++ [⟨c, BitVec.ofNat 18 dst, BitVec.ofNat 16 (64 * cell + pip), fjobOf s c⟩] }
      (ownerOfBlock s (blockOfCell c)) (signalPacket s c cell pip n (fjobOf s c) dst) := by
  simp only [remoteSignal, reachable, if_neg away, Bool.not_true, Bool.false_eq_true, if_false]

theorem remoteSignal_updCell (s : State) (g : Cell → Cell) (c : CellId) (cell pip n dst : Nat) :
    remoteSignal (s.updCell c.val g) c cell pip n dst = (remoteSignal s c cell pip n dst).updCell c.val g := by
  have job : fjobOf (s.updCell c.val g) c = fjobOf s c := rfl
  have own : ownerOfBlock (s.updCell c.val g) (blockOfCell c) = ownerOfBlock s (blockOfCell c) := rfl
  have packet (job : BitVec 12) : signalPacket (s.updCell c.val g) c cell pip n job dst = signalPacket s c cell pip n job dst := rfl
  have reach : fabReachable (s.updCell c.val g) dst = fabReachable s dst := rfl
  have id : (s.updCell c.val g).modId = s.modId := rfl
  cases reachable : fabReachable s dst
  case false =>
    rw [remoteSignal_unreachable reachable, remoteSignal_unreachable (reach.trans reachable)]
    rfl
  case true =>
    by_cases here : dst = s.modId
    · rw [remoteSignal_here reachable here, remoteSignal_here (reach.trans reachable) (here.trans id.symm), job, own, packet,
        (detached_countTx _ _).updCell]
      rfl
    · rw [remoteSignal_away reachable here, remoteSignal_away (reach.trans reachable) (id.symm ▸ here), job, own, packet]
      rw [← (detached_sendPacket _ _).updCell]
      rfl

end

section
variable {s : State} {c : CellId} {a b : Reg} (ready : Ready s c)
include ready

/-- PIPSIG as a ready cell performs it. -/
theorem exec_pipsig : exec (.pipsig c a b) s = next (finish c.val (
    let w := (s.cell c.val).rdG a
    let n := fieldN ((s.cell c.val).rdG b).toNat 0 16
    if 48 ≤ fieldN w.toNat 0 6 then .exc ⟨3, 0, w⟩ s
    else if w.getLsbD 15 then .done (remoteSignal s c (fieldN w.toNat 6 9) (fieldN w.toNat 0 6) n (fieldN w.toNat 16 18))
    else .done (sendSig s c.val (fieldN w.toNat 6 9) (fieldN w.toNat 0 6) n (s.cell c.val).hall))) := by
  show execPipsig c a b s = _
  rw [execPipsig, issue_ready ready]
  rfl

theorem exec_pipsig_local (legal : fieldN ((s.cell c.val).rdG a).toNat 0 6 < 48) (here : ((s.cell c.val).rdG a).getLsbD 15 = false) :
    exec (.pipsig c a b) s = .next (sendSig (retired s c id) c.val (fieldN ((s.cell c.val).rdG a).toNat 6 9)
      (fieldN ((s.cell c.val).rdG a).toNat 0 6) (fieldN ((s.cell c.val).rdG b).toNat 0 16) (s.cell c.val).hall) := by
  rw [exec_pipsig ready]
  dsimp only
  rw [if_neg (by omega), here, retired, sendSig_updCell]
  rfl

theorem exec_pipsig_remote (legal : fieldN ((s.cell c.val).rdG a).toNat 0 6 < 48) (remote : ((s.cell c.val).rdG a).getLsbD 15 = true) :
    exec (.pipsig c a b) s = .next (remoteSignal (retired s c id) c (fieldN ((s.cell c.val).rdG a).toNat 6 9)
      (fieldN ((s.cell c.val).rdG a).toNat 0 6) (fieldN ((s.cell c.val).rdG b).toNat 0 16) (fieldN ((s.cell c.val).rdG a).toNat 16 18)) := by
  rw [exec_pipsig ready]
  dsimp only
  rw [if_neg (by omega), remote, retired, remoteSignal_updCell]
  rfl

theorem exec_pipsig_reserved (reserved : 48 ≤ fieldN ((s.cell c.val).rdG a).toNat 0 6) (nest : (s.cell c.val).kstate.getLsbD 0 = false) :
    exec (.pipsig c a b) s = .next (trapped s c 0x03 0x00 ((s.cell c.val).rdG a)) := by
  rw [exec_pipsig ready]
  dsimp only
  rw [if_pos reserved, finish_exc ready rfl nest]
  rfl

end

/-! ### A signal counted -/

theorem Pip.add_count (x : Pip) (n : W16) : (x.add n).count.toNat = min 65535 (x.count.toNat + n.toNat) :=
  (BitVec.toNat_ofNat _ _).trans (Nat.mod_eq_of_lt (by rw [satAdd]; omega))

theorem Pip.add_ovf (x : Pip) (n : W16) : (x.add n).ovf = true ↔ x.ovf = true ∨ 65535 < x.count.toNat + n.toNat := by
  simp [Pip.add]

/-- A count pip that a signal raises, with the record where the amount was clamped (11 R247). -/
def signalled (s : State) (c p : Nat) (n : W16) : State :=
  let t := setPipAt s c p (((s.cell c).pip p).add n)
  if 65535 < ((s.cell c).pip p).count.toNat + n.toNat then cellReport t c 5 (detailWord 0 p 0) else t

section
variable {s : State} {c p : Nat} (n : W16)

theorem cellReport_frame (s : State) (c cls : Nat) (d : W64) : cellReport s c cls d = { s with breps := (cellReport s c cls d).breps } := by
  unfold cellReport reportBlock reportBlockVia
  split <;> rfl

theorem signalled_frame (s : State) (c p : Nat) (n : W16) : signalled s c p n =
    { setPipAt s c p (((s.cell c).pip p).add n) with breps := (signalled s c p n).breps } := by
  unfold signalled
  dsimp only
  split
  · exact cellReport_frame _ _ _ _
  · rfl

theorem signalled_cell (s : State) (c p : Nat) (n : W16) : (signalled s c p n).cell c = (s.cell c).setPip p (((s.cell c).pip p).add n) := by
  rw [signalled_frame]
  exact State.cell_updCell_same s c fun k => k.setPip p _

/-- What a signal that only raises its pip leaves of the state (11 R247). -/
theorem signalled_raises (s : State) (c p : Nat) (n : W16) :
    let t := signalled s c p n
    let x := (s.cell c).pip p
    ((t.cell c).pip p).count.toNat = min 65535 (x.count.toNat + n.toNat) ∧
      (((t.cell c).pip p).ovf = true ↔ x.ovf = true ∨ 65535 < x.count.toNat + n.toNat) ∧
      (∀ q, q ≠ p → (t.cell c).pip q = (s.cell c).pip q) ∧ t.cell c = { s.cell c with pips := (t.cell c).pips } ∧
      (∀ d, d ≠ c → t.cell d = s.cell d) ∧ t = { s with cells := t.cells, breps := t.breps } := by
  dsimp only
  rw [signalled_cell, Cell.pip_setPip_same]
  refine ⟨Pip.add_count _ _, Pip.add_ovf _ _, fun q ne => Cell.pip_setPip_ne _ _ ne, rfl, fun d ne => ?_, ?_⟩
  · rw [signalled_frame]
    exact s.cell_updCell_ne (fun k => k.setPip p _) ne.symm
  · rw [signalled_frame]
    rfl

/-- A signal to a cell in Dormant is lost (11 R264). -/
theorem countSignal_asleep (asleep : (s.block (blockOfCell c)).st = .dormant) :
    countSignal s c p n = cellReport s c 7 (detailWord 0 p 0) := if_pos asleep

theorem countSignal_counts (awake : (s.block (blockOfCell c)).st ≠ .dormant) (mode : ((s.cell c).pip p).mode = 0) :
    countSignal s c p n = checkWait (signalled s c p n) c p := by
  rw [countSignal, if_neg awake]
  exact if_neg (not_not.mpr mode)

/-- A signal that meets no wait only raises its pip. -/
theorem countSignal_unmet (awake : (s.block (blockOfCell c)).st ≠ .dormant) (mode : ((s.cell c).pip p).mode = 0)
    (unmet : ∀ w, (s.cell c).wait = some w → w.pip = p → w.ok (((s.cell c).pip p).add n) = false) :
    countSignal s c p n = signalled s c p n := by
  rw [countSignal_counts n awake mode]
  refine checkWait_unmet fun w waits here => ?_
  rw [signalled_cell] at waits ⊢
  rw [Cell.pip_setPip_same]
  exact unmet w waits here

/-- A signal that meets the condition of the cell's wait completes it. -/
theorem countSignal_met {w : Wait} (awake : (s.block (blockOfCell c)).st ≠ .dormant) (mode : ((s.cell c).pip w.pip).mode = 0)
    (waits : (s.cell c).wait = some w) (met : w.ok (((s.cell c).pip w.pip).add n) = true) : countSignal s c w.pip n =
      wakeBlock ((signalled s c w.pip n).setCell c (((s.cell c).setPip w.pip (((s.cell c).pip w.pip).add n)).completed w)) (blockOfCell c) := by
  rw [countSignal_counts n awake mode, checkWait_met, signalled_cell]
  · rw [signalled_cell]; exact waits
  · rw [signalled_cell, Cell.pip_setPip_same]; exact met

/-- What a completed wait leaves of its cell: it waits no more, PC has moved, and its pip alone is changed. -/
theorem countSignal_completes {w : Wait} (awake : (s.block (blockOfCell c)).st ≠ .dormant) (mode : ((s.cell c).pip p).mode = 0)
    (waits : (s.cell c).wait = some w) (here : w.pip = p) (met : w.ok (((s.cell c).pip p).add n) = true) :
    let t := countSignal s c p n
    t.cell c = { s.cell c with wait := none, pc := (s.cell c).pc + 4, pips := (t.cell c).pips } ∧
      (t.cell c).pip p = (((s.cell c).pip p).add n).complete w.kind ∧
      (∀ q, q ≠ p → (t.cell c).pip q = (s.cell c).pip q) ∧ t.sigs = s.sigs := by
  subst here
  dsimp only
  rw [countSignal_met n awake mode waits met, wakeBlock_cell, State.cell_setCell_same]
  refine ⟨Cell.completed_setPip _ _ _, ?_, fun q ne => ?_, ?_⟩
  · rw [Cell.completed_pip, Cell.pip_setPip_same]
  · rw [Cell.completed_pip_ne _ _ ne, Cell.pip_setPip_ne _ _ ne]
  · rw [wakeBlock_frame, signalled_frame]
    rfl

end

/-! ### A signal's check -/

/-- The check that a signal meets: its hallmark, or, where it names this module by its identifier, RSIG and the job tag (11 R247, R252). -/
def Sig.Passes (s : State) (g : Sig) : Prop :=
  let x := (s.cell g.cell.val).pip g.pip.toNat
  (g.job = none ∧ hallOk (hallOfBlock s (blockOfCell g.cell.val)) g.hall = true) ∨
    ∃ job, g.job = some job ∧ g.pip.toNat < 48 ∧ x.mode = 0 ∧ x.rsig = true ∧ x.rjob = job

/-- The check failed: a signal that names this module by its identifier is lost, not refused, at a cell in Dormant (11 R264). -/
def Sig.Fails (s : State) (g : Sig) : Prop :=
  let x := (s.cell g.cell.val).pip g.pip.toNat
  (g.job = none ∧ hallOk (hallOfBlock s (blockOfCell g.cell.val)) g.hall = false) ∨
    ∃ job, g.job = some job ∧ (s.block (blockOfCell g.cell.val)).st ≠ .dormant ∧ (48 ≤ g.pip.toNat ∨ x.mode ≠ 0 ∨ x.rsig = false ∨ x.rjob ≠ job)

section
variable {s : State} {c p : Nat} {job : BitVec 12}

theorem remoteOk_accepts (legal : p < 48) (mode : ((s.cell c).pip p).mode = 0) (rsig : ((s.cell c).pip p).rsig = true)
    (rjob : ((s.cell c).pip p).rjob = job) : remoteOk s c p job = true := by
  simp [remoteOk, legal, mode, rsig, rjob]

theorem remoteOk_refuses (awake : (s.block (blockOfCell c)).st ≠ .dormant)
    (bad : 48 ≤ p ∨ ((s.cell c).pip p).mode ≠ 0 ∨ ((s.cell c).pip p).rsig = false ∨ ((s.cell c).pip p).rjob ≠ job) :
    remoteOk s c p job = false := by
  simp only [remoteOk, awake, decide_false, Bool.false_or]
  rcases bad with reserved | mode | rsig | rjob
  · simp [Nat.not_lt.mpr reserved]
  · simp [mode]
  · simp [rsig]
  · simp [rjob]

theorem countRx_frame (s : State) (own : Option Nat) (pkt : Packet) :
    countRx s own pkt = { s with parts := (countRx s own pkt).parts } := by
  rw [countRx, countPart_frame, countPart_frame s]

end

section
variable {s : State} {g : Sig}

theorem ownSignal_eq (s : State) (g : Sig) (job : BitVec 12) : ∃ parts, ownSignal s g job =
    if remoteOk s g.cell.val g.pip.toNat job then countSignal { s with parts := parts } g.cell.val g.pip.toNat g.amount
    else refuseSignal { s with parts := parts } g.src g.cell.val g.pip.toNat := by
  refine ⟨(countRx s (ownerOfBlock s (blockOfCell g.cell.val))
    (signalPacket s g.src g.cell.val g.pip.toNat g.amount.toNat job s.modId)).parts, ?_⟩
  rw [ownSignal, countRx_frame]
  rfl

theorem signalArrive_passes (passes : g.Passes s) : ∃ parts, (g.job = none → parts = s.parts) ∧
    signalArrive s g = countSignal { s with parts := parts } g.cell.val g.pip.toNat g.amount := by
  rcases passes with ⟨plain, hall⟩ | ⟨job, named, legal, mode, rsig, rjob⟩
  · exact ⟨s.parts, fun _ => rfl, by rw [signalArrive, plain]; exact if_pos hall⟩
  · obtain ⟨parts, own⟩ := ownSignal_eq s g job
    rw [remoteOk_accepts legal mode rsig rjob, if_pos rfl] at own
    exact ⟨parts, fun plain => absurd (plain.symm.trans named) nofun, by rw [signalArrive, named]; exact own⟩

theorem signalArrive_fails (fails : g.Fails s) : ∃ parts,
    signalArrive s g = refuseSignal { s with parts := parts } g.src g.cell.val g.pip.toNat := by
  rcases fails with ⟨plain, hall⟩ | ⟨job, named, awake, bad⟩
  · refine ⟨s.parts, ?_⟩
    rw [signalArrive, plain]
    dsimp only
    rw [hall]
    rfl
  · obtain ⟨parts, own⟩ := ownSignal_eq s g job
    rw [remoteOk_refuses awake bad, if_neg Bool.false_ne_true] at own
    exact ⟨parts, by rw [signalArrive, named]; exact own⟩

theorem refuseSignal_cells (s : State) (src c p : Nat) : (refuseSignal s src c p).cells = s.cells := by
  unfold refuseSignal
  split <;> simp only [sendRefusal_cells, cellReport, reportBlock_cells]

theorem refuseSignal_sigs (s : State) (src c p : Nat) : (refuseSignal s src c p).sigs = s.sigs := by
  unfold refuseSignal
  split <;> simp only [sendRefusal_sigs, cellReport, reportBlock_sigs]

theorem refuseSignal_hmrefs (s : State) (src c p : Nat) : (refuseSignal s src c p).hmrefs =
    s.hmrefs ++ if src < 512 then [⟨Fin.ofNat 512 src, 1, BitVec.ofNat 64 (pipAddr c p)⟩] else [] := by
  unfold refuseSignal
  split <;> simp only [sendRefusal, cellReport, reportBlock_hmrefs, List.append_nil]

end

/-! ### Arrivals -/

theorem Wait.ok_wait {w : Wait} (kind : w.kind = .wait) (x : Pip) : w.ok x = decide (1 ≤ x.count.toNat) := by rw [Wait.ok, kind]

theorem Wait.ok_watch {w : Wait} {m : W16} (kind : w.kind = .watch m) (x : Pip) : w.ok x = decide (m.toNat ≤ x.count.toNat) := by
  rw [Wait.ok, kind]

/-- PIPWAIT consumes 1 (11 R253). -/
theorem Pip.complete_wait_count {x : Pip} (some : 1 ≤ x.count.toNat) : (x.complete .wait).count.toNat = x.count.toNat - 1 :=
  BitVec.toNat_sub_of_le some

section
variable {s : State} {n : Nat} {g : Sig} (at_ : s.sigs[n]? = some g) (first : ∀ j < n, ∀ y, s.sigs[j]? = some y → sameSig g y = false)
include at_ first

theorem exec_pipSignalArrive : exec (.pipSignalArrive n) s =
    next (if sigHeld s g then s else signalArrive { s with sigs := s.sigs.eraseIdx n } g) := by
  have self : sameSig g g = true := by simp [sameSig]
  show execPipSignalArrive n s = _
  unfold execPipSignalArrive
  rw [takeMsg_first at_ self first]

theorem exec_pipSignalArrive_passes (free : sigHeld s g = false) (passes : g.Passes s) : ∃ parts, (g.job = none → parts = s.parts) ∧
    exec (.pipSignalArrive n) s =
      .next (countSignal { s with sigs := s.sigs.eraseIdx n, parts := parts } g.cell.val g.pip.toNat g.amount) := by
  obtain ⟨parts, plain, arrives⟩ := signalArrive_passes (s := { s with sigs := s.sigs.eraseIdx n }) passes
  refine ⟨parts, plain, ?_⟩
  rw [exec_pipSignalArrive at_ first, free, if_neg Bool.false_ne_true, arrives]
  rfl

theorem exec_pipSignalArrive_fails (free : sigHeld s g = false) (fails : g.Fails s) : ∃ parts, exec (.pipSignalArrive n) s =
    .next (refuseSignal { s with sigs := s.sigs.eraseIdx n, parts := parts } g.src g.cell.val g.pip.toNat) := by
  obtain ⟨parts, arrives⟩ := signalArrive_fails (s := { s with sigs := s.sigs.eraseIdx n }) fails
  refine ⟨parts, ?_⟩
  rw [exec_pipSignalArrive at_ first, free, if_neg Bool.false_ne_true, arrives]
  rfl

/-- A signal that passes and completes the cell's wait. -/
theorem exec_pipSignalArrive_completes {w : Wait} (free : sigHeld s g = false) (passes : g.Passes s)
    (awake : (s.block (blockOfCell g.cell.val)).st ≠ .dormant) (mode : ((s.cell g.cell.val).pip g.pip.toNat).mode = 0)
    (waits : (s.cell g.cell.val).wait = some w) (here : w.pip = g.pip.toNat)
    (met : w.ok (((s.cell g.cell.val).pip g.pip.toNat).add g.amount) = true) :
    ∃ t, exec (.pipSignalArrive n) s = .next t ∧
      t.cell g.cell.val = { s.cell g.cell.val with
        wait := none, pc := (s.cell g.cell.val).pc + 4, pips := (t.cell g.cell.val).pips } ∧
      (t.cell g.cell.val).pip g.pip.toNat = (((s.cell g.cell.val).pip g.pip.toNat).add g.amount).complete w.kind ∧
      (∀ q, q ≠ g.pip.toNat → (t.cell g.cell.val).pip q = (s.cell g.cell.val).pip q) ∧ t.sigs = s.sigs.eraseIdx n := by
  obtain ⟨parts, -, run⟩ := exec_pipSignalArrive_passes at_ first free passes
  exact ⟨_, run, countSignal_completes (s := { s with sigs := s.sigs.eraseIdx n, parts := parts }) g.amount awake mode waits here met⟩

end

/-! ### SIGNAL packets -/

section
variable {s u : State} {n : Nat} {y : Inbox}

theorem takePacket_some {want : Packet → Bool} (taken : takePacket s n want = some (y, u)) :
    n < s.inbox.length ∧ u = { s with inbox := u.inbox } := by
  unfold takePacket at taken
  split at taken
  · cases taken
  · next x rest message =>
    split at taken
    · cases taken
      refine ⟨?_, rfl⟩
      unfold takeMsg at message
      split at message
      · cases message
      · next at_ => exact (List.getElem?_eq_some_iff.mp at_).1
    · cases taken

section
variable (taken : takePacket s n (fun p => p.kind == kSignal) = some (y, u))
include taken

theorem exec_remoteSignalArrive_held (held : msgHeld s 8192 (y.pkt.fld 22 9) = true) : exec (.remoteSignalArrive n) s = .next s := by
  show execRemoteSignalArrive n s = _
  unfold execRemoteSignalArrive
  rw [if_neg (Nat.not_le.mpr (takePacket_some taken).1), taken]
  exact congrArg next (if_pos held)

/-- What a SIGNAL packet does as it arrives: it is counted to the cell's partition, then the pip counts it or it is refused (11 R252). -/
theorem exec_remoteSignalArrive (free : msgHeld s 8192 (y.pkt.fld 22 9) = false) : ∃ parts, exec (.remoteSignalArrive n) s = .next (
    let t : State := { s with inbox := u.inbox, parts := parts }
    if remoteOk s (y.pkt.fld 22 9) (y.pkt.fld 16 6) y.pkt.job then
      countSignal t (y.pkt.fld 22 9) (y.pkt.fld 16 6) (BitVec.ofNat 16 (y.pkt.fld 31 16))
    else dropPacket (cellReport t (y.pkt.fld 22 9) 4 (detailWord 0 0 (pipAddr (y.pkt.fld 22 9) (y.pkt.fld 16 6)))) y.pkt 2) := by
  obtain ⟨inside, frame⟩ := takePacket_some taken
  refine ⟨(countRx u (ownerOfBlock u (blockOfCell (y.pkt.fld 22 9))) y.pkt).parts, ?_⟩
  show execRemoteSignalArrive n s = _
  unfold execRemoteSignalArrive
  rw [if_neg (Nat.not_le.mpr inside), taken]
  dsimp only
  rw [free, if_neg Bool.false_ne_true, countRx_frame, frame]
  rfl

end

end

/-- Settles O33: PIPSIG sends one signal on its way, and a signal that arrives and passes its check raises its pip, which may complete the
cell's wait. -/
theorem signalsComplete : Obligations.SignalsComplete := by
  unfold Obligations.SignalsComplete
  refine ⟨fun s c a b ready => ?pipsig, fun s n g => ?arrive, fun s u n y taken => ?packet⟩
  case pipsig =>
    intro k w p cell dst n
    refine ⟨fun legal here => ⟨_, exec_pipsig_local ready legal here, rfl, sendSig_sigs _ _ _ _ _ _⟩,
      fun legal remote reachable here => ⟨_, exec_pipsig_remote ready legal remote, rfl, ?_, ?_⟩,
      fun legal remote reachable away => ⟨_, exec_pipsig_remote ready legal remote, rfl, ?_, ?_⟩,
      fun legal remote unreachable => ?_, exec_pipsig_reserved ready⟩
    · rw [remoteSignal_here (s := retired s c id) reachable here]
      exact ((detached_countTx _ _).keeps (retired s c id)).2.2
    · rw [remoteSignal_here (s := retired s c id) reachable here]
      rfl
    · rw [remoteSignal_away (s := retired s c id) reachable away]
      exact ((detached_sendPacket _ _).keeps _).2.1
    · rw [remoteSignal_away (s := retired s c id) reachable away]
      exact ((detached_sendPacket _ _).keeps _).2.2
    · rw [exec_pipsig_remote ready legal remote, remoteSignal_unreachable (s := retired s c id) unreachable]
  case arrive =>
    intro c p k x b passes fails at_ first
    refine ⟨fun held => ?held, fun free ok awake mode => ⟨fun unmet => ?raises, fun w waits here => ⟨fun kind enough => ?wait,
      fun m kind enough => ?watch⟩⟩, fun free plain hall asleep => ?dormant, fun free bad => ?refused⟩
    case held =>
      rw [exec_pipSignalArrive at_ first, held]
      rfl
    case raises =>
      obtain ⟨parts, plain, run⟩ := exec_pipSignalArrive_passes at_ first free ok
      have unmet : ∀ w, k.wait = some w → w.pip = p → w.ok (x.add g.amount) = false := by
        intro w waits here
        rcases unmet with none | ⟨w', waits', other | unmet⟩
        · rw [none] at waits; cases waits
        · rw [waits] at waits'; cases waits'; exact absurd here other
        · rw [waits] at waits'; cases waits'; exact unmet
      rw [countSignal_unmet (s := { s with sigs := s.sigs.eraseIdx n, parts := parts }) g.amount awake mode unmet] at run
      obtain ⟨count, ovf, pips, rest, others, frame⟩ :=
        signalled_raises { s with sigs := s.sigs.eraseIdx n, parts := parts } g.cell.val g.pip.toNat g.amount
      refine ⟨_, run, count, ovf, pips, rest, others, ?_, fun none => ?_⟩
      · rw [frame]
      · rw [frame, plain none]
    case wait =>
      have one : 1 ≤ (x.add g.amount).count.toNat := by rw [Pip.add_count]; omega
      obtain ⟨t, run, cell, pip, others, sigs⟩ := exec_pipSignalArrive_completes at_ first free ok awake mode waits here
        ((Wait.ok_wait kind _).trans (decide_eq_true one))
      rw [kind] at pip
      exact ⟨t, run, cell, by rw [pip, Pip.complete_wait_count one, Pip.add_count], others, sigs⟩
    case watch =>
      have reached : m.toNat ≤ (x.add g.amount).count.toNat := by rw [Pip.add_count]; exact enough
      obtain ⟨t, run, cell, pip, others, sigs⟩ := exec_pipSignalArrive_completes at_ first free ok awake mode waits here
        ((Wait.ok_watch kind _).trans (decide_eq_true reached))
      rw [kind] at pip
      exact ⟨t, run, cell, by rw [pip]; exact Pip.add_count _ _, others, sigs⟩
    case dormant =>
      obtain ⟨parts, same, run⟩ := exec_pipSignalArrive_passes at_ first free (.inl ⟨plain, hall⟩)
      obtain rfl := same plain
      exact run.trans (congrArg Host.Outcome.next (countSignal_asleep _ asleep))
    case refused =>
      obtain ⟨parts, run⟩ := exec_pipSignalArrive_fails at_ first free bad
      exact ⟨_, run, refuseSignal_cells _ _ _ _, refuseSignal_sigs _ _ _ _, refuseSignal_hmrefs _ _ _ _⟩
  case packet =>
    intro c p x
    refine ⟨exec_remoteSignalArrive_held taken, fun awake free => ?_⟩
    obtain ⟨parts, run⟩ := exec_remoteSignalArrive taken free
    refine ⟨fun legal mode rsig rjob idle => ?counts, fun bad => ?refused⟩
    case counts =>
      have amount : (BitVec.ofNat 16 (y.pkt.fld 31 16)).toNat = y.pkt.fld 31 16 := by
        rw [BitVec.toNat_ofNat]; exact Nat.mod_mod _ _
      rw [remoteOk_accepts legal mode rsig rjob] at run
      dsimp only at run
      rw [if_pos rfl, countSignal_unmet (s := { s with inbox := u.inbox, parts := parts }) _ awake mode
        fun w waits => absurd (waits.symm.trans idle) nofun] at run
      obtain ⟨count, -, -, rest, others, frame⟩ := signalled_raises { s with inbox := u.inbox, parts := parts }
        (y.pkt.fld 22 9) (y.pkt.fld 16 6) (BitVec.ofNat 16 (y.pkt.fld 31 16))
      rw [amount] at count
      exact ⟨_, run, by rw [frame], count, rest, others⟩
    case refused =>
      rw [remoteOk_refuses awake bad] at run
      obtain ⟨cells, sigs, -⟩ := ((detached_cellReport (y.pkt.fld 22 9) 4
        (detailWord 0 0 (pipAddr (y.pkt.fld 22 9) (y.pkt.fld 16 6)))).comp (detached_dropPacket y.pkt 2)).keeps
          { s with inbox := u.inbox, parts := parts }
      exact ⟨_, run, cells, sigs⟩

end Sys2Proof.Machine
end

section
/-! PROOFS. Waits on a pip and their ends (09 R212, 11 R253 to R258), and the pip instructions. -/

namespace Sys2Proof.Machine

theorem ready_run {s : State} {c : CellId} (ready : Ready s c) : (s.block (blockOfCell c.val)).st = .run := by
  have issues := ready.1
  simp only [canIssue, Bool.and_eq_true, decide_eq_true_eq] at issues
  exact issues.1.2

theorem ready_idle {s : State} {c : CellId} (ready : Ready s c) : (s.cell c.val).wait = none := by
  have issues := ready.1
  simp only [canIssue, Bool.and_eq_true, Option.isNone_iff_eq_none] at issues
  exact issues.1.1.2

/-! ### Entering a wait -/

/-- The wait that an instruction enters (11 R253, R255). -/
def newWait (s : State) (c p : Nat) (kind : WaitKind) (t : Option Nat) : Wait :=
  ⟨p, kind, t.map (fun n => (ctime s c + n) % 2 ^ 64), .none⟩

/-- The cell as it waits. -/
def Cell.waiting (k : Cell) (w : Wait) : Cell := { k with wait := some w }

/-- A wait that completes as it is entered leaves no wait behind. -/
theorem Cell.completed_idle {k : Cell} (idle : k.wait = none) (w : Wait) :
    k.completed w = (k.setPip w.pip ((k.pip w.pip).complete w.kind)).nextPc := by
  simp only [Cell.completed, Cell.nextPc, Cell.setPip, idle]

section
variable {s : State} {c p : Nat} {kind : WaitKind} {t : Option Nat}

theorem enterWait_eq (s : State) (c p : Nat) (kind : WaitKind) (t : Option Nat) : enterWait s c p kind t =
    let s' := checkWait (s.updCell c (Cell.waiting · (newWait s c p kind t))) c p
    if (s'.cell c).wait.isNone then s'
    else if t = some 0 then
      if kind = .bar then sendBar (s.updCell c (Cell.waiting · { newWait s c p kind t with wd := .sent })) .withdraw c
        (homeOf c ((s.cell c).pip p)) p ((s.cell c).pip p).gen (s.cell c).hall
      else endTimeout s' c p
    else s' := by
  unfold enterWait
  cases kind <;> rfl

theorem enterWait_met (runs : (s.block (blockOfCell c)).st = .run) (met : (newWait s c p kind t).ok ((s.cell c).pip p) = true) :
    enterWait s c p kind t = s.setCell c ((s.cell c).completed (newWait s c p kind t)) := by
  have completes : checkWait (s.updCell c (Cell.waiting · (newWait s c p kind t))) c p =
      s.setCell c ((s.cell c).completed (newWait s c p kind t)) := by
    refine (checkWait_met (w := newWait s c p kind t) ?_ ?_).trans ?_
    · rw [State.cell_updCell_same]; rfl
    · rw [State.cell_updCell_same]; exact met
    · refine (wakeBlock_of_run (by exact runs)).trans ?_
      rw [State.cell_updCell_same, State.updCell, State.setCell_setCell]
      rfl
  rw [enterWait_eq, completes]
  dsimp only
  rw [State.cell_setCell_same]
  rfl

theorem checkWait_newWait (unmet : (newWait s c p kind t).ok ((s.cell c).pip p) = false) :
    checkWait (s.updCell c (Cell.waiting · (newWait s c p kind t))) c p =
      s.updCell c (Cell.waiting · (newWait s c p kind t)) := by
  refine checkWait_unmet fun w waits _ => ?_
  rw [State.cell_updCell_same] at waits ⊢
  cases waits
  exact unmet

theorem enterWait_waits (unmet : (newWait s c p kind t).ok ((s.cell c).pip p) = false) (later : t ≠ some 0) :
    enterWait s c p kind t = s.updCell c (Cell.waiting · (newWait s c p kind t)) := by
  rw [enterWait_eq, checkWait_newWait unmet]
  dsimp only
  rw [State.cell_updCell_same, if_neg later]
  rfl

/-- A wait that expires at once takes its timeout (11 R255). -/
theorem enterWait_expires (unmet : (newWait s c p kind (some 0)).ok ((s.cell c).pip p) = false) (notBar : kind ≠ .bar) :
    enterWait s c p kind (some 0) = endTimeout (s.updCell c (Cell.waiting · (newWait s c p kind (some 0)))) c p := by
  rw [enterWait_eq, checkWait_newWait unmet]
  dsimp only
  rw [State.cell_updCell_same, if_pos rfl, if_neg notBar]
  rfl

/-- A PIPBAR that expires at once withdraws its arrival first (11 R261). -/
theorem enterWait_withdraws (unmet : (newWait s c p .bar (some 0)).ok ((s.cell c).pip p) = false) :
    enterWait s c p .bar (some 0) =
      sendBar (s.updCell c (Cell.waiting · { newWait s c p .bar (some 0) with wd := .sent })) .withdraw c
        (homeOf c ((s.cell c).pip p)) p ((s.cell c).pip p).gen (s.cell c).hall := by
  rw [enterWait_eq, checkWait_newWait unmet]
  dsimp only
  rw [State.cell_updCell_same, if_pos rfl, if_pos rfl]
  rfl

theorem endTimeout_eq (nest : (s.cell c).kstate.getLsbD 0 = false) : endTimeout s c p = wakeBlock
    (s.updCell c fun k => ({ k with wait := none } : Cell).trapEntry false 0x09 (BitVec.ofNat 8 p) 0) (blockOfCell c) := by
  have free : (((s.updCell c fun k => { k with wait := none }).cell c).kstate.getLsbD 0) = false := by
    rw [State.cell_updCell_same]; exact nest
  simp only [endTimeout, takeTrap, free, Bool.not_false, Bool.and_false, Bool.false_eq_true, if_false, State.updCell_updCell]

end

/-! ### The instructions of a ready cell -/

section
variable {s : State} {c : CellId} {pip : BitVec 6} {t : Reg} (ready : Ready s c) (legal : pip.toNat < 48)
include ready legal

theorem waitInstr_mode {bar : Bool} (mode : decide (((s.cell c.val).pip pip.toNat).mode = 0) = !bar) (f : State → State) :
    waitInstr s c pip bar f = f s := by
  rw [waitInstr, issue_ready ready]
  dsimp only
  rw [if_neg (by omega), mode]
  cases bar <;> rfl

/-- A pip in the other mode raises an access fault (11 R253, R256). -/
theorem waitInstr_wrongMode {bar : Bool} (mode : decide (((s.cell c.val).pip pip.toNat).mode = 0) = bar)
    (nest : (s.cell c.val).kstate.getLsbD 0 = false) (f : State → State) : waitInstr s c pip bar f =
      trapped s c 0x03 0x00 (BitVec.ofNat 64 (pipAddr c.val pip.toNat + 0x10)) := by
  rw [waitInstr, issue_ready ready]
  dsimp only
  rw [if_neg (by omega), mode, beq_self_eq_true, if_pos rfl, finish_exc ready rfl nest]

theorem exec_pipwait (mode : ((s.cell c.val).pip pip.toNat).mode = 0) :
    exec (.pipwait c pip t) s = .next (enterWait s c.val pip.toNat .wait (waitTime (s.cell c.val) t)) :=
  congrArg next (waitInstr_mode (bar := false) ready legal (decide_eq_true mode) _)

theorem exec_pipwatch (b : Reg) (mode : ((s.cell c.val).pip pip.toNat).mode = 0) : exec (.pipwatch c pip b t) s =
    .next (enterWait s c.val pip.toNat (.watch (((s.cell c.val).rdG b).truncate 16)) (waitTime (s.cell c.val) t)) :=
  congrArg next (waitInstr_mode (bar := false) ready legal (decide_eq_true mode) _)

end

/-! ### The operands of a wait -/

theorem waitTime_never (k : Cell) {t : Reg} (zero : t = 0) : waitTime k t = none := if_pos (congrArg Fin.val zero)

theorem waitTime_timed (k : Cell) {t : Reg} (timed : t ≠ 0) : waitTime k t = some (fieldN (k.rdG t).toNat 0 32) :=
  if_neg fun h => timed (Fin.ext h)

theorem newWait_waitTime (s : State) (c p : Nat) (kind : WaitKind) (k : Cell) (t : Reg) : newWait s c p kind (waitTime k t) =
    ⟨p, kind, if t = 0 then none else some ((ctime s c + fieldN (k.rdG t).toNat 0 32) % 2 ^ 64), .none⟩ := by
  by_cases zero : t = 0
  · rw [waitTime_never k zero, if_pos zero]
    rfl
  · rw [waitTime_timed k zero, if_neg zero]
    rfl

theorem waitTime_later {k : Cell} {t : Reg} (later : t = 0 ∨ fieldN (k.rdG t).toNat 0 32 ≠ 0) : waitTime k t ≠ some 0 := by
  by_cases zero : t = 0
  · rw [waitTime_never k zero]
    exact nofun
  · rw [waitTime_timed k zero]
    exact fun h => (later.resolve_left zero) (Option.some.inj h)

section
variable {s : State} {c : CellId} {p : Nat} {kind : WaitKind} {t : Option Nat} (ready : Ready s c)
include ready

/-- A wait of a ready cell that completes as it is entered. -/
theorem enterWait_retires (met : (newWait s c.val p kind t).ok ((s.cell c.val).pip p) = true) : enterWait s c.val p kind t =
    s.updCell c.val fun k => (k.setPip p ((k.pip p).complete kind)).nextPc := by
  rw [enterWait_met (ready_run ready) met, Cell.completed_idle (ready_idle ready)]
  rfl

/-- A wait of a ready cell that expires at once. -/
theorem enterWait_traps (unmet : (newWait s c.val p kind (some 0)).ok ((s.cell c.val).pip p) = false) (notBar : kind ≠ .bar)
    (nest : (s.cell c.val).kstate.getLsbD 0 = false) :
    enterWait s c.val p kind (some 0) = trapped s c 0x09 (BitVec.ofNat 8 p) 0 := by
  have idle : { (s.cell c.val).waiting (newWait s c.val p kind (some 0)) with wait := none } = s.cell c.val := by
    rw [← ready_idle ready]
    rfl
  rw [enterWait_expires unmet notBar, endTimeout_eq]
  · have run := ready_run ready
    refine (wakeBlock_of_run (by exact run)).trans ?_
    rw [State.updCell_updCell]
    refine updCell_congr ?_
    rw [idle]
  · rw [State.cell_updCell_same]
    exact nest

end

/-! ### The conditions of the count pips -/

section
variable {s : State} {c p : Nat} {t : Option Nat} {x : Pip} {th : W16}

theorem newWait_ok_wait (counted : 1 ≤ x.count.toNat) : (newWait s c p .wait t).ok x = true := decide_eq_true counted

theorem newWait_not_ok_wait (empty : x.count = 0) : (newWait s c p .wait t).ok x = false :=
  decide_eq_false (by rw [empty]; decide)

theorem newWait_ok_watch (reached : th.toNat ≤ x.count.toNat) : (newWait s c p (.watch th) t).ok x = true := decide_eq_true reached

theorem newWait_not_ok_watch (short : x.count.toNat < th.toNat) : (newWait s c p (.watch th) t).ok x = false :=
  decide_eq_false (Nat.not_le.mpr short)

end

/-! ### PIPBAR -/

theorem sendBar_frame (s : State) (kind : BKind) (src c p : Nat) (gen : W16) (hall : Byte) : sendBar s kind src c p gen hall =
    { s with
      bmsgs := s.bmsgs ++ [⟨kind, src, Fin.ofNat 512 c, BitVec.ofNat 6 p, gen, hall, 0⟩]
      parts := (sendBar s kind src c p gen hall).parts } := by
  simp only [sendBar, countBridge]
  split
  · rw [countPart_frame]
  · rfl

theorem sendBar_cell (s : State) (kind : BKind) (src c p : Nat) (gen : W16) (hall : Byte) (n : Nat) :
    (sendBar s kind src c p gen hall).cell n = s.cell n := by
  rw [sendBar_frame]
  rfl

theorem sendBar_bmsgs (s : State) (kind : BKind) (src c p : Nat) (gen : W16) (hall : Byte) : (sendBar s kind src c p gen hall).bmsgs =
    s.bmsgs ++ [⟨kind, src, Fin.ofNat 512 c, BitVec.ofNat 6 p, gen, hall, 0⟩] := by
  rw [sendBar_frame]

/-- A pip after the arrival of its PIPBAR, sent once for a generation (11 R258). -/
def arrived (s : State) (c p : Nat) : State :=
  let x := (s.cell c).pip p
  if x.arr then s else sendBar (setPipAt s c p { x with arr := true }) .arrival c (homeOf c x) p x.gen (s.cell c).hall

section
variable {s : State} {c p : Nat}

theorem arrived_cell (s : State) (c p : Nat) :
    let k := (arrived s c p).cell c
    k = { s.cell c with pips := k.pips } ∧ k.pip p = { (s.cell c).pip p with arr := true } ∧ ∀ q, q ≠ p → k.pip q = (s.cell c).pip q := by
  unfold arrived
  dsimp only
  split
  · next arr =>
    refine ⟨rfl, ?_, fun _ _ => rfl⟩
    rw [← arr]
  · have cell : (sendBar (setPipAt s c p { (s.cell c).pip p with arr := true }) .arrival c (homeOf c ((s.cell c).pip p)) p
        ((s.cell c).pip p).gen (s.cell c).hall).cell c = (s.cell c).setPip p { (s.cell c).pip p with arr := true } := by
      rw [sendBar_cell]
      exact State.cell_updCell_same s c fun k => k.setPip p _
    rw [cell]
    exact ⟨rfl, Cell.pip_setPip_same _ _ _, fun q ne => Cell.pip_setPip_ne _ _ ne⟩

theorem arrived_blocks (s : State) (c p : Nat) : (arrived s c p).blocks = s.blocks := by
  unfold arrived
  dsimp only
  split
  · rfl
  · rw [sendBar_frame]
    rfl

theorem arrived_bmsgs (s : State) (c p : Nat) : (arrived s c p).bmsgs = s.bmsgs ++ if ((s.cell c).pip p).arr then [] else
    [⟨.arrival, c, Fin.ofNat 512 (homeOf c ((s.cell c).pip p)), BitVec.ofNat 6 p, ((s.cell c).pip p).gen, (s.cell c).hall, 0⟩] := by
  unfold arrived
  dsimp only
  split
  · exact (List.append_nil _).symm
  · rw [sendBar_bmsgs]
    rfl

end

section
variable {s : State} {c : CellId} {pip : BitVec 6} {t : Reg} (ready : Ready s c) (legal : pip.toNat < 48)
include ready legal

theorem exec_pipbar (mode : ((s.cell c.val).pip pip.toNat).mode ≠ 0) : exec (.pipbar c pip t) s =
    .next (enterWait (arrived s c.val pip.toNat) c.val pip.toNat .bar (waitTime (s.cell c.val) t)) :=
  congrArg next (waitInstr_mode (bar := true) ready legal (decide_eq_false mode) _)

/-- PIPBAR whose generation is not complete waits, or withdraws its arrival where it expires at once. -/
theorem exec_pipbar_unmet (mode : ((s.cell c.val).pip pip.toNat).mode ≠ 0) (unmet : ((s.cell c.val).pip pip.toNat).barDone = false) :
    ∃ u, exec (.pipbar c pip t) s = .next u ∧ (u.cell c.val).pc = (s.cell c.val).pc ∧
      (u.cell c.val).pip pip.toNat = { (s.cell c.val).pip pip.toNat with arr := true } ∧
      (waitTime (s.cell c.val) t ≠ some 0 → (u.cell c.val).wait = some (newWait s c.val pip.toNat .bar (waitTime (s.cell c.val) t)) ∧
        u.bmsgs = (arrived s c.val pip.toNat).bmsgs) ∧
      (waitTime (s.cell c.val) t = some 0 → (u.cell c.val).wait =
          some { newWait s c.val pip.toNat .bar (waitTime (s.cell c.val) t) with wd := .sent } ∧
        u.bmsgs = (arrived s c.val pip.toNat).bmsgs ++ [⟨.withdraw, c.val, Fin.ofNat 512 (homeOf c.val ((s.cell c.val).pip pip.toNat)),
          BitVec.ofNat 6 pip.toNat, ((s.cell c.val).pip pip.toNat).gen, (s.cell c.val).hall, 0⟩]) := by
  obtain ⟨rest, same, -⟩ := arrived_cell s c.val pip.toNat
  have unmet' : (newWait (arrived s c.val pip.toNat) c.val pip.toNat .bar (waitTime (s.cell c.val) t)).ok
      (((arrived s c.val pip.toNat).cell c.val).pip pip.toNat) = false := by
    rw [same, newWait, Wait.ok, ← unmet]
    exact Bool.and_true _
  have wait : newWait (arrived s c.val pip.toNat) c.val pip.toNat .bar (waitTime (s.cell c.val) t) =
      newWait s c.val pip.toNat .bar (waitTime (s.cell c.val) t) := by
    simp only [newWait, ctime, State.block, arrived_blocks]
  have pc : ((arrived s c.val pip.toNat).cell c.val).pc = (s.cell c.val).pc := by rw [rest]
  rw [exec_pipbar ready legal mode]
  by_cases now : waitTime (s.cell c.val) t = some 0
  · rw [now] at unmet' wait ⊢
    rw [enterWait_withdraws unmet', wait, same]
    refine ⟨_, rfl, ?_, ?_, fun later => absurd rfl later, fun _ => ⟨?_, ?_⟩⟩
    · rw [sendBar_cell, State.cell_updCell_same]
      exact pc
    · rw [sendBar_cell, State.cell_updCell_same]
      exact same
    · rw [sendBar_cell, State.cell_updCell_same]
      rfl
    · rw [sendBar_bmsgs, rest]
      rfl
  · rw [enterWait_waits unmet' now, wait]
    refine ⟨_, rfl, ?_, ?_, fun _ => ⟨?_, rfl⟩, fun h => absurd h now⟩
    all_goals rw [State.cell_updCell_same]
    · exact pc
    · exact same
    · rfl

/-- PIPBAR whose generation is complete moves its pip to the next one (11 R258). -/
theorem exec_pipbar_met (mode : ((s.cell c.val).pip pip.toNat).mode ≠ 0) (met : ((s.cell c.val).pip pip.toNat).barDone = true) :
    ∃ u, exec (.pipbar c pip t) s = .next u ∧ u.bmsgs = (arrived s c.val pip.toNat).bmsgs ∧
      u.cell c.val = { s.cell c.val with pc := (s.cell c.val).pc + 4, pips := (u.cell c.val).pips } ∧
      (u.cell c.val).pip pip.toNat = { (s.cell c.val).pip pip.toNat with gen := ((s.cell c.val).pip pip.toNat).gen + 1, arr := false } ∧
      ∀ q, q ≠ pip.toNat → (u.cell c.val).pip q = (s.cell c.val).pip q := by
  obtain ⟨rest, same, others⟩ := arrived_cell s c.val pip.toNat
  have met' : (newWait (arrived s c.val pip.toNat) c.val pip.toNat .bar (waitTime (s.cell c.val) t)).ok
      (((arrived s c.val pip.toNat).cell c.val).pip pip.toNat) = true := by
    rw [same, newWait, Wait.ok]
    exact (Bool.and_true _).trans met
  have run : ((arrived s c.val pip.toNat).block (blockOfCell c.val)).st = .run := by
    simp only [State.block, arrived_blocks]
    exact ready_run ready
  have idle : ((arrived s c.val pip.toNat).cell c.val).wait = none := by
    rw [rest]
    exact ready_idle ready
  rw [exec_pipbar ready legal mode, enterWait_met run met', Cell.completed_idle idle]
  refine ⟨_, rfl, rfl, ?_, ?_, fun q ne => ?_⟩
  all_goals rw [State.cell_setCell_same]
  · rw [rest]
    rfl
  · refine (Cell.pip_setPip_same _ _ _).trans ?_
    rw [newWait, same]
    rfl
  · exact (Cell.pip_setPip_ne _ _ ne).trans (others q ne)

end

/-! ### The timeout of a wait -/

theorem cellTimeTo_frame (s : State) (c t : Nat) : cellTimeTo s c t = { s with blocks := (cellTimeTo s c t).blocks } := by
  unfold cellTimeTo
  split <;> rfl

section
variable {s : State} {c : CellId} {w : Wait} {e : Nat} (waits : (s.cell c.val).wait = some w) (timed : w.expiry = some e)
  (held : (s.cell c.val).held = false) (faulted : (s.cell c.val).faulted = false)
include waits timed held faulted

theorem exec_pipWaitTimeout : exec (.pipWaitTimeout c) s = next (
    if w.kind = .bar ∧ ((s.cell c.val).pip w.pip).arr then wakeBlock (sendWithdrawal (cellTimeTo s c.val e) c.val w) (blockOfCell c.val)
    else endTimeout (cellTimeTo s c.val e) c.val w.pip) := by
  show execPipWaitTimeout c s = _
  simp only [execPipWaitTimeout, waits, timed, held, faulted, Bool.or_self, Bool.false_eq_true, if_false]

/-- The timeout of a wait whose arrival does not stand: class 0x09 (11 R255). -/
theorem exec_pipWaitTimeout_ends (free : w.kind ≠ .bar ∨ ((s.cell c.val).pip w.pip).arr = false)
    (nest : (s.cell c.val).kstate.getLsbD 0 = false) : ∃ t, exec (.pipWaitTimeout c) s = .next t ∧
      t.cell c.val = ({ s.cell c.val with wait := none } : Cell).trapEntry false 0x09 (BitVec.ofNat 8 w.pip) 0 ∧
      (∀ d : Nat, d ≠ c.val → t.cell d = s.cell d) ∧ t.bmsgs = s.bmsgs := by
  have ends : ¬ (w.kind = .bar ∧ ((s.cell c.val).pip w.pip).arr = true) := by
    rintro ⟨bar, arr⟩
    rcases free with other | unsent
    · exact other bar
    · rw [unsent] at arr; cases arr
  rw [exec_pipWaitTimeout waits timed held faulted, if_neg ends, cellTimeTo_frame, endTimeout_eq (by exact nest)]
  refine ⟨_, rfl, ?_, fun d ne => ?_, ?_⟩
  · rw [wakeBlock_cell, State.cell_updCell_same]
    rfl
  · rw [wakeBlock_cell, State.cell_updCell_ne _ _ ne.symm]
    rfl
  · rw [wakeBlock_frame]
    rfl

/-- A PIPBAR whose arrival stands withdraws it (11 R261). -/
theorem exec_pipWaitTimeout_withdraws (bar : w.kind = .bar) (arr : ((s.cell c.val).pip w.pip).arr = true) (unsent : w.wd = .none) :
    ∃ t, exec (.pipWaitTimeout c) s = .next t ∧ t.cell c.val = { s.cell c.val with wait := some { w with wd := .sent } } ∧
      t.bmsgs = s.bmsgs ++ [⟨.withdraw, c.val, Fin.ofNat 512 (homeOf c.val ((s.cell c.val).pip w.pip)), BitVec.ofNat 6 w.pip,
        ((s.cell c.val).pip w.pip).gen, (s.cell c.val).hall, 0⟩] := by
  obtain ⟨cell, bmsgs⟩ := sendWithdrawal_sends (cellTimeTo s c.val e) c.val unsent
  rw [cellTimeTo_frame] at cell bmsgs
  rw [exec_pipWaitTimeout waits timed held faulted, if_pos ⟨bar, arr⟩, cellTimeTo_frame]
  refine ⟨_, rfl, ?_, ?_⟩
  · rw [wakeBlock_cell]
    exact cell
  · rw [wakeBlock_frame]
    exact bmsgs

end

end Sys2Proof.Machine
end

section
/-! PROOFS. Writes to PCFG (11 R245, R246), and O34. -/

namespace Sys2Proof.Machine

/-! ### Fields beside and within the ones written -/

/-- A field within the one merged in takes its new value. -/
theorem fieldN_mergeField_within (old new : W64) {lo w l n : Nat} (low : lo ≤ l) (high : l + n ≤ lo + w) (h : lo + w ≤ 64) :
    fieldN (mergeField old new lo w).toNat l n = fieldN new.toNat l n := by
  refine Nat.eq_of_testBit_eq fun i => ?_
  simp only [testBit_fieldN]
  by_cases hi : i < n
  · have bit := getLsbD_mergeField old new (lo := lo) (w := w) (k := l + i) (by omega)
    rw [if_pos (by omega)] at bit
    exact congrArg _ bit
  · simp [hi]

/-- A field above the one merged in keeps its value. -/
theorem fieldN_mergeField_above (old new : W64) {lo w l n : Nat} (above : lo + w ≤ l) (h : l + n ≤ 64) :
    fieldN (mergeField old new lo w).toNat l n = fieldN old.toNat l n := by
  refine Nat.eq_of_testBit_eq fun i => ?_
  simp only [testBit_fieldN]
  by_cases hi : i < n
  · have bit := getLsbD_mergeField old new (lo := lo) (w := w) (k := l + i) (by omega)
    rw [if_neg (by omega)] at bit
    exact congrArg _ bit
  · simp [hi]

theorem fieldN_wrField_above (old new : W64) {lo w l n : Nat} (ok : Nat → Bool) (above : lo + w ≤ l) (h : l + n ≤ 64) :
    fieldN (wrField old new lo w ok).toNat l n = fieldN old.toNat l n := by
  rw [wrField]
  split
  · exact fieldN_mergeField_above old new above h
  · rfl

/-- A bit is a field of one bit. -/
theorem getLsbD_eq_fieldN (x : W64) (i : Nat) : x.getLsbD i = decide (fieldN x.toNat i 1 = 1) := by
  have bit := testBit_fieldN x.toNat i 1 0
  rw [Nat.add_zero, decide_eq_true Nat.one_pos, Bool.true_and, Nat.testBit_zero] at bit
  have small : fieldN x.toNat i 1 < 2 := Nat.mod_lt _ (by decide)
  rw [BitVec.getLsbD, ← bit, Nat.mod_eq_of_lt small]

/-! ### PCFG -/

/-- PCFG after a write of all of it (11 R245). -/
def pcfgWritten (old v : W64) : W64 :=
  mergeField (wrField (wrField (mergeField (mergeField (wrField old v 0 2 fun n => decide (n < 3)) v 2 14) v 16 9) v 32 10
    fun n => decide (1 ≤ n) && decide (n ≤ 518)) v 42 3 fun n => decide (n < 7)) v 45 6

section
variable (old v : W64)

theorem pcfgWritten_mode : fieldN (pcfgWritten old v).toNat 0 2 =
    if fieldN v.toNat 0 2 < 3 then fieldN v.toNat 0 2 else fieldN old.toNat 0 2 := by
  simp (disch := decide) only [pcfgWritten, fieldN_mergeField_below, fieldN_wrField_below, fieldN_wrField_same, decide_eq_true_eq]

/-- SPLIT, RSIG, RJOB and HCELL take what is written. -/
theorem pcfgWritten_within {l n : Nat} (inside : 2 ≤ l ∧ l + n ≤ 16 ∨ 16 ≤ l ∧ l + n ≤ 25 ∨ 45 ≤ l ∧ l + n ≤ 51) :
    fieldN (pcfgWritten old v).toNat l n = fieldN v.toNat l n := by
  rcases inside with ⟨low, high⟩ | ⟨low, high⟩ | ⟨low, high⟩
  · rw [pcfgWritten, fieldN_mergeField_below _ _ (by omega) (by omega), fieldN_wrField_below _ _ _ (by omega) (by omega),
      fieldN_wrField_below _ _ _ (by omega) (by omega), fieldN_mergeField_below _ _ (by omega) (by omega),
      fieldN_mergeField_within _ _ (by omega) (by omega) (by omega)]
  · rw [pcfgWritten, fieldN_mergeField_below _ _ (by omega) (by omega), fieldN_wrField_below _ _ _ (by omega) (by omega),
      fieldN_wrField_below _ _ _ (by omega) (by omega), fieldN_mergeField_within _ _ (by omega) (by omega) (by omega)]
  · rw [pcfgWritten, fieldN_mergeField_within _ _ (by omega) (by omega) (by omega)]

theorem pcfgWritten_npart : fieldN (pcfgWritten old v).toNat 32 10 =
    if 1 ≤ fieldN v.toNat 32 10 ∧ fieldN v.toNat 32 10 ≤ 518 then fieldN v.toNat 32 10 else fieldN old.toNat 32 10 := by
  simp (disch := decide) only [pcfgWritten, fieldN_mergeField_below, fieldN_wrField_below, fieldN_wrField_same,
    fieldN_mergeField_above, fieldN_wrField_above, Bool.and_eq_true, decide_eq_true_eq]

theorem pcfgWritten_parent : fieldN (pcfgWritten old v).toNat 42 3 =
    if fieldN v.toNat 42 3 < 7 then fieldN v.toNat 42 3 else fieldN old.toNat 42 3 := by
  simp (disch := decide) only [pcfgWritten, fieldN_mergeField_below, fieldN_wrField_same, fieldN_mergeField_above, fieldN_wrField_above,
    decide_eq_true_eq]

theorem getLsbD_pcfgWritten {i : Nat} (inside : 2 ≤ i ∧ i < 25 ∨ 45 ≤ i ∧ i < 51) :
    (pcfgWritten old v).getLsbD i = v.getLsbD i := by
  rw [getLsbD_eq_fieldN, getLsbD_eq_fieldN v, pcfgWritten_within old v (by omega)]

end

/-- A pip after a write of all of PCFG: fresh, with the fields written (11 R246). -/
def Pip.rewritten (x : Pip) (v : W64) : Pip := { Pip.reset with cfg := pcfgWritten x.cfg v, bmask := x.bmask, cmask := x.cmask }

section
variable (x : Pip) (v : W64)

theorem Pip.rewritten_npart : (1 ≤ fieldN v.toNat 32 10 → fieldN v.toNat 32 10 ≤ 518 → (x.rewritten v).npart = fieldN v.toNat 32 10) ∧
    (fieldN v.toNat 32 10 = 0 → (x.rewritten v).npart = fieldN x.cfg.toNat 32 10) := by
  refine ⟨fun low high => ?_, fun zero => ?_⟩
  · exact (pcfgWritten_npart x.cfg v).trans (if_pos ⟨low, high⟩)
  · exact (pcfgWritten_npart x.cfg v).trans (if_neg fun h => absurd h.1 (by omega))

theorem Pip.rewritten_child {q : Nat} (port : q < 6) : (x.rewritten v).child q = v.getLsbD (45 + q) := by
  rw [Pip.child, decide_eq_true port, Bool.true_and]
  exact getLsbD_pcfgWritten x.cfg v (by omega)

end

section
variable {s : State} {c p : Nat} {v : W64}

theorem pcfgWriteOp_whole (s : State) (c p : Nat) (v : W64) : pcfgWriteOp s c p v (-1) =
    match (s.cell c).wait with
    | some w => if w.pip = p then endTimeout (setPipAt s c p (((s.cell c).pip p).rewritten v)) c p
      else setPipAt s c p (((s.cell c).pip p).rewritten v)
    | none => setPipAt s c p (((s.cell c).pip p).rewritten v) := by
  have whole : masked ((s.cell c).pip p).cfg v (-1) = v := masked_allOnes _ _
  rw [pcfgWriteOp, whole]
  rfl

theorem pcfgWriteOp_elsewhere (elsewhere : ∀ w, (s.cell c).wait = some w → w.pip ≠ p) :
    pcfgWriteOp s c p v (-1) = setPipAt s c p (((s.cell c).pip p).rewritten v) := by
  rw [pcfgWriteOp_whole]
  split
  next w waits => exact if_neg (elsewhere w waits)
  next => rfl

/-- A write to PCFG ends a wait on its pip with class 0x09 (11 R246). -/
theorem pcfgWriteOp_waiting {w : Wait} (waits : (s.cell c).wait = some w) (on : w.pip = p)
    (nest : (s.cell c).kstate.getLsbD 0 = false) : (pcfgWriteOp s c p v (-1)).cell c =
      ({ (s.cell c).setPip p (((s.cell c).pip p).rewritten v) with wait := none } : Cell).trapEntry false 0x09 (BitVec.ofNat 8 p) 0 := by
  rw [pcfgWriteOp_whole, waits]
  dsimp only
  rw [if_pos on, setPipAt, endTimeout_eq]
  · rw [wakeBlock_cell, State.cell_updCell_same, State.cell_updCell_same]
  · rw [State.cell_updCell_same]
    exact nest

end

section
variable {s : State} {h : Byte} {c : CellId} {p : Fin 48}

theorem ctlAccepts_pcfg (s : State) (h : Byte) (c : CellId) (p : Fin 48) :
    ctlAccepts s (placeOf (pipAddr c.val p.val + 0x10)) h = hallOk (hallOfBlock s (blockOfCell c.val)) h := by
  have at_ : pipAddr c.val p.val + 0x10 = 0x30020000000 + 0x10000 * c.val + (0x1000 + 0x40 * p.val + 0x10) := by
    rw [pipAddr]; omega
  rw [at_, placeOf_cell c.isLt (by omega)]
  rfl

theorem exec_pcfgWrite (accepts : hallOk (hallOfBlock s (blockOfCell c.val)) h = true) (v : W64) :
    exec (.pcfgWrite h c p v) s = .next (pcfgWriteOp s c.val p.val v (-1)) :=
  congrArg next (if_pos ((ctlAccepts_pcfg s h c p).trans accepts))

theorem exec_pcfgWrite_refused (refuses : hallOk (hallOfBlock s (blockOfCell c.val)) h = false) (v : W64) :
    exec (.pcfgWrite h c p v) s = .next (refusedAtUnit s (pipAddr c.val p.val + 0x10)) :=
  congrArg next (if_neg (by rw [ctlAccepts_pcfg, refuses]; exact Bool.false_ne_true))

end

/-! ### O34 -/

/-- Settles O34: a wait of a pip instruction completes, expires or stays as its condition on the pip says, a timeout ends it or withdraws
its arrival, and a write of all of PCFG leaves a pip of reset values with the fields written. -/
theorem pipWaitsComplete : Obligations.PipWaitsComplete := by
  unfold Obligations.PipWaitsComplete
  refine ⟨fun s c pip b t ready legal => ?_, fun s c w e h p v => ?_⟩
  · refine ⟨fun mode => ⟨fun counted => ?_, fun empty later => ?_, fun reached => ?_, fun short later => ?_, fun timed zero nest => ?_⟩,
      fun mode unmet => ?_, fun mode met => ?_, fun nest => ⟨fun mode => ?_, fun mode => ?_⟩⟩
    · rw [exec_pipwait ready legal mode, enterWait_retires ready (newWait_ok_wait counted)]
      rfl
    · rw [exec_pipwait ready legal mode, enterWait_waits (newWait_not_ok_wait empty) (waitTime_later later),
        newWait_waitTime]
      rfl
    · rw [exec_pipwatch ready legal b mode, enterWait_retires ready (newWait_ok_watch reached)]
      rfl
    · rw [exec_pipwatch ready legal b mode, enterWait_waits (newWait_not_ok_watch short) (waitTime_later later),
        newWait_waitTime]
      rfl
    · have expires : waitTime (s.cell c.val) t = some 0 := (waitTime_timed _ timed).trans (congrArg some zero)
      refine ⟨fun empty => ?_, fun short => ?_⟩
      · rw [exec_pipwait ready legal mode, expires,
          enterWait_traps ready (newWait_not_ok_wait empty) (by decide) nest]
      · rw [exec_pipwatch ready legal b mode, expires,
          enterWait_traps ready (newWait_not_ok_watch short) nofun nest]
    · obtain ⟨u, run, pc, pip_, waits, withdraws⟩ := exec_pipbar_unmet (t := t) ready legal mode unmet
      rw [newWait_waitTime, arrived_bmsgs] at waits withdraws
      exact ⟨u, run, pc, pip_, fun later => waits (waitTime_later later),
        fun timed zero => withdraws ((waitTime_timed _ timed).trans (congrArg some zero))⟩
    · obtain ⟨u, run, bmsgs, cell, pip_, others⟩ := exec_pipbar_met (t := t) ready legal mode met
      exact ⟨u, run, bmsgs.trans (arrived_bmsgs s _ _), cell, pip_, others⟩
    · exact ⟨congrArg next (waitInstr_wrongMode (bar := false) ready legal (decide_eq_false mode) nest _),
        congrArg next (waitInstr_wrongMode (bar := false) ready legal (decide_eq_false mode) nest _)⟩
    · exact congrArg next (waitInstr_wrongMode (bar := true) ready legal (decide_eq_true mode) nest _)
  · refine ⟨fun waits timed held faulted => ⟨exec_pipWaitTimeout_ends waits timed held faulted,
      exec_pipWaitTimeout_withdraws waits timed held faulted⟩, fun accepts => ?_, fun refuses => exec_pcfgWrite_refused refuses v⟩
    intro fresh
    have isFresh {t : State} (pips : (t.cell c.val).pips = ((s.cell c.val).setPip p.val (((s.cell c.val).pip p.val).rewritten v)).pips) :
        fresh t := by
      have written : (t.cell c.val).pip p.val = ((s.cell c.val).pip p.val).rewritten v := by
        rw [Cell.pip, pips]
        exact Cell.pip_setPip_same _ _ _
      have others (q : Nat) (ne : q ≠ p.val) : (t.cell c.val).pip q = (s.cell c.val).pip q := by
        rw [Cell.pip, pips]
        exact Cell.pip_setPip_ne _ _ ne
      obtain ⟨npart, npart0⟩ := Pip.rewritten_npart ((s.cell c.val).pip p.val) v
      dsimp only [fresh]
      rw [written]
      exact ⟨rfl, rfl, rfl, rfl, rfl, rfl, rfl, rfl, pcfgWritten_mode _ _, getLsbD_pcfgWritten _ _ (by decide),
        getLsbD_pcfgWritten _ _ (by decide), congrArg (BitVec.ofNat 12) (pcfgWritten_within _ _ (by decide)),
        pcfgWritten_within _ _ (by decide), npart, npart0, pcfgWritten_parent _ _, fun q hq => Pip.rewritten_child _ v hq, rfl, rfl, others⟩
    rw [exec_pcfgWrite accepts]
    refine ⟨fun elsewhere => ⟨_, rfl, ?_, ?_⟩, fun w waits on nest => ⟨_, rfl, ?_, ?_⟩⟩
    · refine isFresh ?_
      rw [pcfgWriteOp_elsewhere elsewhere, setPipAt, State.cell_updCell_same]
    · rw [pcfgWriteOp_elsewhere elsewhere, setPipAt, State.cell_updCell_same]
      rfl
    · refine isFresh ?_
      rw [pcfgWriteOp_waiting waits on nest]
      rfl
    · rw [pcfgWriteOp_waiting waits on nest]
      rfl

end Sys2Proof.Machine
end

section
/-! PROOFS. A counted copy whose statistic slot signals an event of its own (08 R199, R203), and O30. -/

namespace Sys2Proof.Machine

/-- A narrowing copy of one FP32 element at 0x10000000000 to BF16 at 0x10000000100, multiplied by 1 and counted into statistic slot 0
(10 R221, R223), with neither its completion pip nor its error pip enabled. -/
def countedJob : Job :=
  ⟨⟨0x10000000000, 0x10000000100, 1 + 2 ^ 24 + 2 ^ 44, 0, 0, 0x3F800000 * 2 ^ 32 + 0x910, 0, 0⟩, 0, 0⟩

/-- A partition with hallmark 1, block 0 and a memory window over that block's SRAM group. -/
def countedPart : Part :=
  { Part.reset with
    st := .active, hall := 1, blocks := 1, keys := some (1, 2)
    wins := (Vector.replicate 16 0).set 0 (BitVec.ofNat 128 (0x10000000000 + 2 ^ 48 + 2 * 2 ^ 56)) }

/-- Engine 0 of its block runs that copy. Its slot 0 counts another format and has its event pip enabled, pip 0 of cell 0 (08 R195). -/
def countedState : State :=
  { State.reset with
    parts := (Vector.replicate 16 Part.reset).set 0 countedPart
    blocks := [(0, { Block.reset with st := .run, group := .on })]
    slots := [(0, { Slot.reset with own := 0x101, cfg := 2 + 2 ^ 23 })]
    engines := [(0, { Engine.reset with run := some countedJob })] }

theorem countedState_coherent : Coherent countedState := by
  constructor
  · intro c e he
    simp [State.cell, countedState, State.reset, Tab.get, Cell.reset, Cache.reset] at he
  · intro b e he
    by_cases h : 0 = b <;> simp [State.block, countedState, Tab.get, h, Block.reset, Cache.reset] at he

/-- Both of its extents lie in the partition's memory (01 R27, 10 R241). -/
theorem countedState_accepts : ∀ y ∈ countedJob.desc.exts, 0 ≤ y.1 ∧ ∀ m < y.2.1,
    isMem (y.1.toNat + m) = true ∧ memAccepts countedState (hallOfBlock countedState 0) (y.1.toNat + m) 1 = true := by
  decide

/-- 08 R199, R203: the contribution of another format than the slot's raises an event, and the slot signals its event pip. -/
theorem exec_countedState :
    ∃ t, exec (.copyComplete 0 0 .clean .clean) countedState = .next t ∧ t.sigs = [⟨1024, 0, 0, 1, 1, none⟩] :=
  ⟨_, rfl, by decide⟩

/-- Refutes O30. The clause about copies that complete allows no signal but that of the completion pip, also where the copy counts
into a statistic slot (CNT). In `countedState` the slot's FMT is not the copy's, so that the contribution raises the slot's event, whose pip is
signalled (08 R199, R203); the copy's own pip is not enabled, and no signal should be on its way. -/
theorem not_copiesComplete : ¬ Obligations.CopiesComplete := by
  intro h
  obtain ⟨completes, -⟩ := h countedState 0 0 countedJob 0 0 .clean .clean rfl
  obtain ⟨good, -⟩ := completes rfl (by decide) (by decide) (by decide) (by decide) (by decide) (by decide) (by decide) (by decide)
    countedState_coherent countedState_accepts (by decide)
  obtain ⟨t, runs, -, -, -, -, none, -⟩ := good (by decide)
  obtain ⟨u, runs', event⟩ := exec_countedState
  have same : u = t := by rw [runs'] at runs; injection runs
  rw [same, none] at event
  exact absurd event (by decide)

end Sys2Proof.Machine
end

section
/-! PROOFS. Errors that memory finds in itself (10 R234 to R240), and O32. -/

namespace Sys2Proof.Machine

/-! ### What a region counts -/

/-- A region that has counted a corrected error of its bank `n` (10 R234, R236). -/
def Region.bankCorrected (x : Region) (n : Nat) : Region :=
  let k := Tab.get 0 x.bankCorr n + 1
  { x with
    corr := BitVec.ofNat 64 (satAdd max64 x.corr.toNat 1), bankCorr := Tab.set 0 x.bankCorr n k
    bankFail := if x.bankThr.toNat ≤ k then x.bankFail ||| (1#256 <<< n) else x.bankFail }

/-- One that has counted an uncorrectable error of its bank `n`. -/
def Region.bankFailed (x : Region) (n : Nat) : Region :=
  { x with unc := BitVec.ofNat 64 (satAdd max64 x.unc.toNat 1), bankFail := x.bankFail ||| (1#256 <<< n) }

/-- One that has counted a corrected error of its controller `i` (10 R239, R240). -/
def Region.ctlCorrected (x : Region) (i : Nat) : Region :=
  let k := satAdd max64 (vget x.ctlCorr i).toNat 1
  { x with
    ctlCorr := x.ctlCorr.setIfInBounds i (BitVec.ofNat 64 k)
    ctlFail := if x.ctlThr.toNat ≤ k then x.ctlFail ||| (1#6 <<< i) else x.ctlFail }

/-- One that has counted an uncorrectable error of its controller `i`. -/
def Region.ctlFailed (x : Region) (i : Nat) : Region :=
  { x with
    ctlUnc := x.ctlUnc.setIfInBounds i (BitVec.ofNat 64 (satAdd max64 (vget x.ctlUnc i).toNat 1))
    ctlFail := x.ctlFail ||| (1#6 <<< i) }

theorem Region.bankCorrected_corr (x : Region) (n : Nat) :
    (x.bankCorrected n).corr.toNat = min (2 ^ 64 - 1) (x.corr.toNat + 1) := toNat_satAdd_max64 _ _

theorem Region.bankCorrected_bankCorr (x : Region) (n : Nat) :
    Tab.get 0 (x.bankCorrected n).bankCorr n = Tab.get 0 x.bankCorr n + 1 := by
  simp [Region.bankCorrected]

theorem Region.bankFailed_unc (x : Region) (n : Nat) : (x.bankFailed n).unc.toNat = min (2 ^ 64 - 1) (x.unc.toNat + 1) :=
  toNat_satAdd_max64 _ _

theorem Region.bankFailed_bankFail (x : Region) {n : Nat} (bank : n < 256) : (x.bankFailed n).bankFail.getLsbD n = true := by
  simp [Region.bankFailed, bank]

theorem Region.ctlCorrected_ctlCorr (x : Region) {i : Nat} (inside : i < 6) :
    (vget (x.ctlCorrected i).ctlCorr i).toNat = min (2 ^ 64 - 1) ((vget x.ctlCorr i).toNat + 1) := by
  rw [Region.ctlCorrected, vget_setIfInBounds_same _ _ inside]
  exact toNat_satAdd_max64 _ _

theorem Region.ctlFailed_ctlUnc (x : Region) {i : Nat} (inside : i < 6) :
    (vget (x.ctlFailed i).ctlUnc i).toNat = min (2 ^ 64 - 1) ((vget x.ctlUnc i).toNat + 1) := by
  rw [Region.ctlFailed, vget_setIfInBounds_same _ _ inside]
  exact toNat_satAdd_max64 _ _

theorem Region.ctlFailed_ctlFail (x : Region) {i : Nat} (inside : i < 6) : (x.ctlFailed i).ctlFail.getLsbD i = true := by
  simp [Region.ctlFailed, inside]

/-! ### Units retired, and deferred errors -/

/-- A block that a partition holds stays in service (10 R236). -/
theorem retireGroup_of_owned {s : State} {g : Nat} (owned : (ownerOfBlock s g).isSome = true) : retireGroup s g = s := by
  have none : (ownerOfBlock s g).isNone = false := by simpa [← Option.not_isSome] using owned
  simp [retireGroup, none]

/-- A block taken out of service leaves alone all but the cells, the blocks, the bytes of its SRAM group and the record. -/
theorem retireGroup_keeps {α : Type} (f : State → α) (cell : ∀ (s : State) c k, f (s.updCell c k) = f s)
    (block : ∀ (s : State) b x, f (s.setBlock b x) = f s) (memory : ∀ (s : State) x y, f { s with sram := x, poison := y } = f s)
    (reports : ∀ (s : State) x, f { s with lreps := x } = f s) (s : State) (g : Nat) : f (retireGroup s g) = f s := by
  have dormant : f (blockDormant s g) = f s := by
    rw [blockDormant_eq, memory]
    exact (foldl_keeps f _ (fun _ _ => cell _ _ _) _ _).trans (block _ _ _)
  have reported (t : State) o q cls own d : f (reportLog t o q cls own d) = f t := reports _ _
  simp only [retireGroup, blockOut]
  split
  · split
    · rfl
    · rw [reported, block, dormant]
  · rfl

theorem retireGroup_region (s : State) (g r : Nat) : (retireGroup s g).region r = s.region r :=
  retireGroup_keeps (fun s => s.region r) (fun _ _ _ => rfl) (fun _ _ _ => rfl) (fun _ _ _ => rfl) (fun _ _ => rfl) s g

theorem unitOff_keeps {α : Type} (f : State → α) (setter : ∀ (s : State) i x, f (s.setSetter i x) = f s)
    (adder : ∀ (s : State) i x, f (s.setAdder i x) = f s) (aslot : ∀ (s : State) i x, f (s.setASlot i x) = f s) (s : State) (m : Nat) :
    f (unitOff s m) = f s := by
  unfold unitOff
  rw [foldl_keeps f _ fun _ _ => aslot _ _ _]
  exact foldl_keeps f _ (fun _ _ => (adder _ _ _).trans (setter _ _ _)) _ _

/-- A controller of which a partition holds a part stays in service (10 R240). -/
theorem retireCtl_of_held {s : State} {m : Nat} (held : ctlHeld s m = true) : retireCtl s m = s := by
  simp [retireCtl, held]

/-- A controller taken out of service leaves alone all but its region, its units and the record. -/
theorem retireCtl_keeps {α : Type} (f : State → α) (setter : ∀ (s : State) i x, f (s.setSetter i x) = f s)
    (adder : ∀ (s : State) i x, f (s.setAdder i x) = f s) (aslot : ∀ (s : State) i x, f (s.setASlot i x) = f s)
    (region : ∀ (s : State) r x, f (s.setRegion r x) = f s) (reports : ∀ (s : State) x, f { s with lreps := x } = f s) (s : State)
    (m : Nat) : f (retireCtl s m) = f s := by
  have reported (t : State) o q cls own d : f (reportLog t o q cls own d) = f t := reports _ _
  simp only [retireCtl, ctlOut]
  split
  · split
    · rfl
    · rw [reported, region, unitOff_keeps f setter adder aslot]
  · rfl

theorem retireCtl_poison (s : State) (m : Nat) : (retireCtl s m).poison = s.poison :=
  retireCtl_keeps State.poison (fun _ _ _ => rfl) (fun _ _ _ => rfl) (fun _ _ _ => rfl) (fun _ _ _ => rfl) (fun _ _ => rfl) s m

/-- A controller taken out of service keeps what its region has counted. -/
theorem retireCtl_region {m : Nat} (inside : m < 24) (s : State) :
    ∃ oos, (retireCtl s m).region (m / 6) = { s.region (m / 6) with ctlOos := oos } := by
  simp only [retireCtl, ctlOut]
  split
  · split
    · exact ⟨_, rfl⟩
    · refine ⟨(s.region (m / 6)).ctlOos ||| (1#6 <<< (m % 6)), ?_⟩
      rw [reportLog_region, State.region_setRegion_same _ _ (by omega)]
  · exact ⟨_, rfl⟩

/-- A deferred error changes the cells alone. -/
theorem deferError_frame (s : State) (detail : Byte) (a : Nat) :
    deferError s detail a = { s with cells := (deferError s detail a).cells } := by
  unfold deferError
  split <;> rfl

/-! ### What a scrubber finds -/

section
variable {s : State} {a : Nat} (inService : outOfService s (placeOf a) = false) (good : a / 128 ∉ s.poison)
include inService good

theorem scrubAt_clean : scrubAt s a .clean = s := by simp [scrubAt, inService, good]

theorem scrubAt_single : scrubAt s a .single = foundCorrected s a := by simp [scrubAt, inService, good]

theorem scrubAt_double : scrubAt s a .double = deferError (retireAt (noteUncorrectable (poisonLine s a) a false) a) (memDetail a) a := by
  simp [scrubAt, inService, good, foundBad]

end

/-- The report of an uncorrectable error that memory finds (10 R235, R239). -/
def badReport (s : State) (origin : W32) (a detail : Nat) : Report :=
  ⟨none, origin, origin, 0xA, 2, ownByte (ownerOfMem s a), detailWord 0 detail (a % 2 ^ 48), 1⟩

section
variable {s : State} {a g : Nat} (place : placeOf a = .sram g)
include place

theorem noteCorrected_sram : noteCorrected s a =
    s.setRegion (g / 16) ((s.region (g / 16)).bankCorrected (16 * (g % 16) + a / 128 % 16)) := by
  simp only [noteCorrected, place]; rfl

theorem noteUncorrectable_sram : noteUncorrectable s a false =
    State.setRegion { s with lreps := queueReport (badReport s (originBank s (g / 16) (16 * (g % 16) + a / 128 % 16)) a 1) s.lreps }
      (g / 16) ((s.region (g / 16)).bankFailed (16 * (g % 16) + a / 128 % 16)) := by
  simp only [noteUncorrectable, memDetail, place]; rfl

/-- 10 R234, R236: the region counts a corrected error of its SRAM, and where a partition holds the block its lines are as they were. -/
theorem foundCorrected_sram (group : g < 64) :
    (foundCorrected s a).region (g / 16) = (s.region (g / 16)).bankCorrected (16 * (g % 16) + a / 128 % 16) ∧
      ((ownerOfBlock s g).isSome = true → (foundCorrected s a).poison = s.poison) := by
  have found : foundCorrected s a = retireGroup (noteCorrected s a) g := by simp only [foundCorrected, retireAt, place]
  rw [found, noteCorrected_sram place]
  constructor
  · rw [retireGroup_region, State.region_setRegion_same _ _ (by omega)]
  · intro owned
    rw [retireGroup_of_owned (by exact owned)]
    rfl

/-- 10 R235, R236: the region counts an uncorrectable error of its SRAM and marks the bank failing; where a partition holds the block the
line is left poisoned, with the record. -/
theorem scrubAt_sram_double (group : g < 64) (inService : outOfService s (placeOf a) = false) (good : a / 128 ∉ s.poison) :
    (scrubAt s a .double).region (g / 16) = (s.region (g / 16)).bankFailed (16 * (g % 16) + a / 128 % 16) ∧
      ((ownerOfBlock s g).isSome = true → (scrubAt s a .double).poison = insertNat (a / 128) s.poison ∧
        (scrubAt s a .double).lreps =
          queueReport (badReport s (originBank s (g / 16) (16 * (g % 16) + a / 128 % 16)) a 1) s.lreps) := by
  have retired (t : State) : retireAt t a = retireGroup t g := by simp only [retireAt, place]
  rw [scrubAt_double inService good, deferError_frame, retired, noteUncorrectable_sram place]
  constructor
  · exact (retireGroup_region _ _ _).trans (State.region_setRegion_same _ _ (by omega))
  · intro owned
    rw [retireGroup_of_owned (by exact owned)]
    exact ⟨rfl, rfl⟩

end

section
variable {s : State} {a m : Nat} (place : placeOf a = .lpddr m) (inside : m < 24)
include place

theorem noteCorrected_lpddr : noteCorrected s a = s.setRegion (m / 6) ((s.region (m / 6)).ctlCorrected (m % 6)) := by
  simp only [noteCorrected, place]; rfl

theorem noteUncorrectable_lpddr : noteUncorrectable s a false =
    State.setRegion { s with lreps := queueReport (badReport s (originCtl s m) a 2) s.lreps } (m / 6)
      ((s.region (m / 6)).ctlFailed (m % 6)) := by
  simp only [noteUncorrectable, memDetail, place]; rfl

include inside

/-- 10 R239, R240: the region counts a corrected error of the controller. -/
theorem foundCorrected_lpddr : (foundCorrected s a).poison = s.poison ∧
    ∃ oos, (foundCorrected s a).region (m / 6) = { (s.region (m / 6)).ctlCorrected (m % 6) with ctlOos := oos } := by
  have found : foundCorrected s a = retireCtl (noteCorrected s a) m := by simp only [foundCorrected, retireAt, place]
  rw [found, noteCorrected_lpddr place]
  obtain ⟨oos, region⟩ := retireCtl_region inside (s.setRegion (m / 6) ((s.region (m / 6)).ctlCorrected (m % 6)))
  rw [State.region_setRegion_same _ _ (by omega)] at region
  exact ⟨retireCtl_poison _ _, oos, region⟩

/-- 10 R239, R240: the region counts an uncorrectable error of the controller and marks it failing, the line is left poisoned, and where a
partition holds a part of its range there is a record. -/
theorem scrubAt_lpddr_double (inService : outOfService s (placeOf a) = false) (good : a / 128 ∉ s.poison) :
    (scrubAt s a .double).poison = insertNat (a / 128) s.poison ∧
      (∃ oos, (scrubAt s a .double).region (m / 6) = { (s.region (m / 6)).ctlFailed (m % 6) with ctlOos := oos }) ∧
      (ctlHeld s m = true → (scrubAt s a .double).lreps = queueReport (badReport s (originCtl s m) a 2) s.lreps) := by
  have retired (t : State) : retireAt t a = retireCtl t m := by simp only [retireAt, place]
  rw [scrubAt_double inService good, deferError_frame, retired, noteUncorrectable_lpddr place]
  refine ⟨retireCtl_poison _ _, ?_, fun held => ?_⟩
  · obtain ⟨oos, region⟩ := retireCtl_region inside (State.setRegion { poisonLine s a with
      lreps := queueReport (badReport (poisonLine s a) (originCtl (poisonLine s a) m) a 2) (poisonLine s a).lreps } (m / 6)
        (((poisonLine s a).region (m / 6)).ctlFailed (m % 6)))
    rw [State.region_setRegion_same _ _ (by omega)] at region
    exact ⟨oos, region⟩
  · rw [retireCtl_of_held (by exact held)]
    rfl

end

/-! ### The commands -/

theorem placeOf_sramWord (r : RegionId) (w : BitVec 27) :
    placeOf (0x10000000000 + 0x40000000 * r.val + 8 * w.toNat) = .sram (16 * r.val + w.toNat / 2 ^ 23) := by
  have hr := r.isLt
  have hw := w.isLt
  rw [placeOf, if_neg (by omega), if_pos (by omega), if_pos (by omega)]
  congr 1
  omega

theorem placeOf_ctlLine (m : CtlId) (line : BitVec 28) : placeOf (ctlRangeBase m.val + 128 * line.toNat) = .lpddr m.val := by
  have hm := m.isLt
  have hl := line.isLt
  dsimp only [placeOf, ctlRangeBase]
  rw [if_pos (by omega), if_pos (by omega)]
  congr 1
  omega

/-- Powering a group for an access (20 R458) changes the blocks alone, and none of them goes in or out of service. -/
theorem wakeGroup_sram {a g : Nat} (place : placeOf a = .sram g) (s : State) :
    ∃ x, wakeGroup s a = { s with blocks := (wakeGroup s a).blocks } ∧ (wakeGroup s a).block g = { s.block g with group := x } := by
  simp only [wakeGroup, place]
  split
  · exact ⟨_, rfl, State.block_setBlock_same _ _ _⟩
  · exact ⟨_, rfl, State.block_setBlock_same _ _ _⟩
  · exact ⟨_, rfl, rfl⟩

theorem exec_sramScrub (r : RegionId) (w : BitVec 27) (ecc : Ecc) (s : State) : exec (.sramScrub r w ecc) s =
    .next (if powered s && groupReady s (0x10000000000 + 0x40000000 * r.val + 8 * w.toNat) &&
        !unitHeld s (0x10000000000 + 0x40000000 * r.val + 8 * w.toNat) 3 then
      scrubAt (wakeGroup s (0x10000000000 + 0x40000000 * r.val + 8 * w.toNat)) (0x10000000000 + 0x40000000 * r.val + 8 * w.toNat) ecc
    else s) := rfl

theorem exec_lpddrScrub (m : CtlId) (line : BitVec 28) (ecc : Ecc) (s : State) : exec (.lpddrScrub m line ecc) s =
    .next (if powered s && !(s.region (m.val / 6)).selfRef.getLsbD (m.val % 6) &&
        !unitHeld s (ctlRangeBase m.val + 128 * line.toNat) 3 then
      scrubAt s (ctlRangeBase m.val + 128 * line.toNat) ecc
    else s) := rfl

/-- Settles O32: what a scrubber does is what its memory finds at the word or line (`scrubAt`), and each finding is counted in the region. -/
theorem scrubbersComplete : Obligations.ScrubbersComplete := by
  intro s r w m line ecc
  refine ⟨?sram, ?lpddr⟩
  case sram =>
    intro a g n x
    have place : placeOf a = .sram g := placeOf_sramWord r w
    have hr := r.isLt
    have hw := w.isLt
    have region : g / 16 = r.val := by omega
    have group : g < 64 := by omega
    refine ⟨fun stays => ?_, fun power ready free service good => ?_⟩
    · rw [exec_sramScrub, if_neg]
      rcases stays with h | h | h <;> simp [h, a]
    · have go (ecc : Ecc) : exec (.sramScrub r w ecc) s = .next (scrubAt (wakeGroup s a) a ecc) := by
        rw [exec_sramScrub, if_pos (by simp [power, ready, free, a])]
      obtain ⟨_, frame, woken⟩ := wakeGroup_sram place s
      have service' : outOfService (wakeGroup s a) (placeOf a) = false := by
        rw [place, outOfService, woken]
        exact service
      have good' : a / 128 ∉ (wakeGroup s a).poison := by rw [frame]; exact good
      refine ⟨?_, ⟨_, go .single, ?_⟩, ⟨_, go .double, ?_⟩⟩
      · rw [go, scrubAt_clean service' good']
      · rw [scrubAt_single service' good']
        obtain ⟨counts, poison⟩ := foundCorrected_sram (s := wakeGroup s a) place group
        rw [region] at counts
        rw [counts, frame]
        rw [frame] at poison
        exact ⟨Region.bankCorrected_corr _ _, Region.bankCorrected_bankCorr _ _, rfl, poison⟩
      · obtain ⟨counts, held⟩ := scrubAt_sram_double place group service' good'
        rw [region] at counts held
        rw [counts]
        rw [frame] at held ⊢
        exact ⟨Region.bankFailed_unc _ _, Region.bankFailed_bankFail _ (by omega), rfl, held⟩
  case lpddr =>
    intro a x i
    have place : placeOf a = .lpddr m.val := placeOf_ctlLine m line
    have unit : i < 6 := Nat.mod_lt _ (by omega)
    refine ⟨fun stays => ?_, fun power awake free service good => ?_⟩
    · rw [exec_lpddrScrub, if_neg]
      rcases stays with h | h | h <;> simp [h, a, x, i]
    · have go (ecc : Ecc) : exec (.lpddrScrub m line ecc) s = .next (scrubAt s a ecc) := by
        rw [exec_lpddrScrub, if_pos (by simp [power, awake, free, a, x, i])]
      have service' : outOfService s (placeOf a) = false := by rw [place]; exact service
      refine ⟨?_, ⟨_, go .single, ?_⟩, ⟨_, go .double, ?_⟩⟩
      · rw [go, scrubAt_clean service' good]
      · rw [scrubAt_single service' good]
        obtain ⟨poison, oos, counts⟩ := foundCorrected_lpddr (s := s) place m.isLt
        rw [counts]
        exact ⟨poison, Region.ctlCorrected_ctlCorr _ unit, rfl⟩
      · obtain ⟨poison, ⟨oos, counts⟩, held⟩ := scrubAt_lpddr_double place m.isLt service' good
        rw [counts]
        exact ⟨poison, Region.ctlFailed_ctlUnc _ unit, Region.ctlFailed_ctlFail _ unit, held⟩

end Sys2Proof.Machine
end

section
/-! PROOFS. Messages of remote copies, and what carries them: what the fabric interface, the slots and the memory checks leave alone. -/

namespace Sys2Proof.Machine

/-! ### Packets sent -/

section
variable {α : Type} (f : State → α) (count : ∀ (s : State) p k n, f (countPart s p k n) = f s)
  (carry : ∀ (s : State) inbox ports bridgeq, f { s with inbox := inbox, ports := ports, bridgeq := bridgeq } = f s)
include carry

theorem queueAt_keeps (s : State) (p : Nat) (req : Byte) (pkt : Packet) : f (queueAt s p req pkt) = f s := carry s s.inbox _ s.bridgeq

theorem deliver_keeps (s : State) (pkt : Packet) (via : Nat) : f (deliver s pkt via) = f s := carry s _ s.ports s.bridgeq

theorem dropPacket_keeps (s : State) (pkt : Packet) (sub : Nat) : f (dropPacket s pkt sub) = f s := by
  simp only [dropPacket]
  split
  · rfl
  · cases routeOf s (noticeOf s pkt sub).dst with
    | here => exact deliver_keeps f carry s _ _
    | port p => exact queueAt_keeps f carry s _ _ _
    | drop => rfl

theorem routePacket_keeps (s : State) (pkt : Packet) : f (routePacket s pkt) = f s := by
  unfold routePacket sendOut
  split
  · exact carry s s.inbox s.ports _
  · unfold sendVia routeVia
    cases routeOf s pkt.dst with
    | here => exact deliver_keeps f carry s _ _
    | port p => exact queueAt_keeps f carry s _ _ _
    | drop sub => exact dropPacket_keeps f carry s pkt sub

include count

/-- A packet sent (14 R349, 16 R392) changes the partitions' counts and the packets on their way alone. -/
theorem sendPacket_keeps (s : State) (own : Option Nat) (pkt : Packet) : f (sendPacket s own pkt) = f s := by
  rw [sendPacket, routePacket_keeps f carry, countTx, count, count]

end

/-! ### Contributions -/

section
variable {α : Type} (f : State → α) (slot : ∀ (s : State) i x, f (s.setSlot i x) = f s)
  (signal : ∀ (s : State) src c p n h, f (sendSig s src c p n h) = f s) (report : ∀ (s : State) x, f { s with lreps := x } = f s)
include slot signal

theorem slotEvent_keeps (s : State) (i bit : Nat) : f (slotEvent s i bit) = f s := by
  rw [slotEvent_eq, slotSignal]
  split
  · rw [signal, slot]
  · exact slot _ _ _

theorem contribute_keeps (s : State) (i : Nat) (x : Contribution) : f (contribute s i x) = f s := by
  cases format : x.fmt with
  | none => rw [contribute_of_noFormat format, slot]
  | some y =>
    by_cases same : y.toNat = (s.slot i).fmt
    · rw [contribute_of_sameFormat format same, slot]
    · rw [contribute_of_otherFormat format same, slotEvent_keeps f slot signal, slot]

include report

/-- A contribution (08 R199, R203) changes its slot, the signals and reports on their way and the partitions' counts alone. -/
theorem copyContribute_keeps (s : State) (d : Desc) (x : Option Contribution) : f (copyContribute s d x) = f s := by
  cases x with
  | none => rfl
  | some x =>
    rw [copyContribute, slotContribute]
    split
    · exact report s _
    · exact contribute_keeps f slot signal s _ x

theorem finishContribute_keeps (engine : ∀ (s : State) i x, f (s.setEngine i x) = f s) (s : State) (pkt : Packet) :
    f (finishContribute s pkt) = f s := by
  unfold finishContribute
  dsimp only
  split
  · rfl
  · split
    · split
      · rw [copyContribute_keeps f slot signal report, engine]
      · rfl
    · rfl

end

theorem copyContribute_engine (s : State) (d : Desc) (x : Option Contribution) (n : Nat) :
    (copyContribute s d x).engine n = s.engine n :=
  copyContribute_keeps (State.engine · n) (fun _ _ _ => rfl) (fun s src c p k h => sendSig_engine s src c p k h n) (fun _ _ => rfl) s d x

theorem sendSig_part_hall (s : State) (src c p n : Nat) (h : Byte) (q : Nat) : ((sendSig s src c p n h).part q).hall = (s.part q).hall := by
  show ((countBridge s _ _).part q).hall = _
  unfold countBridge
  split
  · exact countPart_part_keeps Part.hall (fun _ _ => rfl) s _ _ _ _
  · rfl

/-! ### What check bits show -/

theorem retireAt_inbox (s : State) (a : Nat) : (retireAt s a).inbox = s.inbox := by
  unfold retireAt
  split
  · exact retireGroup_keeps State.inbox (fun _ _ _ => rfl) (fun _ _ _ => rfl) (fun _ _ _ => rfl) (fun _ _ => rfl) s _
  · exact retireCtl_keeps State.inbox (fun _ _ _ => rfl) (fun _ _ _ => rfl) (fun _ _ _ => rfl) (fun _ _ _ => rfl) (fun _ _ => rfl) s _
  · rfl

theorem foundCorrected_inbox (s : State) (a : Nat) : (foundCorrected s a).inbox = s.inbox := by
  rw [foundCorrected, retireAt_inbox, noteCorrected]
  split <;> rfl

theorem foundBad_inbox (s : State) (a : Nat) : (foundBad s a).inbox = s.inbox := by
  rw [foundBad, retireAt_inbox, noteUncorrectable]
  repeat' split
  all_goals rfl

theorem spoilBlock_inbox (s : State) (bad : List Nat) (b : Nat) : (spoilBlock s bad b).inbox = s.inbox :=
  foldl_keeps State.inbox (fun s c => spoilL1 s bad c) (fun _ _ => rfl) _ _

theorem mergeCheck_inbox (s : State) (as : List Nat) (chk : Check) : (mergeCheck s as chk).inbox = s.inbox := by
  have spoiled (es : List (Nat × Nat)) : (es.foldl (fun s e => spoilBlock s [e.2] e.1) s).inbox = s.inbox :=
    foldl_keeps State.inbox _ (fun _ _ => spoilBlock_inbox _ _ _) es s
  simp only [mergeCheck]
  repeat' split
  all_goals simp only [foundCorrected_inbox, foundBad_inbox, spoiled]

theorem mergeCheck_clean (s : State) (as : List Nat) : mergeCheck s as .clean = s := by simp [mergeCheck, Check.clean]

theorem mergeCheck_nil (s : State) (chk : Check) : mergeCheck s [] chk = s := by
  simp only [mergeCheck, List.filterMap_nil, List.foldl_nil, ite_self, List.getElem?_nil]
  split <;> simp_all

end Sys2Proof.Machine
end

section
/-! PROOFS. One-row byte copies sent to another module (10 R223, R226, 14 R345). -/

namespace Sys2Proof.Machine

/-! ### Extents of memory -/

theorem mem_pageStarts {a n x : Nat} (h : x ∈ pageStarts a n) : a ≤ x ∧ x < a + n := by
  unfold pageStarts at h
  split at h
  · cases h
  · obtain ⟨k, hk, rfl⟩ := List.mem_map.mp h
    have hk := List.mem_range.mp hk
    omega

/-- Extents of which every byte passes a check. -/
theorem firstInExts_none {ok : Nat → Bool → Bool} {es : List (Int × Nat × Bool)}
    (passes : ∀ y ∈ es, 0 ≤ y.1 ∧ ∀ m < y.2.1, ok (y.1.toNat + m) y.2.2 = true) : firstInExts ok es = none := by
  induction es with
  | nil => rfl
  | cons y ys ih =>
    obtain ⟨here, later⟩ := List.forall_mem_cons.mp passes
    have page : firstBadPage (fun x => ok x y.2.2) y.1.toNat y.2.1 = none := by
      refine List.find?_eq_none.mpr fun x hx => ?_
      obtain ⟨low, high⟩ := mem_pageStarts hx
      obtain ⟨m, rfl⟩ := Nat.exists_eq_add_of_le low
      simp [here.2 m (by omega)]
    rw [firstInExts, if_neg (Int.not_lt.mpr here.1), page]
    exact ih later

theorem extTiles_of_isMem {es : List (Int × Nat × Bool)} (mem : ∀ y ∈ es, ∀ m < y.2.1, isMem (y.1.toNat + m) = true) :
    extTiles es = [] :=
  List.flatMap_eq_nil_iff.mpr fun y hy => by rw [tileSpans_of_isMem (mem y hy)]; rfl

theorem wakeExts_keeps {α : Type} (f : State → α) (block : ∀ (s : State) b x, x.l2 = (s.block b).l2 → f (s.setBlock b x) = f s)
    (region : ∀ (s : State) r x, f (s.setRegion r x) = f s) (s : State) (d : Desc) : f (wakeExts s d) = f s :=
  foldl_keeps f _ (fun s (e : Int × Nat × Bool) => wakeExtent_keeps f block region s e.1.toNat e.2.1) _ s

theorem memBad_congr {s t : State} (l2 : ∀ g, (t.block g).l2 = (s.block g).l2) (poison : t.poison = s.poison) (a : Nat) :
    memBad t a = memBad s a := by
  have holder : l2Of t a = l2Of s a := by simp only [l2Of, regionHolder, l2]
  simp only [memBad, holder, badIn, l2, poison]; rfl

theorem memBad_wakeExts (s : State) (d : Desc) (a : Nat) : memBad (wakeExts s d) a = memBad s a :=
  memBad_congr (fun g => wakeExts_keeps (fun s => (s.block g).l2) (fun s _ _ l2 => setBlock_l2 s l2 g) (fun _ _ _ => rfl) s d)
    (wakeExts_keeps State.poison (fun _ _ _ _ => rfl) (fun _ _ _ => rfl) s d) a

theorem memByte_wakeExts (s : State) (d : Desc) (a : Nat) : memByte (wakeExts s d) a = memByte s a :=
  wakeExts_keeps (memByte · a) (fun _ _ _ _ => rfl) (fun _ _ _ => rfl) s d

theorem parts_wakeExts (s : State) (d : Desc) : (wakeExts s d).parts = s.parts :=
  wakeExts_keeps State.parts (fun _ _ _ _ => rfl) (fun _ _ _ => rfl) s d

/-- Which hallmarks blocks and memory accept turns on the partitions alone (01 R27). -/
theorem hallOfBlock_congr {s t : State} (parts : t.parts = s.parts) (b : Nat) : hallOfBlock t b = hallOfBlock s b :=
  congrArg (fun p => hallOfBlock { s with parts := p } b) parts

theorem memAccepts_congr {s t : State} (parts : t.parts = s.parts) (h : Byte) (a n : Nat) : memAccepts t h a n = memAccepts s h a n :=
  congrArg (fun p => memAccepts { s with parts := p } h a n) parts

/-! ### A one-row byte copy -/

theorem addr48_natCast {a : Nat} (h : a < 2 ^ 48) : addr48 (a : Int) = a := by
  rw [addr48]
  omega

/-- A byte copy of one row (10 R221, R223). -/
structure Desc.OneRow (d : Desc) : Prop where
  cvt : d.cvt = false
  sfmt : d.sfmt = 0
  dfmt : d.dfmt = 0
  rows : d.n1 = 1
  planes : d.n2 = 1

section
variable {d : Desc} (row : d.OneRow)
include row

theorem Desc.OneRow.kind_eq : d.kind = .bytes := by simp [Desc.kind, row.cvt, row.sfmt, row.dfmt]

theorem Desc.OneRow.rows_eq : d.rows = [(0, 0)] := by simp [Desc.rows, row.rows, row.planes]

theorem Desc.OneRow.srcExt_eq : d.srcExt = [((d.srcA : Int), d.n0, false)] := by
  simp [Desc.srcExt, row.rows_eq, rowAddr, Desc.srcRow, Desc.es, row.cvt]

theorem Desc.OneRow.scaleExt_eq : d.scaleExt = [] := by simp [Desc.scaleExt, row.kind_eq]

/-- Of a copy to another module only the source lies here. -/
theorem Desc.OneRow.exts_eq (remote : d.remote = true) : d.exts = [((d.srcA : Int), d.n0, false)] := by
  simp [Desc.exts, row.srcExt_eq, row.scaleExt_eq, Desc.dstExt, remote]

theorem Desc.OneRow.partition_isScale (p : Piece) : [p].partition d.isScale = ([], [p]) := by
  simp [List.partition_eq_filter_filter, Desc.isScale, row.scaleExt_eq]

/-- It moves its bytes as one piece. -/
theorem Desc.OneRow.copyMoved_eq (h : Byte) (rd : Nat → CByte) : copyMoved h d rd = ⟨[(d.dstA, copyBytes rd d.srcA d.n0)], none⟩ := by
  have src : addr48 (d.srcA : Int) = d.srcA := addr48_natCast (Nat.mod_lt d.src.toNat (by decide))
  have dst : addr48 (d.dstA : Int) = d.dstA := addr48_natCast (Nat.mod_lt d.dst.toNat (by decide))
  simp [copyMoved, row.kind_eq, row.rows_eq, rowAddr, src, dst]

end

theorem badLines_good (a : Nat) (bs : List Byte) : badLines [(a, bs.map fun v => (v, none))] = [] := by
  have none : (bs.map fun v => ((v, none) : CByte)).zipIdx.filterMap
      (fun e => if e.1.2.isSome then some ((a + e.2) / 128) else none) = [] := by
    refine List.filterMap_eq_nil_iff.mpr fun e he => ?_
    obtain ⟨v, -, good⟩ := List.mem_map.mp (List.fst_mem_of_mem_zipIdx he)
    simp [← good]
  simp [badLines, none]

/-- A piece without uncorrectable bytes is sent as it is. -/
theorem goodPieces_good (a : Nat) (bs : List Byte) :
    goodPieces [(a, bs.map fun v => (v, none))] = [(a, bs.map fun v => (v, none))] := by
  rw [goodPieces, badLines_good]
  rfl

theorem badOf_good (bs : List Byte) : badOf (bs.map fun v => (v, none)) = none := by simp [badOf]

/-! ### COPY_COMPLETE -/

theorem copyGo_ready {s : State} {i : Nat} {j : Job} (f : State → State) (free : copyHeld s i j.desc = false)
    (ready : extsReady (wakeExts s j.desc) j.desc = true) (noTiles : extTiles j.desc.exts = []) :
    copyGo s i j f = f (wakeExts s j.desc) := by
  simp only [copyGo, free, ready, noTiles, tileGate, Bool.not_true, Bool.false_eq_true, if_false]

@[simp] theorem countCopy_engine (s : State) (b : Nat) (d : Desc) (n : Nat) : (countCopy s b d).engine n = s.engine n := by
  simp [countCopy, countBulk]

/-- 10 R231, 14 R345: a copy to another module whose source is good memory is sent, and waits for its WACK. -/
theorem copySend_row {s : State} {i : Nat} {j : Job} {bs : List Byte} (chk : Check) (row : j.desc.OneRow) (remote : j.desc.remote = true)
    (unsent : (s.engine i).fin = false)
    (accepted : ∀ m < j.desc.n0, unitAccepts s (hallOfBlock s (blockOfEngine i)) (j.desc.srcA + m) = true)
    (noTiles : extTiles j.desc.srcExt = [])
    (reads : ∀ h, copyBytes (copyReader s h) j.desc.srcA j.desc.n0 = bs.map fun v => (v, none)) : copySend s i j .clean chk =
      sendCopy ((countCopy s (blockOfEngine i) j.desc).setEngine i { s.engine i with contrib := none, fin := true }) i j.desc
        [(j.desc.dstA, bs.map fun v => (v, none))] false := by
  have passes : firstInExts (fun a _ => unitAccepts s (hallOfBlock s (blockOfEngine i)) a) j.desc.exts = none := by
    rw [row.exts_eq remote]
    refine firstInExts_none fun y hy => ?_
    rw [List.mem_singleton.mp hy]
    exact ⟨Int.natCast_nonneg _, accepted⟩
  have clean : sourceCheck s j.desc .clean = s := by
    unfold sourceCheck
    dsimp only
    split
    · exact ite_self s
    · rfl
  have tiles : sourceTiles s j.desc = s := by rw [sourceTiles, noTiles]; rfl
  have kept : ∀ (put : State → Nat → List Byte → State), writePieces put s [] = s := fun _ => rfl
  simp only [copySend, unsent, Bool.false_eq_true, if_false, passes, clean, tiles, row.copyMoved_eq, reads, row.partition_isScale,
    pieceAddrs, List.flatMap_nil, mergeCheck_nil, kept, List.findSome?_cons, List.findSome?_nil, badOf_good, countCopy_engine,
    goodPieces_good]

section
variable {s : State} {b : BlockId} {e : Fin 2} {j : Job}

theorem exec_copyComplete (src chk : Check) (runs : (s.engine (2 * b.val + e.val)).run = some j) : exec (.copyComplete b e src chk) s =
    next (copyGo s (2 * b.val + e.val) j fun s =>
      if j.desc.remote then copySend s (2 * b.val + e.val) j src chk else copyMove s (2 * b.val + e.val) j src chk) := by
  show execCopyComplete b e src chk s = _
  unfold execCopyComplete
  dsimp only
  rw [runs]

/-- A copy from good, accepted memory: no tile window and no check holds it, and what it sends is that memory's bytes. -/
theorem exec_copyComplete_remote (chk : Check) (runs : (s.engine (2 * b.val + e.val)).run = some j)
    (unsent : (s.engine (2 * b.val + e.val)).fin = false) (remote : j.desc.remote = true) (row : j.desc.OneRow)
    (free : copyHeld s (2 * b.val + e.val) j.desc = false) (ready : extsReady (wakeExts s j.desc) j.desc = true)
    (source : ∀ m < j.desc.n0, isMem (j.desc.srcA + m) = true ∧ memAccepts s (hallOfBlock s b.val) (j.desc.srcA + m) 1 = true ∧
      memBad s (j.desc.srcA + m) = none) :
    exec (.copyComplete b e .clean chk) s = .next (sendCopy ((countCopy (wakeExts s j.desc) b.val j.desc).setEngine (2 * b.val + e.val)
      { s.engine (2 * b.val + e.val) with contrib := none, fin := true }) (2 * b.val + e.val) j.desc
      [(j.desc.dstA, (List.range j.desc.n0).map fun m => (memByte s (j.desc.srcA + m), none))] false) := by
  have block : blockOfEngine (2 * b.val + e.val) = b.val := by
    unfold blockOfEngine
    omega
  have engine : (wakeExts s j.desc).engine (2 * b.val + e.val) = s.engine (2 * b.val + e.val) :=
    wakeExts_keeps (State.engine · _) (fun _ _ _ _ => rfl) (fun _ _ _ => rfl) s j.desc
  have noTiles : extTiles j.desc.srcExt = [] := extTiles_of_isMem fun y hy m hm => by
    rw [row.srcExt_eq] at hy
    obtain rfl := List.mem_singleton.mp hy
    exact (source m hm).1
  have accepted (m : Nat) (hm : m < j.desc.n0) :
      unitAccepts (wakeExts s j.desc) (hallOfBlock (wakeExts s j.desc) (blockOfEngine (2 * b.val + e.val))) (j.desc.srcA + m) = true := by
    obtain ⟨here, accepts, -⟩ := source m hm
    rw [block, unitAccepts, if_pos here, hallOfBlock_congr (parts_wakeExts s j.desc), memAccepts_congr (parts_wakeExts s j.desc)]
    exact accepts
  have reads (h : Byte) : copyBytes (copyReader (wakeExts s j.desc) h) j.desc.srcA j.desc.n0 =
      ((List.range j.desc.n0).map fun m => memByte s (j.desc.srcA + m)).map fun v => (v, none) := by
    rw [List.map_map]
    refine List.map_congr_left fun m hm => ?_
    obtain ⟨here, -, good⟩ := source m (List.mem_range.mp hm)
    rw [copyReader, copyByte_of_isMem _ _ here, memByte_wakeExts, memBad_wakeExts, good]
    rfl
  have sent := copySend_row chk row remote (by rw [engine]; exact unsent) accepted noTiles reads
  rw [engine, block, List.map_map] at sent
  rw [exec_copyComplete .clean chk runs, copyGo_ready _ free ready (by rw [row.exts_eq remote, ← row.srcExt_eq]; exact noTiles),
    if_pos remote]
  exact congrArg next sent

end

end Sys2Proof.Machine
end

section
/-! PROOFS. WRITE packets received (10 R227, R231, 14 R345, 16 R375). -/

namespace Sys2Proof.Machine

/-! ### REMOTE_WRITE_RECEIVE -/

theorem wakeGroup_inbox (s : State) (q : List Inbox) (a : Nat) :
    wakeGroup { s with inbox := q } a = { wakeGroup s a with inbox := q } := by
  have same (g : Nat) : State.block { s with inbox := q } g = s.block g := rfl
  unfold wakeGroup
  split
  · rw [same]
    dsimp only
    split <;> rfl
  · rfl
  · rfl

/-- Powering memory neither sees nor touches the packets delivered. -/
theorem wakeExtent_inbox (s : State) (q : List Inbox) (a n : Nat) :
    wakeExtent { s with inbox := q } a n = { wakeExtent s a n with inbox := q } := by
  unfold wakeExtent
  generalize pageStarts a n = starts
  induction starts generalizing s with
  | nil => rfl
  | cons b bs ih => rw [List.foldl_cons, wakeGroup_inbox, ih]; rfl

/-- The memory that a WRITE packet accepted for partition `p` needs is powered, and the packet counted (16 R392, 20 R458). -/
def writeCounted (s : State) (x : Inbox) (p : Nat) : State :=
  countBulk (countRx (wakeExtent s (x.pkt.fld 16 48) x.pkt.pay.length) (some p) x.pkt) (some p) x.pkt.pay.length

/-- The state in which such a packet is written: the hallmark that took the copy is entered (10 R231). -/
def writeTaken (s : State) (x : Inbox) (p : Nat) : State :=
  { writeCounted s x p with wtaken := Tab.put (writeCounted s x p).wtaken (remoteKey x.pkt) ((writeCounted s x p).part p).hall }

/-- What a WRITE packet meets that no arbiter holds (10 R227, R231): `s` is the state before it was taken, `u` the one after. -/
def writeArrives (s u : State) (x : Inbox) (chk : Check) : State :=
  if u.wrefused.contains (remoteKey x.pkt) then u
  else match acceptsWrite u x.pkt.job.toNat (x.pkt.fld 16 48) x.pkt.pay.length with
    | some p =>
      if !extentReady (wakeExtent u (x.pkt.fld 16 48) x.pkt.pay.length) (x.pkt.fld 16 48) x.pkt.pay.length then
        wakeExtent s (x.pkt.fld 16 48) x.pkt.pay.length
      else agentStore (mergeCheck (writeTaken u x p) ((List.range x.pkt.pay.length).map (x.pkt.fld 16 48 + ·)) chk)
        (x.pkt.fld 16 48) x.pkt.pay
    | none => sendWack { u with wrefused := insertNat (remoteKey x.pkt) u.wrefused } none x.pkt true

section
variable {s u : State} {k : Nat} {x : Inbox} {p : Nat}

section
variable {want : Packet → Bool} (taken : takePacket s k want = some (x, u))
include taken

theorem inHeld_of_takePacket (r : Nat) : inHeld u r = inHeld s r := by
  rw [(takePacket_some taken).2]
  rfl

theorem unitsHeld_of_takePacket (a n port : Nat) : unitsHeld u a n port = unitsHeld s a n port := by
  rw [(takePacket_some taken).2]
  rfl

theorem extentReady_of_takePacket (a n : Nat) : extentReady (wakeExtent u a n) a n = extentReady (wakeExtent s a n) a n := by
  rw [(takePacket_some taken).2, wakeExtent_inbox]
  rfl

end

section
variable (chk : Check) (taken : takePacket s k (fun q => q.kind == kWrite && q.sub == 0) = some (x, u))
include taken

theorem exec_remoteWriteReceive : exec (.remoteWriteReceive k chk) s = next (
    if inHeld s (regionOfPlace (placeOf (x.pkt.fld 16 48))) || unitsHeld s (x.pkt.fld 16 48) x.pkt.pay.length 0 then s
    else writeArrives s u x chk) := by
  rw [← inHeld_of_takePacket taken, ← unitsHeld_of_takePacket taken]
  show execRemoteWriteReceive k chk s = _
  unfold execRemoteWriteReceive
  rw [taken]
  rfl

theorem exec_remoteWriteReceive_held
    (held : inHeld s (regionOfPlace (placeOf (x.pkt.fld 16 48))) = true ∨ unitsHeld s (x.pkt.fld 16 48) x.pkt.pay.length 0 = true) :
    exec (.remoteWriteReceive k chk) s = .next s := by
  rw [exec_remoteWriteReceive chk taken, if_pos (by simpa using held)]
  rfl

theorem exec_remoteWriteReceive_free (free : ¬ (inHeld s (regionOfPlace (placeOf (x.pkt.fld 16 48))) = true ∨
    unitsHeld s (x.pkt.fld 16 48) x.pkt.pay.length 0 = true)) : exec (.remoteWriteReceive k chk) s = .next (writeArrives s u x chk) := by
  rw [exec_remoteWriteReceive chk taken, if_neg (by simpa using free)]
  rfl

end

section
variable (s) (chk : Check)

theorem writeArrives_dropped (refused : u.wrefused.contains (remoteKey x.pkt) = true) : writeArrives s u x chk = u := if_pos refused

variable (unrefused : u.wrefused.contains (remoteKey x.pkt) = false)
include unrefused

theorem writeArrives_refused (outside : acceptsWrite u x.pkt.job.toNat (x.pkt.fld 16 48) x.pkt.pay.length = none) :
    writeArrives s u x chk = sendWack { u with wrefused := insertNat (remoteKey x.pkt) u.wrefused } none x.pkt true := by
  rw [writeArrives, if_neg (by rw [unrefused]; exact Bool.false_ne_true), outside]

variable (accepted : acceptsWrite u x.pkt.job.toNat (x.pkt.fld 16 48) x.pkt.pay.length = some p)
include accepted

theorem writeArrives_unpowered
    (off : extentReady (wakeExtent u (x.pkt.fld 16 48) x.pkt.pay.length) (x.pkt.fld 16 48) x.pkt.pay.length = false) :
    writeArrives s u x chk = wakeExtent s (x.pkt.fld 16 48) x.pkt.pay.length := by
  simp only [writeArrives, unrefused, accepted, off, Bool.false_eq_true, Bool.not_false, if_false, if_true]

theorem writeArrives_writes
    (powered : extentReady (wakeExtent u (x.pkt.fld 16 48) x.pkt.pay.length) (x.pkt.fld 16 48) x.pkt.pay.length = true) :
    writeArrives s u x chk = agentStore (mergeCheck (writeTaken u x p) ((List.range x.pkt.pay.length).map (x.pkt.fld 16 48 + ·)) chk)
      (x.pkt.fld 16 48) x.pkt.pay := by
  simp only [writeArrives, unrefused, accepted, powered, Bool.false_eq_true, Bool.not_true, if_false]

end

theorem writeCounted_keeps {α : Type} (f : State → α) (block : ∀ (s : State) b x, x.l2 = (s.block b).l2 → f (s.setBlock b x) = f s)
    (region : ∀ (s : State) r x, f (s.setRegion r x) = f s) (count : ∀ s p k n, f (countPart s p k n) = f s) (s : State) (x : Inbox)
    (p : Nat) : f (writeCounted s x p) = f s := by
  rw [writeCounted, countBulk, countRx, count, count, count, wakeExtent_keeps f block region]

theorem moves_writeCounted (s : State) (x : Inbox) (p : Nat) : Moves 0 s (writeCounted s x p) := by
  rw [writeCounted, countBulk, countRx]
  exact ((((Moves.refl 0 s).wakeExtent _ _).countPart _ _ _).countPart _ _ _).countPart _ _ _

theorem writeTaken_wtaken (s : State) (x : Inbox) (p : Nat) :
    (writeTaken s x p).wtaken = Tab.put s.wtaken (remoteKey x.pkt) (s.part p).hall := by
  have hall : ((writeCounted s x p).part p).hall = (s.part p).hall :=
    writeCounted_keeps (fun s => (s.part p).hall) (fun _ _ _ _ => rfl) (fun _ _ _ => rfl)
      (fun s o k n => countPart_part_keeps Part.hall (fun _ _ => rfl) s o k n p) s x p
  have before : (writeCounted s x p).wtaken = s.wtaken :=
    writeCounted_keeps State.wtaken (fun _ _ _ _ => rfl) (fun _ _ _ => rfl) countPart_wtaken s x p
  rw [writeTaken, hall, before]

theorem coherent_with_wtaken (t : State) (w : Tab Byte) : Coherent { t with wtaken := w } = Coherent t := rfl

theorem memByte_with_wtaken (t : State) (w : Tab Byte) (a : Nat) : memByte { t with wtaken := w } a = memByte t a := rfl

/-- The state in which a WRITE packet is written sees the same memory. -/
theorem writeTaken_coherent {x : Inbox} {p : Nat} (coherent : Coherent s) :
    Coherent (writeTaken s x p) ∧ ∀ a, memByte (writeTaken s x p) a = memByte s a := by
  rw [writeTaken, coherent_with_wtaken]
  simp only [memByte_with_wtaken]
  exact (moves_writeCounted s x p).same coherent

/-- An accepted WRITE packet written (10 R231, 14 R345). -/
theorem agentStore_writeTaken (s : State) {x : Inbox} (p : Nat) (mem : ∀ m < x.pkt.pay.length, isMem (x.pkt.fld 16 48 + m) = true)
    (coherent : Coherent s) :
    let t := agentStore (writeTaken s x p) (x.pkt.fld 16 48) x.pkt.pay
    (∀ m, (h : m < x.pkt.pay.length) → memByte t (x.pkt.fld 16 48 + m) = x.pkt.pay[m]) ∧
      (∀ y, y < x.pkt.fld 16 48 ∨ x.pkt.fld 16 48 + x.pkt.pay.length ≤ y → memByte t y = memByte s y) ∧
      t.wtaken = Tab.put s.wtaken (remoteKey x.pkt) (s.part p).hall ∧ t.engines = s.engines ∧ t.sigs = s.sigs := by
  intro t
  have stores : Stores (writeTaken s x p) t (x.pkt.fld 16 48) x.pkt.pay := agentStore_stores _ _ _ mem
  obtain ⟨coherent', before⟩ := writeTaken_coherent (x := x) (p := p) coherent
  obtain ⟨-, elsewhere⟩ := stores.same coherent'
  have units {α : Type} (f : State → α) (apart : ∀ s : State, f s.offCaches = f s) : f t = f (writeTaken s x p) := by
    rw [← apart, stores.units, apart]
  refine ⟨fun m h => ?_, fun y out => (elsewhere y out).trans (before y), ?_, ?_, ?_⟩
  · have bytes := congrArg (·[m]?) stores.bytes
    simp only [memBytes_eq_map, List.getElem?_map, List.getElem?_range h, List.getElem?_eq_getElem h, Option.map_some] at bytes
    exact Option.some.inj bytes
  · rw [units State.wtaken fun _ => rfl, writeTaken_wtaken]
  · rw [units State.engines fun _ => rfl]
    exact writeCounted_keeps State.engines (fun _ _ _ _ => rfl) (fun _ _ _ => rfl) countPart_engines s x p
  · rw [units State.sigs fun _ => rfl]
    exact writeCounted_keeps State.sigs (fun _ _ _ _ => rfl) (fun _ _ _ => rfl) countPart_sigs s x p

theorem agentStore_inbox (s : State) (a : Nat) (bs : List Byte) (mem : ∀ m < bs.length, isMem (a + m) = true) :
    (agentStore s a bs).inbox = s.inbox := by
  have units := (agentStore_stores s a bs mem).units
  exact (congrArg State.inbox units :)

theorem writeTaken_inbox (s : State) (x : Inbox) (p : Nat) : (writeTaken s x p).inbox = s.inbox :=
  writeCounted_keeps State.inbox (fun _ _ _ _ => rfl) (fun _ _ _ => rfl) countPart_inbox s x p

end

end Sys2Proof.Machine
end

section
/-! PROOFS. Finish packets and WACKs (10 R226, R231), and O31. -/

namespace Sys2Proof.Machine

/-! ### REMOTE_WRITE_FINISH -/

/-- What a packet's leaving its queue leaves alone. -/
theorem takePacket_keeps {α : Type} (f : State → α) (carry : ∀ (s : State) q, f { s with inbox := q } = f s) {s u : State} {k : Nat}
    {want : Packet → Bool} {x : Inbox} (taken : takePacket s k want = some (x, u)) : f u = f s := by
  rw [(takePacket_some taken).2, carry]

/-- A module whose finish packet has come forgets who took its copy. -/
def forgetTaken (s : State) (x : Inbox) : State := { s with wtaken := Tab.erase s.wtaken (remoteKey x.pkt) }

theorem finishOwner_of_taken {s : State} {pkt : Packet} {v : Byte}
    (taken : s.wtaken.find? (fun y => y.1 == remoteKey pkt) = some (remoteKey pkt, v)) : finishOwner s pkt = partOfHall s v := by
  simp only [finishOwner, taken]

/-- A contribution that is not here to be made leaves the signals as they were. -/
theorem finishContribute_sigs {s : State} {pkt : Packet}
    (none : pkt.src ≠ s.modId ∨ (s.engine (pkt.fld 76 7)).contrib = none) : (finishContribute s pkt).sigs = s.sigs := by
  unfold finishContribute
  dsimp only
  split
  · rfl
  · next here =>
    rw [none.resolve_left here]
    split
    · split <;> rfl
    · rfl

theorem engine_of_takePacket {s u : State} {k : Nat} {want : Packet → Bool} {x : Inbox} (taken : takePacket s k want = some (x, u))
    (n : Nat) : u.engine n = s.engine n := takePacket_keeps (State.engine · n) (fun _ _ => rfl) taken

theorem countRx_engine (s : State) (own : Option Nat) (pkt : Packet) (n : Nat) : (countRx s own pkt).engine n = s.engine n := by
  simp [countRx]

section
variable {s u : State} {k : Nat} {x : Inbox} {p : Nat}
  (taken : takePacket s k (fun q => q.kind == kWrite && q.sub == 1) = some (x, u))
include taken

theorem exec_remoteWriteFinish_refused (refused : u.wrefused.contains (remoteKey x.pkt) = true) : exec (.remoteWriteFinish k) s =
    .next { forgetTaken u x with wrefused := u.wrefused.filter (· ≠ remoteKey x.pkt) } := by
  show execRemoteWriteFinish k s = _
  unfold execRemoteWriteFinish
  rw [taken]
  exact congrArg next (if_pos refused)

variable (unrefused : u.wrefused.contains (remoteKey x.pkt) = false)
include unrefused

theorem exec_remoteWriteFinish_unowned (unowned : finishOwner u x.pkt = none) :
    exec (.remoteWriteFinish k) s = .next (sendWack (forgetTaken u x) none x.pkt true) := by
  show execRemoteWriteFinish k s = _
  simp only [execRemoteWriteFinish, taken, unrefused, unowned, Bool.false_eq_true, if_false]
  rfl

/-- 10 R231: the finish packet of a copy that partition `p` took signals its pip with the partition's hallmark, and is answered. -/
theorem exec_remoteWriteFinish_signals (owned : finishOwner u x.pkt = some p) (enabled : x.pkt.hdr.getLsbD 31 = true)
    (pip : x.pkt.fld 16 6 < 48) :
    let w := finishContribute (countRx u (some p) x.pkt) x.pkt
    exec (.remoteWriteFinish k) s = .next (sendWack
      (forgetTaken (sendSig w 8192 (x.pkt.fld 22 9) (x.pkt.fld 16 6) 1 (w.part p).hall) x) (some p) x.pkt false) := by
  show execRemoteWriteFinish k s = _
  simp only [execRemoteWriteFinish, taken, unrefused, owned, enabled, pip, and_self, Bool.false_eq_true, if_false, if_true]
  rfl

end

/-- What the answer to a packet leaves alone. -/
theorem sendWack_keeps {α : Type} (f : State → α) (count : ∀ (s : State) p k n, f (countPart s p k n) = f s)
    (carry : ∀ (s : State) inbox ports bridgeq, f { s with inbox := inbox, ports := ports, bridgeq := bridgeq } = f s) (s : State)
    (own : Option Nat) (pkt : Packet) (refused : Bool) : f (sendWack s own pkt refused) = f s :=
  sendPacket_keeps f count carry s own _

/-- What a packet delivered to a partition, with the contribution that its copy makes here, leaves alone. -/
theorem finishContribute_countRx_keeps {α : Type} (f : State → α) (count : ∀ (s : State) p k n, f (countPart s p k n) = f s)
    (slot : ∀ (s : State) i x, f (s.setSlot i x) = f s) (signal : ∀ (s : State) src c p n h, f (sendSig s src c p n h) = f s)
    (report : ∀ (s : State) x, f { s with lreps := x } = f s) (engine : ∀ (s : State) i x, f (s.setEngine i x) = f s) (s : State)
    (own : Option Nat) (pkt : Packet) : f (finishContribute (countRx s own pkt) pkt) = f s := by
  rw [finishContribute_keeps f slot signal report engine, countRx, count, count]

theorem countRx_sigs (s : State) (own : Option Nat) (pkt : Packet) : (countRx s own pkt).sigs = s.sigs := by simp [countRx]

theorem countRx_modId (s : State) (own : Option Nat) (pkt : Packet) : (countRx s own pkt).modId = s.modId := by
  rw [countRx_frame]
  rfl

/-- The state that such a finish packet leaves. -/
theorem signalled_finish (u : State) (x : Inbox) (p : Nat) :
    let w := finishContribute (countRx u (some p) x.pkt) x.pkt
    let g : Sig := ⟨8192, Fin.ofNat 512 (x.pkt.fld 22 9), BitVec.ofNat 6 (x.pkt.fld 16 6), 1, (u.part p).hall, none⟩
    let t := sendWack (forgetTaken (sendSig w 8192 (x.pkt.fld 22 9) (x.pkt.fld 16 6) 1 (w.part p).hall) x) (some p) x.pkt false
    t.sigs = w.sigs ++ [g] ∧ t.wtaken = Tab.erase u.wtaken (remoteKey x.pkt) ∧ ∀ m, memByte t m = memByte u m := by
  intro w g t
  have hall : (w.part p).hall = (u.part p).hall :=
    finishContribute_countRx_keeps (fun s => (s.part p).hall)
      (fun s o k n => countPart_part_keeps Part.hall (fun _ _ => rfl) s o k n p) (fun _ _ _ => rfl)
      (fun s src c q n h => sendSig_part_hall s src c q n h p) (fun _ _ => rfl) (fun _ _ _ => rfl) u (some p) x.pkt
  have wtaken : w.wtaken = u.wtaken :=
    finishContribute_countRx_keeps State.wtaken countPart_wtaken (fun _ _ _ => rfl) sendSig_wtaken (fun _ _ => rfl) (fun _ _ _ => rfl) u
      (some p) x.pkt
  have byte (m : Nat) : memByte w m = memByte u m :=
    finishContribute_countRx_keeps (memByte · m) (fun s o k n => memByte_countPart s o k n m) (fun _ _ _ => rfl)
      (fun s src c q n h => memByte_sendSig s src c q n h m) (fun _ _ => rfl) (fun _ _ _ => rfl) u (some p) x.pkt
  refine ⟨?_, ?_, fun m => ?_⟩
  · rw [sendWack_keeps State.sigs countPart_sigs (fun _ _ _ _ => rfl), hall]
    exact sendSig_sigs _ _ _ _ _ _
  · rw [sendWack_keeps State.wtaken countPart_wtaken (fun _ _ _ _ => rfl)]
    exact congrArg (Tab.erase · _) ((sendSig_wtaken _ _ _ _ _ _).trans wtaken)
  · rw [sendWack_keeps (memByte · m) (fun s o k n => memByte_countPart s o k n m) (fun _ _ _ _ => rfl)]
    exact (memByte_sendSig w 8192 (x.pkt.fld 22 9) (x.pkt.fld 16 6) 1 (w.part p).hall m).trans (byte m)

/-! ### WACK_RECEIVE -/

theorem copyDone_engine_same (s : State) (i : Nat) (j : Job) : (copyDone s i j).engine i =
    { s.engine i with done := (s.engine i).done + 1, run := none, contrib := none, fin := false } := by
  unfold copyDone
  dsimp only
  split
  · rw [sendSig_engine, State.engine_setEngine_same]
  · exact State.engine_setEngine_same s i _

theorem copyDone_engine_ne (s : State) {i n : Nat} (j : Job) (ne : n ≠ i) : (copyDone s i j).engine n = s.engine n := by
  unfold copyDone
  dsimp only
  split
  · rw [sendSig_engine, State.engine_setEngine_ne s _ ne.symm]
  · exact State.engine_setEngine_ne s _ ne.symm

section
variable {s u : State} {k : Nat} {x : Inbox} {j : Job} (taken : takePacket s k (fun q => q.kind == kWack) = some (x, u))
include taken

theorem exec_wackReceive_held (held : inHeld s (regionOfBlock (blockOfEngine (x.pkt.fld 76 7))) = true) :
    exec (.wackReceive k) s = .next s := by
  rw [← inHeld_of_takePacket taken] at held
  show execWackReceive k s = _
  unfold execWackReceive
  rw [taken]
  exact congrArg next (if_pos held)

variable (free : inHeld s (regionOfBlock (blockOfEngine (x.pkt.fld 76 7))) = false)
include free

/-- A WACK owed to a copy that has ended is that one's (log entry 48). -/
theorem exec_wackReceive_stale (stale : (s.engine (x.pkt.fld 76 7)).stale.contains x.pkt.src = true) : ∃ own,
    exec (.wackReceive k) s = .next (countRx (u.setEngine (x.pkt.fld 76 7) { s.engine (x.pkt.fld 76 7) with
      stale := (s.engine (x.pkt.fld 76 7)).stale.erase x.pkt.src }) own x.pkt) := by
  rw [← inHeld_of_takePacket taken] at free
  refine ⟨ownerOfBlock u (blockOfEngine (x.pkt.fld 76 7)), ?_⟩
  show execWackReceive k s = _
  simp only [execWackReceive, taken, free, engine_of_takePacket taken, stale, Bool.false_eq_true, if_false, if_true]
  rfl

variable (due : (s.engine (x.pkt.fld 76 7)).stale.contains x.pkt.src = false) (runs : (s.engine (x.pkt.fld 76 7)).run = some j)
  (remote : j.desc.remote = true) (source : j.desc.modId = x.pkt.src) (sent : (s.engine (x.pkt.fld 76 7)).fin = true)
include due runs remote source sent

/-- The WACK that a running copy waits for completes it, or ends it with code 0x7 (10 R226, R231). -/
theorem exec_wackReceive_ends : ∃ own, exec (.wackReceive k) s = .next (
    if x.pkt.sub = 0 then
      copyDone (copyContribute (countRx u own x.pkt) j.desc (s.engine (x.pkt.fld 76 7)).contrib) (x.pkt.fld 76 7) j
    else copyEnd (recallPackets ((countRx u own x.pkt).setEngine (x.pkt.fld 76 7) { s.engine (x.pkt.fld 76 7) with fin := false })
      (x.pkt.fld 76 7)) (x.pkt.fld 76 7) j 7 0 j.desc.dstA) := by
  rw [← inHeld_of_takePacket taken] at free
  refine ⟨ownerOfBlock u (blockOfEngine (x.pkt.fld 76 7)), ?_⟩
  show execWackReceive k s = _
  simp only [execWackReceive, taken, free, engine_of_takePacket taken, due, runs, remote, source, sent, beq_self_eq_true, Bool.and_self,
    Bool.false_eq_true, if_false, if_true]
  rfl

end

/-- A copy that its WACK ends with code 0x7. -/
theorem copyEnd_recalled (s : State) {i : Nat} (j : Job) (y : Engine) (addr : Nat) :
    let t := copyEnd (recallPackets (s.setEngine i y) i) i j 7 0 addr
    (t.engine i).run = none ∧ (t.engine i).err = true ∧ (t.engine i).done = y.done ∧
      (y.err = false → (t.engine i).ceerr = BitVec.ofNat 64 (7 + j.num.toNat % 2 ^ 48 * 65536)) := by
  intro t
  obtain ⟨fin, stale, stopped⟩ := remoteStop_engine (recallPackets (s.setEngine i y) i) i j
  have engine : (recallPackets (s.setEngine i y) i).engine i = y := State.engine_setEngine_same s i y
  rw [engine] at stopped
  have ended : t.engine i = Engine.failed { y with fin := fin, stale := stale } j 7 0 addr := by
    rw [← stopped]
    exact copyEnd_engine _ _ _ _ _ _
  rw [ended]
  refine ⟨?_, ?_, ?_, fun clear => (Engine.failed_noted (by exact clear) j 0 addr (by decide)).1⟩
  all_goals rw [Engine.failed_eq]

/-- Settles O31: each packet of a remote copy does what its command's cases say, by who may take it and who waits for it. -/
theorem remoteCopiesComplete : Obligations.RemoteCopiesComplete := by
  intro s u k x p b e j chk
  refine ⟨?send, fun taken => ?receive, fun taken => ?finish, fun v => finishOwner_of_taken, fun taken => ?wack⟩
  case send =>
    intro i d runs unsent remote cvt sfmt dfmt rows planes _ free ready source
    exact exec_copyComplete_remote chk runs unsent remote ⟨cvt, sfmt, dfmt, rows, planes⟩ free ready source
  case receive =>
    intro a n key held
    refine ⟨exec_remoteWriteReceive_held chk taken, fun free refused => ?_, fun free unrefused outside => ?_,
      fun free unrefused accepted mem => ?_⟩
    · rw [exec_remoteWriteReceive_free chk taken free, writeArrives_dropped s chk refused]
    · rw [exec_remoteWriteReceive_free chk taken free, writeArrives_refused s chk unrefused outside]
    · refine ⟨fun off => ?_, fun powered => ?_⟩
      · rw [exec_remoteWriteReceive_free chk taken free, writeArrives_unpowered s chk unrefused accepted
          (by rw [extentReady_of_takePacket taken]; exact off)]
      · rw [← extentReady_of_takePacket taken] at powered
        have writes (chk : Check) := (exec_remoteWriteReceive_free chk taken free).trans
          (congrArg next (writeArrives_writes s chk unrefused accepted powered))
        have inbox (chk : Check) :
            (agentStore (mergeCheck (writeTaken u x p) ((List.range x.pkt.pay.length).map (x.pkt.fld 16 48 + ·)) chk)
            (x.pkt.fld 16 48) x.pkt.pay).inbox = u.inbox := by
          rw [agentStore_inbox _ _ _ mem, mergeCheck_inbox, writeTaken_inbox]
        refine ⟨⟨_, writes chk, inbox chk⟩, fun coherent => ⟨_, writes .clean, inbox .clean, ?_⟩⟩
        have coherent' : Coherent u := (takePacket_keeps Coherent (fun _ _ => rfl) taken).mpr coherent
        obtain ⟨bytes, elsewhere, wtaken, engines, sigs⟩ := agentStore_writeTaken u p mem coherent'
        have byte (y : Nat) : memByte u y = memByte s y := takePacket_keeps (memByte · y) (fun _ _ => rfl) taken
        have entered : u.wtaken = s.wtaken := takePacket_keeps State.wtaken (fun _ _ => rfl) taken
        have hall : (u.part p).hall = (s.part p).hall := takePacket_keeps (fun s => (s.part p).hall) (fun _ _ => rfl) taken
        rw [mergeCheck_clean]
        exact ⟨bytes, fun y out => (elsewhere y out).trans (byte y), by rw [wtaken, entered, hall],
          engines.trans (takePacket_keeps State.engines (fun _ _ => rfl) taken),
          sigs.trans (takePacket_keeps State.sigs (fun _ _ => rfl) taken)⟩
  case finish =>
    intro key u'
    refine ⟨exec_remoteWriteFinish_refused taken, exec_remoteWriteFinish_unowned taken, fun unrefused owned enabled pip => ?_⟩
    intro g
    obtain ⟨sigs, wtaken, byte⟩ := signalled_finish u x p
    have hall : (u.part p).hall = (s.part p).hall := takePacket_keeps (fun s => (s.part p).hall) (fun _ _ => rfl) taken
    rw [hall] at sigs
    refine ⟨_, _, exec_remoteWriteFinish_signals taken unrefused owned enabled pip, sigs, wtaken, fun elsewhere => ?_,
      fun m => (byte m).trans (takePacket_keeps (memByte · m) (fun _ _ => rfl) taken)⟩
    rw [sigs, finishContribute_sigs, countRx_sigs, takePacket_keeps State.sigs (fun _ _ => rfl) taken]
    rw [countRx_engine, engine_of_takePacket taken, countRx_modId, takePacket_keeps State.modId (fun _ _ => rfl) taken]
    exact elsewhere
  case wack =>
    intro i y
    refine ⟨exec_wackReceive_held taken, fun free => ⟨fun stale => ?_,
      fun due runs remote source sent => ⟨fun accepted => ?_, fun refused => ?_⟩⟩⟩
    · obtain ⟨own, ends⟩ := exec_wackReceive_stale taken free stale
      refine ⟨_, ends, ?_, fun n ne => ?_⟩
      · rw [countRx_engine, State.engine_setEngine_same]
      · rw [countRx_engine, State.engine_setEngine_ne _ _ ne.symm, engine_of_takePacket taken]
    all_goals obtain ⟨own, ends⟩ := exec_wackReceive_ends taken free due runs remote source sent
    · rw [if_pos accepted] at ends
      refine ⟨_, ends, ?_, fun n ne => ?_⟩
      · rw [copyDone_engine_same, copyContribute_engine, countRx_engine, engine_of_takePacket taken]
      · rw [copyDone_engine_ne _ _ ne, copyContribute_engine, countRx_engine, engine_of_takePacket taken]
    · rw [if_neg refused] at ends
      exact ⟨_, ends, copyEnd_recalled _ _ _ _⟩

end Sys2Proof.Machine
end

section
/-! PROOFS. Barrier messages sent (11 R259 to R262), records at a block's collector (21 R472), and a pip misused (11 R248, R260): O36. -/

namespace Sys2Proof.Machine

/-! ### What messages leave alone -/

/-- A part of the state that does not see the messages and packets on their way, nor what the partitions count of them. -/
structure IgnoresMessages {α : Type} (f : State → α) : Prop where
  count : ∀ (s : State) p k n, f (countPart s p k n) = f s
  packets : ∀ (s : State) inbox ports bridgeq, f { s with inbox := inbox, ports := ports, bridgeq := bridgeq } = f s
  bars : ∀ (s : State) bmsgs, f { s with bmsgs := bmsgs } = f s

theorem ignoresMessages_cells : IgnoresMessages State.cells := ⟨countPart_cells, fun _ _ _ _ => rfl, fun _ _ => rfl⟩

theorem ignoresMessages_ctl : IgnoresMessages State.ctl := ⟨countPart_ctl, fun _ _ _ _ => rfl, fun _ _ => rfl⟩

theorem ignoresMessages_breps : IgnoresMessages State.breps := ⟨countPart_breps, fun _ _ _ _ => rfl, fun _ _ => rfl⟩

section
variable {α : Type} {f : State → α}
  (packets : ∀ (s : State) inbox ports bridgeq, f { s with inbox := inbox, ports := ports, bridgeq := bridgeq } = f s)
include packets

theorem sendOut_port_keeps (s : State) (port : Nat) (pkt : Packet) : f (sendOut s (some port) pkt) = f s := by
  unfold sendOut
  split
  · exact packets s s.inbox s.ports _
  · unfold sendVia
    dsimp only
    split
    · exact queueAt_keeps f packets s _ _ _
    · exact queueAt_keeps f packets s _ _ _
    · exact dropPacket_keeps f packets s _ _

/-- A packet that a home sends through a port changes only the partitions' counts and the packets on their way (11 R259, 15 R367). -/
theorem sendTree_keeps (count : ∀ (s : State) p k n, f (countPart s p k n) = f s) (s : State) (kind : BKind) (port c p : Nat)
    (gen : W16) : f (sendTree s kind port c p gen) = f s := by
  rw [sendTree, sendOut_port_keeps packets, countTx, count, count]

end

theorem sendTree_cells (s : State) (kind : BKind) (port c p : Nat) (gen : W16) : (sendTree s kind port c p gen).cells = s.cells :=
  sendTree_keeps (fun _ _ _ _ => rfl) countPart_cells s kind port c p gen

theorem sendTree_bmsgs (s : State) (kind : BKind) (port c p : Nat) (gen : W16) : (sendTree s kind port c p gen).bmsgs = s.bmsgs :=
  sendTree_keeps (fun _ _ _ _ => rfl) countPart_bmsgs s kind port c p gen

section
variable {α : Type} {f : State → α} (ignores : IgnoresMessages f)
include ignores

theorem IgnoresMessages.sendTo (s : State) (kind : BKind) (rcv home p : Nat) (gen : W16) : f (sendTo s kind rcv home p gen) = f s := by
  unfold Machine.sendTo
  split
  · unfold sendBar countBridge
    dsimp only
    rw [ignores.bars]
    split
    · exact ignores.count _ _ _ _
    · rfl
  · exact sendTree_keeps ignores.packets ignores.count _ _ _ _ _ _

theorem IgnoresMessages.answerAll (s : State) (kind : BKind) (home p : Nat) (es : List (W16 × Nat)) :
    f (answerAll s kind home p es) = f s := by
  induction es generalizing s with
  | nil => rfl
  | cons e es ih => exact (ih _).trans (ignores.sendTo _ _ _ _ _ _)

end

theorem answerAll_cell (s : State) (kind : BKind) (home p : Nat) (es : List (W16 × Nat)) (n : Nat) :
    (answerAll s kind home p es).cell n = s.cell n := by
  rw [State.cell, ignoresMessages_cells.answerAll]
  rfl

/-! ### The messages of a home -/

/-- The barrier message that a home sends to a cell of this module. -/
def barTo (kind : BKind) (home p : Nat) (hall : Byte) (gen : W16) (rcv : Nat) : BMsg :=
  ⟨kind, home, Fin.ofNat 512 rcv, BitVec.ofNat 6 p, gen, hall, 0⟩

section
variable (s : State) (kind : BKind) (home p : Nat)

theorem sendTo_bmsgs (rcv : Nat) (gen : W16) : (sendTo s kind rcv home p gen).bmsgs =
    s.bmsgs ++ if rcv < 512 then [barTo kind home p (s.cell home).hall gen rcv] else [] := by
  unfold sendTo
  split
  · exact sendBar_bmsgs _ _ _ _ _ _ _
  · rw [sendTree_bmsgs, List.append_nil]

/-- Of the answers, those to cells are barrier messages on this module; the others leave as packets. -/
theorem answerAll_bmsgs (es : List (W16 × Nat)) : (answerAll s kind home p es).bmsgs =
    s.bmsgs ++ (es.filter (·.2 < 512)).map fun e => barTo kind home p (s.cell home).hall e.1 e.2 := by
  induction es generalizing s with
  | nil => exact (List.append_nil _).symm
  | cons e es ih =>
    have cell : (sendTo s kind e.2 home p e.1).cell home = s.cell home := by
      rw [State.cell, ignoresMessages_cells.sendTo]
      rfl
    rw [answerAll, ih, cell, sendTo_bmsgs, List.filter_cons]
    by_cases here : e.2 < 512 <;> simp [here]

/-- One message to each of some receivers is an answer to each of them. -/
theorem sendAllTo_eq_answerAll (gen : W16) (ts : List Nat) :
    sendAllTo s kind home p gen ts = answerAll s kind home p (ts.map (gen, ·)) := by
  induction ts generalizing s with
  | nil => rfl
  | cons t ts ih => exact ih _

theorem sendAllTo_bmsgs (gen : W16) (ts : List Nat) : (sendAllTo s kind home p gen ts).bmsgs =
    s.bmsgs ++ (ts.filter (· < 512)).map (barTo kind home p (s.cell home).hall gen) := by
  rw [sendAllTo_eq_answerAll, answerAll_bmsgs, List.filter_map, List.map_map]
  rfl

theorem sendAllTo_cell (gen : W16) (ts : List Nat) (n : Nat) : (sendAllTo s kind home p gen ts).cell n = s.cell n := by
  rw [sendAllTo_eq_answerAll, answerAll_cell]

end

/-- Answers that all go to cells of this module. -/
theorem answerAll_bmsgs_here (s : State) (kind : BKind) (home p : Nat) {es : List (W16 × Nat)} (here : ∀ e ∈ es, e.2 < 512) :
    (answerAll s kind home p es).bmsgs = s.bmsgs ++ es.map fun e => barTo kind home p (s.cell home).hall e.1 e.2 := by
  rw [answerAll_bmsgs, List.filter_eq_self.mpr fun e mem => decide_eq_true (here e mem)]

/-! ### One pip changed -/

/-- What happened to the cells and the barrier messages of this module: pip `p` of cell `c` has become `y`, and `more` was sent. -/
structure Becomes (s t : State) (c p : Nat) (y : Pip) (more : List BMsg) : Prop where
  pip : (t.cell c).pip p = y
  cell : t.cell c = { s.cell c with pips := (t.cell c).pips }
  others : ∀ d : Nat, d ≠ c → t.cell d = s.cell d
  bmsgs : t.bmsgs = s.bmsgs ++ more

section
variable {s t u : State} {c p : Nat} {y : Pip} {more : List BMsg}

theorem setPipAt_cell (s : State) (c p : Nat) (y : Pip) : (setPipAt s c p y).cell c = (s.cell c).setPip p y :=
  State.cell_updCell_same s c fun k => k.setPip p y

theorem setPipAt_bmsgs (s : State) (c p : Nat) (y : Pip) : (setPipAt s c p y).bmsgs = s.bmsgs := rfl

theorem becomes_setPipAt (s : State) (c p : Nat) (y : Pip) : Becomes s (setPipAt s c p y) c p y [] where
  pip := by rw [setPipAt_cell, Cell.pip_setPip_same]
  cell := by rw [setPipAt_cell]; rfl
  others _ ne := s.cell_updCell_ne (fun k => k.setPip p y) ne.symm
  bmsgs := (List.append_nil _).symm

theorem Becomes.sends (becomes : Becomes s t c p y []) (cells : u.cells = t.cells) (bmsgs : u.bmsgs = t.bmsgs ++ more) :
    Becomes s u c p y more := by
  have cell (d : Nat) : u.cell d = t.cell d := by rw [State.cell, cells]; rfl
  obtain ⟨pip, rest, others, sent⟩ := becomes
  refine ⟨?_, ?_, fun d ne => ?_, ?_⟩
  · rw [cell, pip]
  · rw [cell]; exact rest
  · rw [cell]; exact others d ne
  · rw [bmsgs, sent, List.append_nil]

end

/-! ### Misuse -/

theorem blockOfCell_lt (c : CellId) : blockOfCell c.val < 64 := by unfold blockOfCell; omega

theorem reportBlockVia_reports {b : Nat} (inside : b < 64) (s : State) (origin reporter : W32) (cls : W16) (own : Option Nat)
    (detail : W64) : ∃ r : Report, reportBlockVia s b origin reporter cls own detail = { s with breps := queueReport r s.breps } ∧
      r.origin = origin ∧ r.cls = cls ∧ r.sev = sevOf cls ∧ r.detail = detail ∧ r.count = 1 :=
  ⟨_, dif_pos inside, rfl, rfl, rfl, rfl, rfl⟩

section
variable (s : State) (c : CellId) (p : Nat)

theorem pipMisuse_reports : ∃ r : Report, pipMisuse s c.val p =
    { setPipAt s c.val p { (s.cell c.val).pip p with misuse := true } with breps := queueReport r s.breps } ∧
      r.cls = 6 ∧ r.sev = 0 ∧ r.count = 1 ∧ r.origin = originCell s c.val := by
  obtain ⟨r, reports, origin, cls, sev, -, count⟩ := reportBlockVia_reports (blockOfCell_lt c)
    (setPipAt s c.val p { (s.cell c.val).pip p with misuse := true }) (originCell s c.val) (originCell s c.val) 6
    (ownerOfBlock s (blockOfCell c.val)) (detailWord 0 p 0)
  exact ⟨r, reports, cls, sev, count, origin⟩

theorem becomes_pipMisuse : Becomes s (pipMisuse s c.val p) c.val p { (s.cell c.val).pip p with misuse := true } [] := by
  obtain ⟨r, eq, -⟩ := pipMisuse_reports s c p
  rw [eq]
  exact (becomes_setPipAt s c.val p _).sends rfl (List.append_nil _).symm

/-- A signal to a pip in member or home mode (11 R248). -/
theorem countSignal_misused {s : State} {c p : Nat} (n : W16) (awake : (s.block (blockOfCell c)).st ≠ .dormant)
    (mode : ((s.cell c).pip p).mode ≠ 0) : countSignal s c p n = pipMisuse s c p := by
  rw [countSignal, if_neg awake]
  exact if_pos mode

end

/-- Settles O36: a signal that passes its check at a pip that is no count pip is misuse of the pip, and nothing else. -/
theorem pipMisuseDiscardsSignal : Obligations.PipMisuseDiscardsSignal := by
  unfold Obligations.PipMisuseDiscardsSignal
  intro s n g c p x at_ first plain free hall awake mode
  obtain ⟨parts, same, run⟩ := exec_pipSignalArrive_passes at_ first free (.inl ⟨plain, hall⟩)
  obtain rfl := same plain
  have misused := countSignal_misused (s := { s with sigs := s.sigs.eraseIdx n }) g.amount awake mode
  obtain ⟨pip, cell, others, -⟩ := becomes_pipMisuse { s with sigs := s.sigs.eraseIdx n } g.cell p
  obtain ⟨r, eq, cls, sev, count, origin⟩ := pipMisuse_reports { s with sigs := s.sigs.eraseIdx n } g.cell p
  refine ⟨_, r, run.trans (congrArg Host.Outcome.next misused), pip, fun q ne => ?_, others, cell, ?_, ?_, ?_, cls, sev, count, origin⟩
  all_goals rw [eq]
  · show ((setPipAt _ c p _).cell c).pip q = _
    rw [setPipAt_cell, Cell.pip_setPip_ne _ _ ne]
    rfl
  all_goals rfl

end Sys2Proof.Machine
end

section
/-! PROOFS. What a barrier message does at a home and at a member (11 R258 to R263). -/

namespace Sys2Proof.Machine

/-! ### Waits that a pip meets -/

section
variable (s : State) (c p : Nat)

/-- A wait is checked: nothing happens, or it completes and its block wakes (11 R249, 20 R456). -/
theorem checkWait_cases : checkWait s c p = s ∨ ∃ w, (s.cell c).wait = some w ∧ w.pip = p ∧
    checkWait s c p = wakeBlock (s.setCell c ((s.cell c).completed w)) (blockOfCell c) := by
  by_cases met : ∃ w, (s.cell c).wait = some w ∧ w.pip = p ∧ w.ok ((s.cell c).pip p) = true
  · obtain ⟨w, waits, rfl, ok⟩ := met
    exact .inr ⟨w, waits, rfl, checkWait_met waits ok⟩
  · exact .inl (checkWait_unmet fun w waits here => Bool.eq_false_iff.mpr fun ok => met ⟨w, waits, here, ok⟩)

theorem checkWait_bmsgs : (checkWait s c p).bmsgs = s.bmsgs := by
  rcases checkWait_cases s c p with same | ⟨w, -, -, completes⟩
  · rw [same]
  · rw [completes, wakeBlock_frame]
    rfl

theorem checkWait_hall : ((checkWait s c p).cell c).hall = (s.cell c).hall := by
  rcases checkWait_cases s c p with same | ⟨w, -, -, completes⟩
  · rw [same]
  · rw [completes, wakeBlock_cell, State.cell_setCell_same]
    rfl

/-- Completing a wait takes from COUNT, or moves GEN and ARR; the barrier's other fields are as they were (11 R253, R258). -/
theorem checkWait_pip : let y := ((checkWait s c p).cell c).pip p
    y = { (s.cell c).pip p with count := y.count, gen := y.gen, arr := y.arr } := by
  rcases checkWait_cases s c p with same | ⟨w, -, rfl, completes⟩
  · rw [same]
  · rw [completes, wakeBlock_cell, State.cell_setCell_same, Cell.completed_pip]
    cases w.kind <;> rfl

end

/-! ### Generations -/

/-- A home's pip in the generation after one that has completed (11 R259). -/
def Pip.nextGen (x : Pip) : Pip := { x with cmpl := x.cmpl + 1, a0 := x.a1, a1 := 0, wd := [] }

section
variable {s : State} {home p : Nat}

/-- A generation completes, and the next one has not all its arrivals yet (11 R259). -/
theorem completeGen_once (fuel : Nat) (ahead : ((s.cell home).pip p).a1.toNat ≠ ((s.cell home).pip p).npart) :
    completeGen s home p (fuel + 1) =
      answerAll (checkWait (setPipAt (sendAllTo s .release home p ((s.cell home).pip p).cmpl (releaseTargets ((s.cell home).pip p) home))
        home p ((s.cell home).pip p).nextGen) home p) .refused home p ((s.cell home).pip p).wd := by
  rw [completeGen]
  dsimp only
  rw [sendAllTo_cell]
  exact if_neg ahead

/-- The cells are told of the completed generation, and the withdrawals still waiting are refused (11 R259, R261). -/
theorem completeGen_releases (fuel : Nat) (ahead : ((s.cell home).pip p).a1.toNat ≠ ((s.cell home).pip p).npart)
    (here : ∀ e ∈ ((s.cell home).pip p).wd, e.2 < 512) :
    let x := (s.cell home).pip p
    let t := completeGen s home p (fuel + 1)
    let y := (t.cell home).pip p
    y = { x.nextGen with count := y.count, gen := y.gen, arr := y.arr } ∧
      t.bmsgs = s.bmsgs ++ ((releaseTargets x home).filter (· < 512)).map (barTo .release home p (s.cell home).hall x.cmpl) ++
        x.wd.map fun e => barTo .refused home p (s.cell home).hall e.1 e.2 := by
  intro x t y
  have run : t = _ := completeGen_once fuel ahead
  generalize state : setPipAt (sendAllTo s .release home p x.cmpl (releaseTargets x home)) home p x.nextGen = u at run
  have cell : u.cell home = (s.cell home).setPip p x.nextGen := by rw [← state, setPipAt_cell, sendAllTo_cell]
  have pip : y = ((checkWait u home p).cell home).pip p := by
    show (t.cell home).pip p = _
    rw [run, answerAll_cell]
  constructor
  · have kept := checkWait_pip u home p
    rw [cell, Cell.pip_setPip_same] at kept
    rw [pip]
    exact kept
  · have sent : u.bmsgs = (sendAllTo s .release home p x.cmpl (releaseTargets x home)).bmsgs := by
      rw [← state, setPipAt_bmsgs]
    rw [run, answerAll_bmsgs_here _ _ _ _ here, checkWait_bmsgs, checkWait_hall, cell, sent, sendAllTo_bmsgs]
    rfl

end

/-! ### Arrivals at a home -/

/-- A change of the pip of which the parent is told (11 R259, R261). -/
theorem becomes_passedOn (s : State) (home p : Nat) (y : Pip) (kind : BKind) (q : Nat) (gen : W16) :
    Becomes s (sendTree (setPipAt s home p y) kind q home p gen) home p y [] :=
  (becomes_setPipAt s home p y).sends (sendTree_cells _ _ _ _ _ _) ((sendTree_bmsgs _ _ _ _ _ _).trans (List.append_nil _).symm)

theorem Pip.npart_lt (x : Pip) : x.npart < 1024 := Nat.mod_lt _ (by decide)

/-- A home's pip that counts one arrival more for the present generation (11 R259). -/
def Pip.counted (x : Pip) : Pip := { x with a0 := x.a0 + 1 }

theorem Pip.counted_a0 {x : Pip} (room : x.a0.toNat + 1 ≤ x.npart) : x.counted.a0.toNat = x.a0.toNat + 1 := by
  have := x.npart_lt
  rw [Pip.counted]
  bv_omega

section
variable {s : State} {home p : Nat} {gen : W16}

theorem homeArrival_now (now : gen = ((s.cell home).pip p).cmpl) : homeArrival s home p gen =
    if ((s.cell home).pip p).counted.a0.toNat = ((s.cell home).pip p).npart then
      match ((s.cell home).pip p).parent with
      | none => completeGen (setPipAt s home p ((s.cell home).pip p).counted) home p 2
      | some q => sendTree (setPipAt s home p ((s.cell home).pip p).counted) .arrival q home p gen
    else setPipAt s home p ((s.cell home).pip p).counted := by
  rw [homeArrival]
  exact if_pos now

theorem homeArrival_counts (now : gen = ((s.cell home).pip p).cmpl)
    (short : ((s.cell home).pip p).a0.toNat + 1 < ((s.cell home).pip p).npart) :
    homeArrival s home p gen = setPipAt s home p ((s.cell home).pip p).counted := by
  rw [homeArrival_now now, if_neg (by rw [Pip.counted_a0 short.le]; omega)]

theorem homeArrival_next (ahead : gen = ((s.cell home).pip p).cmpl + 1) :
    homeArrival s home p gen = setPipAt s home p { (s.cell home).pip p with a1 := ((s.cell home).pip p).a1 + 1 } := by
  rw [homeArrival]
  dsimp only
  rw [if_neg (by bv_omega), if_pos ahead]

theorem homeArrival_misused (past : gen ≠ ((s.cell home).pip p).cmpl) (other : gen ≠ ((s.cell home).pip p).cmpl + 1) :
    homeArrival s home p gen = pipMisuse s home p := by
  rw [homeArrival]
  dsimp only
  rw [if_neg past, if_neg other]

/-- An arrival of the present generation that does not complete it at a root raises A0; the last one goes on to the parent. -/
theorem becomes_homeArrival (now : gen = ((s.cell home).pip p).cmpl)
    (unfinished : ((s.cell home).pip p).a0.toNat + 1 < ((s.cell home).pip p).npart ∨
      (((s.cell home).pip p).a0.toNat + 1 = ((s.cell home).pip p).npart ∧ ((s.cell home).pip p).parent ≠ none)) :
    Becomes s (homeArrival s home p gen) home p ((s.cell home).pip p).counted [] := by
  rcases unfinished with short | ⟨last, inner⟩
  · rw [homeArrival_counts now short]
    exact becomes_setPipAt _ _ _ _
  · obtain ⟨q, parent⟩ := Option.ne_none_iff_exists'.mp inner
    rw [homeArrival_now now, if_pos ((Pip.counted_a0 last.le).trans last), parent]
    exact becomes_passedOn _ _ _ _ _ _ _

/-- The last arrival completes the generation at a root, which tells the cells (11 R259). -/
theorem homeArrival_completes (now : gen = ((s.cell home).pip p).cmpl)
    (last : ((s.cell home).pip p).a0.toNat + 1 = ((s.cell home).pip p).npart) (root : ((s.cell home).pip p).parent = none)
    (ahead : ((s.cell home).pip p).a1.toNat ≠ ((s.cell home).pip p).npart) (noWd : ((s.cell home).pip p).wd = []) :
    let x := (s.cell home).pip p
    let t := homeArrival s home p gen
    let y := (t.cell home).pip p
    y.cmpl = x.cmpl + 1 ∧ y.a0 = x.a1 ∧ y.a1 = 0 ∧
      t.bmsgs = s.bmsgs ++ ((releaseTargets x home).filter (· < 512)).map (barTo .release home p (s.cell home).hall x.cmpl) := by
  intro x
  have gone : x.counted.wd = [] := noWd
  obtain ⟨pip, bmsgs⟩ := completeGen_releases (s := setPipAt s home p x.counted) (home := home) (p := p) 1
    (by rw [setPipAt_cell, Cell.pip_setPip_same]; exact ahead)
    (by rw [setPipAt_cell, Cell.pip_setPip_same, gone]; exact nofun)
  rw [setPipAt_cell, Cell.pip_setPip_same] at pip bmsgs
  rw [gone, List.map_nil, List.append_nil, setPipAt_bmsgs] at bmsgs
  rw [homeArrival_now now, if_pos ((Pip.counted_a0 last.le).trans last), root]
  exact ⟨congrArg Pip.cmpl pip, congrArg Pip.a0 pip, congrArg Pip.a1 pip, bmsgs⟩

end

/-! ### Withdrawals at a home -/

section
variable {s : State} {home p asker : Nat} {gen : W16}

/-- A change of the pip that is answered to a cell of this module. -/
theorem becomes_answered (here : asker < 512) (y : Pip) (kind : BKind) :
    Becomes s (sendTo (setPipAt s home p y) kind asker home p gen) home p y [barTo kind home p (s.cell home).hall gen asker] := by
  refine (becomes_setPipAt s home p y).sends (ignoresMessages_cells.sendTo _ _ _ _ _ _) ?_
  rw [sendTo_bmsgs, if_pos here, setPipAt_cell]
  rfl

theorem becomes_homeWithdraw_now (here : asker < 512) (now : gen = ((s.cell home).pip p).cmpl)
    (kept : ((s.cell home).pip p).parent = none ∨ ((s.cell home).pip p).a0.toNat < ((s.cell home).pip p).npart) :
    Becomes s (homeWithdraw s home p asker gen) home p { (s.cell home).pip p with a0 := ((s.cell home).pip p).a0 - 1 }
      [barTo .accepted home p (s.cell home).hall gen asker] := by
  have held : ¬ (((s.cell home).pip p).parent.isSome = true ∧ ((s.cell home).pip p).npart ≤ ((s.cell home).pip p).a0.toNat) := by
    rintro ⟨inner, passed⟩
    rcases kept with root | short
    · rw [root] at inner; cases inner
    · omega
  rw [homeWithdraw]
  dsimp only
  rw [if_neg (by bv_omega), if_pos now, if_neg held]
  exact becomes_answered here _ _

/-- A withdrawal whose arrivals were passed on waits for the parent's answer (11 R261, R263). -/
theorem becomes_homeWithdraw_passed (now : gen = ((s.cell home).pip p).cmpl) (inner : ((s.cell home).pip p).parent ≠ none)
    (passed : ((s.cell home).pip p).npart ≤ ((s.cell home).pip p).a0.toNat) :
    Becomes s (homeWithdraw s home p asker gen) home p { (s.cell home).pip p with
      wd := ((s.cell home).pip p).wd ++ [(gen, asker)]
      wdDue := if ((s.cell home).pip p).wd = [] then moduleDue s 20 else ((s.cell home).pip p).wdDue } [] := by
  rw [homeWithdraw]
  dsimp only
  rw [if_neg (by bv_omega), if_pos now, if_pos ⟨Option.isSome_iff_ne_none.mpr inner, passed⟩]
  split
  · exact becomes_passedOn _ _ _ _ _ _ _
  · exact becomes_setPipAt _ _ _ _

theorem becomes_homeWithdraw_next (here : asker < 512) (ahead : gen = ((s.cell home).pip p).cmpl + 1) :
    Becomes s (homeWithdraw s home p asker gen) home p { (s.cell home).pip p with a1 := ((s.cell home).pip p).a1 - 1 }
      [barTo .accepted home p (s.cell home).hall gen asker] := by
  rw [homeWithdraw]
  dsimp only
  rw [if_neg (by bv_omega), if_neg (by bv_omega), if_pos ahead]
  exact becomes_answered here _ _

/-- A withdrawal of the generation before is refused (11 R261). -/
theorem becomes_homeWithdraw_past (here : asker < 512) (past : gen = ((s.cell home).pip p).cmpl - 1) :
    Becomes s (homeWithdraw s home p asker gen) home p ((s.cell home).pip p) [barTo .refused home p (s.cell home).hall gen asker] := by
  rw [homeWithdraw]
  dsimp only
  rw [if_pos past]
  have still : Becomes s s home p ((s.cell home).pip p) [] := ⟨rfl, rfl, fun _ _ => rfl, (List.append_nil _).symm⟩
  refine still.sends (ignoresMessages_cells.sendTo _ _ _ _ _ _) ?_
  rw [sendTo_bmsgs, if_pos here]

end

/-! ### The parent's answer -/

/-- A home's pip after its parent has accepted the withdrawals that wait (11 R261). -/
def Pip.withdrawn (x : Pip) : Pip := { x with wd := [], a0 := BitVec.ofNat 10 (x.a0.toNat - x.wd.length) }

theorem becomes_parentAnswer (s : State) (home p : Nat) : Becomes s (parentAnswer s home p true) home p ((s.cell home).pip p).withdrawn
    ((((s.cell home).pip p).wd.filter (·.2 < 512)).map fun e => barTo .accepted home p (s.cell home).hall e.1 e.2) := by
  refine (becomes_setPipAt s home p ((s.cell home).pip p).withdrawn).sends (ignoresMessages_cells.answerAll _ _ _ _ _) ?_
  refine (answerAll_bmsgs (setPipAt s home p ((s.cell home).pip p).withdrawn) .accepted home p ((s.cell home).pip p).wd).trans ?_
  rw [setPipAt_cell]
  rfl

theorem parentAnswer_keeps {α : Type} {f : State → α} (ignores : IgnoresMessages f)
    (cells : ∀ (s : State) n x, f (s.setCell n x) = f s) (s : State) (home p : Nat) (accepted : Bool) :
    f (parentAnswer s home p accepted) = f s :=
  (ignores.answerAll _ _ _ _ _).trans (cells _ _ _)

/-! ### At a member -/

/-- A member's pip after the release of its generation (11 R259). -/
def Pip.released (x : Pip) : Pip := { x with cmpl := x.cmpl + 1 }

section
variable {s : State} {c p : Nat} {gen : W16}

theorem memberRelease_now (mode : ((s.cell c).pip p).mode = 1) (now : gen = ((s.cell c).pip p).cmpl) :
    memberRelease s c p gen = checkWait (setPipAt s c p ((s.cell c).pip p).released) c p := by
  rw [memberRelease, if_pos ⟨mode, now⟩, now]
  rfl

theorem memberRelease_misused (bad : ((s.cell c).pip p).mode ≠ 1 ∨ gen ≠ ((s.cell c).pip p).cmpl) :
    memberRelease s c p gen = pipMisuse s c p :=
  if_neg fun ⟨mode, now⟩ => bad.elim (· mode) (· now)

theorem memberRelease_releases (mode : ((s.cell c).pip p).mode = 1) (now : gen = ((s.cell c).pip p).cmpl) :
    (((memberRelease s c p gen).cell c).pip p).cmpl = ((s.cell c).pip p).cmpl + 1 ∧ (memberRelease s c p gen).bmsgs = s.bmsgs := by
  have kept := checkWait_pip (setPipAt s c p ((s.cell c).pip p).released) c p
  rw [setPipAt_cell, Cell.pip_setPip_same] at kept
  rw [memberRelease_now mode now, checkWait_bmsgs]
  exact ⟨congrArg Pip.cmpl kept, rfl⟩

theorem memberRelease_idle (mode : ((s.cell c).pip p).mode = 1) (now : gen = ((s.cell c).pip p).cmpl) (idle : (s.cell c).wait = none) :
    memberRelease s c p gen = setPipAt s c p ((s.cell c).pip p).released := by
  rw [memberRelease_now mode now]
  refine checkWait_unmet fun w waits _ => ?_
  rw [setPipAt_cell] at waits
  exact absurd (waits.symm.trans idle) nofun

theorem Pip.barDone_whole {x : Pip} (split : x.split = false) : x.barDone = decide ((x.cmpl - (x.gen + 1)).toNat < 32768) := by
  rw [Pip.barDone, split]
  rfl

/-- A PIPBAR that waits for the generation just released completes (11 R258). -/
theorem Wait.ok_released {w : Wait} {x : Pip} (bar : w.kind = .bar) (unsent : w.wd = .none) (split : x.split = false)
    (gen : x.gen = x.cmpl) : w.ok x.released = true := by
  have done : x.released.barDone = true := by
    rw [Pip.barDone_whole (by exact split)]
    exact decide_eq_true (by rw [Pip.released, gen, BitVec.sub_self]; decide)
  rw [Wait.ok, bar, unsent, done]
  rfl

theorem memberRelease_completes {w : Wait} (mode : ((s.cell c).pip p).mode = 1) (now : gen = ((s.cell c).pip p).cmpl)
    (waits : (s.cell c).wait = some w) (on : w.pip = p) (bar : w.kind = .bar) (unsent : w.wd = .none)
    (split : ((s.cell c).pip p).split = false) (due : ((s.cell c).pip p).gen = ((s.cell c).pip p).cmpl) :
    let k := (memberRelease s c p gen).cell c
    k.wait = none ∧ k.pc = (s.cell c).pc + 4 ∧ (k.pip p).gen = ((s.cell c).pip p).gen + 1 ∧ (k.pip p).arr = false := by
  subst on
  have cell : (memberRelease s c w.pip gen).cell c = ((s.cell c).setPip w.pip ((s.cell c).pip w.pip).released).completed w := by
    rw [memberRelease_now mode now, checkWait_met, wakeBlock_cell, State.cell_setCell_same, setPipAt_cell]
    · rw [setPipAt_cell]; exact waits
    · rw [setPipAt_cell, Cell.pip_setPip_same]; exact Wait.ok_released bar unsent split due
  intro k
  have pip : k.pip w.pip = ((s.cell c).pip w.pip).released.complete .bar := by
    rw [← bar]
    show ((memberRelease s c w.pip gen).cell c).pip w.pip = _
    rw [cell, Cell.completed_pip, Cell.pip_setPip_same]
  rw [pip]
  refine ⟨?_, ?_, rfl, rfl⟩ <;> simp only [k, cell] <;> rfl

/-- Interrupts do not see the pips of the cell, nor its wait (03 R64, R66). -/
theorem dueInterrupt_setCell (s : State) (c : Nat) (wait : Option Wait) (pips : Tab Pip) :
    dueInterrupt (s.setCell c { s.cell c with wait := wait, pips := pips }) c = dueInterrupt s c := by
  unfold dueInterrupt kipend
  rw [State.cell_setCell_same]
  rfl

/-- KCAUSE of a pip-wait timeout: class 0x09, with the pip as DETAIL (03 R65, 11 R255). -/
theorem Cell.timeout_kcause (k : Cell) (d : Byte) (addr : W64) :
    (k.trapEntry false 0x09 d addr).kcause = 9 + 256 * d.zeroExtend 32 := by
  refine BitVec.eq_of_toNat_eq ?_
  simp [Cell.trapEntry, b2n]
  omega

section
variable {w : Wait} (waits : (s.cell c).wait = some w) (on : w.pip = p) (bar : w.kind = .bar) (sent : w.wd = .sent)
include waits on bar sent

/-- An accepted withdrawal of a PIPBAR that no interrupt asked for ends it with its timeout (11 R255, R261). -/
theorem memberAnswer_accepted (calm : dueInterrupt s c = none) (nest : (s.cell c).kstate.getLsbD 0 = false) :
    memberAnswer s c p true = wakeBlock (s.setCell c (({ (s.cell c).setPip p { (s.cell c).pip p with arr := false } with
      wait := none } : Cell).trapEntry false 0x09 (BitVec.ofNat 8 p) 0)) (blockOfCell c) := by
  have due := (dueInterrupt_setCell s c none ((s.cell c).setPip p { (s.cell c).pip p with arr := false }).pips).trans calm
  simp only [memberAnswer, waits, on, bar, sent, and_self, if_true]
  simp only [Cell.setPip] at due ⊢
  rw [due]
  dsimp only
  rw [endTimeout_eq (by rw [State.cell_setCell_same]; exact nest), State.updCell, State.cell_setCell_same, State.setCell_setCell]

/-- A refused withdrawal leaves the PIPBAR waiting for its release (11 R261). -/
theorem memberAnswer_refused (unmet : ((s.cell c).pip p).barDone = false) :
    memberAnswer s c p false = s.setCell c { s.cell c with wait := some { w with wd := .refused } } := by
  simp only [memberAnswer, waits, on, bar, sent, and_self, if_true, Bool.false_eq_true, if_false]
  refine checkWait_unmet fun v same _ => ?_
  rw [State.cell_setCell_same] at same ⊢
  cases same
  simp only [Wait.ok]
  exact Bool.and_eq_false_iff.mpr (.inl unmet)

end

end

end Sys2Proof.Machine
end

section
/-! PROOFS. Barrier messages that arrive (11 R259 to R264), withdrawals whose link is lost (11 R263, 21 R478), and O35. -/

namespace Sys2Proof.Machine

/-! ### Messages of this module -/

/-- A barrier message of this module that is the next of its sender's, waits for no arbiter and passes its checks (11 R259, R260, R264). -/
structure BarAdmitted (s : State) (n : Nat) (m : BMsg) : Prop where
  at_ : s.bmsgs[n]? = some m
  first : ∀ j < n, ∀ y, s.bmsgs[j]? = some y → sameBar m y = false
  here : m.src < 512
  free : barHeld s m = false
  hall : hallOk (hallOfBlock s (blockOfCell m.cell.val)) m.hall = true
  awake : (s.block (blockOfCell m.cell.val)).st ≠ .dormant

section
variable {s : State} {n : Nat} {m : BMsg} (admitted : BarAdmitted s n m)
include admitted

theorem BarAdmitted.takeBar {want : BKind → Bool} (wanted : want m.kind = true) :
    takeBar s n want = barrierLocal { s with bmsgs := s.bmsgs.eraseIdx n } m := by
  obtain ⟨at_, first, here, free, hall, awake⟩ := admitted
  have inside : n < s.bmsgs.length := (List.getElem?_eq_some_iff.mp at_).1
  have self : sameBar m m = true := by simp [sameBar]
  have accepts : ¬ (m.src < 512 ∧ hallOk (hallOfBlock s (blockOfCell m.cell.val)) m.hall = false) := by
    rintro ⟨-, refuses⟩
    rw [hall] at refuses
    cases refuses
  rw [Machine.takeBar, if_pos inside, takeMsg_first at_ self first]
  dsimp only
  rw [wanted, free, barrierArrive]
  exact (if_neg accepts).trans ((if_neg awake).trans (if_pos here))

theorem BarAdmitted.arrival (kind : m.kind = .arrival) : exec (.barrierArrival n) s = next (
    let t : State := { s with bmsgs := s.bmsgs.eraseIdx n }
    if ((s.cell m.cell.val).pip m.pip.toNat).mode = 2 then homeArrival t m.cell.val m.pip.toNat m.gen
    else pipMisuse t m.cell.val m.pip.toNat) := by
  refine congrArg next ((admitted.takeBar (by rw [kind]; rfl)).trans ?_)
  rw [barrierLocal, kind]
  rfl

theorem BarAdmitted.release (kind : m.kind = .release) : exec (.barrierRelease n) s =
    next (memberRelease { s with bmsgs := s.bmsgs.eraseIdx n } m.cell.val m.pip.toNat m.gen) := by
  refine congrArg next ((admitted.takeBar (by rw [kind]; rfl)).trans ?_)
  rw [barrierLocal, kind]

theorem BarAdmitted.withdraw (kind : m.kind = .withdraw) (mode : ((s.cell m.cell.val).pip m.pip.toNat).mode = 2) :
    exec (.barrierWithdrawal n) s =
      next (homeWithdraw { s with bmsgs := s.bmsgs.eraseIdx n } m.cell.val m.pip.toNat m.src m.gen) := by
  refine congrArg next ((admitted.takeBar (by rw [kind]; rfl)).trans ?_)
  rw [barrierLocal, kind]
  exact if_pos mode

theorem BarAdmitted.accepted (kind : m.kind = .accepted) : exec (.withdrawalAnswer n) s =
    next (memberAnswer { s with bmsgs := s.bmsgs.eraseIdx n } m.cell.val m.pip.toNat true) := by
  refine congrArg next ((admitted.takeBar (by rw [kind]; rfl)).trans ?_)
  rw [barrierLocal, kind]

theorem BarAdmitted.refused (kind : m.kind = .refused) : exec (.withdrawalAnswer n) s =
    next (memberAnswer { s with bmsgs := s.bmsgs.eraseIdx n } m.cell.val m.pip.toNat false) := by
  refine congrArg next ((admitted.takeBar (by rw [kind]; rfl)).trans ?_)
  rw [barrierLocal, kind]

end

/-! ### Messages of other modules -/

section
variable {s u : State} {n : Nat} {y : Inbox} {want : BKind → Bool} (beyond : s.bmsgs.length ≤ n)
  (taken : takePacket s (n - s.bmsgs.length) (fun q => q.kind == kTree && want (treeKind q.sub)) = some (y, u))
include beyond taken

theorem takeBar_tree_held (held : msgHeld s 8192 (treeMsg y.pkt y.via).cell.val = true) : takeBar s n want = s := by
  rw [takeBar, if_neg (Nat.not_lt.mpr beyond), taken]
  exact if_pos held

/-- A barrier message of another module is counted to the partition of its cell, and acts there (11 R262, 16 R392). -/
theorem takeBar_tree (free : msgHeld s 8192 (treeMsg y.pkt y.via).cell.val = false)
    (awake : (s.block (blockOfCell (treeMsg y.pkt y.via).cell.val)).st ≠ .dormant) :
    ∃ parts, takeBar s n want = barrierTree { s with inbox := u.inbox, parts := parts } (treeMsg y.pkt y.via) := by
  have through : ¬ (treeMsg y.pkt y.via).src < 512 := Nat.not_lt.mpr (Nat.le_add_right _ _)
  refine ⟨(countRx u (ownerOfBlock u (blockOfCell (treeMsg y.pkt y.via).cell.val)) y.pkt).parts, ?_⟩
  rw [takeBar, if_neg (Nat.not_lt.mpr beyond), taken]
  dsimp only
  rw [free, if_neg Bool.false_ne_true, countRx_frame, (takePacket_some taken).2, barrierArrive]
  exact (if_neg fun h => through h.1).trans ((if_neg awake).trans (if_neg through))

end

section
variable {s : State} {m : BMsg}

/-- At a home that does not name its port, or carries another job's tag, a message is misuse (11 R260). -/
theorem barrierTree_misused (foreign : treeOk ((s.cell m.cell.val).pip m.pip.toNat) m = false) :
    barrierTree s m = pipMisuse s m.cell.val m.pip.toNat :=
  if_pos (by rw [foreign]; rfl)

variable (ok : treeOk ((s.cell m.cell.val).pip m.pip.toNat) m = true)
include ok

theorem barrierTree_arrival (kind : m.kind = .arrival) : barrierTree s m = homeArrival s m.cell.val m.pip.toNat m.gen := by
  simp only [barrierTree, ok, kind, Bool.not_true, Bool.false_eq_true, if_false]

theorem barrierTree_release (kind : m.kind = .release) (now : m.gen = ((s.cell m.cell.val).pip m.pip.toNat).cmpl) :
    barrierTree s m = completeGen s m.cell.val m.pip.toNat 2 := by
  simp only [barrierTree, ok, kind, now, beq_self_eq_true, Bool.true_or, Bool.not_true, Bool.false_eq_true, if_false, if_true]

theorem barrierTree_accepted (kind : m.kind = .accepted) (now : m.gen = ((s.cell m.cell.val).pip m.pip.toNat).cmpl) :
    barrierTree s m = parentAnswer s m.cell.val m.pip.toNat true := by
  simp only [barrierTree, ok, kind, now, beq_self_eq_true, Bool.true_or, Bool.not_true, Bool.false_eq_true, if_false, if_true]

end

/-! ### The loss of a link -/

theorem State.atTimer_port (s : State) (n q : Nat) : (s.atTimer n).port q = s.port q := rfl

section
variable {s : State} {c : CellId} {p : Fin 48}

theorem exec_withdrawalRideExpire_idle (none : ((s.cell c.val).pip p.val).wd = [] ∨ ((s.cell c.val).pip p.val).parent = none) :
    exec (.withdrawalRideExpire c p) s = .next s := by
  show execWithdrawalRideExpire c p s = _
  unfold execWithdrawalRideExpire
  dsimp only
  split
  · next wd parent =>
    rcases none with noWd | noParent
    · rw [noWd] at wd; cases wd
    · rw [noParent] at parent; cases parent
  · rfl

theorem exec_withdrawalRideExpire {q : Nat} (waiting : ((s.cell c.val).pip p.val).wd ≠ [])
    (parent : ((s.cell c.val).pip p.val).parent = some q) : exec (.withdrawalRideExpire c p) s =
      next (parentAnswer (withdrawalLost (s.atTimer (timeTo s.ctl.timer ((s.cell c.val).pip p.val).wdDue)) c.val p.val
        (peerOrigin (s.port q).partner.toNat)) c.val p.val true) := by
  obtain ⟨e, es, wd⟩ := List.exists_cons_of_ne_nil waiting
  show execWithdrawalRideExpire c p s = _
  simp only [execWithdrawalRideExpire, wd, parent]
  rw [moduleTimeTo_eq, State.atTimer_port]

/-- The record of a lost peer names the port toward the parent (11 R263, 21 R478). -/
theorem withdrawalLost_reports {q : Nat} (parent : ((s.cell c.val).pip p.val).parent = some q) (peer : W32) :
    ∃ r : Report, withdrawalLost s c.val p.val peer = { s with breps := queueReport r s.breps } ∧ r.cls = 0x10 ∧ r.origin = peer ∧
      r.detail = detailWord 0 q 0 := by
  rw [withdrawalLost, parent]
  obtain ⟨r, reports, origin, cls, -, detail, -⟩ := reportBlockVia_reports (blockOfCell_lt c) s peer (originCell s c.val) 0x10
    (ownerOfBlock s (blockOfCell c.val)) (detailWord 0 q 0)
  exact ⟨r, reports, cls, origin, detail⟩

/-- Withdrawals that get no answer count as accepted (11 R263), whatever the module timer has come to. -/
theorem lostWithdrawals_settle {q : Nat} (now : Nat) (peer : W32) (parent : ((s.cell c.val).pip p.val).parent = some q)
    (here : ∀ e ∈ ((s.cell c.val).pip p.val).wd, e.2 < 512) :
    let x := (s.cell c.val).pip p.val
    let t := parentAnswer (withdrawalLost (s.atTimer now) c.val p.val peer) c.val p.val true
    (t.cell c.val).pip p.val = x.withdrawn ∧ t.ctl.timer = now ∧
      t.bmsgs = s.bmsgs ++ x.wd.map (fun e => barTo .accepted c.val p.val (s.cell c.val).hall e.1 e.2) ∧
      ∃ r : Report, t.breps = queueReport r s.breps ∧ r.cls = 0x10 ∧ r.origin = peer ∧ r.detail = detailWord 0 q 0 := by
  obtain ⟨r, reports, record⟩ := withdrawalLost_reports (s := s.atTimer now) parent peer
  obtain ⟨pip, -, -, bmsgs⟩ := becomes_parentAnswer { s.atTimer now with breps := queueReport r s.breps } c.val p.val
  intro x t
  have run : t = _ := congrArg (parentAnswer · c.val p.val true) reports
  rw [run]
  refine ⟨pip, ?_, bmsgs.trans ?_, r, ?_, record⟩
  · exact congrArg Ctl.timer (parentAnswer_keeps ignoresMessages_ctl (fun _ _ _ => rfl) _ _ _ _)
  · have all : x.wd.filter (·.2 < 512) = x.wd := List.filter_eq_self.mpr fun e mem => decide_eq_true (here e mem)
    exact congrArg (fun l : List (W16 × Nat) => s.bmsgs ++ l.map fun e => barTo .accepted c.val p.val (s.cell c.val).hall e.1 e.2) all
  · exact parentAnswer_keeps ignoresMessages_breps (fun _ _ _ => rfl) _ _ _ _

end

/-! ### O35 -/

/-- Settles O35: a barrier message that is admitted is what its home or its member does with it, on this module or through a port, and
withdrawals without an answer are the parent's acceptance with a record. -/
theorem barriersComplete : Obligations.BarriersComplete := by
  unfold Obligations.BarriersComplete
  refine ⟨fun s n m => ?here, fun s u n y i want => ?tree, fun s c p q => ?lost⟩
  case here =>
    intro c p k x rest becomes reply at_ first here free hall awake
    have admitted : BarAdmitted s n m := ⟨at_, first, here, free, hall, awake⟩
    let u : State := { s with bmsgs := rest }
    have shows {i : Instr} {t : State} {y : Pip} {more : List BMsg} (run : exec i s = next t)
        (b : Becomes u t c p y more) : becomes i y more := ⟨t, run, b.pip, b.cell, b.others, b.bmsgs⟩
    refine ⟨fun kind => ?arrival, fun kind => ?release, fun kind mode => ?withdraw, fun w waits on bar sent => ?answer⟩
    case arrival =>
      have run := admitted.arrival kind
      refine ⟨fun mode now unfinished => ?_, fun mode now last _ root ahead noWd => ?_, fun mode next => ?_, fun bad => ?_⟩
      · rw [if_pos mode] at run
        exact shows run (becomes_homeArrival (s := u) now (unfinished.imp_right fun h => ⟨h.1, h.2.2⟩))
      · rw [if_pos mode] at run
        exact ⟨_, run, homeArrival_completes (s := u) now last root ahead noWd⟩
      · rw [if_pos mode, homeArrival_next (s := u) next] at run
        exact shows run (becomes_setPipAt _ _ _ _)
      · refine shows (t := pipMisuse u c p) (run.trans (congrArg _ ?_)) (becomes_pipMisuse _ m.cell p)
        dsimp only
        split
        · next mode =>
          obtain ⟨past, other⟩ := bad.resolve_left (not_not.mpr mode)
          exact homeArrival_misused (s := u) past other
        · rfl
    case release =>
      have run := admitted.release kind
      refine ⟨fun mode now => ?_, fun bad => ?_⟩
      · obtain ⟨cmpl, bmsgs⟩ := memberRelease_releases (s := u) mode now
        refine ⟨_, run, cmpl, bmsgs, fun idle => ?_, fun w => memberRelease_completes (s := u) mode now⟩
        rw [memberRelease_idle (s := u) mode now idle, setPipAt_cell]
        exact ⟨Cell.pip_setPip_same _ _ _, rfl⟩
      · rw [memberRelease_misused (s := u) bad] at run
        exact shows run (becomes_pipMisuse _ m.cell p)
    case withdraw =>
      have run := admitted.withdraw kind mode
      exact ⟨fun now kept => shows run (becomes_homeWithdraw_now (s := u) here now kept),
        fun now inner passed => shows run (becomes_homeWithdraw_passed (s := u) now inner passed),
        fun ahead => shows run (becomes_homeWithdraw_next (s := u) here ahead),
        fun past => shows run (becomes_homeWithdraw_past (s := u) here past)⟩
    case answer =>
      refine ⟨fun kind calm nest => ?_, fun kind unmet => ?_⟩
      · have run := admitted.accepted kind
        rw [memberAnswer_accepted (s := u) waits on bar sent calm nest] at run
        refine ⟨_, run, ?_⟩
        rw [wakeBlock_cell, State.cell_setCell_same, wakeBlock_frame]
        exact ⟨rfl, rfl, Cell.timeout_kcause _ _ _, Cell.pip_setPip_same _ _ _, rfl⟩
      · have run := admitted.refused kind
        rw [memberAnswer_refused (s := u) waits on bar sent unmet] at run
        exact ⟨_, run, State.cell_setCell_same _ _ _, rfl⟩
  case tree =>
    intro m c p x which beyond taken
    have run : exec i s = next (takeBar s n want) := by
      rcases which with ⟨rfl, rfl⟩ | ⟨rfl, rfl⟩ | ⟨rfl, rfl⟩ | ⟨rfl, rfl⟩ <;> rfl
    refine ⟨fun held => run.trans (congrArg next (takeBar_tree_held beyond taken held)), fun awake free => ?_⟩
    obtain ⟨parts, arrives⟩ := takeBar_tree beyond taken free awake
    rw [arrives] at run
    let v : State := { s with inbox := u.inbox, parts := parts }
    refine ⟨fun foreign => ?misused, fun ok kind now short => ?arrival, fun ok kind now ahead here => ?release,
      fun ok kind now => ?accepted⟩
    case misused =>
      obtain ⟨r, reports, -⟩ := pipMisuse_reports v m.cell p
      obtain ⟨pip, cell, -, -⟩ := becomes_pipMisuse v m.cell p
      rw [barrierTree_misused (s := v) foreign] at run
      exact ⟨_, run, pip, by rw [reports]; rfl, cell⟩
    case arrival =>
      rw [barrierTree_arrival (s := v) ok kind, homeArrival_counts (s := v) now short] at run
      exact ⟨_, run, (becomes_setPipAt _ _ _ _).pip, rfl⟩
    case release =>
      rw [barrierTree_release (s := v) ok kind now] at run
      obtain ⟨pip, bmsgs⟩ := completeGen_releases (s := v) 1 ahead here
      exact ⟨_, run, congrArg Pip.cmpl pip, congrArg Pip.a0 pip, congrArg Pip.wd pip, bmsgs⟩
    case accepted =>
      rw [barrierTree_accepted (s := v) ok kind now] at run
      exact ⟨_, run, (becomes_parentAnswer _ c p).pip⟩
  case lost =>
    intro x
    refine ⟨exec_withdrawalRideExpire_idle, fun waiting parent here counted => ?_⟩
    obtain ⟨pip, timer, bmsgs, r, breps, cls, origin, detail⟩ := lostWithdrawals_settle (timeTo s.ctl.timer x.wdDue)
      (peerOrigin (s.port q).partner.toNat) parent here
    refine ⟨_, exec_withdrawalRideExpire waiting parent, congrArg Pip.wd pip, timer, ?_, bmsgs, r, breps, cls, origin, detail⟩
    rw [pip]
    exact (BitVec.toNat_ofNat _ _).trans (Nat.mod_eq_of_lt (Nat.lt_of_le_of_lt (Nat.sub_le _ _) x.a0.isLt))

end Sys2Proof.Machine
end

section
/-! PROOFS. A pass over two groups of one element (12 R270, R271, R274), and O38. -/

namespace Sys2Proof.Machine

/-- The strand of one bead that leaves X0 in the parameter: X0 + 0 (05 R114, R116). -/
def copyX0 : Strand := ⟨0, false, [], [⟨0x15, 12, 24, 15, 15⟩]⟩

/-- One element, its parameter at 0x10000000000, X0 1. -/
def plainGroup : PGroup := ⟨[0x10000000000, 0, 0, 0, 0, 0, 0, 1], [], 1⟩

/-- One element, its parameter at 0x10000000100, X0 1, frozen by bit 0 of the byte at 0x10000000000 (FRZ). The bitmap of a group spans
COUNT / 8 bytes, here none, so that this byte lies in none of the group's extents. -/
def frozenGroup : PGroup := ⟨[0x10000000100, 0, 0, 0, 0x10000000000 + 2 ^ 48, 0, 0, 1], [], 1⟩

/-- Setter context 0 runs a pass of that strand over the two groups. -/
def frozenState : State :=
  { State.reset with
    blocks := [(0, { Block.reset with st := .run, group := .on })]
    setters := [(0, { SetCtx.reset with enable := true, st := .run, strand := some copyX0, groups := [plainGroup, frozenGroup] })] }

theorem frozenState_l1d (c : Nat) : (frozenState.cell c).l1d.lines = [] := by
  simp [State.cell, frozenState, State.reset, Tab.get, Cell.reset, Cache.reset]

theorem frozenState_l2 (b : Nat) : (frozenState.block b).l2.lines = [] := by
  by_cases h : 0 = b <;> simp [State.block, frozenState, Tab.get, h, Block.reset, Cache.reset]

theorem frozenState_coherent : Coherent frozenState := by
  refine ⟨fun c => ?_, fun b => ?_⟩
  · rw [frozenState_l1d]; exact List.forall_mem_nil _
  · rw [frozenState_l2]; exact List.forall_mem_nil _

theorem frozenState_unpoisoned : Unpoisoned frozenState := by
  refine ⟨rfl, fun c => ?_, fun b => ?_⟩
  · rw [frozenState_l1d]; exact List.forall_mem_nil _
  · rw [frozenState_l2]; exact List.forall_mem_nil _

/-- The pass leaves the second parameter as it was: the first group's output, 1, has frozen its element. -/
theorem exec_frozenState :
    ∃ t, exec (.setterPassComplete 0 .clean) frozenState = .next t ∧ memByte t 0x10000000100 = 0 :=
  ⟨_, rfl, by decide⟩

/-- Refutes O38. The clause about the bytes that a pass leaves asks that no two extents meet, but not that COUNT be a multiple of 8 (12
R270 has 32): otherwise the last byte of a freeze bitmap lies in no extent, and a group before may write it. In `frozenState` the first group's
output freezes the second group's element, which is not frozen before the pass, so that 1 should stand in its parameter. -/
theorem not_setterPassesComplete : ¬ Obligations.SetterPassesComplete := by
  rintro ⟨-, passes⟩
  obtain ⟨completes, -⟩ := passes frozenState 0 0 copyX0 (by decide) rfl rfl
  obtain ⟨t, runs, written, -⟩ := completes frozenState_coherent frozenState_unpoisoned (by decide) (by decide) (by decide) (by decide)
    (by decide)
  have parameter := written frozenGroup (by decide) 0 (by decide) (12, 0, 0) (by decide) (by decide)
  have one : memByte t 0x10000000100 = 1 := Option.some.inj ((congrArg List.head? parameter).trans (by decide))
  obtain ⟨u, runs', kept⟩ := exec_frozenState
  have same : u = t := by rw [runs'] at runs; injection runs
  rw [← same, kept] at one
  exact absurd one (by decide)

end Sys2Proof.Machine
end

section
/-! PROOFS. The registers that control a Setter context (12 R268, R269, R279, R280, R291): what a write to them does, and O37. -/

namespace Sys2Proof.Machine

theorem ctxIx_lt (m : CtlId) (j : CtxId) : ctxIx m j < 192 := by unfold ctxIx; omega

theorem ctlOfCtx_ctxIx (m : CtlId) (j : CtxId) : ctlOfCtx (ctxIx m j) = m.val := by unfold ctlOfCtx ctxIx; omega

/-! ### What a context's own registers do not reach -/

section
variable (s : State) (i j : Nat) (x y : SetCtx)

theorem memBytes_setSetter (a n : Nat) : memBytes (s.setSetter j y) a n = memBytes s a n := memBytes_congr fun _ _ => rfl

theorem setterPlace_setSetter (kind a n : Nat) : setterPlace (s.setSetter j y) i x kind a n = setterPlace s i x kind a n := rfl

theorem setterReadErr_setSetter (a n : Nat) : setterReadErr (s.setSetter j y) x a n = setterReadErr s x a n := rfl

theorem setterStrand_setSetter : setterStrand (s.setSetter j y) i x = setterStrand s i x := by
  simp only [setterStrand, memBytes_setSetter, setterPlace_setSetter, setterReadErr_setSetter]

/-- The checks of an enable look at the other contexts of the module controller alone (12 R269). -/
theorem setterCheck1_setSetter : setterCheck1 (s.setSetter i y) i x = setterCheck1 s i x := by
  have other (c : Nat) : (let k := 8 * ctlOfCtx i + c
      k != i && ((s.setSetter i y).setter k).enable && ((s.setSetter i y).setter k).job == x.job) =
      (let k := 8 * ctlOfCtx i + c
       k != i && (s.setter k).enable && (s.setter k).job == x.job) := by
    dsimp only
    by_cases same : 8 * ctlOfCtx i + c = i
    · rw [same, bne_self_eq_false, Bool.false_and, Bool.false_and]; rfl
    · rw [State.setter_setSetter_ne s y (Ne.symm same)]
  rw [setterCheck1, setterCheck1, funext other, State.setSetter_slot]

theorem wakeGroup_setSetter (a : Nat) : wakeGroup (s.setSetter i y) a = (wakeGroup s a).setSetter i y := by
  unfold wakeGroup
  split
  · simp only [State.setSetter_block]
    split <;> rfl
  · rfl
  · rfl

theorem wakeExtent_setSetter (a n : Nat) : wakeExtent (s.setSetter i y) a n = (wakeExtent s a n).setSetter i y := by
  unfold wakeExtent
  generalize pageStarts a n = starts
  induction starts generalizing s with
  | nil => rfl
  | cons b bs ih => rw [List.foldl_cons, wakeGroup_setSetter, ih]; rfl

end

/-! ### Errors -/

section
variable (s : State) (i code detail group addr : Nat) (fault : Bool)

/-- The context after an error (12 R288). -/
theorem setterError_setter_same :
    let x := s.setter i
    let y := (setterError s i code detail group addr fault).setter i
    y.st = (if fault then .fault else .off) ∧ y.enable = fault ∧ y.err = true ∧ y.verdicts = x.verdicts ∧
      (x.err = false → y.sjerr = BitVec.ofNat 64 (code + detail * 256 + group % 4096 * 65536 + x.step.toNat * 2 ^ 28)) := by
  unfold setterError
  dsimp only
  cases (s.setter i).err <;> split <;> simp

end

/-! ### Verdicts -/

section
variable {s : State} {i : Nat} (w : W16)

theorem setterVerdict_room (on : (s.setter i).st ≠ .off) (works : (s.setter i).st ≠ .fault) (room : (s.setter i).verdicts.length < 2) :
    setterVerdict s i w = s.setSetter i { s.setter i with verdicts := (s.setter i).verdicts ++ [w] } := by
  unfold setterVerdict
  dsimp only
  split
  case h_1 isOff => exact absurd isOff on
  case h_2 isFault => exact absurd isFault works
  all_goals exact if_pos room

theorem setterVerdict_overrun (waits : (s.setter i).st = .wait) (full : 2 ≤ (s.setter i).verdicts.length) :
    setterVerdict s i w = setterError s i 8 0 0 0 true := by
  simp only [setterVerdict, waits, if_neg (Nat.not_lt.mpr full)]

end

/-! ### SJCTL and SJLVERD -/

section
variable (s : State) (i : Nat)

theorem sjctlWrite_enable : sjctlWrite s i 1 1 = setterEnableOp (s.setSetter i (s.setter i)) i := rfl

theorem sjctlWrite_disable : sjctlWrite s i 0 1 = setterDisableOp (s.setSetter i (s.setter i)) i 0 := rfl

theorem sjctlWrite_arm : sjctlWrite s i 2 2 = s.setSetter i { s.setter i with ctlArm := true, armed := true } := by
  have write : sjctlWrite s i 2 2 = setterArmOp (s.setSetter i { s.setter i with ctlArm := true }) i := rfl
  rw [write, setterArmOp, State.setter_setSetter_same, State.setSetter_setSetter]

/-- The word that a write to SJLVERD leaves: TAINT in bit 0, SAT in bit 1 (12 R268). -/
def lverdOf (taint sat : Bool) : BitVec 2 := BitVec.ofNat 2 (b2n taint + 2 * b2n sat)

/-- A write to SJLVERD stores TAINT and SAT, and delivers them where VSRC and ENABLE are 1 (12 R279). -/
theorem sjlverdWrite_eq (taint sat : Bool) : sjlverdWrite s i (BitVec.ofNat 64 (b2n taint + 2 * b2n sat)) 3 =
    if (s.setter i).vsrc && (s.setter i).enable then
      setterVerdict (s.setSetter i { s.setter i with lverd := lverdOf taint sat }) i ((lverdOf taint sat).zeroExtend 16)
    else s.setSetter i { s.setter i with lverd := lverdOf taint sat } := by
  have mask : (3 : W64).truncate 2 = BitVec.allOnes 2 := by decide
  have word : (BitVec.ofNat 64 (b2n taint + 2 * b2n sat)).truncate 2 = lverdOf taint sat := by
    cases taint <;> cases sat <;> rfl
  have delivered : localVerdict ((BitVec.ofNat 64 (b2n taint + 2 * b2n sat)).getLsbD 0)
      ((BitVec.ofNat 64 (b2n taint + 2 * b2n sat)).getLsbD 1) = (lverdOf taint sat).zeroExtend 16 := by
    cases taint <;> cases sat <;> rfl
  rw [sjlverdWrite, mask, word, masked_allOnes, delivered]

end

/-! ### ENABLE -/

section
variable {s : State} {i : Nat} (disabled : (s.setter i).enable = false) (live : ctlRetired s (ctlOfCtx i) = false)
include disabled live

/-- An enable that a check before the strand image refuses (12 R269). -/
theorem setterEnableOp_refused {code detail : Nat} (bad : setterCheck1 s i (s.setter i) = some (code, detail)) :
    setterEnableOp s i = setterError s i code detail 0 0 false := by
  simp [setterEnableOp, disabled, live, bad]

/-- An enable that passes every check (12 R269). -/
theorem setterEnableOp_passed {st : Strand} (good : setterCheck1 s i (s.setter i) = none)
    (image : setterStrand (wakeExtent s ((s.setter i).strandA.toNat % 2 ^ 48) 8) i (s.setter i) = .ok st)
    (some : 1 ≤ (s.setter i).ngrp) (few : (s.setter i).ngrp ≤ 4096) :
    let u := wakeExtent s ((s.setter i).strandA.toNat % 2 ^ 48) 8
    setterEnableOp s i = u.setSetter i { u.setter i with enable := true, st := .wait, strand := .some st } := by
  have range : ¬ ((s.setter i).ngrp = 0 ∨ 4096 < (s.setter i).ngrp) := by omega
  simp only [setterEnableOp, disabled, live, good, image, if_neg range]
  rfl

end

/-- A disable of a context that waits (12 R291). -/
theorem setterDisableOp_waiting {s : State} {i : Nat} (detail : Nat) (enabled : (s.setter i).enable = true)
    (waits : (s.setter i).st = .wait) : setterDisableOp s i detail =
      s.setSetter i { s.setter i with enable := false, st := .off, verdicts := [], armed := false } := by
  have calm : ¬ ((s.setter i).st = .run ∨ (s.setter i).st = .check) := by rw [waits]; decide
  simp only [setterDisableOp, enabled, if_neg calm, State.setter_setSetter_same, State.setSetter_setSetter]
  rfl

/-! ### The commands of the controls -/

section
variable {s : State} {h : Byte} (m : CtlId) (j : CtxId)

/-- A context's registers accept its owner's hallmark (01 R27). -/
theorem regAccess_setterPage_owned (owned : hallOk ((s.setter (ctxIx m j)).own.truncate 8) h = true) {off : Nat} (inPage : off < 0x1000)
    (f : State → State) : regAccess s h (setterPage (ctxIx m j) off) f = f s := by
  rw [regAccess, ctlAccepts_setterPage s h (ctxIx_lt m j) inPage, owned, if_pos rfl]

theorem regAccess_setterPage_foreign (foreign : hallOk ((s.setter (ctxIx m j)).own.truncate 8) h = false) {off : Nat}
    (inPage : off < 0x1000) (f : State → State) :
    regAccess s h (setterPage (ctxIx m j) off) f = refusedAtUnit s (setterPage (ctxIx m j) off) := by
  rw [regAccess, ctlAccepts_setterPage s h (ctxIx_lt m j) inPage, foreign, if_neg Bool.false_ne_true]

end

/-- Settles O37: each control is one register write, made by its owner and refused to others; an enable is its checks and then its effect,
a local verdict the value of SJLVERD and then its delivery. -/
theorem setterControlsComplete : Obligations.SetterControlsComplete := by
  intro s h m j i x u
  refine ⟨fun owned => ?_, fun foreign taint sat => ?_⟩
  · have does {off : Nat} (inPage : off < 0x1000) (f : State → State) := congrArg next (regAccess_setterPage_owned m j owned inPage f)
    have self : (s.setSetter i x).setter i = x := s.setter_setSetter_same i x
    have unit : ctlOfCtx i = m.val := ctlOfCtx_ctxIx m j
    refine ⟨?enabled, ?refused, ?disabled, ?armed, fun taint sat => ?verdict⟩
    case enabled =>
      intro st disabled live good image some few
      have woken := wakeExtent_setSetter s i x (x.strandA.toNat % 2 ^ 48) 8
      have opens := setterEnableOp_passed (s := s.setSetter i x) (i := i) (st := st) (by rw [self]; exact disabled) (by rw [unit]; exact live)
        (by rw [self, setterCheck1_setSetter]; exact good) (by rw [self, woken, setterStrand_setSetter]; exact image)
        (by rw [self]; exact some) (by rw [self]; exact few)
      simp only [self, woken, State.setter_setSetter_same, State.setSetter_setSetter] at opens
      exact (does (by decide) _).trans (congrArg next opens)
    case refused =>
      intro code detail disabled live bad
      have refuses := setterEnableOp_refused (s := s.setSetter i x) (i := i) (code := code) (detail := detail) (by rw [self]; exact disabled)
        (by rw [unit]; exact live) (by rw [self, setterCheck1_setSetter]; exact bad)
      obtain ⟨st, enable, err, -, sjerr⟩ := setterError_setter_same (s.setSetter i x) i code detail 0 0 false
      refine ⟨_, (does (by decide) _).trans (congrArg next refuses), enable, st, err, fun first => ?_⟩
      rw [self] at sjerr
      rw [sjerr first]
      simp
    case disabled =>
      intro enabled waits
      have stops := setterDisableOp_waiting (s := s.setSetter i x) (i := i) 0 (by rw [self]; exact enabled) (by rw [self]; exact waits)
      rw [self, State.setSetter_setSetter] at stops
      exact (does (by decide) _).trans (congrArg next stops)
    case armed => exact (does (by decide) _).trans (congrArg next (sjctlWrite_arm s i))
    case verdict =>
      have writes := (does (off := 0x40) (by decide) fun s => sjlverdWrite s i _ 3).trans (congrArg next (sjlverdWrite_eq s i taint sat))
      have read := s.setter_setSetter_same i { x with lverd := lverdOf taint sat }
      refine ⟨fun source enabled on works room => ?_, fun source enabled waits full => ?_, fun ignored => ?_⟩
      · have joins := setterVerdict_room (i := i) ((lverdOf taint sat).zeroExtend 16) (by rw [read]; exact on) (by rw [read]; exact works)
          (by rw [read]; exact room)
        rw [if_pos (by rw [source, enabled]; rfl), joins, read, State.setSetter_setSetter] at writes
        exact writes
      · have overruns := setterVerdict_overrun (i := i) ((lverdOf taint sat).zeroExtend 16) (by rw [read]; exact waits)
          (by rw [read]; exact full)
        rw [if_pos (by rw [source, enabled]; rfl), overruns] at writes
        obtain ⟨st, -, err, verdicts, sjerr⟩ :=
          setterError_setter_same (s.setSetter i { x with lverd := lverdOf taint sat }) i 8 0 0 0 true
        rw [read] at verdicts sjerr
        refine ⟨_, writes, st, err, verdicts, fun first => ?_⟩
        rw [sjerr first, BitVec.toNat_ofNat]
        omega
      · have off : ¬ (x.vsrc && x.enable) = true := by simpa [Bool.and_eq_true, or_iff_not_imp_left] using ignored
        exact writes.trans (congrArg next (if_neg off))
  · exact ⟨congrArg next (regAccess_setterPage_foreign m j foreign (by decide) _),
      congrArg next (regAccess_setterPage_foreign m j foreign (by decide) _),
      congrArg next (regAccess_setterPage_foreign m j foreign (by decide) _),
      congrArg next (regAccess_setterPage_foreign m j foreign (by decide) _)⟩

end Sys2Proof.Machine
end

section
/-! PROOFS. What a pass of a Setter leaves alone where it is stopped (12 R290): the units beside memory and its own context. -/

namespace Sys2Proof.Machine

/-! ### Memory written and powered -/

theorem countPart_offCaches (s : State) (p : Option Nat) (k n : Nat) : (countPart s p k n).offCaches = s.offCaches := by
  rw [countPart_frame]
  rfl

theorem wakeExtent_offCaches (s : State) (a n : Nat) : (wakeExtent s a n).offCaches = s.offCaches :=
  wakeExtent_keeps State.offCaches (fun _ _ _ _ => rfl) (fun _ _ _ => rfl) s a n

theorem wakeExtents_offCaches (s : State) (es : List (Nat × Nat)) : (wakeExtents s es).offCaches = s.offCaches :=
  foldl_keeps State.offCaches (fun s (e : Nat × Nat) => wakeExtent s e.1 e.2) (fun s e => wakeExtent_offCaches s e.1 e.2) es s

theorem agentStore_offCaches (s : State) (a : Nat) (bs : List Byte) : (agentStore s a bs).offCaches = s.offCaches := by
  have settled := (Moves.refl 0 s).settleLines a bs.length (l := a / 128) (Nat.zero_le _) (lineCount a bs.length)
  have written : (memWrite (settleLines s a bs.length (a / 128) (lineCount a bs.length)) a bs).offCaches =
      (settleLines s a bs.length (a / 128) (lineCount a bs.length)).offCaches :=
    (putMem_keeps State.offCaches (fun _ _ => rfl) (fun _ _ => rfl) _ _ _).trans rfl
  have snooped := (Moves.refl 0 (memWrite (settleLines s a bs.length (a / 128) (lineCount a bs.length)) a bs)).snoopLines
    (regionOfPlace (placeOf a)) none (a / 128) (lineCount a bs.length)
  exact snooped.units.trans (written.trans settled.units)

theorem writeItem_offCaches (s : State) (t : PassItem) : (writeItem s t).offCaches = s.offCaches := by
  unfold writeItem
  dsimp only
  split
  · exact (foldl_keeps State.offCaches (fun s k => poisonLine s (t.addr + 128 * k)) (fun _ _ => rfl) _ _).trans
      (agentStore_offCaches s _ _)
  · exact agentStore_offCaches s _ _

theorem writeItems_offCaches (s : State) (ts : List PassItem) : (writeItems s ts).offCaches = s.offCaches :=
  foldl_keeps State.offCaches _ writeItem_offCaches ts s

theorem sharedFree_offCaches (s : State) (x : SetCtx) (st : Strand) (n : Nat) (ts : List PassItem) :
    (sharedFree s x st n ts).1.offCaches = s.offCaches := by
  unfold sharedFree
  split <;> rfl

theorem stopIn_offCaches (s : State) (x : SetCtx) (st : Strand) (n : Nat) (g : GroupPass) (pick : Nat → List PassItem → List PassItem) :
    (stopIn s x st n g pick).1.offCaches = s.offCaches :=
  (writeItems_offCaches _ _).trans (sharedFree_offCaches s x st n g.items)

theorem runGroups_offCaches (x : SetCtx) (st : Strand) (hit : Option (Nat × Nat)) (n : Nat) (ps : List PGroup) (s : State) :
    (runGroups x st hit n ps s).1.offCaches = s.offCaches := by
  induction ps generalizing n s with
  | nil => rfl
  | cons p ps ih =>
    simp only [runGroups]
    split
    · rw [stopIn_offCaches]
    · rw [ih, countBulk, countPart_offCaches, writeItems_offCaches, sharedFree_offCaches]

/-! ### The context's own end -/

/-- A part of the state that sees neither what moving lines may change, nor signals and reports on their way, nor Setter context `i`. -/
structure IgnoresPass {α : Type} (i : Nat) (f : State → α) : Prop where
  moved : ∀ {s t : State}, t.offCaches = s.offCaches → f t = f s
  sent : ∀ (s : State) sigs lreps, f { s with sigs := sigs, lreps := lreps } = f s
  own : ∀ (s : State) x, f (s.setSetter i x) = f s

theorem ignoresPass_adders (i : Nat) : IgnoresPass i State.adders :=
  ⟨fun same => by have adders := congrArg State.adders same; exact adders, fun _ _ _ => rfl, fun _ _ => rfl⟩

theorem ignoresPass_setter {i k : Nat} (other : i ≠ k) : IgnoresPass i (State.setter · k) :=
  ⟨fun same => by have setter := congrArg (State.setter · k) same; exact setter, fun _ _ _ => rfl, fun s x => State.setter_setSetter_ne s x other⟩

section
variable {α : Type} {i : Nat} {f : State → α} (ignores : IgnoresPass i f)
include ignores

theorem IgnoresPass.countBridge (s : State) (p : Option Nat) (crosses : Bool) : f (countBridge s p crosses) = f s := by
  unfold Machine.countBridge
  split
  · exact ignores.moved (countPart_offCaches _ _ _ _)
  · rfl

theorem IgnoresPass.sendSig (s : State) (src c p n : Nat) (h : Byte) : f (sendSig s src c p n h) = f s :=
  (ignores.sent _ _ _).trans (ignores.countBridge s _ _)

theorem IgnoresPass.setterError (s : State) (code detail group addr : Nat) (fault : Bool) :
    f (setterError s i code detail group addr fault) = f s := by
  have reported (t : State) (l : List Report) : f { t with lreps := l } = f t := ignores.sent t t.sigs l
  unfold Machine.setterError
  dsimp only
  split
  · rw [ignores.sendSig, reportLog, reported, ignores.own]
  · rw [reportLog, reported, ignores.own]

theorem IgnoresPass.stopMarks (s : State) (done : List (PGroup × GroupPass)) (z : StopAt) (upto skip : Option Nat) :
    f (stopMarks s i done z upto skip) = f s :=
  (ignores.own _ _).trans (ignores.moved rfl)

theorem IgnoresPass.trapStop (s : State) (done : List (PGroup × GroupPass)) (z : StopAt) (e : Nat) : f (trapStop s i done z e) = f s :=
  (ignores.setterError _ _ _ _ _ _).trans (ignores.stopMarks _ _ _ _ _)

/-- A pass stopped from outside but by a refusal (12 R290). -/
theorem IgnoresPass.passStop (s : State) (code detail : Nat) : f (passStop s i code detail false) = f s := by
  unfold Machine.passStop
  dsimp only
  split
  · next st runs strand =>
    have ran (n : Nat) (d : Nat) :
        (runGroups (s.setter i) st none 0 ((s.setter i).groups.take n)
          { wakeExtents s (runExtents (s.setter i)) with draws := d }).1.offCaches = s.offCaches :=
      (runGroups_offCaches _ _ _ _ _ _).trans (wakeExtents_offCaches s _)
    split
    · exact (ignores.trapStop _ _ _ _).trans (ignores.moved (ran _ _))
    · exact ((ignores.setterError _ _ _ _ _ _).trans (ignores.stopMarks _ _ _ _ _)).trans
        (ignores.moved ((stopIn_offCaches _ _ _ _ _ _).trans (ran _ _)))
  · exact ignores.setterError _ _ _ _ _ _
  · rfl

/-- A verdict received by context `i`, with the end of a pass that it may bring (12 R279, R288). -/
theorem IgnoresPass.setterVerdict (s : State) (w : W16) : f (setterVerdict s i w) = f s := by
  unfold Machine.setterVerdict
  dsimp only
  split
  · rfl
  · rfl
  · split
    · exact ignores.own _ _
    · exact ignores.setterError _ _ _ _ _ _
  · split
    · exact ignores.own _ _
    · exact ignores.passStop _ _ _

end

end Sys2Proof.Machine
end

section
/-! PROOFS. The ready words of a region (13 R323, R324, R326). -/

namespace Sys2Proof.Machine

/-- Whether a ready word is of a job and of a unit of a region. -/
def ReadyWord.isOf (r job : Nat) (w : ReadyWord) : Bool := w.unit.val / 6 == r && w.job.toNat == job

/-- What a region sends for the words it holds of a job (13 R326, 08 R204): combined, and with the marks of a gating slot. -/
def markedWord (s : State) (r job : Nat) (word : W16) : W16 := if (s.region r).marks.contains job then word ||| 0xA else word

section
variable {s : State} {old : List ReadyWord} {w : ReadyWord} {r : Nat} (held : s.gathered = old ++ [w]) (of : w.unit.val / 6 = r)
  (others : ∀ v ∈ old, v.unit.val / 6 = r → v.job ≠ w.job)
include held of others

theorem gathered_isOf : s.gathered.filter (ReadyWord.isOf r w.job.toNat) = [w] ∧
    s.gathered.filter (fun v => !v.isOf r w.job.toNat) = old := by
  have self : w.isOf r w.job.toNat = true := by simp [ReadyWord.isOf, of]
  have foreign : ∀ v ∈ old, v.isOf r w.job.toNat = false := by
    intro v mem
    simp only [ReadyWord.isOf, Bool.and_eq_false_imp, beq_iff_eq]
    exact fun here => by simpa [← BitVec.toNat_inj] using others v mem here
  have none : old.filter (ReadyWord.isOf r w.job.toNat) = [] := List.filter_eq_nil_iff.mpr (by simpa using foreign)
  have all : old.filter (fun v => !v.isOf r w.job.toNat) = old := List.filter_eq_self.mpr (by simpa using foreign)
  simp [held, none, all, self]

/-- The word of the last context of the job in its region. -/
theorem regionVerdict_sends (lt : r < 4) (last : ∀ q ∈ regionAdders s r w.job.toNat, q = 8 * w.unit.val + w.ctx.val) :
    regionVerdict s r w.job.toNat =
      { s.setRegion r { s.region r with marks := (s.region r).marks.filter (· != w.job.toNat) } with
        gathered := old
        vcontribs := s.vcontribs ++ [⟨⟨r, lt⟩, w.job, markedWord s r w.job.toNat w.word⟩] } := by
  obtain ⟨mine, rest⟩ := gathered_isOf held of others
  have complete : ((regionAdders s r w.job.toNat).all fun i => [w].any fun w => w.unit.val == i / 8 && w.ctx.val == i % 8) = true := by
    refine List.all_eq_true.mpr fun q mem => ?_
    have number := last q mem
    have ctx := w.ctx.isLt
    simp only [List.any_cons, List.any_nil, Bool.or_false, Bool.and_eq_true, beq_iff_eq]
    omega
  have region : Fin.ofNat 4 r = ⟨r, lt⟩ := Fin.ext (Nat.mod_eq_of_lt lt)
  unfold ReadyWord.isOf at mine rest
  simp only [regionVerdict, mine, complete, region, if_true, List.foldl_nil, markedWord, State.setRegion_gathered, State.setRegion_vcontribs, rest,
    BitVec.ofNat_toNat, BitVec.setWidth_eq]

/-- The word of a context that is not the last one. -/
theorem regionVerdict_waits (more : ∃ q ∈ regionAdders s r w.job.toNat, q ≠ 8 * w.unit.val + w.ctx.val) :
    regionVerdict s r w.job.toNat = s := by
  obtain ⟨mine, -⟩ := gathered_isOf held of others
  have incomplete :
      ((regionAdders s r w.job.toNat).all fun i => [w].any fun w => w.unit.val == i / 8 && w.ctx.val == i % 8) = false := by
    obtain ⟨q, mem, other⟩ := more
    refine List.all_eq_false.mpr ⟨q, mem, ?_⟩
    simp only [List.any_cons, List.any_nil, Bool.or_false, Bool.and_eq_true, beq_iff_eq]
    omega
  unfold ReadyWord.isOf at mine
  simp only [regionVerdict, mine, incomplete]
  rfl

end

/-! ### READY_WORD_ARRIVE -/

/-- Whether a region holds a word of the same job with another SEQ (13 R326). -/
def otherRound (s : State) (w : ReadyWord) : Bool :=
  s.gathered.any fun v => v.unit.val / 6 == w.unit.val / 6 && v.job == w.job && v.word >>> 8 != w.word >>> 8

section
variable {s : State} {w : ReadyWord}

theorem otherRound_of_alone (alone : ∀ v ∈ s.gathered, v.unit.val / 6 = w.unit.val / 6 → v.job ≠ w.job) : otherRound s w = false := by
  refine List.any_eq_false.mpr fun v mem => ?_
  simp only [Bool.and_eq_true, beq_iff_eq, not_and]
  exact fun here => absurd here.2 (alone v mem here.1)

theorem otherRound_of_other
    (other : ∃ v ∈ s.gathered, v.unit.val / 6 = w.unit.val / 6 ∧ v.job = w.job ∧ v.word >>> 8 ≠ w.word >>> 8) : otherRound s w = true := by
  obtain ⟨v, mem, here, same, differs⟩ := other
  exact List.any_eq_true.mpr ⟨v, mem, by simp [here, same, differs]⟩

end

section
variable {s : State} {k : Nat} {w : ReadyWord} {rest : List ReadyWord}
  (taken : takeMsg (fun x y => x.unit == y.unit && x.ctx == y.ctx) k s.readies = some (w, rest))
include taken

theorem exec_readyWordArrive_held (held : unitPathHeld s w.unit.val (w.unit.val / 6) (w.unit.val / 6) = true) :
    exec (.readyWordArrive k) s = .next s := by
  show execReadyWordArrive k s = _
  unfold execReadyWordArrive
  rw [taken]
  exact congrArg next (if_pos held)

/-- A word that reaches its region is discarded, or held with the others of its job. -/
theorem exec_readyWordArrive (free : unitPathHeld s w.unit.val (w.unit.val / 6) (w.unit.val / 6) = false) :
    exec (.readyWordArrive k) s = .next (
      let t := { s with readies := rest }
      let i := 8 * w.unit.val + w.ctx.val
      if otherRound s w then reportLog t (originAdder t i) (originAdder t i) 0xE (partOfHall t (t.adder i).hall) (detailWord 0 0 0)
      else regionVerdict { t with gathered := s.gathered ++ [w] } (w.unit.val / 6) w.job.toNat) := by
  show execReadyWordArrive k s = _
  unfold execReadyWordArrive
  rw [taken]
  exact congrArg next (if_neg (ne_true_of_eq_false free))

end
end Sys2Proof.Machine
end

section
/-! PROOFS. The verdict home of a job (13 R325, R326, R331): words combined, and sent on once every region and child is heard. -/

namespace Sys2Proof.Machine

theorem mem_insertNat {x y : Nat} {l : List Nat} : y ∈ insertNat x l ↔ y = x ∨ y ∈ l := by
  induction l with
  | nil => simp [insertNat]
  | cons z zs ih =>
    unfold insertNat
    split
    · simp
    · split
      · next same => simp [same]
      · simp only [List.mem_cons, ih]; tauto

/-- The home of a job is an enabled context of it. -/
theorem verdictHome_some {s : State} {job i : Nat} (home : verdictHome s job = some i) :
    i < 192 ∧ (s.adder i).enable = true ∧ (s.adder i).job = job := by
  have mem := List.mem_of_find?_eq_some home
  have holds := List.find?_some home
  simp only [Bool.and_eq_true, beq_iff_eq] at holds
  exact ⟨List.mem_range.mp mem, holds.1.1, holds.2⟩

/-! ### A home that waits, and one that sends its word up -/

theorem sendVerdict_keeps {α : Type} (f : State → α) (count : ∀ (s : State) p k n, f (countPart s p k n) = f s)
    (carry : ∀ (s : State) inbox ports bridgeq, f { s with inbox := inbox, ports := ports, bridgeq := bridgeq } = f s) (s : State)
    (i typ port : Nat) (w : W16) : f (sendVerdict s i typ port w) = f s := by
  unfold sendVerdict adderSend
  dsimp only
  split
  · exact sendPacket_keeps f count carry s _ _
  · rfl

theorem verdictReady_waits {s : State} {i r : Nat} (lt : r < 4) (asked : (s.adder i).rmask r = true)
    (missing : r ∉ (s.adder i).vhome.regions) : verdictReady s i = s := by
  have waits : (List.range 4).all (fun r => !(s.adder i).rmask r || (s.adder i).vhome.regions.contains r) = false :=
    List.all_eq_false.mpr ⟨r, List.mem_range.mpr lt, by simp [asked, missing]⟩
  unfold verdictReady
  dsimp only
  split
  · rfl
  · rw [waits, Bool.not_false, Bool.or_true, Bool.true_or, if_pos rfl]

/-- The home's record once its word has gone to its parent: the timeout runs from here (13 R331). -/
def sentUp (s : State) (i : Nat) (v : VHome) : VHome :=
  { v with
    sent := true
    deadline := if fieldN (s.adder i).vcfg.toNat 0 26 = 0 then none
      else some (regionDue s (regionOfCtx i) (fieldN (s.adder i).vcfg.toNat 0 26)) }

theorem verdictReady_sends {s : State} {i p : Nat} {w : W16} (word : (s.adder i).vhome.word = some w) (first : (s.adder i).vhome.sent = false)
    (regions : ∀ r < 4, (s.adder i).rmask r = true → r ∈ (s.adder i).vhome.regions)
    (ports : ∀ r < 6, (s.adder i).child r = true → r ∈ (s.adder i).vhome.ports) (parent : (s.adder i).parent = some p) :
    verdictReady s i =
      sendVerdict (s.setAdder i { s.adder i with vhome := sentUp s i (s.adder i).vhome }) i 6 p w := by
  have heard : (List.range 4).all (fun r => !(s.adder i).rmask r || (s.adder i).vhome.regions.contains r) = true := by
    refine List.all_eq_true.mpr fun r mem => ?_
    cases asked : (s.adder i).rmask r with
    | false => rfl
    | true => simpa using regions r (List.mem_range.mp mem) asked
  have children : (List.range 6).all (fun r => !(s.adder i).child r || (s.adder i).vhome.ports.contains r) = true := by
    refine List.all_eq_true.mpr fun r mem => ?_
    cases asked : (s.adder i).child r with
    | false => rfl
    | true => simpa using ports r (List.mem_range.mp mem) asked
  simp only [verdictReady, sentUp, word, first, heard, children, parent, Bool.not_true, Bool.or_false, Bool.false_eq_true, if_false]

/-! ### Words combined -/

section
variable {s : State} {i : Nat} {w : W16} (v : VHome → VHome)

/-- The home's record with a word of the open round combined into it. -/
def combined (s : State) (i : Nat) (w : W16) (v : VHome → VHome) : State :=
  s.setAdder i { s.adder i with
    vhome := { v (s.adder i).vhome with word := some (combineWords ((s.adder i).vhome.word.getD 0) w) } }

theorem verdictCombine_now (now : w >>> 8 = (s.adder i).seq.zeroExtend 16) :
    verdictCombine s i w v = some (verdictReady (combined s i w v) i) := by
  unfold verdictCombine combined
  rw [if_neg (not_not_intro now)]
  cases (s.adder i).vhome.word <;> rfl

theorem verdictCombine_other (other : w >>> 8 ≠ (s.adder i).seq.zeroExtend 16) : verdictCombine s i w v = none := if_pos other

end

/-! ### VERDICT_CONTRIBUTION_ARRIVE -/

section
variable {s : State} {k i : Nat} {v : VContrib} {rest : List VContrib}
  (taken : takeMsg (fun x y => x.region == y.region) k s.vcontribs = some (v, rest)) (home : verdictHome s v.job.toNat = some i)
include taken home

theorem exec_verdictContributionArrive_held (held : unitPathHeld s (24 + v.region.val) v.region.val (regionOfCtx i) = true) :
    exec (.verdictContributionArrive k) s = .next s := by
  have home' : verdictHome { s with vcontribs := rest } v.job.toNat = some i := home
  show execVerdictContributionArrive k s = _
  unfold execVerdictContributionArrive
  rw [taken]
  dsimp only
  rw [home']
  exact congrArg next (if_pos held)

/-- The record of a verdict word that an adder context discards (13 R326). -/
def wordDropped (s : State) (i : Nat) (w : W16) : State :=
  reportLog s (originAdder s i) (originAdder s i) 0xE (partOfHall s (s.adder i).hall) (detailWord 0 0 w.toNat)

/-- The state in which the home meets a contribution, counted where it has crossed the bridge (16 R392). -/
def contributed (s : State) (i : Nat) (v : VContrib) (rest : List VContrib) : State :=
  countBridge { s with vcontribs := rest } (partOfHall s (s.adder i).hall) (decide (v.region.val ≠ regionOfCtx i))

theorem exec_verdictContributionArrive (free : unitPathHeld s (24 + v.region.val) v.region.val (regionOfCtx i) = false) :
    exec (.verdictContributionArrive k) s = .next (
      let t := contributed s i v rest
      if !(t.adder i).rmask v.region.val then wordDropped t i v.word
      else (verdictCombine t i v.word fun h => { h with regions := insertNat v.region.val h.regions }).getD (wordDropped t i v.word)) := by
  have home' : verdictHome { s with vcontribs := rest } v.job.toNat = some i := home
  show execVerdictContributionArrive k s = _
  unfold execVerdictContributionArrive
  rw [taken]
  dsimp only
  rw [home']
  exact congrArg next (if_neg (ne_true_of_eq_false free))

omit taken home in
theorem contributed_adder (j : Nat) : (contributed s i v rest).adder j = s.adder j := countBridge_adder _ _ _ _

omit taken home in
theorem contributed_region (r : Nat) : (contributed s i v rest).region r = s.region r := countBridge_region _ _ _ _

section
variable (free : unitPathHeld s (24 + v.region.val) v.region.val (regionOfCtx i) = false)
include free

/-- A contribution of a region of RMASK and of the open round (13 R326). -/
theorem exec_verdictContributionArrive_combined (asked : (s.adder i).rmask v.region.val = true)
    (now : v.word >>> 8 = (s.adder i).seq.zeroExtend 16) : exec (.verdictContributionArrive k) s = .next
      (verdictReady (combined (contributed s i v rest) i v.word fun h => { h with regions := insertNat v.region.val h.regions }) i) := by
  rw [exec_verdictContributionArrive taken home free]
  dsimp only
  rw [contributed_adder, asked, verdictCombine_now _ (by rw [contributed_adder]; exact now)]
  rfl

/-- Any other (13 R326). -/
theorem exec_verdictContributionArrive_dropped
    (dropped : (s.adder i).rmask v.region.val = false ∨ v.word >>> 8 ≠ (s.adder i).seq.zeroExtend 16) :
    exec (.verdictContributionArrive k) s = .next (wordDropped (contributed s i v rest) i v.word) := by
  rw [exec_verdictContributionArrive taken home free]
  dsimp only
  rw [contributed_adder]
  cases asked : (s.adder i).rmask v.region.val with
  | false => rfl
  | true =>
    have other := dropped.resolve_left (by rw [asked]; decide)
    rw [verdictCombine_other _ (by rw [contributed_adder]; exact other)]
    rfl

end

end

end Sys2Proof.Machine
end

section
/-! PROOFS. The final word of a round (13 R325, R327, 12 R279): delivered to the Setters and the adder contexts of its job. -/

namespace Sys2Proof.Machine

/-! ### Loops over contexts -/

section
variable {β : Type} {P : State → Prop} {part : State → β} {g : State → Nat → State} {i : Nat} {l : List Nat}
  (keepsP : ∀ q ∈ l, ∀ s, P s → P (g s q)) (keeps : ∀ q ∈ l, q ≠ i → ∀ s, P s → part (g s q) = part s)
include keepsP keeps

theorem foldl_apart (apart : i ∉ l) {s : State} (p : P s) : part (l.foldl g s) = part s := by
  induction l generalizing s with
  | nil => rfl
  | cons q l ih =>
    rw [List.mem_cons, not_or] at apart
    rw [List.forall_mem_cons] at keepsP keeps
    exact (ih keepsP.2 keeps.2 apart.2 (keepsP.1 s p)).trans (keeps.1 (Ne.symm apart.1) s p)

/-- What a loop leaves of a part that one of its turns alone can change is what that turn leaves. -/
theorem foldl_turn (once : l.Nodup) (turn : i ∈ l) {s : State} (p : P s) :
    ∃ u, P u ∧ part u = part s ∧ part (l.foldl g s) = part (g u i) := by
  induction l generalizing s with
  | nil => cases turn
  | cons q l ih =>
    rw [List.nodup_cons] at once
    rw [List.forall_mem_cons] at keepsP keeps
    by_cases here : q = i
    · subst here
      exact ⟨s, p, rfl, foldl_apart keepsP.2 keeps.2 once.1 (keepsP.1 s p)⟩
    · have later : i ∈ l := (List.mem_cons.mp turn).resolve_left (Ne.symm here)
      obtain ⟨u, pu, same, last⟩ := ih keepsP.2 keeps.2 once.2 later (keepsP.1 s p)
      exact ⟨u, pu, same.trans (keeps.1 here s p), last⟩

end

/-! ### A verdict at an adder context -/

/-- No contribution waits at a context of this module. -/
def QuietUnits (s : State) : Prop := ∀ q < 192, (s.adder q).inq = [] ∧ (s.adder q).localQ = []

theorem retryUnit_of_quiet {s : State} {m : Nat} (quiet : ∀ q < 8, (s.adder (8 * m + q)).inq = [] ∧ (s.adder (8 * m + q)).localQ = []) :
    retryUnit s m = s := by
  have idle : ∀ i ∈ (List.range 8).map (8 * m + ·), (s.adder i).waits = false := by
    intro i mem
    obtain ⟨q, lt, rfl⟩ := List.mem_map.mp mem
    obtain ⟨inq, localQ⟩ := quiet q (List.mem_range.mp lt)
    simp [AddCtx.waits, inq, localQ]
  unfold retryUnit
  generalize (List.range 8).map (8 * m + ·) = l at idle
  induction l with
  | nil => rfl
  | cons i l ih =>
    rw [List.foldl_cons, if_neg (ne_true_of_eq_false (idle i List.mem_cons_self))]
    exact ih fun j mem => idle j (List.mem_cons_of_mem i mem)

/-- A ready word leaves READY of its own context set, and no other field (13 R323). -/
theorem readyCheck_adder (s : State) (i j : Nat) :
    ∃ ready, (readyCheck s i).adder j = { s.adder j with ready := ready } ∧ (j ≠ i → ready = (s.adder j).ready) := by
  unfold readyCheck
  dsimp only
  split
  · by_cases same : i = j
    · subst same
      exact ⟨true, s.adder_setAdder_same i _, fun other => absurd rfl other⟩
    · exact ⟨_, s.adder_setAdder_ne _ same, fun _ => rfl⟩
  · exact ⟨_, rfl, fun _ => rfl⟩

theorem readyCheck_setters (s : State) (i : Nat) : (readyCheck s i).setters = s.setters := by
  unfold readyCheck
  dsimp only
  split <;> rfl

/-- A context as a verdict word closes its round (13 R327). -/
def AddCtx.closed (x : AddCtx) (w : W16) : AddCtx :=
  { x with seq := x.seq + 1, cur := x.nxt, nxt := RoundAcc.zero, ready := false, verd := w, rounds := x.rounds + 1 }

/-- The state in which the context's pip has been signalled and a new round's ready word may leave. -/
def roundClosed (s : State) (i : Nat) (w : W16) : State :=
  let x := s.adder i
  let t := s.setAdder i (x.closed w)
  readyCheck (if x.pip.toNat.testBit 31 then
    sendSig t (adderSrc i) (fieldN x.pip.toNat 22 9) (fieldN x.pip.toNat 16 6) 1 x.hall else t) i

theorem roundClosed_setters (s : State) (i : Nat) (w : W16) : (roundClosed s i w).setters = s.setters := by
  unfold roundClosed
  dsimp only
  rw [readyCheck_setters]
  split
  · exact sendSig_setters _ _ _ _ _ _
  · rfl

theorem roundClosed_adder (s : State) (i j : Nat) (w : W16) :
    ∃ ready, (roundClosed s i w).adder j = { (if i = j then (s.adder j).closed w else s.adder j) with ready := ready } ∧
      (j ≠ i → ready = (s.adder j).ready) := by
  have before : (if (s.adder i).pip.toNat.testBit 31 then
      sendSig (s.setAdder i ((s.adder i).closed w)) (adderSrc i) (fieldN (s.adder i).pip.toNat 22 9) (fieldN (s.adder i).pip.toNat 16 6) 1
        (s.adder i).hall else s.setAdder i ((s.adder i).closed w)).adder j = if i = j then (s.adder j).closed w else s.adder j := by
    have set : (s.setAdder i ((s.adder i).closed w)).adder j = if i = j then (s.adder j).closed w else s.adder j := by
      rw [State.adder_setAdder]
      split
      · next same => rw [same]
      · rfl
    split
    · rw [sendSig_adder, set]
    · exact set
  obtain ⟨ready, after, own⟩ := readyCheck_adder _ i j
  rw [before] at after own
  refine ⟨ready, after, fun other => ?_⟩
  rw [own other, if_neg (Ne.symm other)]

theorem roundClosed_quiet {s : State} (quiet : QuietUnits s) (i : Nat) (w : W16) : QuietUnits (roundClosed s i w) := by
  intro q lt
  obtain ⟨ready, after, -⟩ := roundClosed_adder s i q w
  rw [after]
  split
  · exact quiet q lt
  · exact quiet q lt

section
variable {s : State} {i : Nat} {w : W16}

theorem adderVerdict_now (quiet : QuietUnits s) (lt : i < 192) (now : (s.adder i).seq = (w >>> 8).truncate 8) :
    adderVerdict w s i = roundClosed s i w := by
  have unit : ∀ q < 8, ((roundClosed s i w).adder (8 * (i / 8) + q)).inq = [] ∧ ((roundClosed s i w).adder (8 * (i / 8) + q)).localQ = [] :=
    fun q small => roundClosed_quiet quiet i w _ (by omega)
  refine Eq.trans ?_ (retryUnit_of_quiet unit)
  exact if_neg (not_not_intro now)

theorem adderVerdict_other (other : (s.adder i).seq ≠ (w >>> 8).truncate 8) : adderVerdict w s i = wordDropped s i w :=
  if_pos other

variable (quiet : QuietUnits s) (lt : i < 192)
include quiet lt

theorem adderVerdict_quiet : QuietUnits (adderVerdict w s i) := by
  by_cases now : (s.adder i).seq = (w >>> 8).truncate 8
  · rw [adderVerdict_now quiet lt now]; exact roundClosed_quiet quiet i w
  · rw [adderVerdict_other now]; exact quiet

theorem adderVerdict_setters : (adderVerdict w s i).setters = s.setters := by
  by_cases now : (s.adder i).seq = (w >>> 8).truncate 8
  · rw [adderVerdict_now quiet lt now, roundClosed_setters]
  · rw [adderVerdict_other now]; rfl

theorem adderVerdict_adder_ne {j : Nat} (other : j ≠ i) : (adderVerdict w s i).adder j = s.adder j := by
  by_cases now : (s.adder i).seq = (w >>> 8).truncate 8
  · obtain ⟨ready, after, own⟩ := roundClosed_adder s i j w
    rw [adderVerdict_now quiet lt now, after, if_neg (Ne.symm other), own other]
  · rw [adderVerdict_other now]; rfl

end

/-! ### The loops of a delivery -/

section
variable (home job : Nat) (h : Byte) (w : W16)

/-- A verdict word on its way to context `i`, counted where it crosses the bridge (16 R392). -/
def crossed (s : State) (i : Nat) : State := countBridge s (partOfHall s h) (decide (regionOfCtx i ≠ regionOfCtx home))

/-- The word at Setter context `i`, where it is of the job (12 R279). -/
def atSetter (s : State) (i : Nat) : State :=
  if (s.setter i).enable && !(s.setter i).vsrc && (s.setter i).job == job && (s.setter i).hall == h then
    setterVerdict (crossed home h s i) i w else s

/-- The word at adder context `i`, where it is of the job (13 R323). -/
def atAdder (s : State) (i : Nat) : State :=
  if (s.adder i).enable && (s.adder i).job == job then adderVerdict w (crossed home h s i) i else s

/-- The word at every Setter context of the job. -/
def atSetters (s : State) : State := (List.range 192).foldl (atSetter home job h w) s

theorem verdictDeliver_eq (s : State) : verdictDeliver s home job h w =
    (List.range 192).foldl (atAdder home job h w) (atSetters home job h w s) := rfl

variable {home job h w}

theorem atSetter_keeps {α : Type} {i : Nat} {f : State → α} (ignores : IgnoresPass i f) (s : State) :
    f (atSetter home job h w s i) = f s := by
  unfold atSetter
  split
  · exact (ignores.setterVerdict _ _).trans (ignores.countBridge _ _ _)
  · rfl

theorem atSetters_adder (s : State) (i : Nat) : (atSetters home job h w s).adder i = s.adder i := by
  have adders : (atSetters home job h w s).adders = s.adders :=
    foldl_keeps State.adders _ (fun s i => atSetter_keeps (ignoresPass_adders i) s) _ s
  rw [State.adder, adders]
  rfl

theorem atSetters_quiet {s : State} (quiet : QuietUnits s) : QuietUnits (atSetters home job h w s) := fun q lt => by
  rw [atSetters_adder]
  exact quiet q lt

theorem crossed_quiet {s : State} (quiet : QuietUnits s) (i : Nat) : QuietUnits (crossed home h s i) := fun q lt => by
  rw [crossed, countBridge_adder]
  exact quiet q lt

section
variable {s : State} {i : Nat} (quiet : QuietUnits s) (lt : i < 192)
include quiet lt

theorem atAdder_quiet : QuietUnits (atAdder home job h w s i) := by
  unfold atAdder
  split
  · exact adderVerdict_quiet (crossed_quiet quiet i) lt
  · exact quiet

theorem atAdder_setters : (atAdder home job h w s i).setters = s.setters := by
  unfold atAdder
  split
  · rw [adderVerdict_setters (crossed_quiet quiet i) lt, crossed, countBridge_setters]
  · rfl

theorem atAdder_adder_ne {j : Nat} (other : j ≠ i) : (atAdder home job h w s i).adder j = s.adder j := by
  unfold atAdder
  split
  · rw [adderVerdict_adder_ne (crossed_quiet quiet i) lt other, crossed, countBridge_adder]
  · rfl

end

/-- The adder context whose round the word is of closes it (13 R323, R327). -/
theorem verdictDeliver_adder {s : State} {i : Nat} (quiet : QuietUnits s) (lt : i < 192) (enabled : (s.adder i).enable = true)
    (mine : (s.adder i).job = job) (now : (s.adder i).seq = (w >>> 8).truncate 8) :
    ∃ ready, (verdictDeliver s home job h w).adder i = { (s.adder i).closed w with ready := ready } := by
  obtain ⟨u, calm, before, after⟩ := foldl_turn (P := QuietUnits) (part := (State.adder · i)) (g := atAdder home job h w)
    (fun q mem s p => atAdder_quiet p (List.mem_range.mp mem)) (fun q mem other s p => atAdder_adder_ne p (List.mem_range.mp mem) other.symm)
    List.nodup_range (List.mem_range.mpr lt) (atSetters_quiet quiet)
  rw [atSetters_adder] at before
  have there : (crossed home h u i).adder i = s.adder i := by rw [crossed, countBridge_adder, before]
  obtain ⟨ready, closes, -⟩ := roundClosed_adder (crossed home h u i) i i w
  rw [if_pos rfl, there] at closes
  refine ⟨ready, ?_⟩
  rw [verdictDeliver_eq, after, atAdder, before, if_pos (by rw [enabled, mine, beq_self_eq_true]; rfl),
    adderVerdict_now (crossed_quiet calm i) lt (by rw [there]; exact now), closes]

/-- A Setter context of the job that waits takes the word (12 R279). -/
theorem verdictDeliver_setter {s : State} {q : Nat} (quiet : QuietUnits s) (lt : q < 192) (enabled : (s.setter q).enable = true)
    (remote : (s.setter q).vsrc = false) (mine : (s.setter q).job = job) (hall : (s.setter q).hall = h) (waits : (s.setter q).st = .wait)
    (room : (s.setter q).verdicts.length < 2) :
    (verdictDeliver s home job h w).setter q = { s.setter q with verdicts := (s.setter q).verdicts ++ [w] } := by
  have later : ((List.range 192).foldl (atAdder home job h w) (atSetters home job h w s)).setters = (atSetters home job h w s).setters :=
    foldl_apart (P := QuietUnits) (part := State.setters) (i := 192) (fun k mem s p => atAdder_quiet p (List.mem_range.mp mem))
      (fun k mem _ s p => atAdder_setters p (List.mem_range.mp mem)) List.not_mem_range_self (atSetters_quiet quiet)
  obtain ⟨u, -, before, after⟩ := foldl_turn (P := fun _ => True) (part := (State.setter · q)) (g := atSetter home job h w)
    (fun _ _ _ p => p) (fun k _ other s _ => atSetter_keeps (ignoresPass_setter other) s) List.nodup_range (List.mem_range.mpr lt)
    (s := s) trivial
  have there : (crossed home h u q).setter q = s.setter q := by rw [crossed, countBridge_setter, before]
  have takes := setterVerdict_room (s := crossed home h u q) (i := q) w (by rw [there, waits]; decide) (by rw [there, waits]; decide)
    (by rw [there]; exact room)
  rw [verdictDeliver_eq, State.setter, later]
  refine after.trans ?_
  rw [atSetter, before, if_pos (by simp [enabled, remote, mine, hall]), takes, State.setter_setSetter_same, there]

end

end Sys2Proof.Machine
end

section
/-! PROOFS. Verdict packets at a home (13 R325, R326), its timeout (R331), and O42. -/

namespace Sys2Proof.Machine

/-! ### VUP and VDOWN -/

section
variable {s u : State} {k t i : Nat} {x : Inbox} (taken : takePacket s k (isReduce t) = some (x, u))
include taken

theorem adder_of_verdict (j : Nat) : (countRx u (partOfHall s (s.adder i).hall) x.pkt).adder j = s.adder j := by
  rw [countRx, countPart_adder, countPart_adder, (takePacket_some taken).2]
  rfl

theorem setter_of_verdict (j : Nat) : (countRx u (partOfHall s (s.adder i).hall) x.pkt).setter j = s.setter j := by
  rw [countRx, countPart_setter, countPart_setter, (takePacket_some taken).2]
  rfl

section
variable (home : verdictHome s x.pkt.job.toNat = some i)
include home

theorem takeVerdict_held (held : inHeld s (regionOfCtx i) = true) (f : State → Nat → Packet → Nat → State) : takeVerdict s k t f = s := by
  have home' : verdictHome u x.pkt.job.toNat = some i := by rw [(takePacket_some taken).2]; exact home
  unfold takeVerdict
  rw [taken]
  dsimp only
  rw [home']
  exact if_pos ((inHeld_of_takePacket taken _).trans held)

/-- A verdict packet that reaches the home of its job is counted to the home's partition. -/
theorem takeVerdict_free (free : inHeld s (regionOfCtx i) = false) (f : State → Nat → Packet → Nat → State) :
    takeVerdict s k t f = f (countRx u (partOfHall s (s.adder i).hall) x.pkt) i x.pkt x.via := by
  have frame := (takePacket_some taken).2
  have home' : verdictHome u x.pkt.job.toNat = some i := by rw [frame]; exact home
  have own : partOfHall u (u.adder i).hall = partOfHall s (s.adder i).hall := by rw [frame]; rfl
  unfold takeVerdict
  rw [taken]
  dsimp only
  rw [home']
  dsimp only
  rw [own, inHeld_of_takePacket taken, free, if_neg Bool.false_ne_true]

end

end

section
variable {s u : State} {k i : Nat} {x : Inbox} (home : verdictHome s x.pkt.job.toNat = some i)
  (free : inHeld s (regionOfCtx i) = false)
include home free

section
variable (taken : takePacket s k (isReduce 6) = some (x, u))
include taken

/-- A VUP of the open round through a CHILD port (13 R326). -/
theorem exec_vupArrive_combined (child : (s.adder i).child x.via = true)
    (now : (BitVec.ofNat 16 (x.pkt.fld 32 16) : W16) >>> 8 = (s.adder i).seq.zeroExtend 16) : exec (.vupArrive k) s = .next
      (verdictReady (combined (countRx u (partOfHall s (s.adder i).hall) x.pkt) i (BitVec.ofNat 16 (x.pkt.fld 32 16))
        fun h => { h with ports := insertNat x.via h.ports }) i) := by
  refine congrArg next ((takeVerdict_free taken home free _).trans ?_)
  rw [adder_of_verdict taken, child, verdictCombine_now _ (by rw [adder_of_verdict taken]; exact now)]
  rfl

/-- Any other (13 R326). -/
theorem exec_vupArrive_dropped
    (dropped : (BitVec.ofNat 16 (x.pkt.fld 32 16) : W16) >>> 8 ≠ (s.adder i).seq.zeroExtend 16 ∨ (s.adder i).child x.via = false) :
    exec (.vupArrive k) s = .next (verdictDropped (countRx u (partOfHall s (s.adder i).hall) x.pkt) i x.pkt) := by
  refine congrArg next ((takeVerdict_free taken home free _).trans ?_)
  rw [adder_of_verdict taken]
  cases child : (s.adder i).child x.via with
  | false => rfl
  | true =>
    have other := dropped.resolve_right (by rw [child]; decide)
    rw [verdictCombine_other _ (by rw [adder_of_verdict taken]; exact other)]
    rfl

end

section
variable (taken : takePacket s k (isReduce 7) = some (x, u))
include taken

theorem exec_vdownArrive_dropped (foreign : (s.adder i).parent ≠ some x.via) :
    exec (.vdownArrive k) s = .next (verdictDropped (countRx u (partOfHall s (s.adder i).hall) x.pkt) i x.pkt) := by
  refine congrArg next ((takeVerdict_free taken home free _).trans ?_)
  rw [adder_of_verdict taken, if_pos foreign]

theorem exec_vdownArrive_final (parent : (s.adder i).parent = some x.via) : exec (.vdownArrive k) s = .next
    (verdictFinal (countRx u (partOfHall s (s.adder i).hall) x.pkt) i (BitVec.ofNat 16 (x.pkt.fld 32 16))) := by
  refine congrArg next ((takeVerdict_free taken home free _).trans ?_)
  rw [adder_of_verdict taken, if_neg (not_not_intro parent)]

end

end

/-! ### The final word -/

theorem sendDown_keeps {α : Type} (f : State → α) (count : ∀ (s : State) p k n, f (countPart s p k n) = f s)
    (carry : ∀ (s : State) inbox ports bridgeq, f { s with inbox := inbox, ports := ports, bridgeq := bridgeq } = f s) (s : State)
    (i : Nat) (w : W16) : f (sendDown s i w) = f s := by
  refine foldl_keeps f _ (fun s p => ?_) _ s
  split
  · exact sendVerdict_keeps f count carry s _ _ _ _
  · rfl

section
variable {s : State} {i : Nat} {w : W16} (quiet : QuietUnits s)
include quiet

theorem emptied_quiet : QuietUnits (s.setAdder i { s.adder i with vhome := VHome.zero }) := by
  intro q lt
  rw [State.adder_setAdder]
  split
  · next same => exact quiet i (same ▸ lt)
  · exact quiet q lt

/-- The home's own round is closed by the final word (13 R325, R327). -/
theorem verdictFinal_adder (lt : i < 192) (enabled : (s.adder i).enable = true) (now : (s.adder i).seq = (w >>> 8).truncate 8) :
    ∃ ready, (verdictFinal s i w).adder i = { ({ s.adder i with vhome := VHome.zero } : AddCtx).closed w with ready := ready } := by
  have read := s.adder_setAdder_same i { s.adder i with vhome := VHome.zero }
  obtain ⟨ready, closes⟩ := verdictDeliver_adder (home := i) (h := (s.adder i).hall) (job := (s.adder i).job) (w := w)
    (emptied_quiet quiet) lt (by rw [read]; exact enabled) (by rw [read]; rfl) (by rw [read]; exact now)
  refine ⟨ready, (sendDown_keeps (State.adder · i) (fun s p k n => countPart_adder s p k n i) (fun _ _ _ _ => rfl) _ i w).trans ?_⟩
  rw [closes, read]

/-- So is that of a waiting Setter of the job told (12 R279). -/
theorem verdictFinal_setter {q : Nat} (lt : q < 192) (enabled : (s.setter q).enable = true) (remote : (s.setter q).vsrc = false)
    (mine : (s.setter q).job = (s.adder i).job) (hall : (s.setter q).hall = (s.adder i).hall) (waits : (s.setter q).st = .wait)
    (room : (s.setter q).verdicts.length < 2) :
    (verdictFinal s i w).setter q = { s.setter q with verdicts := (s.setter q).verdicts ++ [w] } :=
  (sendDown_keeps (State.setter · q) (fun s p k n => countPart_setter s p k n q) (fun _ _ _ _ => rfl) _ i w).trans
    (verdictDeliver_setter (s := s.setAdder i { s.adder i with vhome := VHome.zero }) (emptied_quiet quiet) lt enabled remote mine hall
      waits room)

end

/-! ### VERDICT_TIMEOUT -/

/-- The context after an error of its own (13 R330). -/
theorem adderError_adder (s : State) (i code detail b seq t : Nat) :
    let x := s.adder i
    let y := (adderError s i code detail b seq t none).adder i
    y.st = x.st ∧ y.err = true ∧
      (x.err = false → y.ajerr = BitVec.ofNat 64 (code + detail * 256 + b * 2 ^ 16 + (seq % 256) * 2 ^ 32 + t * 2 ^ 40)) := by
  unfold adderError
  dsimp only
  cases (s.adder i).err <;> split <;> simp

theorem adderError_region (s : State) (i code detail b seq t r : Nat) :
    (adderError s i code detail b seq t none).region r = s.region r := by
  unfold adderError
  dsimp only
  split
  · rw [sendSig_region]; rfl
  · rfl

/-- The home that hears nothing in time, before the error is recorded (13 R331). -/
def timedOut (s : State) (r i dl : Nat) : State :=
  (regionTimeTo s r dl).setAdder i { s.adder i with st := .fault, vhome := { (s.adder i).vhome with deadline := none } }

theorem exec_verdictTimeout {s : State} {c : CtlId} {j : CtxId} {dl : Nat} (due : (s.adder (ctxIx c j)).vhome.deadline = some dl) :
    exec (.verdictTimeout c j) s = .next (adderError (timedOut s (regionOfCtl c) (ctxIx c j) dl) (ctxIx c j) 5 1 0
      (s.adder (ctxIx c j)).seq.toNat 0 none) := by
  show execVerdictTimeout c j s = _
  unfold execVerdictTimeout
  dsimp only
  rw [due]
  rfl

/-- Settles O42: a ready word and a verdict word do what their command's cases say, by who waits for them and what has come before. -/
theorem verdictsComplete : Obligations.VerdictsComplete := by
  intro s u k i c j a
  refine ⟨?ready, ?contribution, ?packet, ?timeout⟩
  case ready =>
    intro w rest r taken held
    refine ⟨exec_readyWordArrive_held taken, fun free alone => ?_, fun free other => ?_⟩
    · have arrives := exec_readyWordArrive taken free
      rw [otherRound_of_alone alone, if_neg Bool.false_ne_true] at arrives
      refine ⟨fun last => ?_, fun more => ?_⟩
      · have sends := regionVerdict_sends (s := { s with readies := rest, gathered := s.gathered ++ [w] }) rfl rfl alone
          (by have := w.unit.isLt; omega) last
        exact ⟨_, arrives.trans (congrArg next sends), rfl, rfl, rfl⟩
      · have waits := regionVerdict_waits (s := { s with readies := rest, gathered := s.gathered ++ [w] }) rfl rfl alone more
        exact arrives.trans (congrArg next waits)
    · have arrives := exec_readyWordArrive taken free
      rw [otherRound_of_other other, if_pos rfl] at arrives
      exact ⟨_, arrives, rfl, rfl, rfl⟩
  case contribution =>
    intro v rest taken home held h heard tmo
    have read := contributed_adder (s := s) (i := i) (v := v) (rest := rest) i
    refine ⟨exec_verdictContributionArrive_held taken home, fun free asked now => ?_, fun free dropped => ?_⟩
    · have arrives := exec_verdictContributionArrive_combined taken home free asked now
      rw [combined, read] at arrives
      have home' := (contributed s i v rest).adder_setAdder_same i { a with vhome := h }
      refine ⟨fun ⟨q, lt, asked, silent⟩ => ?_, fun q regions ports first parent => ?_⟩
      · refine arrives.trans (congrArg next (verdictReady_waits lt (by rw [home']; exact asked) ?_))
        rw [home']
        exact fun mem => silent (mem_insertNat.mp mem)
      · have sends := verdictReady_sends (s := (contributed s i v rest).setAdder i { a with vhome := h }) (i := i) (p := q)
          (w := combineWords (a.vhome.word.getD 0) v.word) (by rw [home']) (by rw [home']; exact first)
          (by rw [home']; exact fun r lt asked => mem_insertNat.mpr (regions r lt asked)) (by rw [home']; exact ports)
          (by rw [home']; exact parent)
        refine ⟨_, arrives.trans (congrArg next sends), ?_⟩
        rw [sendVerdict_keeps (State.adder · i) (fun s p k n => countPart_adder s p k n i) (fun _ _ _ _ => rfl), home',
          State.adder_setAdder_same, sentUp, home', regionDue, State.setAdder_region, contributed_region]
        rfl
    · exact ⟨_, exec_verdictContributionArrive_dropped taken home free dropped, countBridge_adders _ _ _, countBridge_vcontribs _ _ _⟩
  case packet =>
    intro x p w v home
    refine ⟨fun held => ⟨fun taken => congrArg next (takeVerdict_held taken home held _), fun taken => congrArg next (takeVerdict_held taken home held _)⟩,
      fun free taken => ⟨fun now child ⟨q, lt, asked, missing⟩ => ?_, exec_vupArrive_dropped home free taken⟩,
      fun free taken => ⟨exec_vdownArrive_dropped home free taken, fun now parent quiet => ?_⟩⟩
    · have arrives := exec_vupArrive_combined home free taken child now
      rw [combined, adder_of_verdict taken] at arrives
      have home' := v.adder_setAdder_same i { a with
        vhome := { a.vhome with ports := insertNat x.via a.vhome.ports, word := some (combineWords (a.vhome.word.getD 0) w) } }
      exact arrives.trans (congrArg next (verdictReady_waits lt (by rw [home']; exact asked) (by rw [home']; exact missing)))
    · obtain ⟨small, enabled, mine⟩ := verdictHome_some home
      have read : v.adder i = a := adder_of_verdict taken i
      have calm : QuietUnits v := fun q lt => by rw [adder_of_verdict taken]; exact quiet q lt
      have round : a.seq = (w >>> 8).truncate 8 := by rw [now]; simp
      obtain ⟨ready, closes⟩ := verdictFinal_adder (w := w) calm small (by rw [read]; exact enabled) (by rw [read]; exact round)
      rw [read] at closes
      refine ⟨_, exec_vdownArrive_final home free taken parent, ?_⟩
      rw [closes]
      refine ⟨rfl, rfl, rfl, rfl, rfl, fun q lt enabled remote job hall waits room => ?_⟩
      have told : v.setter q = s.setter q := setter_of_verdict taken q
      have takes := verdictFinal_setter (w := w) (i := i) calm lt (by rw [told]; exact enabled) (by rw [told]; exact remote)
        (by rw [told, read, mine]; exact job) (by rw [told, read]; exact hall) (by rw [told]; exact waits) (by rw [told]; exact room)
      rw [told] at takes
      exact takes
  case timeout =>
    intro y
    refine ⟨fun idle => ?_, fun dl due => ?_⟩
    · show execVerdictTimeout c j s = _
      unfold execVerdictTimeout
      dsimp only
      rw [idle]
      rfl
    · have read := (regionTimeTo s (regionOfCtl c) dl).adder_setAdder_same (ctxIx c j)
        { y with st := .fault, vhome := { y.vhome with deadline := none } }
      obtain ⟨st, err, ajerr⟩ := adderError_adder (timedOut s (regionOfCtl c) (ctxIx c j) dl) (ctxIx c j) 5 1 0 y.seq.toNat 0
      refine ⟨_, exec_verdictTimeout due, st.trans ?_, err, fun first => ?_, ?_⟩
      · rw [timedOut, read]
      · rw [ajerr (by rw [timedOut, read]; exact first), BitVec.toNat_ofNat]
        omega
      · rw [adderError_region, timedOut, State.setAdder_region, regionTimeTo, State.region_setRegion_same]
        unfold regionOfCtl
        omega

end Sys2Proof.Machine
end
